-- ==== Sys2Proof/CmdTypes.lean ====
section
/-! DEFINITION. The types of the commands' operands. -/

namespace Sys2Proof

/-- Who accesses a register: the host through BAR0, the I3C target, a control core (R11, R470), or a DMA channel that runs outside any
Tenancy (R142), which is no agent and holds no role. -/
inductive Writer where
  | host
  | i3c
  | core (c : CoreId)
  | dma
  deriving DecidableEq, Repr

/-- An event that a unit detects (R406): its code, the level of the issuing unit, UNIT as R521 encodes it, the Tenancy
whose work met it or 0, DETAIL, whether the access behind it ended with DATA_ERROR, and what its discard code or directory
entry address is where the code alone does not say. -/
structure Event where
  code : Nat
  level : Nat := 2
  unit : Nat := 0
  ten : Nat := 0
  detail : Nat := 0
  dataErr : Bool := false
  aux : Nat := 0
  deriving DecidableEq, Repr

end Sys2Proof
end

