-- ==== Sys2Proof/Syntax.lean ====
section
/-! DEFINITION. The commands of the block: one constructor per row of spec/opcode_table.json, in the table's order. A command is a
write or a read of a register, an instruction of a control core or a Block Sequencer, an operation of an engine, a frame or
packet of the fabric, an event of a clock, a pin or a part. Its operands carry what the row's unit sees: registers and values,
device time where the row is an event in time, and what only the physics of a part decides. -/

namespace Sys2Proof

/-- The commands. -/
inductive Instr where
  /-- REG_WRITE (R7): A write to a control register that has no row of its own sets its fields by access code and role, or is
   ignored and logs 0x31. -/
  | regWrite (w : Writer) (off len : Nat) (v : BitVec 64) (now : Nat)
  /-- RING_TRANSFER (R19): A request, response or post crosses the on-package ring along its fixed path, adding 32 fclk per
   hop. -/
  | ringTransfer (a b : Dist) (bit7 : Bool) (retries : List Nat) (now : Nat)
  /-- RING_LINK_RETIRE (R21): A ring link whose retry count reaches RING_N in its window is retired, and its traffic and
   requests in flight move to the other direction. -/
  | ringLinkRetire (l : Fin 4) (now : Nat)
  /-- DISTRICT_UNREACHABLE (R22): Loss of a District's spoke or of its ring connectivity makes a District control fault that
   terminates the chip. -/
  | districtUnreachable (d : Dist) (lost : Bool × List (Fin 4)) (now : Nat)
  /-- TICK_START (R59): At each tick start the device applies pending configuration, swap and substitutions, selects the
   tick's work, switches if needed and writes the Batten. -/
  | tickStart (now : Nat)
  /-- SWITCH_END (R62): When the saves and the restore or zeroing of a switch have finished, the incoming Tenancy is resident
   and its Batten is written. -/
  | switchEnd (now : Nat)
  /-- EARLY_SWITCH_START (R63): With EARLY_SWITCH set, the next tick's switch begins as soon as the running step's flip and
   result records are complete. -/
  | earlySwitchStart (now : Nat)
  /-- STEP_ENTRY (R91): Once the Batten is complete in T1, each participating DCC starts the step code with its entry
   registers, and the step digest is computed. -/
  | stepEntry (now : Nat)
  /-- EAVE_START (R43): From PERIOD_US minus EAVE_US after the tick start, no array pass starts. -/
  | eaveStart (now : Nat)
  /-- STEP_DEADLINE (R66): A step not ended at its deadline is in overrun, logs 0x43 and follows its OVERRUN_POLICY, or is
   abandoned at MAX_OVERRUNS. -/
  | stepDeadline (now : Nat)
  /-- SUSPEND_POINT (R65): When every unit of a step has stopped at its suspend point, the step becomes SUSPENDED. -/
  | suspendPoint (now : Nat)
  /-- TICK_CTRL_WRITE (R44): A write to TICK_CTRL starts or stops the tick generator or changes the alignment mode, or is
   ignored whole with 0x40. -/
  | tickCtrlWrite (w : Writer) (v : BitVec 32) (now : Nat)
  /-- TICK_CONFIG_WRITE (R41): A TICK_CONFIG write is accepted for the next tick start only when its period and Eave are
   legal, and is otherwise ignored with 0x40. -/
  | tickConfigWrite (w : Writer) (v : BitVec 32) (now : Nat)
  /-- ALIGN_CONFIG_WRITE (R46): An ALIGN_CONFIG write is accepted whole or is ignored with 0x40. -/
  | alignConfigWrite (w : Writer) (v : BitVec 64) (now : Nat)
  /-- TIME_EXCHANGE_SEND (R47): In FABRIC mode the follower sends TIME_REQ on SYNC_PORT 100 us after each tick start. -/
  | timeExchangeSend (now : Nat)
  /-- TIME_EXCHANGE_VOID (R47): A time exchange not completed within 50 us is void. -/
  | timeExchangeVoid (now : Nat)
  /-- TICK_IN_EDGE (R48): A filtered TICK_IN edge in PIN mode gives the reference tick start, and the device corrects its
   offset by slew or step. -/
  | tickInEdge (now : Nat)
  /-- HOLDOVER_LOST (R49): After HOLDOVER_TICKS ticks without a valid reference, LOST is set and 0x42 is logged. -/
  | holdoverLost
  /-- CREATE (R51): CREATE reads and checks a Tenancy descriptor and mask, builds the Block map and region headers, or fails
   with a result code. -/
  | create (w : Writer) (t : TenId) (now : Nat)
  /-- DESTROY (R56): DESTROY sets a running Tenancy DRAINING, or tears down any other Tenancy at once. -/
  | destroy (w : Writer) (t : TenId) (now : Nat)
  /-- URGENT (R64): URGENT latches one urgent step for a Tenancy and suspends the running step, or completes with an error
   result. -/
  | urgent (w : Writer) (t : TenId) (now : Nat)
  /-- TEN_CMD_INVALID_OP (R524): A TEN_CMD write with an unlisted OP completes with BAD_DESCRIPTOR and changes nothing else.
   -/
  | tenCmdInvalidOp (w : Writer) (op : Fin 16) (t : TenId) (now : Nat)
  /-- TEN_CMD_COMPLETE (R524): A Tenancy command completes, writes RESULT and TENANCY, and clears BUSY. -/
  | tenCmdComplete (now : Nat)
  /-- TEARDOWN (R56): When a DRAINING Tenancy's step ends or is abandoned, its resources are zeroed and released, and BUSY
   clears. -/
  | teardown (now : Nat)
  /-- SWAP (R57): A write of SWAP requests that the inactive schedule bank become active at the next tick start. -/
  | swap (w : Writer) (v : BitVec 32) (now : Nat)
  /-- ALU (R83): A Rinuno ALU instruction computes the FUNC-selected arithmetic, logic, shift, multiply, divide or bit
   operation. It is given with the opcode and FUNC of its word; a word whose opcode, or whose function of SYS or EVC, is reserved (R82) is
   given here too, and raises ILLEGAL_INSTR. -/
  | alu (c : CoreId) (rd ra rb : Fin 32) (w : BitVec 6 × BitVec 11)
  /-- ADDI (R82): ADDI adds the sign-extended immediate to ra. -/
  | addi (c : CoreId) (rd ra : Fin 32) (imm : BitVec 16)
  /-- ANDI (R82): ANDI ands ra with the zero-extended immediate. -/
  | andi (c : CoreId) (rd ra : Fin 32) (imm : BitVec 16)
  /-- ORI (R82): ORI ors ra with the zero-extended immediate. -/
  | ori (c : CoreId) (rd ra : Fin 32) (imm : BitVec 16)
  /-- XORI (R82): XORI xors ra with the zero-extended immediate. -/
  | xori (c : CoreId) (rd ra : Fin 32) (imm : BitVec 16)
  /-- SLTI (R82): SLTI sets rd when ra is below the immediate as signed values. -/
  | slti (c : CoreId) (rd ra : Fin 32) (imm : BitVec 16)
  /-- SLTIU (R82): SLTIU sets rd when ra is below the sign-extended immediate compared unsigned. -/
  | sltiu (c : CoreId) (rd ra : Fin 32) (imm : BitVec 16)
  /-- SHIFTI (R82): SHIFTI shifts ra left, right or arithmetically right by an immediate amount. -/
  | shifti (c : CoreId) (rd ra : Fin 32) (imm : BitVec 16)
  /-- LUI (R82): LUI loads the immediate shifted left by 16 and sign-extended. -/
  | lui (c : CoreId) (rd ra : Fin 32) (imm : BitVec 16)
  /-- INSK (R82): INSK inserts the immediate into one 16-bit field of rd. -/
  | insk (c : CoreId) (rd ra : Fin 32) (imm : BitVec 16)
  /-- LOAD (R87): LDB to LDD load 1 to 8 bytes after the alignment and access checks, raising an exception on error or
   returning zero on FENCED. -/
  | load (c : CoreId) (op : Fin 7) (rd ra : Fin 32) (imm : BitVec 16) (ecc : Fin 3) (now : Nat)
  /-- STORE (R86): STB to STD post a store of 1 to 8 bytes, which retires before it completes. -/
  | store (c : CoreId) (sz : Fin 4) (rd ra : Fin 32) (imm : BitVec 16) (ecc : Fin 3) (now : Nat)
  /-- AMO (R82): AMO performs a 32-bit or 64-bit atomic operation at ra with operand rb and returns the old value. -/
  | amo (c : CoreId) (rd ra rb : Fin 32) (func : BitVec 11) (now : Nat)
  /-- CORE_ACCESS_COMPLETE (R87): A load, atomic or posted store of a control core completes, and a failure or FENCED result
   is recorded in ERRSTAT. -/
  | coreAccessComplete (c : CoreId) (n : Nat) (now : Nat)
  /-- BRANCH (R82): BEQ to BGEU branch by a signed word offset when ra compares to rb as named. `wrong` is the wrong path should the
   predictor have been wrong (R88): how many instructions executed, and the lines that its loads and its fetches asked for. -/
  | branch (c : CoreId) (cc : Fin 6) (ra rb : Fin 32) (off : BitVec 16) (wrong : Fin 25 × List Nat × List Nat)
  /-- JAL (R82): JAL writes the return address to g31 and jumps. -/
  | jal (c : CoreId) (j : BitVec 26 × Fin 25 × List Nat × List Nat)
  /-- JALR (R85): JALR writes the return address to rd and jumps to ra plus the immediate. -/
  | jalr (c : CoreId) (rd ra : Fin 32) (j : BitVec 16 × Fin 25 × List Nat × List Nat)
  /-- SYSCALL (R76): SYSCALL at L0 enters the L1 service runtime, which serves the call named in g10 and returns with SRET. -/
  | syscall (c : CoreId) (rd ra rb : Fin 32)
  /-- SRET (R76): SRET restores LEVEL and IE from PREV_LEVEL and PREV_IE and resumes at EPC. -/
  | sret (c : CoreId) (rd ra rb : Fin 32)
  /-- FENCE (R86): FENCE stalls the core until every earlier load, store, atomic, CACHE and ENQ of the core has completed. -/
  | fence (c : CoreId) (rd ra rb : Fin 32)
  /-- WFI (R91): WFI waits until an interrupt or the next step entry. -/
  | wfi (c : CoreId) (rd ra rb : Fin 32)
  /-- STEPEND (R92): STEPEND fences and asks for commit or for discard with a discard code. -/
  | stepend (c : CoreId) (rd ra rb : Fin 32)
  /-- BREAK (R77): BREAK raises the BREAK exception, which is a debug stop under HALT_REQ or a program fault otherwise. -/
  | brk (c : CoreId) (rd ra rb : Fin 32)
  /-- CSRR (R75): CSRR reads a core control register into rd. -/
  | csrr (c : CoreId) (rd ra : Fin 32) (imm : BitVec 16)
  /-- CSRW (R75): CSRW writes a core control register, or raises ILLEGAL_INSTR when it is read-only at the level. -/
  | csrw (c : CoreId) (rd ra : Fin 32) (imm : BitVec 16)
  /-- CSRX (R75): CSRX swaps rd and a core control register in one step. -/
  | csrx (c : CoreId) (rd ra : Fin 32) (imm : BitVec 16)
  /-- CACHE (R72): CACHE cleans, invalidates, or cleans and invalidates a data cache line, or invalidates an instruction
   cache line. -/
  | cache (c : CoreId) (rd ra : Fin 32) (imm : BitVec 16) (bad : Bool) (now : Nat)
  /-- ENQ (R96): ENQ issues up to rb entries to a command queue or engine queue without stalling and returns the number
   accepted. -/
  | enq (c : CoreId) (rd ra rb : Fin 32) (func : BitVec 11) (now : Nat)
  /-- EVRD (R82): EVRD reads an event counter into rd. -/
  | evrd (c : CoreId) (rd ra : Fin 32)
  /-- EVADD (R103): EVADD adds rb to an event counter, saturating. -/
  | evadd (c : CoreId) (ra rb : Fin 32)
  /-- EVWAIT (R103): EVWAIT stalls until an event counter reaches rb. -/
  | evwait (c : CoreId) (ra rb : Fin 32)
  /-- INTERRUPT_TAKE (R76): A core takes a raised interrupt request at an instruction boundary and enters L1. -/
  | interruptTake (c : CoreId)
  /-- STEP_END (R91): When every STEPEND has retired and every queue, inbox, program, engine request and collective has
   finished, the step ends and the DCC caches write back. -/
  | stepEnd (now : Nat)
  /-- COMMIT_FLIP (R286): The commit flip writes the committed pointer to the Batten and then to every region table header. -/
  | commitFlip (now : Nat)
  /-- NVME_FLUSH (R295): With FLUSH_AT_COMMIT, the flash port sends Flush to each drive that the step wrote without FUA once
   its writes have completed. -/
  | nvmeFlush (t : TenId) (now : Nat)
  /-- DISPATCH_ENTRY (R101): Each cclk the dispatcher checks and delivers at most one eligible command queue entry, or
   completes a NOP or SIGNAL. -/
  | dispatchEntry (d : Dist)
  /-- INBOX_ARRIVE (R102): A delivered entry reaches its Block's inbox 8 cclk after delivery. -/
  | inboxArrive (b : BlockId)
  /-- BLOCK_PROGRAM_START (R109): The Block Sequencer starts the inbox head entry, loads its start registers and runs from
   PROG_ADDR. -/
  | blockProgramStart (b : BlockId)
  /-- CORE_HALT_REQ (R75): A write of HALT_REQ or RUN in CORE_CTRL halts a control core at its next instruction boundary or
   holds it in reset. -/
  | coreHaltReq (w : Writer) (c : CoreId) (v : BitVec 32) (now : Nat)
  /-- MM (R125): MM issues one array pass of the given shape and formats, or ends the program on an illegal combination. -/
  | mm (b : BlockId) (shape fa fb : Fin 16) (acc : Fin 64) (accum shingle z : Bool) (sa sb sd : Fin 32) (ia ib : BitVec 12)
  /-- PASS_END (R152): A Block pass gives its checksum verdict and ends, and local source 4 becomes pending. -/
  | passEnd (b : BlockId) (late : List Nat) (bad : Option (Option (Fin 32)))
  /-- VX_ARITH (R127): VX ADD, SUB, MUL, FMA, MIN, MAX, ABS and NEG compute lane-wise arithmetic under the mask. A
  word of class VX whose OP is not listed is given here too. -/
  | vxArith (b : BlockId) (op : Fin 256) (ty mask : Fin 8) (vd va vb vc : Fin 32)
  /-- VX_FUNCTION (R128): VX EXP to COS apply a correctly rounded function lane-wise. -/
  | vxFunction (b : BlockId) (op : Fin 11) (ty mask : Fin 8) (vd va : Fin 32)
  /-- VX_CMP (R127): CMP writes a mask register from a lane-wise comparison. -/
  | vxCmp (b : BlockId) (ty mask : Fin 8) (vd va vb : Fin 32) (imm : BitVec 26)
  /-- VX_MOV (R127): MOV copies a vector register. -/
  | vxMov (b : BlockId) (ty mask : Fin 8) (vd va : Fin 32)
  /-- RSUM (R127): RSUM writes the pairwise-tree sum of the lanes to every lane. -/
  | rsum (b : BlockId) (ty mask : Fin 8) (vd va : Fin 32)
  /-- RMAX_RMIN (R127): RMAX and RMIN write the largest or smallest lane to every lane. -/
  | rmaxRmin (b : BlockId) (least : Bool) (ty mask : Fin 8) (vd va : Fin 32)
  /-- RARGMAX (R127): RARGMAX writes the index of the first maximal lane. -/
  | rargmax (b : BlockId) (ty mask : Fin 8) (vd va : Fin 32)
  /-- SORT (R127): SORT stably sorts FP32 lanes in descending order and writes their original indices, occupying the vector
   unit for 64 cclk. -/
  | sort (b : BlockId) (ty mask : Fin 8) (vd va vc : Fin 32)
  /-- VX_LD (R127): VX LD loads 256 B from the scratchpad or accumulator into a vector register. -/
  | vxLd (b : BlockId) (ty mask : Fin 8) (vd vc : Fin 32) (imm : BitVec 26)
  /-- VX_ST (R127): VX ST stores a vector register to the scratchpad under the mask. -/
  | vxSt (b : BlockId) (ty mask : Fin 8) (vd vc : Fin 32) (imm : BitVec 26)
  /-- BCAST (R127): BCAST broadcasts a scalar register into every lane. -/
  | bcast (b : BlockId) (ty mask : Fin 8) (vd vc : Fin 32)
  /-- MOVS (R127): MOVS moves one lane into a scalar register. -/
  | movs (b : BlockId) (ty : Fin 8) (vd va : Fin 32) (imm : BitVec 26)
  /-- PERM (R127): PERM permutes lanes by indices held in a vector register. -/
  | perm (b : BlockId) (ty mask : Fin 8) (vd va vb : Fin 32)
  /-- CVT (R127): CVT converts lanes to or from an array format with round to nearest even and saturation. -/
  | cvt (b : BlockId) (ty mask : Fin 8) (vd va : Fin 32) (imm : BitVec 26)
  /-- MXQ (R127): MXQ computes E8M0 scales per 32 lanes and packs the lanes into an MX format. -/
  | mxq (b : BlockId) (ty mask : Fin 8) (vd va vb : Fin 32) (imm : BitVec 26)
  /-- AXPY (R127): AXPY adds va times a scalar to vd. -/
  | axpy (b : BlockId) (ty mask : Fin 8) (vd va vc : Fin 32)
  /-- RAND (R129): RAND writes 64 counter-based uniform values derived from the step seed, logical Block, scalar and lane. -/
  | rand (b : BlockId) (ty mask : Fin 8) (vd vc : Fin 32)
  /-- DM_GO (R134): DM.GO issues a 64 B DMA descriptor on a tag after the descriptor checks. -/
  | dmGo (b : BlockId) (sa : Fin 32) (n : Fin 16) (z : Bool) (imm : BitVec 32)
  /-- DM_WAIT (R131): DM.WAIT stalls until every named tag is free. -/
  | dmWait (b : BlockId) (z : Bool) (imm : BitVec 32)
  /-- DM_STAT (R131): DM.STAT returns the bytes completed and status of a tag. -/
  | dmStat (b : BlockId) (sd : Fin 32) (n : Fin 16) (z : Bool)
  /-- DM_PART (R117): DM.PART defines a ring partition after checking it, waiting for any ring transfer that uses it. -/
  | dmPart (b : BlockId) (sa sb : Fin 32) (n : Fin 16) (z : Bool)
  /-- DM_RAVAIL (R131): DM.RAVAIL returns AVAIL of a partition. -/
  | dmRavail (b : BlockId) (sd : Fin 32) (n : Fin 16) (z : Bool)
  /-- DM_RWAIT (R131): DM.RWAIT stalls until AVAIL reaches the immediate or no ring transfer to the partition remains. -/
  | dmRwait (b : BlockId) (n : Fin 16) (z : Bool) (imm : BitVec 32)
  /-- DM_REL (R141): DM.REL advances the read count of a partition, limited to AVAIL with 0x65. -/
  | dmRel (b : BlockId) (n : Fin 16) (z : Bool) (imm : BitVec 32)
  /-- DMA_COPY (R133): A COPY descriptor moves rows from source to destination with strides. -/
  | dmaCopy (id n now : Nat)
  /-- DMA_SKEW (R135): A SKEW descriptor writes source rows into the skewed lane layout. -/
  | dmaSkew (id n now : Nat)
  /-- DMA_GATHER (R133): A GATHER descriptor moves rows selected by an index list, or scatters them. -/
  | dmaGather (id n now : Nat)
  /-- DMA_DISPATCH (R201): A DISPATCH descriptor moves token rows in dispatch-list order, or scatters them back to their own
   rows. -/
  | dmaDispatch (id n now : Nat)
  /-- DMA_FILL (R133): A FILL descriptor writes a repeated 64-bit pattern. -/
  | dmaFill (id n now : Nat)
  /-- DMA_READ_ISSUE (R143): A DMA channel issues a read once it has reserved pool space for the whole response. -/
  | dmaReadIssue (d : Dist) (c : Fin 64) (n : Nat) (now : Nat)
  /-- RING_UNIT_WRITE (R140): A ring-mode producer writes a 128 B unit once AVAIL plus 128 fits the partition. -/
  | ringUnitWrite (id now : Nat)
  /-- DMA_DESCRIPTOR_COMPLETE (R138): A descriptor completes with its status, frees its tag, and sends its post and
   interrupt. -/
  | dmaDescriptorComplete (id now : Nat)
  /-- SY_POST (R144): SY.POST adds a value to a post counter of a logical Block. -/
  | syPost (b : BlockId) (sb : Fin 32) (blk : Fin 1024) (useReg : Bool) (ctr : Fin 16) (z : Fin 8) (value : BitVec 24)
  /-- SY_POSTF (R144): SY.POSTF posts only after every earlier write of the Block has completed. -/
  | syPostf (b : BlockId) (sb : Fin 32) (blk : Fin 1024) (useReg : Bool) (ctr : Fin 16) (z : Fin 8) (value : BitVec 24)
  /-- SY_WAIT (R145): SY.WAIT stalls until the Block's own post counter reaches the value. -/
  | syWait (b : BlockId) (ctr : Fin 16) (z : Fin 8) (value : BitVec 24)
  /-- SY_RDC (R144): SY.RDC reads the Block's own post counter. -/
  | syRdc (b : BlockId) (sd : Fin 32) (ctr : Fin 16) (z : Fin 8)
  /-- POST_ARRIVE (R145): A post reaches its target Block's counter, or is dropped with 0x64 when the logical ID is
   unassigned. -/
  | postArrive (n : Nat)
  /-- CT_ALU (R146): CT ADD to MAX compute a scalar operation on two scalar registers. It is given with the class and opcode of its
  word; a word whose class or opcode is reserved (R118) is given here too, and ends the program with 0x60. -/
  | ctAlu (b : BlockId) (w : Fin 16 × Fin 256) (sd sa sb : Fin 32) (z : Fin 32)
  /-- CT_ADDI (R146): CT ADDI adds an immediate to a scalar register. -/
  | ctAddi (b : BlockId) (sd sa : Fin 32) (z : Fin 32) (imm : BitVec 32)
  /-- CT_LI (R146): CT LI loads an immediate. -/
  | ctLi (b : BlockId) (sd : Fin 32) (z : Fin 32) (imm : BitVec 32)
  /-- CT_LIH (R146): CT LIH loads the upper 32 bits of a scalar register. -/
  | ctLih (b : BlockId) (sd : Fin 32) (z : Fin 32) (imm : BitVec 32)
  /-- CT_LD (R146): CT LD loads 8 B from the scratchpad or accumulator. -/
  | ctLd (b : BlockId) (sd sa : Fin 32) (z : Fin 32) (imm : BitVec 32)
  /-- CT_ST (R146): CT ST stores 8 B to the scratchpad or accumulator. -/
  | ctSt (b : BlockId) (sa sb : Fin 32) (z : Fin 32) (imm : BitVec 32)
  /-- CT_BRANCH (R146): CT BEQ to BGEU branch when two scalar registers compare as named. -/
  | ctBranch (b : BlockId) (cc : Fin 6) (sa sb : Fin 32) (z : Fin 32) (imm : BitVec 32)
  /-- CT_J (R146): CT J jumps by an immediate offset. -/
  | ctJ (b : BlockId) (z : Fin 32) (imm : BitVec 32)
  /-- CT_JR (R146): CT JR jumps to a register plus an immediate. -/
  | ctJr (b : BlockId) (sa : Fin 32) (z : Fin 32) (imm : BitVec 32)
  /-- CT_END (R113): CT.END waits for the program's passes, descriptors and posts, then completes its Command List entry. -/
  | ctEnd (b : BlockId) (z : Fin 32)
  /-- CT_IRET (R146): CT IRET sets IE and returns to EPC. -/
  | ctIret (b : BlockId) (z : Fin 32)
  /-- CT_SETV (R146): CT SETV sets a local interrupt vector. -/
  | ctSetv (b : BlockId) (sa : Fin 32) (z : Fin 32) (imm : BitVec 32)
  /-- CT_IEN (R146): CT IEN sets the local interrupt enables. -/
  | ctIen (b : BlockId) (z : Fin 32) (imm : BitVec 32)
  /-- CT_ICLR (R130): CT ICLR clears pending bits and optionally the VX sticky flags. -/
  | ctIclr (b : BlockId) (z : Fin 32) (imm : BitVec 32)
  /-- CT_IE (R146): CT IE sets or clears IE. -/
  | ctIe (b : BlockId) (z : Fin 32) (imm : BitVec 32)
  /-- CT_TSET (R146): CT TSET loads or stops the Block timer. -/
  | ctTset (b : BlockId) (z : Fin 32) (imm : BitVec 32)
  /-- CT_RDS (R146): CT RDS reads a Sequencer status item. -/
  | ctRds (b : BlockId) (sd : Fin 32) (z : Fin 32) (imm : BitVec 32)
  /-- BLOCK_TIMER_ZERO (R147): The Block timer reaches zero and local source 8 becomes pending. -/
  | blockTimerZero (b : BlockId)
  /-- LOCAL_INTERRUPT_ENTRY (R148): At an instruction boundary with IE set, the Sequencer enters the vector of the lowest
   pending enabled source. -/
  | localInterruptEntry (b : BlockId)
  /-- BLK_SOFT_INT (R147): A write of RAISE to BLK_SOFT_INT makes local source 9 pending. -/
  | blkSoftInt (w : Writer) (b : BlockId) (v : BitVec 32) (now : Nat)
  /-- BLK_HALT_REQ (R175): A write of HALT_REQ in BLK_CTRL halts the Sequencer after the pass in flight. -/
  | blkHaltReq (w : Writer) (b : BlockId) (v : BitVec 32) (now : Nat)
  /-- GA_LIST_FETCH (R159): The Great Array reads published list entries ahead of issue while the fetch index is below the
   feed counter. -/
  | gaListFetch (d : Dist) (now : Nat)
  /-- GA_PASS (R156): A PASS list entry issues a Great Array pass once its wait and the array allow. -/
  | gaPass (d : Dist) (now : Nat)
  /-- GA_CONVERT (R162): A CONVERT list entry rounds accumulator rows to an output format in the operand buffer. -/
  | gaConvert (d : Dist) (now : Nat)
  /-- GA_NOP (R160): A NOP list entry completes once its wait is met. -/
  | gaNop (d : Dist) (now : Nat)
  /-- GA_PASS_END (R156): A Great Array pass gives its checksum verdict, ends and applies its SIG_EN. -/
  | gaPassEnd (d : Dist) (late : List Nat) (bad : Option (Option (Fin 256))) (now : Nat)
  /-- GA_CONVERT_END (R162): A CONVERT ends LEN plus 32 cclk after it starts and applies its SIG_EN. -/
  | gaConvertEnd (d : Dist) (now : Nat)
  /-- GA_HALT_REQ (R175): A write of HALT_REQ in GA_CTRL stops issue after the pass and CONVERT in flight. -/
  | gaHaltReq (w : Writer) (d : Dist) (v : BitVec 32) (now : Nat)
  /-- ROUTE (R185): A ROUTE job selects k experts per token, applies capacity and overflow, predicts overrun, and writes the
   demand, dispatch and result lists. -/
  | route (d : Dist) (now : Nat)
  /-- ROUTE_CHUNK_SELECT (R186): The engine selects a chunk of tokens once READY_EVC marks the chunk ready, and raises
   FREE_EVC when it has read its scores. -/
  | routeChunkSelect (d : Dist) (now : Nat)
  /-- NEURON (R208): A NEURON job estimates active neuron clusters per demanded expert, writes masks into the demand entries
   and may publish them. -/
  | neuron (d : Dist) (now : Nat)
  /-- RE_GATHER (R211): A GATHER job sorts and deduplicates lookup IDs, then reads each distinct row once. -/
  | reGather (d : Dist) (now : Nat)
  /-- GATHER_ROW_READ (R211): The engine issues a row read once its response is reserved in the response buffer, and a failed
   read zeroes the row and makes the job PARTIAL. -/
  | gatherRowRead (d : Dist) (now : Nat)
  /-- GATHER_POOL (R212): After every row read has ended, the engine pools the bags in fixed order and checks the offsets. -/
  | gatherPool (d : Dist) (now : Nat)
  /-- RE_NOP (R180): A NOP Routing Engine job completes one cclk after it starts, raising JOB_EVC and its interrupt. -/
  | reNop (d : Dist) (now : Nat)
  /-- RE_JOB_COMPLETE (R180): A job writes its result record, raises JOB_EVC and its interrupt, and the next job may start. -/
  | reJobComplete (d : Dist) (now : Nat)
  /-- EXPERT_ENTRY_WRITE (R196): The engine writes an expert's EXPERT entries to CQ0 once its dispatch entries have completed
   and CQ0 has room. -/
  | expertEntryWrite (d : Dist) (now : Nat)
  /-- BIND (R228): BIND records a layer's directory, placement table and expert count for the step. -/
  | bind (d : Dist) (now : Nat)
  /-- LOAD_EXPERT (R241): LOAD fetches an expert whole into a copy, a kept copy, or the Great Array operand buffer, without
   raising an arrival counter. -/
  | loadExpert (d : Dist) (now : Nat)
  /-- PREFETCH (R228): PREFETCH fetches each listed expert whole unless a copy is present, writing no placement entry. -/
  | prefetch (d : Dist) (now : Nat)
  /-- RELEASE_KEEP (R228): RELEASE clears KEEP on an expert's copy. -/
  | releaseKeep (d : Dist) (now : Nat)
  /-- RM_NOP (R228): A NOP Residency Manager job completes at once. -/
  | rmNop (d : Dist) (now : Nat)
  /-- DEMAND_ENTRY (R230): The Residency Manager serves one demand entry per 8 cclk: it reads the directory, forms the wanted
   set, looks up or allocates a copy, and fetches what is missing. -/
  | demandEntry (d : Dist) (now : Nat)
  /-- FETCH_REQUEST_ISSUE (R237): The Residency Manager issues one fetch request per cclk round-robin, once its destination
   lots are allocated. -/
  | fetchRequestIssue (d : Dist) (f now : Nat)
  /-- ARRIVAL_RAISE (R198): Once every wanted cluster is present and the placement write has completed, the expert's arrival
   counter is raised in demand order. -/
  | arrivalRaise (d : Dist) (now : Nat)
  /-- T1_REQUEST (R260): An HBM4 controller serves a T1 request, correcting or reporting ECC errors and writing corrected
   words back. -/
  | t1Request (t : TenId) (wr : Bool) (a n : Nat) (data : List (BitVec 8)) (err : Fin 3) (now : Nat)
  /-- T2_REQUEST (R268): A T2 controller serves a request with link retry, mirror handling and Thatch decoding. -/
  | t2Request (t : TenId) (wr : Bool) (a n : Nat) (data : List (BitVec 8)) (err : Fin 5) (now : Nat)
  /-- IDLE_SCRUB (R258): In idle cycles each controller reads every line once in 24 hours and rewrites lines with corrected
   errors. -/
  | idleScrub (a : Nat) (err : Fin 3) (now : Nat)
  /-- HBM_TEMP_READ (R261): Every 1 ms the controller reads stack temperature and on-die error counts, setting HOT or CRIT. -/
  | hbmTempRead (k : Fin 8) (temp corrected now : Nat)
  /-- ROW_REPAIR (R262): A row reaching ROW_CE corrected errors in its window is repaired by soft post-package repair within
   10 us. -/
  | rowRepair (k : Fin 8) (pc : Fin 64) (row : Nat) (spare : Bool) (now : Nat)
  /-- SLOT_MIGRATION_END (R264): The migration of a retired slot ends, MIGRATING falls, and the next decided slot begins
   migrating. -/
  | slotMigrationEnd (now : Nat)
  /-- T2_RANGE_BASE_WRITE (R269): A write of T2_RANGE_BASE is checked with the held LEN and accepted whole or ignored with
   0xAA. -/
  | t2RangeBaseWrite (w : Writer) (r : Fin 16) (v : BitVec 64) (now : Nat)
  /-- RESYNC_END (R271): The copy of a newly mirrored range finishes filling, and RESYNC falls. -/
  | resyncEnd (r : Fin 16) (now : Nat)
  /-- POWER_FAIL (R290): POWER_FAIL_N asserting stops new work, drains Retained writes and places T2 in self-refresh within
   1.5 ms. -/
  | powerFail (done : Bool) (now : Nat)
  /-- T3_REQUEST (R294): The flash port maps a T3 read or write to drives and issues NVMe commands, refusing writes that are
   not whole LBAs. -/
  | t3Request (t : TenId) (wr : Bool) (a n : Nat) (data : List (BitVec 8)) (now : Nat)
  /-- NVME_COMPLETION (R296): A drive posts a completion, which ends the request with OK, DATA_ERROR or IO_ERROR. -/
  | nvmeCompletion (id : Nat) (nvme : Fin 32768) (landed : Bool) (now : Nat)
  /-- NVME_TIMEOUT (R296): A command not completed within TIMEOUT_MS ends with IO_ERROR, and three timeouts within 1 s reset
   the drive's controller. -/
  | nvmeTimeout (id : Nat) (landed : Bool) (now : Nat)
  /-- DRIVE_FAILED (R296): A drive that fails its reset, or whose link stays down for 1 s, is marked FAILED with 0xA9. -/
  | driveFailed (d : Fin 8) (now : Nat)
  /-- TRIM (R297): A nonzero write of FL_TRIM_CTL.PAGES starts deallocation by Dataset Management across the covered drives.
   -/
  | trim (w : Writer) (pages : BitVec 32) (now : Nat)
  /-- TRIM_DONE (R297): Deallocation ends, BUSY falls and ERR records any NVMe error. -/
  | trimDone (cpl : Fin 8 × Fin 32768) (now : Nat)
  /-- SHAPER_ISSUE (R299): A queued tier request issues once its bucket count is zero or more, and the count falls by its
   bytes. -/
  | shaperIssue (set : Fin 64) (q : Fin 3) (now : Nat)
  /-- SHAPER_REFILL (R299): Every 62.5 ns each bucket gains a sixteenth of RATE, held at BURST. -/
  | shaperRefill (now : Nat)
  /-- SHP_CFG_WRITE (R300): A SHP_CFG write sets the count full or zero and applies the new RATE and BURST. -/
  | shpCfgWrite (w : Writer) (t : TenId) (q : Fin 3) (v : BitVec 64) (now : Nat)
  /-- SHAPER_SAMPLE (R301): Every SAMPLE_US each queue's depth is recorded and its interval peaks are reset. -/
  | shaperSample (opm : Bool) (now : Nat)
  /-- FRAME_SEND (R305): A port sends the next frame, with packets, credits and ACK, or an idle frame. -/
  | frameSend (p : PortId) (now : Nat)
  /-- FRAME_RECEIVE (R307): A received frame is decoded and accepted in sequence, or discarded with NAK, and ACKs free the
   replay buffer. -/
  | frameReceive (p : PortId) (err : Fin 545) (ctl : BitVec 20) (slots : List (BitVec 256)) (now : Nat)
  /-- NAK_REPEAT (R307): A receiver repeats NAK when no resent frame arrives within 1 us. -/
  | nakRepeat (p : PortId) (now : Nat)
  /-- PORT_DOWN (R308): A port that loses lock, frames or replay progress goes DOWN, reroutes or discards its packets, and
   trains again. -/
  | portDown (p : PortId) (reason : Fin 5) (now : Nat)
  /-- PORT_TRAIN (R309): A port runs full training or quick retrain, exchanges parameters, loads credits and becomes ACTIVE.
   -/
  | portTrain (p : PortId) (quickOk : Bool) (nbrId : BitVec 16) (nbrPort : PortId) (token : W64) (ver : Byte) (lanes : Byte × BitVec 4) (theirGood : BitVec 4) (theirMax : Fin 3) (theirVc : W64) (now : Nat)
  /-- RETRAIN (R311): A write of RETRAIN, or a lane check, makes an ACTIVE port send RETRAIN_REQ and retrain. -/
  | retrain (w : Writer) (lanes : Bool) (p : PortId) (v : BitVec 32) (now : Nat)
  /-- RETRAIN_REQ (R314): A received RETRAIN_REQ starts training within 1 us, with overlapping requests resolved by the
   leader. -/
  | retrainReq (p : PortId) (now : Nat)
  /-- WIDTH_REQ (R315): A received WIDTH_REQ is answered with WIDTH_ACK naming the width and SWITCH_FSEQ. -/
  | widthReq (p : PortId)
  /-- WIDTH_ACK (R315): A received WIDTH_ACK sets the width change at the frame that carries SWITCH_FSEQ. -/
  | widthAck (p : PortId)
  /-- LANE_NOT_GOOD (R312): A lane whose error ratio exceeds the limit over 1 s is marked not good and the port narrows,
   retiring the lane at LANE_N. -/
  | laneNotGood (p : PortId) (lane : Fin 4)
  /-- PORT_RETIRE (R312): A port that cannot train at width 1 or reaches LINKDOWN_N is retired and excluded from routes. -/
  | portRetire (p : PortId)
  /-- VERSION (R317): A VERSION link packet announces a new protocol version, is answered, and both ends switch to the lower
   version. -/
  | version (p : PortId)
  /-- CREDIT (R327): A CREDIT link packet returns freed slots to the sender's per-VC and shared credits. -/
  | credit (p : PortId)
  /-- PACKET_ARRIVE (R331): An arriving packet is checked, routed by its epoch's table and queued for an output, or delivered
   locally after its end-to-end check. -/
  | packetArrive (p : PortId) (shared : Bool) (now : Nat)
  /-- PACKET_GRANT (R329): An output arbiter grants a packet whose credits, header and shaper allow it, and it enters the
   link. -/
  | packetGrant (p : PortId) (n : Nat) (now : Nat)
  /-- RESIDENCE_TIMEOUT (R334): A packet held in a device beyond RESIDENCE_US is discarded with 0xB5. -/
  | residenceTimeout (n : Nat) (now : Nat)
  /-- E2E_RETRY (R341): A VC1 request without a response RETRY_US after an attempt is resent, or completes with
   FABRIC_TIMEOUT after RETRY_MAX. -/
  | e2eRetry (n : Nat) (now : Nat)
  /-- RECORD_EXPIRY (R342): A completion record of a non-idempotent request expires after TAG_HOLD_US, freeing room for
   waiting requests. -/
  | recordExpiry (n : Nat) (now : Nat)
  /-- EPOCH_COMMIT (R336): A write of COMMIT0 or COMMIT1 sets READY of that route table. -/
  | epochCommit (w : Writer) (e : Fin 2) (now : Nat)
  /-- SRC_EPOCH_WRITE (R336): A write of SRC_EPOCH selects the epoch stamped on sent packets, or is ignored when that table
   is not READY. -/
  | srcEpochWrite (w : Writer) (e : Fin 2) (now : Nat)
  /-- ROUTE_TABLE_WRITE (R336): A write to a route table entry clears its READY, or is ignored with 0xB9 when the table is
   LIVE and READY. -/
  | routeTableWrite (w : Writer) (e : Fin 2) (k : Fin 128) (v : BitVec 64) (now : Nat)
  /-- EPOCH_LIVE_CLEAR (R336): EPOCH_HOLD_US after the epoch moves away and with no packets in flight, the old table stops
   being LIVE. -/
  | epochLiveClear (e : Fin 2) (now : Nat)
  /-- TRANSIT (R344): A write of TRANSIT places the device in Transit, or is ignored while a Tenancy exists. -/
  | transit (w : Writer) (on : Bool) (now : Nat)
  /-- READ (R358): A received READ is checked and served, or joins or opens a combining entry. -/
  | read (n : Nat) (now : Nat)
  /-- WRITE (R358): A received WRITE is checked, executed once under the record rule, and answered with COMPLETE. -/
  | write (n : Nat) (now : Nat)
  /-- ATOMIC (R359): A received ATOMIC_SWAP to ATOMIC_CAS executes once at the target line, possibly folded with combinable
   atomics, and returns the old value. -/
  | atomic (n : Nat) (now : Nat)
  /-- READ_DATA (R361): A READ_DATA response places its payload by offset, and the READ completes when every byte has
   arrived. -/
  | readData (n : Nat) (now : Nat)
  /-- COMPLETE (R361): A COMPLETE response ends a WRITE or a failed request with its status. -/
  | complete (n : Nat) (now : Nat)
  /-- ATOMIC_DATA (R361): An ATOMIC_DATA response returns an atomic's old value and completes it. -/
  | atomicData (n : Nat) (now : Nat)
  /-- COMBINE_HOLD_END (R366): After HOLD_NS and once the replication store has room, a combining entry issues its one memory
   read. -/
  | combineHoldEnd (id : Nat) (now : Nat)
  /-- COMBINE_REPLY (R366): When a combining entry's data arrives, the switch queues one response per member and frees the
   entry once every copy is granted. -/
  | combineReply (id : Nat)
  /-- PUT (R398): A received PUT is checked, written to the export region and counted in its stream. -/
  | put (n : Nat) (now : Nat)
  /-- PUT_END (R397): A received PUT_END is answered with END_ACK carrying the stream's byte count. -/
  | putEnd (n : Nat) (now : Nat)
  /-- END_ACK (R397): A received END_ACK ends a stream, or triggers a resend when it reports a short count. -/
  | endAck (n : Nat) (now : Nat)
  /-- BARRIER (R394): A received BARRIER packet counts toward the receiver's round of a barrier. -/
  | barrier (n : Nat) (now : Nat)
  /-- TIME_REQ (R323): A received TIME_REQ is answered with TIME_RESP within 2 us by a master or locked follower, or
   discarded. -/
  | timeReq (n now : Nat)
  /-- TIME_RESP (R47): A received TIME_RESP gives offset and path delay, and the follower corrects by slew or step. -/
  | timeResp (n now : Nat)
  /-- CMD (R381): A received CMD is accepted, executed once by SEQ, or refused, and is acknowledged. -/
  | cmd (n : Nat) (now : Nat)
  /-- CMD_ACK (R382): A received CMD_ACK completes the sent command and clears BUSY. -/
  | cmdAck (n : Nat) (now : Nat)
  /-- CMD_RETRY (R382): A VC0 command without CMD_ACK after RETRY_US is resent, or completes with FABRIC_TIMEOUT. -/
  | cmdRetry (now : Nat)
  /-- STOP (R383): STOP cancels the matching Tenancies' traffic and, at step scope, abandons their steps and idles their
   slots. `past` names the granted packets, by output and place, whose fclk is an earlier one of this nanosecond
   (R370). -/
  | stop (past : List (PortId × Nat)) (now : Nat)
  /-- START (R383): START clears the matching stop bits of its scope. -/
  | start (now : Nat)
  /-- FENCE_COMMAND (R383): FENCE fences every Tenancy whose WARD_ID equals KEY. `past` is as for STOP. -/
  | fenceCommand (past : List (PortId × Nat)) (now : Nat)
  /-- SHAPE (R383): SHAPE writes a port shaper or source bucket configuration. -/
  | shape (now : Nat)
  /-- CMD_TX_GO (R382): A write of GO in CMD_TX_CTL sends the held command on VC0, the Alley or both. -/
  | cmdTxGo (w : Writer) (v : BitVec 64) (now : Nat)
  /-- PSHP_CFG_WRITE (R376): A port shaper configuration write resets its count and applies its rate, or is ignored with
   0xC8. -/
  | pshpCfgWrite (w : Writer) (p : PortId) (vc : Fin 4) (v : BitVec 64) (now : Nat)
  /-- SSHP_CFG_WRITE (R376): A source bucket configuration write resets its count and applies its mode and rate, or is
   ignored with 0xC8. -/
  | sshpCfgWrite (w : Writer) (t : TenId) (q : Fin 2) (v : BitVec 64) (now : Nat)
  /-- ALLEY_HELLO (R385): A received HELLO frame brings an Alley port UP and records its neighbour. -/
  | alleyHello (a : Fin 31) (id : BitVec 16) (port : Byte) (token : W64) (now : Nat)
  /-- ALLEY_CMD (R381): A received Alley CMD frame is accepted from an enabled port and executed once by SEQ. -/
  | alleyCmd (a : Fin 31) (src : BitVec 16) (w0 w1 w2 : W64) (now : Nat)
  /-- ALLEY_ACK (R382): A received Alley ACK frame completes a command sent on the Alley. -/
  | alleyAck (a : Fin 31) (word : W64) (now : Nat)
  /-- ALLEY_HELLO_SEND (R384): An enabled Alley port idle for 10 us sends a HELLO. -/
  | alleyHelloSend (a : Fin 31) (now : Nat)
  /-- ALLEY_DOWN (R385): An Alley port without a valid frame for 30 us goes DOWN and logs 0xC9. -/
  | alleyDown (a : Fin 31) (now : Nat)
  /-- LEASE (R387): A received LEASE renews, takes or is ignored by the matching Tenancies' Ward state and is answered with
   LEASE_ACK. -/
  | lease (n : Nat) (now : Nat)
  /-- LEASE_ACK (R390): A received LEASE_ACK is counted in the authority's ACKED or FENCED counts. -/
  | leaseAck (n : Nat) (now : Nat)
  /-- LEASE_SEND (R390): An authority sends one LEASE to each holder in its list, spread evenly over PERIOD_MS. -/
  | leaseSend (a : Fin 16) (now : Nat)
  /-- LEASE_TTL_EXPIRY (R388): A HELD Tenancy without renewal for LEASE_TTL_MS fences, cancelling its shared-window work. `past` is as
   for STOP. -/
  | leaseTtlExpiry (t : TenId) (past : List (PortId × Nat)) (now : Nat)
  /-- ALL_TO_ALL (R394): ALL_TO_ALL sends one block to each member as a stream per peer. -/
  | allToAll (c : Fin 16) (now : Nat)
  /-- ALL_GATHER (R394): ALL_GATHER sends its source block to every member's destination. -/
  | allGather (c : Fin 16) (now : Nat)
  /-- REDUCE_SCATTER (R394): REDUCE_SCATTER sends blocks to staging and reduces the contributions in fixed order. -/
  | reduceScatter (c : Fin 16) (now : Nat)
  /-- ALL_REDUCE (R395): ALL_REDUCE reduces and distributes shards, flat or hierarchically. -/
  | allReduce (c : Fin 16) (now : Nat)
  /-- BROADCAST (R394): BROADCAST sends the root's block to every member. -/
  | broadcast (c : Fin 16) (now : Nat)
  /-- COLL_BARRIER (R394): A BARRIER collective runs dissemination rounds of BARRIER packets. -/
  | collBarrier (c : Fin 16) (now : Nat)
  /-- REFORM (R400): REFORM runs a barrier among a new group and makes its generation current, or fails with GROUP_FAILED. -/
  | reform (c : Fin 16) (now : Nat)
  /-- CANCEL (R394): A collective CANCEL cancels every queued and running descriptor of its Tenancy in a context. `past`
   is as for STOP. -/
  | cancel (c : Fin 16) (past : List (PortId × Nat)) (now : Nat)
  /-- COLL_NOP (R393): A NOP collective descriptor completes. -/
  | collNop (c : Fin 16) (now : Nat)
  /-- STREAM_RESEND (R397): A stream whose END_ACK is missing RETRY_US after PUT_END is resent with ATTEMPT raised, and the
   peer fails after RETRY_MAX. -/
  | streamResend (c : Fin 16) (peer : Nat) (now : Nat)
  /-- COLL_TIMEOUT (R397): A peer none of whose streams arrives within TIMEOUT_US has failed. -/
  | collTimeout (c : Fin 16) (now : Nat)
  /-- COLL_COMPLETE (R401): A collective ends, writes its result record and raises its counter and interrupt. -/
  | collComplete (c : Fin 16) (now : Nat)
  /-- FAULT_LOG (R404): A logged event reaches the Ridge, is entered in the history queue or merged, may be frozen as FIRST,
   and takes its action. -/
  | faultLog (e : Event) (now : Nat)
  /-- RETIREMENT_WINDOW_END (R418): At each window boundary the retirement counts of that window restart. -/
  | retirementWindowEnd (w : Fin 4) (now : Nat)
  /-- RIDGE_FORCE (R407): A write of RIDGE_FORCE raises chip-level fault codes at the unit named by FORCE_UNIT. -/
  | ridgeForce (w : Writer) (n : Fin 4) (v : BitVec 64) (now : Nat)
  /-- DFU_FORCE (R407): A write of DFU_FORCE raises District-level fault codes at the sub-unit named by DFU_FORCE_UNIT. -/
  | dfuForce (w : Writer) (d : Dist) (n : Fin 4) (v : BitVec 64) (now : Nat)
  /-- BLK_FORCE (R407): A write of BLK_FORCE raises Block-level fault codes at its Block. -/
  | blkForce (w : Writer) (b : BlockId) (n : Fin 4) (v : BitVec 64) (now : Nat)
  /-- GRAVE_FORCE (R407): A write of a grave code to GRAVE_FORCE raises that grave event. -/
  | graveForce (w : Writer) (v : BitVec 32) (now : Nat)
  /-- RET_CLEAR (R422): A write of RET_CLEAR removes one unit from the retirement record for retest at the next cold reset. -/
  | retClear (w : Writer) (v : BitVec 32) (now : Nat)
  /-- DFU_WDOG_KICK (R423): A write of KICK in DFU_WDOG restarts the DCC watchdog count. -/
  | dfuWdogKick (w : Writer) (d : Dist) (v : BitVec 32) (now : Nat)
  /-- CCC_WDOG_KICK (R423): A write of KICK in CCC_WDOG restarts the CCC watchdog count. -/
  | cccWdogKick (w : Writer) (v : BitVec 32) (now : Nat)
  /-- DFU_WDOG_EXPIRY (R423): The DCC's L1 time since KICK exceeds LIMIT_US and logs 0x58. -/
  | dfuWdogExpiry (d : Dist) (now : Nat)
  /-- CCC_WDOG_EXPIRY (R423): Time since the CCC KICK exceeds LIMIT_US and logs 0xD2. -/
  | cccWdogExpiry (now : Nat)
  /-- TERMINATION (R424): A termination code stops all work, ends every Tenancy, and runs fast re-entry or holds the device.
   -/
  | termination (fails : List Nat) (now : Nat)
  /-- RELEASE (R427): A write of RELEASE continues a HELD device from step 5 of fast re-entry. -/
  | release (w : Writer) (v : BitVec 32) (now : Nat)
  /-- GRAVE_EVENT (R428): A grave event drives GRAVE_N, stops all work, silences transmitters and writes the grave snapshot.
   -/
  | graveEvent (saved : Bool) (now : Nat)
  /-- BAR2_READ (R436): A host read through BAR2 is translated and split into line requests, completing normally, poisoned or
   with Completer Abort. -/
  | bar2Read (off n : Nat) (now : Nat)
  /-- BAR2_WRITE (R436): A host write through BAR2 is translated and split into line requests, or dropped. -/
  | bar2Write (off : Nat) (data : List (BitVec 8)) (poisoned : Bool) (now : Nat)
  /-- BAR2_XLAT_WRITE (R435): A BAR2_XLAT write is accepted only for a window starting in a permitted region, or sets
   CFG_REJECT. -/
  | bar2XlatWrite (w : Writer) (n : Fin 64) (v : BitVec 64) (now : Nat)
  /-- ENDPOINT_RESET (R438): An FLR, hot reset or link down clears the endpoint's windows, channels and MSI-X state and drops
   held records. -/
  | endpointReset (kind : Fin 3) (now : Nat)
  /-- BUS_MASTER_ENABLE (R438): When Bus Master Enable is set and the link is up, waiting outbound ring and MSI-X writes
   leave in order. -/
  | busMasterEnable (gen : Fin 6) (lanes : Fin 5) (bme msixEn fnMask : Bool) (now : Nat)
  /-- RESULT_RECORD_BUILD (R443): When a step commits, is discarded or is abandoned, the CCC builds its result record and
   enters it into the channel's store. -/
  | resultRecordBuild (t : TenId) (now : Nat)
  /-- RING_RECORD_WRITE (R444): A RING-mode channel writes a stored record to its host ring once the ring has room, word 15
   last. -/
  | ringRecordWrite (ch : Fin 64) (now : Nat)
  /-- RES_CH_CI_WRITE (R445): A write of RES_CH_CI advances the consumer index, or is ignored with CFG_REJECT. -/
  | resChCiWrite (w : Writer) (ch : Fin 64) (v : BitVec 32) (now : Nat)
  /-- RP_STATUS_READ (R446): A read of RP_STATUS returns the presented record's SEQ and increments its READ_COUNT. -/
  | rpStatusRead (w : Writer) (ch : Fin 64) (now : Nat)
  /-- RESULT_ACK (R447): A RESULT_ACK with the presented SEQ retires the record and presents the next, and any other write
   increments ACK_STALE. -/
  | resultAck (w : Writer) (ch : Fin 64) (seq : BitVec 32) (now : Nat)
  /-- RES_CH_CFG_WRITE (R449): A RES_CH_CFG write enables or disables a channel, dropping held records on disable, or is
   ignored with CFG_REJECT. -/
  | resChCfgWrite (w : Writer) (ch : Fin 64) (v : BitVec 64) (now : Nat)
  /-- COAL_TIMEOUT (R452): COAL_US after a source's first counted event, the source becomes pending. -/
  | coalTimeout (c : CoreId) (n : Fin 512)
  /-- CLAIM (R453): A read of CLAIM by the owning core returns and activates the winning pending source and clears its
   EVENTS. -/
  | claim (w : Writer) (c : CoreId) (now : Nat)
  /-- INT_COMPLETE (R454): A write of COMPLETE ends a source's active state. -/
  | intComplete (w : Writer) (c : CoreId) (n : BitVec 32) (now : Nat)
  /-- SOFT (R450): A write of RAISE to SOFT adds one event to source 8. -/
  | soft (w : Writer) (c : CoreId) (v : BitVec 32) (now : Nat)
  /-- SRC_CFG_WRITE (R456): A SRC_CFG write sets a source's delivery, deferred while the source is active. -/
  | srcCfgWrite (w : Writer) (c : CoreId) (n : Fin 512) (v : BitVec 64) (now : Nat)
  /-- MSI_X_SEND (R455): A pending host-targeted source sends its MSI-X message, or sets the pending bit until the vector is
   sendable. -/
  | msiXSend (n : Fin 512) (now : Nat)
  /-- SENSED_LINE_CHANGE (R458): A sensed line that holds a new level for STABLE cclk changes its accepted level, and shorter
   pulses are counted as glitches. -/
  | sensedLineChange (l : Fin 8) (level : Bool) (held : Nat) (now : Nat)
  /-- SEAL (R465): SEAL seals a digest table range at once and starts hashing it. -/
  | seal (w : Writer) (t : TenId) (n : Fin 16) (now : Nat)
  /-- SEAL_COMPLETE (R465): A SEAL's hashing ends, and the region digest is held with SEALED set. -/
  | sealComplete (now : Nat)
  /-- UNSEAL (R465): UNSEAL drops an entry's region digest and sealing, waiting for a running step to end. -/
  | unseal (w : Writer) (t : TenId) (n : Fin 16) (now : Nat)
  /-- ROLE_GO (R472): A write of GO in ROLE_REQ places a fresh challenge and sets PENDING. -/
  | roleGo (w : Writer) (role : Fin 4) (slot : Fin 8) (now : Nat)
  /-- ROLE_VERIFY (R473): A write of VERIFY checks the signature against the key slot and grants a session or records a
   failure. -/
  | roleVerify (w : Writer) (role : Fin 4) (slot : Fin 8) (now : Nat)
  /-- ROLE_DROP (R471): A write of DROP ends the agent's session of the named role. -/
  | roleDrop (w : Writer) (role : Fin 4) (slot : Fin 8) (now : Nat)
  /-- CHALLENGE_EXPIRY (R472): A pending challenge expires 10 s after it was issued. -/
  | challengeExpiry (a : Fin 3) (now : Nat)
  /-- SESSION_EXPIRY (R471): A session ends TTL_S seconds after it was granted. -/
  | sessionExpiry (a : Fin 3) (role : Fin 4) (now : Nat)
  /-- LOCKOUT_END (R473): 60 s after lock-out, FAILS returns to 0 and the agent may request again. -/
  | lockoutEnd (a : Fin 3) (now : Nat)
  /-- KEY_GO (R474): A write of GO in KEY_CTL enrols or revokes a public key in a slot under the enrolling role. -/
  | keyGo (w : Writer) (slot : Fin 8) (now : Nat)
  /-- KEY_SECTOR_WRITE (R474): The key sector is written once the enrolment's journal entry is committed, and BUSY clears. -/
  | keySectorWrite (now : Nat)
  /-- JOURNAL_COMMIT (R477): The audit engine commits the next queued entry in four program operations, erasing a sector
   first when needed. -/
  | journalCommit (bad : Fin 3) (ops : Fin 5) (junk : List (BitVec 8)) (now : Nat)
  /-- AUD_READ (R476): A write of SEQ to AUD_READ searches the journal and loads AUD_DATA within 1 ms. -/
  | audRead (w : Writer) (seq : BitVec 32) (now : Nat)
  /-- RAIL_OUT_OF_RANGE (R482): A rail out of range for 2 us while POWER_FAIL_N is high raises grave code 0xDB. -/
  | railOutOfRange (r : Fin 13) (filtering : Bool) (now : Nat)
  /-- T2_PG_LOW (R483): A low level on T2_PG is latched on VDD_AON as a T2 supply failure. -/
  | t2PgLow (decay : List (Nat × BitVec 8))
  /-- POWER_READING (R486): Every 10 us the power controller reads rails and junctions and finds the throttle causes. -/
  | powerReading (rails : List (Bool × Nat × Nat)) (watts tj now : Nat)
  /-- THROTTLE_STEP_UP (R486): While a cause exists, the throttle step rises by one every 20 us up to 7. -/
  | throttleStepUp (now : Nat)
  /-- THROTTLE_STEP_DOWN (R486): After 1 ms without a cause, the throttle step falls by one per further 1 ms. -/
  | throttleStepDown (now : Nat)
  /-- EMERGENCY_THROTTLE (R487): Emergency throttle sets step 7 and halts the arrays until released. -/
  | emergencyThrottle (now : Nat)
  /-- EMERGENCY_RELEASE (R487): Emergency throttle is released when no emergency condition has held for 1 ms. -/
  | emergencyRelease (now : Nat)
  /-- POWER_ON_RESET (R490): VDD_AON rising or PORST_N low resets the whole device except boot flash and Retained T2. -/
  | powerOnReset (vdd done : Bool) (landed : List Nat) (decay : List (Nat × BitVec 8))
  /-- COLD (R491): A write of COLD runs a cold reset, silences transmitters and restarts the boot. -/
  | cold (w : Writer) (both : Bool) (now : Nat)
  /-- FABRIC (R491): A write of FABRIC runs a fabric-preserving reset by the fast re-entry sequence. -/
  | fabric (w : Writer) (now : Nat)
  /-- BOOT (R497): After power-on or cold reset the boot ROM selects and checks an image, trains memory, self-tests, restores
   settings and enters RUN. -/
  | boot (links spokes : BitVec 4) (stks : BitVec 8) (channels : BitVec 64) (slots fails : List Nat) (drives : List (Nat × Nat)) (now : Nat)
  /-- FW_WRITE (R498): WRITE reads, checks and programs an image into the slot that is not running. -/
  | fwWrite (w : Writer) (now : Nat)
  /-- FW_WRITE_END (R498): A firmware WRITE finishes verifying the slot and sets RESULT. -/
  | fwWriteEnd (bad : List (Nat × BitVec 8)) (now : Nat)
  /-- TRY (R498): TRY sets TRY_SLOT to the other slot with three tries. -/
  | fwTry (w : Writer) (now : Nat)
  /-- CONFIRM (R498): CONFIRM makes the running slot ACTIVE and clears TRY_SLOT. -/
  | confirm (w : Writer) (now : Nat)
  /-- ACTIVATE (R498): ACTIVATE runs a fabric-preserving reset that boots TRY_SLOT. -/
  | activate (w : Writer) (now : Nat)
  /-- BURN_SVN (R499): BURN_SVN raises the MIN_SVN fuse to the running SVN while RUN_SLOT equals ACTIVE. -/
  | burnSvn (w : Writer) (now : Nat)
  /-- I3C_TRANSACTION (R501): An I3C or SMBus transaction reads or writes 4 or 8 bytes at a BAR0 offset of the reachable
   blocks. -/
  | i3cTransaction (write wide : Bool) (off : BitVec 32) (v : BitVec 64) (now : Nat)
  /-- TAP_RESET (R512): TRST_N low or VDD_IO rising places the TAP in Test-Logic-Reset and returns the balls to device
   control. -/
  | tapReset
  /-- EXTEST (R515): EXTEST drives and captures the balls through the boundary register while PORST_N is low. -/
  | extest (balls cells : BitVec 3926)
  /-- IDCODE (R514): IDCODE selects the 32-bit device ID register. -/
  | idcode
  /-- SAMPLE_PRELOAD (R513): SAMPLE/PRELOAD samples the balls and preloads boundary cells with the balls under device
   control. -/
  | samplePreload (balls cells : BitVec 3926)
  /-- CLAMP (R515): CLAMP holds the outputs at preloaded values with the bypass register selected while PORST_N is low. -/
  | clamp
  /-- HIGHZ (R515): HIGHZ releases every output ball while PORST_N is low. -/
  | highz
  /-- EXTEST_PULSE (R515): EXTEST_PULSE runs the IEEE 1149.6 pulse test of AC-coupled pairs while PORST_N is low. -/
  | extestPulse (balls cells : BitVec 3926)
  /-- EXTEST_TRAIN (R515): EXTEST_TRAIN runs the IEEE 1149.6 pulse-train test while PORST_N is low. -/
  | extestTrain (balls cells : BitVec 3926)
  /-- MBIST (R517): MBIST runs built-in self-test of every SRAM when the private conditions hold. -/
  | mbist (status : BitVec 64) (now : Nat)
  /-- SCAN (R517): SCAN gives access to the internal scan chains when the private conditions hold. -/
  | scan (chain : BitVec 64) (now : Nat)
  /-- HBM_WRAP (R517): HBM_WRAP gives access to the HBM4 stack wrappers, including hard repair, when the private conditions
   hold. -/
  | hbmWrap (wrapper : BitVec 64) (now : Nat)
  /-- FUSE (R517): FUSE reads and programs the fuse array when the private conditions hold. -/
  | fuse (field : Fin 8) (prog : Option Nat) (now : Nat)
  /-- BYPASS (R513): BYPASS, or any unlisted opcode, selects the 1-bit bypass register. -/
  | bypass
  /-- DRIVE_LINK_DROP (R296): An NVMe drive drops its link on the flash port, which starts the 1 s wait after which it is
   marked FAILED unless it returns. -/
  | driveLinkDrop (d : Fin 8) (now : Nat)
  /-- ALLEY_FRAME_CRC_FAIL (R384): A received Alley frame that fails its CRC is discarded and counted in CRC_ERRORS. -/
  | alleyFrameCrcFail (a : Fin 31)
  /-- VECTOR_SENDABLE (R455): An MSI-X vector whose pending bit is set becomes sendable when it is unmasked or the Function
   Mask is cleared, and its message is sent once. -/
  | vectorSendable (v : Fin 2048) (now : Nat)
  deriving DecidableEq, Repr

end Sys2Proof
end

