-- ==== Sys2Proof/Decode.lean ====
section
/-! DEFINITION. The command that a word spells. spec/opcode_table.json gives no row any bits, so no word of the table spells a command.
The words of Rinuno (R82) and of the Block Sequencers (R118 to R146) have encodings of their own: the last two definitions read them. -/

namespace Sys2Proof

/-- No row of the table has bits: every word is refused. -/
def decodeTableWord (_nbits _w : Nat) : Option Instr := none

/-- A field of five bits from bit `lo` of a word. -/
def field5 {n : Nat} (w : BitVec n) (lo : Nat) : Fin 32 := (w.extractLsb' lo 5).toFin

/-- The command of the Rinuno word `w` (R82) at core `c`. A word of ALU, and one whose opcode or function is reserved, is the command
ALU, which raises ILLEGAL_INSTR for the latter. The error state that a memory access meets, the wrong path of a branch and the device
time are no part of the word. -/
def rinunoDecode (c : CoreId) (ecc : Fin 3) (bad : Bool) (wrong : Fin 25 × List Nat × List Nat) (now : Nat) (w : BitVec 32) : Instr :=
  let rd := field5 w 21
  let ra := field5 w 16
  let rb := field5 w 11
  let func := w.extractLsb' 0 11
  let imm := w.extractLsb' 0 16
  match (w.extractLsb' 26 6).toNat with
  | 0x02 => .addi c rd ra imm
  | 0x03 => .andi c rd ra imm
  | 0x04 => .ori c rd ra imm
  | 0x05 => .xori c rd ra imm
  | 0x06 => .slti c rd ra imm
  | 0x07 => .sltiu c rd ra imm
  | 0x08 => .shifti c rd ra imm
  | 0x09 => .lui c rd ra imm
  | 0x0A => .insk c rd ra imm
  | 0x10 => .load c 0 rd ra imm ecc now
  | 0x11 => .load c 1 rd ra imm ecc now
  | 0x12 => .load c 2 rd ra imm ecc now
  | 0x13 => .load c 3 rd ra imm ecc now
  | 0x14 => .load c 4 rd ra imm ecc now
  | 0x15 => .load c 5 rd ra imm ecc now
  | 0x16 => .load c 6 rd ra imm ecc now
  | 0x18 => .store c 0 rd ra imm ecc now
  | 0x19 => .store c 1 rd ra imm ecc now
  | 0x1A => .store c 2 rd ra imm ecc now
  | 0x1B => .store c 3 rd ra imm ecc now
  | 0x1C => .amo c rd ra rb func now
  | 0x20 => .branch c 0 rd ra imm wrong
  | 0x21 => .branch c 1 rd ra imm wrong
  | 0x22 => .branch c 2 rd ra imm wrong
  | 0x23 => .branch c 3 rd ra imm wrong
  | 0x24 => .branch c 4 rd ra imm wrong
  | 0x25 => .branch c 5 rd ra imm wrong
  | 0x28 => .jal c (w.extractLsb' 0 26, wrong)
  | 0x29 => .jalr c rd ra (imm, wrong)
  | 0x30 => match func.toNat with
    | 0 => .syscall c rd ra rb
    | 1 => .sret c rd ra rb
    | 2 => .fence c rd ra rb
    | 3 => .wfi c rd ra rb
    | 5 => .stepend c rd ra rb
    | 6 => .brk c rd ra rb
    | _ => .alu c rd ra rb (0x30, func)
  | 0x31 => .csrr c rd ra imm
  | 0x32 => .csrw c rd ra imm
  | 0x33 => .csrx c rd ra imm
  | 0x34 => .cache c rd ra imm bad now
  | 0x38 => .enq c rd ra rb func now
  | 0x39 => match func.toNat with
    | 0 => .evrd c rd ra
    | 1 => .evadd c ra rb
    | 2 => .evwait c ra rb
    | _ => .alu c rd ra rb (0x39, func)
  | op => .alu c rd ra rb (BitVec.ofNat 6 op, func)

/-- The command of the Sequencer word `w` at Block `b`: its class, and its opcode in that class (R118, R119, R126, R127, R131, R144,
R146). A word of the CT operations on two registers, and one whose class or opcode is reserved outside VX, is the command CT ALU; a VX
word with a reserved opcode is the command of VX ADD to NEG. Both commands end the program with 0x60 for a reserved one. -/
def blockDecode (b : BlockId) (w : BitVec 64) : Instr :=
  let cls : Fin 16 := (w.extractLsb' 60 4).toFin
  let op : Fin 256 := (w.extractLsb' 52 8).toFin
  let imm := w.extractLsb' 0 32
  match cls.val with
  | 1 => .mm b (w.extractLsb' 56 4).toFin (w.extractLsb' 52 4).toFin (w.extractLsb' 48 4).toFin (w.extractLsb' 42 6).toFin
      (w.getLsbD 41) (w.getLsbD 40) (w.getLsbD 39) (field5 w 34) (field5 w 29) (field5 w 24) (w.extractLsb' 12 12) (w.extractLsb' 0 12)
  | 2 =>
    let ty : Fin 8 := (w.extractLsb' 49 3).toFin
    let mask : Fin 8 := (w.extractLsb' 46 3).toFin
    let vd := field5 w 41
    let va := field5 w 36
    let vb := field5 w 31
    let vc := field5 w 26
    let i := w.extractLsb' 0 26
    if h : 0x10 ≤ op.val ∧ op.val ≤ 0x1A then .vxFunction b ⟨op.val - 0x10, by omega⟩ ty mask vd va
    else match op.val with
      | 0x20 => .vxCmp b ty mask vd va vb i
      | 0x21 => .vxMov b ty mask vd va
      | 0x28 => .rsum b ty mask vd va
      | 0x29 => .rmaxRmin b false ty mask vd va
      | 0x2A => .rmaxRmin b true ty mask vd va
      | 0x2B => .rargmax b ty mask vd va
      | 0x2C => .sort b ty mask vd va vc
      | 0x30 => .vxLd b ty mask vd vc i
      | 0x31 => .vxSt b ty mask vd vc i
      | 0x33 => .bcast b ty mask vd vc
      | 0x34 => .movs b ty vd va i
      | 0x35 => .perm b ty mask vd va vb
      | 0x38 => .cvt b ty mask vd va i
      | 0x39 => .mxq b ty mask vd va vb i
      | 0x40 => .axpy b ty mask vd va vc
      | 0x41 => .rand b ty mask vd vc
      | _ => .vxArith b op ty mask vd va vb vc
  | 3 =>
    let sd := field5 w 47
    let sa := field5 w 42
    let sb := field5 w 37
    let n : Fin 16 := (w.extractLsb' 33 4).toFin
    let z := w.getLsbD 32
    match op.val with
    | 1 => .dmGo b sa n z imm
    | 2 => .dmWait b z imm
    | 3 => .dmStat b sd n z
    | 4 => .dmPart b sa sb n z
    | 5 => .dmRavail b sd n z
    | 6 => .dmRwait b n z imm
    | 7 => .dmRel b n z imm
    | _ => .ctAlu b (cls, op) sd sa sb 0
  | 4 =>
    let sd := field5 w 47
    let sb := field5 w 42
    let blk : Fin 1024 := (w.extractLsb' 32 10).toFin
    let ctr : Fin 16 := (w.extractLsb' 27 4).toFin
    let z : Fin 8 := (w.extractLsb' 24 3).toFin
    let v := w.extractLsb' 0 24
    match op.val with
    | 1 => .syPost b sb blk (w.getLsbD 31) ctr z v
    | 2 => .syPostf b sb blk (w.getLsbD 31) ctr z v
    | 3 => .syWait b ctr z v
    | 4 => .syRdc b sd ctr z
    | _ => .ctAlu b (cls, op) sd 0 sb 0
  | _ =>
    let sd := field5 w 47
    let sa := field5 w 42
    let sb := field5 w 37
    let z := field5 w 32
    if cls.val != 5 then .ctAlu b (cls, op) sd sa sb z
    else if h : 0x20 ≤ op.val ∧ op.val ≤ 0x25 then .ctBranch b ⟨op.val - 0x20, by omega⟩ sa sb z imm
    else match op.val with
      | 0x10 => .ctAddi b sd sa z imm
      | 0x11 => .ctLi b sd z imm
      | 0x12 => .ctLih b sd z imm
      | 0x14 => .ctLd b sd sa z imm
      | 0x15 => .ctSt b sa sb z imm
      | 0x26 => .ctJ b z imm
      | 0x27 => .ctJr b sa z imm
      | 0x30 => .ctEnd b z
      | 0x31 => .ctIret b z
      | 0x32 => .ctSetv b sa z imm
      | 0x33 => .ctIen b z imm
      | 0x34 => .ctIclr b z imm
      | 0x35 => .ctIe b z imm
      | 0x36 => .ctTset b z imm
      | 0x37 => .ctRds b sd z imm
      | _ => .ctAlu b (cls, op) sd sa sb z

end Sys2Proof
end

