-- ==== Sys2Proof/Config.lean ====
section
/-! DEFINITION. The free values of the model: constants without a body, so that nothing in Lean can evaluate one or prove a
value of it. Each is named in the assumption log. -/

namespace Sys2Proof.Config

/-- The bytes of a fresh role challenge (R472), by the number of the request. -/
opaque challenge : Nat → BitVec 384

/-- The way that leaves a full cache set (no replacement rule is given), by the number of the fill. -/
opaque cacheVictim : Nat → Nat

/-- Whether the running firmware defines a SYSCALL number (R77). -/
opaque syscallDefined : W64 → Bool

/-- Where a core's predictor sends a branch or jump (its index and update functions are not given), by what it has been updated
with since it was cleared (R90) and the address of the branch. -/
opaque predicted : List (Nat × Nat) → Nat → Nat

/-- Whether a saturating conversion turns an infinity into the largest finite value in a format that has infinities (not
stated), by format code. -/
opaque infSaturates : Nat → Bool

/-- The bits of a converted NaN, or what stands for it in a format without one (not stated), by format code. -/
opaque nanElem : Nat → Nat

/-- Sign and payload of a NaN that an operation gives (IEEE 754 fixes neither), by what it was computed from. -/
opaque nanBits : List Nat → Nat

/-- The E8M0 scale of a group of zeros (0) or of a group with a NaN or an infinity (1), by format code. -/
opaque mxOpenScale : Nat → Nat → Nat

/-- The result of a vector operation for which the manual states none (an INT32 result out of range, an absent lane, an order
among NaNs), by the operation and its operands. -/
opaque vxOpen : List Nat → Nat

/-- Whether AXPY rounds once or after each of its two operations (not stated). -/
opaque axpyFused : Bool

/-- The generator of RAND (R129): step seed, logical ID, scalar and lane. Any FP32 value in [0, 1) may result. -/
opaque rand : Nat → Nat → Nat → Nat → Nat

/-- PATH_KEY of a packet that an agent of this device sources (R319: set by the source), by the number of the request. -/
opaque pathKey : Nat → BitVec 16

/-- RESULT of a CREATE on a device in Transit, which holds no Tenancy (R344; R51 names no result for it), by the number of the command:
never OK, which is 0. -/
opaque transitResult : Nat → Fin 255

/-- A byte of what a collective that lost a peer leaves undefined (R399), by the number of the collective and its place. -/
opaque collByte : Nat → Nat → BitVec 8

/-- The program that emulates a retired Great Array (R176) and the argument of each of its RUN entries, by District, list index
and logical Block. -/
opaque emuKernel : BitVec 61
opaque emuArg : Nat → Nat → Nat → W64

/-- A byte of a Routing Engine's work area after a job (R184: its content is not stated), by the number of the job and its
place. -/
opaque workByte : Nat → Nat → BitVec 8

/-- A byte that a Routing Engine job writes, and a field of an entry that it makes, after a program has written its work area (R184:
its outputs are corrupt), by the number of that write and the place. -/
opaque spoilByte : Nat → Nat → BitVec 8
opaque spoilField : Nat → Nat → Nat

/-- A field of a placement entry for which the manual states no value: DEC_4K and CLUSTER_BYTES of an expert whose directory
entry was not obtained, and SQUARE_ADDR of NO_ROOM, by the number of the entry and the word. -/
opaque placeOpen : Nat → Nat → Nat

/-- The DRAM row of a T1 line within its pseudo-channel (R262; the layout of rows is not given), by the line's address. -/
opaque t1Row : Nat → Nat

/-- Whether a deallocated logical block keeps its old contents, by the number of the deallocation and the block (R297 does not
say what it reads as). -/
opaque trimKeeps : Nat → Nat → Bool

/-- A byte of the saved core context, whose layout is private to the device (R525), by the number of the save and its place. -/
opaque contextByte : Nat → Nat → BitVec 8

/-- Whether an NVMe write under way when a written cold reset stops the flash port reaches its medium (not stated), by the number
of the reset and the command. -/
opaque resetLands : Nat → Nat → Bool

/-- How far the programming of a firmware image had come when it was interrupted (not stated), by the number of that interruption:
the slot is untouched, or erased with so many bytes programmed. -/
opaque programmed : Nat → Option Nat

/-- Whether a store that misses the data cache allocates its line or goes to memory (not stated), by the number of the miss. -/
opaque storeAllocates : Nat → Bool

end Sys2Proof.Config
end

