-- ==== Sys2Proof/Machine/Crc.lean ====
section
/-! DEFINITION. The cyclic redundancy checks of the device: CRC-32C, and CRC-16-CCITT with an initial value of 0xFFFF. The bit
order of each is that of its usual definition, which the manual only names (PRESUMED, assumption 160). -/

namespace Sys2Proof.Machine

/-- One bit of CRC-32C, least significant first. -/
def crc32cBit (c : Nat) : Nat := if c % 2 = 1 then (c / 2) ^^^ 0x82F63B78 else c / 2

/-- One byte of CRC-32C. -/
def crc32cByte (c : Nat) (b : Byte) : Nat := Nat.repeat crc32cBit 8 (c ^^^ b.toNat)

/-- CRC-32C of a list of bytes. -/
def crc32c (l : List Byte) : Nat := l.foldl crc32cByte 0xFFFFFFFF ^^^ 0xFFFFFFFF

/-- One bit of CRC-16-CCITT, most significant first. -/
def crc16Bit (c : Nat) : Nat := if 0x8000 ≤ c then (c * 2) % 0x10000 ^^^ 0x1021 else c * 2

/-- One byte of CRC-16-CCITT. -/
def crc16Byte (c : Nat) (b : Byte) : Nat := Nat.repeat crc16Bit 8 (c ^^^ b.toNat * 256)

/-- CRC-16-CCITT of a list of bytes. -/
def crc16 (l : List Byte) : Nat := l.foldl crc16Byte 0xFFFF

end Sys2Proof.Machine
end

