-- ==== Sys2Proof/Machine/Map.lean ====
section
/-! DEFINITION. Sparse maps from numbers, as plain data: a list of (key, value) pairs in one canonical form, keys strictly
rising and no value equal to what an unlisted key reads as. Memory, the register file and every large array of the device
are such maps. -/

namespace Sys2Proof.Machine

/-- A sparse map. -/
abbrev KMap (α : Type) := List (Nat × α)

variable {α : Type}

/-- The value at a key; an unlisted key reads as `d`. -/
def KMap.get (d : α) : KMap α → Nat → α
  | [], _ => d
  | (k, v) :: t, x => if k = x then v else KMap.get d t x

/-- Puts a value at a key, in key order. -/
def KMap.ins : KMap α → Nat → α → KMap α
  | [], x, v => [(x, v)]
  | (k, w) :: t, x, v =>
    if k = x then (x, v) :: t else if x < k then (x, v) :: (k, w) :: t else (k, w) :: KMap.ins t x v

/-- Removes a key. -/
def KMap.del (m : KMap α) (x : Nat) : KMap α := m.filter (fun p => p.1 != x)

/-- Writes a value at a key: writing what an unlisted key reads as removes the entry. -/
def KMap.set [DecidableEq α] (d : α) (m : KMap α) (x : Nat) (v : α) : KMap α :=
  if v = d then m.del x else m.ins x v

/-- Rewrites the value at a key. -/
def KMap.upd [DecidableEq α] (d : α) (m : KMap α) (x : Nat) (f : α → α) : KMap α := m.set d x (f (m.get d x))

/-- Returns every key of `[lo, lo + n)` to the unlisted value. -/
def KMap.clear (m : KMap α) (lo n : Nat) : KMap α := m.filter (fun p => p.1 < lo || lo + n ≤ p.1)

/-- The entries of `[lo, lo + n)`, moved so that `lo` becomes `dst`. -/
def KMap.slice (m : KMap α) (lo n dst : Nat) : KMap α :=
  (m.filter (fun p => lo ≤ p.1 && p.1 < lo + n)).map (fun p => (p.1 - lo + dst, p.2))

/-- Puts the entries of `piece`, all of whose keys lie in `[lo, lo + n)`, in place of that range. -/
def KMap.splice (m : KMap α) (lo n : Nat) (piece : KMap α) : KMap α :=
  m.filter (fun p => p.1 < lo) ++ piece ++ m.filter (fun p => lo + n ≤ p.1)

/-- The canonical form: keys strictly rising, no entry equal to the unlisted value. -/
def KMap.wf [DecidableEq α] (d : α) : KMap α → Bool
  | [] => true
  | [(_, v)] => v != d
  | (k, v) :: (k', v') :: t => v != d && k < k' && KMap.wf d ((k', v') :: t)

end Sys2Proof.Machine
end

