-- ==== Sys2Proof/Machine/Regs.lean ====
section
/-! DEFINITION. The control registers of the device as data: for every register table of the chapters its block
(R32, R33), offset, index strides, width, the role that may change its RWL fields, and each field with its bits, access code
(R7) and reset value. Written from the register tables of spec/; a field whose reset is loaded from fuses (F) stands here
with 0 and is computed from the fuses where it is read. -/

namespace Sys2Proof.Machine

/-- The access codes of R7, but for RsvZ: a reserved field is not listed. -/
inductive Acc where
  | rw | ro | w1c | w1s | wo | rwl
  deriving DecidableEq, Repr

/-- The three roles of R469. -/
inductive Role where
  | operator | installer | maker
  deriving DecidableEq, Repr

/-- The register blocks of R32 and R33. `icCore` and `icPriv` are the registers that an interrupt controller holds per
core, and `secAgent` the role registers, held once per agent (R470). -/
inductive Region where
  | ident | decode | tick | core | blk | dma | ga | re | rm | square | t2 | flash | shp | hbm | switch | port | opm | alley | ridge | dfu | hif | iccore | chipic | secAgent | sec | repro | power | icpriv
  deriving DecidableEq, Repr

/-- One field of a register table. -/
structure FieldRow where
  hi : Nat
  lo : Nat
  acc : Acc
  rst : Nat
  deriving DecidableEq, Repr

/-- One register table: its place in its block, its index dimensions (stride, first, last), and its fields. -/
structure RegInfo where
  region : Region
  off : Nat
  dims : List (Nat × Nat × Nat)
  w64 : Bool
  role : Option Role
  fields : List FieldRow
  deriving DecidableEq, Repr

/-- The registers, by the names the chapters give them. -/
inductive RegName where
  | CHIP_ID | BLOCK_FUSE | BLOCK_MAP | DECODE_ERR_ADDR | DECODE_ERR_INFO | RING_STATUS | RING_RETRY_COUNT | TICK_CTRL 
  | TICK_CONFIG | TICK_ACTIVE | TIME_NOW | TICK_COUNT | ALIGN_CONFIG | ALIGN_STATUS | TEN_CMD | TEN_ARG | TEN_STATUS 
  | TEN_RESERVE | TEN_STATE | SCHED_CTRL | SCHED_SLOT | SCHED_STATUS | SCHED_COUNTS | CORE_CTRL | CORE_STATUS 
  | CORE_PC | CQ_STATE | CQ_ERR | EVC | BLK_STATUS | BLK_PC | BLK_INT | BLK_ERR | BLK_POISON | BLK_CTRL 
  | BLK_SOFT_INT | BLK_POST | DMA_POOL_CFG | DMA_POOL_STATUS | DMA_CH_STATUS | DMA_CH_ERR | GA_STATUS | GA_ERR 
  | GA_POISON | GA_CHK | GA_CTRL | GA_ACTIVE_CCLK | BLK_CHK | RE_STATUS | RE_ERR | RE_COUNTS | RE_ACTIVE_CCLK 
  | RE_ECC | RE_CFG | RM_STATUS | RM_ERR | RM_HITS | RM_MERGE | RM_ACTIVE_CCLK | RM_BYTES | SQ_CFG | SQ_STATUS 
  | SQ_ECC | SQ_ERR | SQ_COMBINE | SQ_TEN | T1_RESERVE | T2_UP | T2_RETIRED | T2_ECC | T2_ERR | T2_RETAIN 
  | THATCH_STATS | T2_RANGE_BASE | T2_RANGE_LEN | FL_CFG | FL_TIMEOUT | FL_TRIM_ADDR | FL_TRIM_CTL | FL_ERR 
  | FL_DRIVE | FL_TEN | SHP_CTRL | SHP_CFG | SHP_STATE | SHP_SAMPLE | HBM_STATUS | HBM_RETIRED | HBM_ECC | HBM_ERR 
  | FAB_ID | FAB_ROLE | LINK_TOKEN | FAB_TIMERS | EPOCH_CTRL | EPOCH_STATUS | FAB_E2E | FAB_ERR | ROUTE | PKEY 
  | TEN_PKEY | PORT_CTRL | PORT_STATUS | PORT_VC_CFG | PORT_ARB | PORT_CREDIT | PORT_FEC | PORT_LINK | PORT_DROPS 
  | PORT_ERR | LANE_STATUS | PSHP_CFG | SSHP_CFG | OPM_CTRL | LEASE_CFG | OPM_STATUS | OPM_COUNTS | CANCEL_COUNTS 
  | GUTTER_BYTES | OPM_ERR | WARD_STATE | AUTH_CTL | AUTH_LIST | AUTH_COUNTS | CMD_ALLOW | CMD_TX_CTL | CMD_TX_BODY 
  | STOP_TRAFFIC | STOP_STEP | COLL_STATUS | ALLEY_CTRL | ALLEY_CMD_EN | ALLEY_ERR | ALLEY_STATUS | RIDGE_STATUS 
  | RIDGE_CTRL | RET_LIMITS | RET_LIMITS2 | CCC_WDOG | FIRST | RET_BLOCK | RET_CLEAR | RIDGE_FORCE | FORCE_UNIT 
  | GRAVE_FORCE | HIST | DFU_WDOG | DFU_FORCE | DFU_FORCE_UNIT | BLK_FORCE | HIF_STATUS | HIF_ERR | BAR2_XLAT 
  | RES_TEN | RES_CH_CFG | RES_CH_BASE | RES_CH_PI | RES_CH_CI | RES_CH_STATUS | RP_STATUS | RESULT_ACK | RP_DATA 
  | CLAIM | COMPLETE | THRESHOLD | SOFT | IC_STATUS | GF_CFG | ROLE_REQ | ROLE_STATUS | ROLE_HELD | ROLE_CFG 
  | ROLE_CHALLENGE | ROLE_RESP | KEY_DATA | KEY_CTL | KEY_STATUS | AUD_STATUS | AUD_READ | AUD_DATA | REPRO_SIG 
  | DG_CMD | DG_STATUS | DG_SEL | DG_VAL | DG_TEN | PWR_STATUS | PWR_LIMIT | RAIL_STATUS | RST_CTRL | RST_CAUSE 
  | FW_STATUS | FW_CTL | FW_SRC | FW_FUSE | I3C_CFG | SRC_PRIV | SRC_SH | PSHP_STATE | PSHP_SAMPLE | SSHP_STATE 
  | SSHP_SAMPLE | MSIX_ADDR | MSIX_DATA | MSIX_CTL | MSIX_PBA 
  deriving DecidableEq, Repr

/-- The register table of each register. -/
def RegName.info : RegName → RegInfo
  | .CHIP_ID => ⟨.ident, 0x0, [], false, none,
      [⟨31, 16, .ro, 0⟩, ⟨15, 8, .ro, 0⟩, ⟨7, 0, .ro, 0⟩]⟩
  | .BLOCK_FUSE => ⟨.ident, 0x8, [], false, none,
      [⟨10, 0, .ro, 0⟩]⟩
  | .BLOCK_MAP => ⟨.ident, 0x100, [(0x4, 0, 31)], false, none,
      [⟨31, 0, .ro, 0⟩]⟩
  | .DECODE_ERR_ADDR => ⟨.decode, 0x0, [], true, none,
      [⟨63, 0, .ro, 0⟩]⟩
  | .DECODE_ERR_INFO => ⟨.decode, 0x8, [], false, none,
      [⟨31, 31, .w1c, 0⟩, ⟨30, 30, .w1c, 0⟩, ⟨21, 20, .ro, 0⟩, ⟨19, 16, .ro, 0⟩, ⟨15, 12, .ro, 0⟩, ⟨11, 0, .ro, 0⟩]⟩
  | .RING_STATUS => ⟨.decode, 0x10, [], false, none,
      [⟨11, 8, .ro, 0⟩, ⟨7, 4, .ro, 0⟩, ⟨3, 0, .ro, 0⟩]⟩
  | .RING_RETRY_COUNT => ⟨.decode, 0x18, [], true, none,
      [⟨63, 48, .rw, 0⟩, ⟨47, 32, .rw, 0⟩, ⟨31, 16, .rw, 0⟩, ⟨15, 0, .rw, 0⟩]⟩
  | .TICK_CTRL => ⟨.tick, 0x0, [], false, (some .operator),
      [⟨7, 7, .rwl, 0⟩, ⟨6, 4, .rwl, 0⟩, ⟨0, 0, .rwl, 0⟩]⟩
  | .TICK_CONFIG => ⟨.tick, 0x8, [], false, (some .operator),
      [⟨26, 16, .rwl, 20⟩, ⟨13, 0, .rwl, 0x3E8⟩]⟩
  | .TICK_ACTIVE => ⟨.tick, 0xC, [], false, none,
      [⟨26, 16, .ro, 20⟩, ⟨13, 0, .ro, 0x3E8⟩]⟩
  | .TIME_NOW => ⟨.tick, 0x10, [], true, none,
      [⟨63, 0, .ro, 0⟩]⟩
  | .TICK_COUNT => ⟨.tick, 0x18, [], true, none,
      [⟨63, 0, .ro, 0⟩]⟩
  | .ALIGN_CONFIG => ⟨.tick, 0x20, [], true, (some .operator),
      [⟨63, 56, .rwl, 10⟩, ⟨55, 44, .rwl, 0⟩, ⟨43, 32, .rwl, 0⟩, ⟨31, 24, .rwl, 255⟩, ⟨23, 16, .rwl, 16⟩,
       ⟨12, 0, .rwl, 0x1F4⟩]⟩
  | .ALIGN_STATUS => ⟨.tick, 0x28, [], true, none,
      [⟨63, 63, .ro, 0⟩, ⟨62, 62, .ro, 0⟩, ⟨61, 61, .w1c, 0⟩, ⟨60, 60, .w1c, 0⟩, ⟨55, 32, .ro, 0⟩, ⟨31, 0, .ro, 0⟩]⟩
  | .TEN_CMD => ⟨.tick, 0x80, [], false, (some .operator),
      [⟨31, 28, .rwl, 0⟩, ⟨5, 0, .rwl, 0⟩]⟩
  | .TEN_ARG => ⟨.tick, 0x88, [], true, (some .operator),
      [⟨63, 0, .rwl, 0⟩]⟩
  | .TEN_STATUS => ⟨.tick, 0x90, [], false, none,
      [⟨31, 31, .ro, 0⟩, ⟨23, 16, .ro, 0⟩, ⟨5, 0, .ro, 0⟩]⟩
  | .TEN_RESERVE => ⟨.tick, 0x98, [], false, (some .installer),
      [⟨31, 0, .rwl, 0x4040404⟩]⟩
  | .TEN_STATE => ⟨.tick, 0x100, [(0x8, 1, 63)], true, none,
      [⟨63, 61, .ro, 0⟩, ⟨60, 60, .ro, 0⟩, ⟨59, 59, .ro, 0⟩, ⟨55, 48, .ro, 0⟩, ⟨47, 0, .ro, 0⟩]⟩
  | .SCHED_CTRL => ⟨.tick, 0x40, [], false, (some .operator),
      [⟨31, 31, .wo, 0⟩, ⟨30, 30, .ro, 0⟩, ⟨29, 29, .ro, 0⟩, ⟨28, 28, .rwl, 0⟩, ⟨27, 27, .rwl, 0⟩,
       ⟨26, 18, .rwl, 1⟩, ⟨17, 9, .rwl, 1⟩, ⟨7, 0, .rwl, 0⟩]⟩
  | .SCHED_SLOT => ⟨.tick, 0x1000, [(0x800, 0, 1), (0x8, 0, 255)], true, (some .operator),
      [⟨57, 52, .rwl, 0⟩, ⟨47, 40, .rwl, 0⟩, ⟨31, 16, .rwl, 0⟩]⟩
  | .SCHED_STATUS => ⟨.tick, 0x48, [], false, none,
      [⟨21, 16, .ro, 0⟩, ⟨10, 8, .ro, 0⟩, ⟨7, 0, .ro, 0⟩]⟩
  | .SCHED_COUNTS => ⟨.tick, 0x50, [], true, none,
      [⟨63, 32, .rw, 0⟩, ⟨31, 0, .rw, 0⟩]⟩
  | .CORE_CTRL => ⟨.core, 0x0, [], false, (some .maker),
      [⟨1, 1, .rwl, 0⟩, ⟨0, 0, .rwl, 0⟩]⟩
  | .CORE_STATUS => ⟨.core, 0x8, [], false, none,
      [⟨31, 31, .ro, 0⟩, ⟨30, 30, .ro, 0⟩, ⟨7, 6, .ro, 1⟩, ⟨5, 0, .ro, 0⟩]⟩
  | .CORE_PC => ⟨.core, 0x10, [], true, none,
      [⟨63, 0, .ro, 0⟩]⟩
  | .CQ_STATE => ⟨.core, 0x100, [(0x8, 0, 3)], true, none,
      [⟨63, 63, .ro, 0⟩, ⟨62, 62, .ro, 0⟩, ⟨61, 61, .w1c, 0⟩, ⟨42, 32, .ro, 0⟩, ⟨31, 0, .ro, 0⟩]⟩
  | .CQ_ERR => ⟨.core, 0x140, [], true, none,
      [⟨63, 63, .w1c, 0⟩, ⟨39, 36, .ro, 0⟩, ⟨35, 34, .ro, 0⟩, ⟨31, 0, .ro, 0⟩]⟩
  | .EVC => ⟨.core, 0x1000, [(0x4, 0, 1023)], false, none,
      [⟨31, 0, .ro, 0⟩]⟩
  | .BLK_STATUS => ⟨.blk, 0x0, [], true, none,
      [⟨63, 63, .ro, 0⟩, ⟨62, 62, .ro, 0⟩, ⟨61, 61, .ro, 0⟩, ⟨57, 48, .ro, 0⟩, ⟨47, 42, .ro, 0⟩, ⟨39, 32, .ro, 0⟩,
       ⟨31, 0, .ro, 0⟩]⟩
  | .BLK_PC => ⟨.blk, 0x8, [], true, none,
      [⟨63, 0, .ro, 0⟩]⟩
  | .BLK_INT => ⟨.blk, 0x10, [], false, none,
      [⟨31, 16, .ro, 0⟩, ⟨15, 0, .ro, 0⟩]⟩
  | .BLK_ERR => ⟨.blk, 0x18, [], true, none,
      [⟨63, 63, .w1c, 0⟩, ⟨62, 62, .w1c, 0⟩, ⟨55, 48, .ro, 0⟩, ⟨47, 0, .ro, 0⟩]⟩
  | .BLK_POISON => ⟨.blk, 0x20, [], true, none,
      [⟨63, 0, .ro, 0⟩]⟩
  | .BLK_CTRL => ⟨.blk, 0x30, [], false, (some .maker),
      [⟨0, 0, .rwl, 0⟩]⟩
  | .BLK_SOFT_INT => ⟨.blk, 0x38, [], false, none,
      [⟨0, 0, .wo, 0⟩]⟩
  | .BLK_POST => ⟨.blk, 0x100, [(0x4, 0, 15)], false, none,
      [⟨31, 0, .ro, 0⟩]⟩
  | .DMA_POOL_CFG => ⟨.dma, 0x0, [], false, (some .installer),
      [⟨15, 0, .rwl, 16⟩]⟩
  | .DMA_POOL_STATUS => ⟨.dma, 0x8, [], false, none,
      [⟨31, 16, .ro, 0⟩, ⟨15, 0, .ro, 0⟩]⟩
  | .DMA_CH_STATUS => ⟨.dma, 0x100, [(0x8, 0, 63)], true, none,
      [⟨63, 63, .ro, 0⟩, ⟨62, 60, .ro, 0⟩, ⟨59, 54, .ro, 0⟩, ⟨47, 40, .ro, 0⟩, ⟨39, 8, .ro, 0⟩]⟩
  | .DMA_CH_ERR => ⟨.dma, 0x400, [(0x8, 0, 63)], true, none,
      [⟨63, 63, .w1c, 0⟩, ⟨55, 0, .ro, 0⟩]⟩
  | .GA_STATUS => ⟨.ga, 0x0, [], true, none,
      [⟨63, 63, .ro, 0⟩, ⟨62, 62, .ro, 0⟩, ⟨61, 61, .ro, 0⟩, ⟨59, 52, .ro, 0⟩, ⟨51, 46, .ro, 0⟩, ⟨31, 0, .ro, 0⟩]⟩
  | .GA_ERR => ⟨.ga, 0x8, [], true, none,
      [⟨63, 63, .w1c, 0⟩, ⟨62, 62, .w1c, 0⟩, ⟨51, 44, .ro, 0⟩, ⟨43, 40, .ro, 0⟩, ⟨19, 0, .ro, 0⟩]⟩
  | .GA_POISON => ⟨.ga, 0x10, [], false, none,
      [⟨15, 0, .ro, 0⟩]⟩
  | .GA_CHK => ⟨.ga, 0x18, [], true, none,
      [⟨63, 63, .w1c, 0⟩, ⟨62, 62, .w1c, 0⟩, ⟨47, 32, .ro, 0⟩, ⟨31, 28, .ro, 0⟩, ⟨27, 27, .ro, 0⟩, ⟨23, 16, .ro, 0⟩]⟩
  | .GA_CTRL => ⟨.ga, 0x20, [], false, (some .maker),
      [⟨0, 0, .rwl, 0⟩]⟩
  | .GA_ACTIVE_CCLK => ⟨.ga, 0x28, [], true, none,
      [⟨63, 0, .ro, 0⟩]⟩
  | .BLK_CHK => ⟨.blk, 0x40, [], true, none,
      [⟨63, 63, .w1c, 0⟩, ⟨62, 62, .w1c, 0⟩, ⟨47, 32, .ro, 0⟩, ⟨31, 26, .ro, 0⟩, ⟨25, 25, .ro, 0⟩, ⟨20, 16, .ro, 0⟩]⟩
  | .RE_STATUS => ⟨.re, 0x0, [], true, none,
      [⟨63, 63, .ro, 0⟩, ⟨62, 62, .ro, 0⟩, ⟨61, 58, .ro, 0⟩, ⟨57, 54, .ro, 0⟩, ⟨53, 48, .ro, 0⟩, ⟨47, 32, .ro, 0⟩,
       ⟨31, 0, .ro, 0⟩]⟩
  | .RE_ERR => ⟨.re, 0x8, [], true, none,
      [⟨63, 63, .w1c, 0⟩, ⟨62, 62, .w1c, 0⟩, ⟨55, 48, .ro, 0⟩, ⟨47, 44, .ro, 0⟩, ⟨39, 32, .ro, 0⟩, ⟨31, 0, .ro, 0⟩]⟩
  | .RE_COUNTS => ⟨.re, 0x10, [], true, none,
      [⟨63, 32, .ro, 0⟩, ⟨31, 0, .ro, 0⟩]⟩
  | .RE_ACTIVE_CCLK => ⟨.re, 0x18, [], true, none,
      [⟨63, 0, .ro, 0⟩]⟩
  | .RE_ECC => ⟨.re, 0x20, [], false, none,
      [⟨15, 0, .ro, 0⟩]⟩
  | .RE_CFG => ⟨.re, 0x30, [], false, (some .installer),
      [⟨11, 0, .rwl, 10⟩]⟩
  | .RM_STATUS => ⟨.rm, 0x0, [], true, none,
      [⟨63, 63, .ro, 0⟩, ⟨62, 59, .ro, 0⟩, ⟨58, 53, .ro, 0⟩, ⟨52, 46, .ro, 0⟩, ⟨45, 42, .ro, 0⟩, ⟨41, 31, .ro, 0⟩,
       ⟨30, 0, .ro, 0⟩]⟩
  | .RM_ERR => ⟨.rm, 0x8, [], true, none,
      [⟨63, 63, .w1c, 0⟩, ⟨62, 62, .w1c, 0⟩, ⟨55, 48, .ro, 0⟩, ⟨47, 44, .ro, 0⟩, ⟨39, 24, .ro, 0⟩, ⟨13, 0, .ro, 0⟩]⟩
  | .RM_HITS => ⟨.rm, 0x10, [], true, none,
      [⟨63, 32, .ro, 0⟩, ⟨31, 0, .ro, 0⟩]⟩
  | .RM_MERGE => ⟨.rm, 0x18, [], true, none,
      [⟨63, 32, .ro, 0⟩, ⟨31, 0, .ro, 0⟩]⟩
  | .RM_ACTIVE_CCLK => ⟨.rm, 0x20, [], true, none,
      [⟨63, 0, .ro, 0⟩]⟩
  | .RM_BYTES => ⟨.rm, 0x100, [(0x8, 1, 6)], true, none,
      [⟨63, 0, .ro, 0⟩]⟩
  | .SQ_CFG => ⟨.square, 0x0, [], false, (some .installer),
      [⟨12, 0, .rwl, 0x400⟩]⟩
  | .SQ_STATUS => ⟨.square, 0x8, [], true, none,
      [⟨63, 51, .ro, 0x1000⟩, ⟨50, 38, .ro, 0x1000⟩, ⟨37, 25, .ro, 0⟩, ⟨24, 12, .ro, 0⟩]⟩
  | .SQ_ECC => ⟨.square, 0x10, [], false, none,
      [⟨31, 16, .ro, 0⟩, ⟨15, 0, .ro, 0⟩]⟩
  | .SQ_ERR => ⟨.square, 0x18, [], true, none,
      [⟨63, 63, .w1c, 0⟩, ⟨62, 62, .w1c, 0⟩, ⟨28, 28, .ro, 0⟩, ⟨27, 16, .ro, 0⟩, ⟨15, 7, .ro, 0⟩]⟩
  | .SQ_COMBINE => ⟨.square, 0x20, [], true, none,
      [⟨63, 0, .ro, 0⟩]⟩
  | .SQ_TEN => ⟨.square, 0x100, [(0x8, 1, 63)], true, none,
      [⟨63, 51, .ro, 0⟩, ⟨50, 38, .ro, 0⟩, ⟨37, 25, .ro, 0⟩, ⟨24, 12, .ro, 0⟩]⟩
  | .T1_RESERVE => ⟨.t2, 0x0, [], true, (some .installer),
      [⟨63, 63, .ro, 0⟩, ⟨55, 48, .ro, 0⟩, ⟨47, 24, .ro, 0⟩, ⟨20, 16, .ro, 0⟩, ⟨4, 0, .rwl, 2⟩]⟩
  | .T2_UP => ⟨.t2, 0x10, [], true, none,
      [⟨63, 0, .ro, 0⟩]⟩
  | .T2_RETIRED => ⟨.t2, 0x18, [], true, none,
      [⟨63, 0, .ro, 0⟩]⟩
  | .T2_ECC => ⟨.t2, 0x20, [], true, none,
      [⟨63, 32, .ro, 0⟩, ⟨31, 0, .ro, 0⟩]⟩
  | .T2_ERR => ⟨.t2, 0x28, [], true, none,
      [⟨63, 63, .w1c, 0⟩, ⟨62, 62, .w1c, 0⟩, ⟨55, 48, .ro, 0⟩, ⟨47, 42, .ro, 0⟩, ⟨41, 41, .ro, 0⟩, ⟨40, 0, .ro, 0⟩]⟩
  | .T2_RETAIN => ⟨.t2, 0x30, [], false, none,
      [⟨31, 31, .ro, 0⟩, ⟨30, 30, .w1c, 0⟩, ⟨29, 29, .w1c, 0⟩]⟩
  | .THATCH_STATS => ⟨.t2, 0x40, [], true, none,
      [⟨63, 32, .ro, 0⟩, ⟨31, 0, .ro, 0⟩]⟩
  | .T2_RANGE_BASE => ⟨.t2, 0x100, [(0x10, 0, 15)], true, (some .installer),
      [⟨40, 12, .rwl, 0⟩, ⟨4, 4, .ro, 0⟩, ⟨3, 3, .ro, 0⟩, ⟨2, 2, .rwl, 0⟩, ⟨1, 1, .rwl, 0⟩, ⟨0, 0, .rwl, 0⟩]⟩
  | .T2_RANGE_LEN => ⟨.t2, 0x108, [(0x10, 0, 15)], true, (some .installer),
      [⟨40, 12, .rwl, 0⟩]⟩
  | .FL_CFG => ⟨.flash, 0x0, [], false, (some .installer),
      [⟨15, 12, .rwl, 0⟩, ⟨11, 8, .rwl, 0⟩, ⟨7, 4, .rwl, 0⟩, ⟨0, 0, .rwl, 0⟩]⟩
  | .FL_TIMEOUT => ⟨.flash, 0x8, [], false, (some .installer),
      [⟨15, 0, .rwl, 100⟩]⟩
  | .FL_TRIM_ADDR => ⟨.flash, 0x10, [], true, (some .operator),
      [⟨63, 0, .rwl, 0⟩]⟩
  | .FL_TRIM_CTL => ⟨.flash, 0x18, [], true, (some .operator),
      [⟨63, 63, .ro, 0⟩, ⟨62, 62, .ro, 0⟩, ⟨31, 0, .rwl, 0⟩]⟩
  | .FL_ERR => ⟨.flash, 0x40, [], true, none,
      [⟨63, 63, .w1c, 0⟩, ⟨62, 62, .w1c, 0⟩, ⟨61, 59, .ro, 0⟩, ⟨55, 48, .ro, 0⟩, ⟨47, 33, .ro, 0⟩, ⟨32, 0, .ro, 0⟩]⟩
  | .FL_DRIVE => ⟨.flash, 0x100, [(0x8, 0, 7)], true, none,
      [⟨63, 63, .ro, 0⟩, ⟨62, 62, .ro, 0⟩, ⟨61, 61, .ro, 0⟩, ⟨55, 48, .ro, 0⟩, ⟨47, 0, .ro, 0⟩]⟩
  | .FL_TEN => ⟨.flash, 0x200, [(0x8, 1, 63)], false, (some .operator),
      [⟨1, 1, .rwl, 0⟩, ⟨0, 0, .rwl, 0⟩]⟩
  | .SHP_CTRL => ⟨.shp, 0x0, [], false, (some .operator),
      [⟨15, 0, .rwl, 100⟩]⟩
  | .SHP_CFG => ⟨.shp, 0x1000, [(0x80, 1, 63), (0x20, 0, 2)], true, (some .operator),
      [⟨45, 45, .rwl, 1⟩, ⟨44, 44, .rwl, 0⟩, ⟨43, 20, .rwl, 0⟩, ⟨19, 0, .rwl, 0⟩]⟩
  | .SHP_STATE => ⟨.shp, 0x1008, [(0x80, 1, 63), (0x20, 0, 2)], true, none,
      [⟨63, 48, .ro, 0⟩, ⟨31, 0, .ro, 0⟩]⟩
  | .SHP_SAMPLE => ⟨.shp, 0x1010, [(0x80, 1, 63), (0x20, 0, 2)], true, none,
      [⟨63, 48, .ro, 0⟩, ⟨47, 32, .ro, 0⟩, ⟨31, 0, .ro, 0⟩]⟩
  | .HBM_STATUS => ⟨.hbm, 0x0, [(0x8, 0, 1)], true, none,
      [⟨63, 63, .ro, 0⟩, ⟨62, 62, .ro, 0⟩, ⟨61, 61, .ro, 0⟩, ⟨55, 48, .ro, 0⟩, ⟨47, 32, .ro, 0⟩]⟩
  | .HBM_RETIRED => ⟨.hbm, 0x10, [(0x8, 0, 1)], true, none,
      [⟨63, 0, .ro, 0⟩]⟩
  | .HBM_ECC => ⟨.hbm, 0x20, [(0x8, 0, 1)], true, none,
      [⟨63, 32, .ro, 0⟩, ⟨31, 0, .ro, 0⟩]⟩
  | .HBM_ERR => ⟨.hbm, 0x30, [], true, none,
      [⟨63, 63, .w1c, 0⟩, ⟨62, 62, .w1c, 0⟩, ⟨55, 48, .ro, 0⟩, ⟨46, 39, .ro, 0⟩, ⟨38, 0, .ro, 0⟩]⟩
  | .FAB_ID => ⟨.switch, 0x0, [], false, (some .installer),
      [⟨15, 10, .rwl, 0⟩, ⟨9, 5, .rwl, 0⟩, ⟨4, 0, .rwl, 0⟩]⟩
  | .FAB_ROLE => ⟨.switch, 0x8, [], false, (some .operator),
      [⟨1, 1, .ro, 0⟩, ⟨0, 0, .rwl, 0⟩]⟩
  | .LINK_TOKEN => ⟨.switch, 0x10, [], true, none,
      [⟨63, 0, .ro, 0⟩]⟩
  | .FAB_TIMERS => ⟨.switch, 0x18, [], true, (some .operator),
      [⟨63, 48, .rwl, 0x7D0⟩, ⟨47, 32, .rwl, 0x3E8⟩, ⟨31, 20, .rwl, 100⟩, ⟨19, 16, .rwl, 8⟩, ⟨15, 4, .rwl, 50⟩,
       ⟨3, 0, .rwl, 3⟩]⟩
  | .EPOCH_CTRL => ⟨.switch, 0x20, [], false, (some .operator),
      [⟨2, 2, .wo, 0⟩, ⟨1, 1, .wo, 0⟩, ⟨0, 0, .rwl, 0⟩]⟩
  | .EPOCH_STATUS => ⟨.switch, 0x28, [], true, none,
      [⟨63, 63, .ro, 0⟩, ⟨62, 62, .ro, 0⟩, ⟨61, 61, .ro, 0⟩, ⟨60, 60, .ro, 1⟩, ⟨31, 16, .ro, 0⟩, ⟨15, 0, .ro, 0⟩]⟩
  | .FAB_E2E => ⟨.switch, 0x40, [], true, none,
      [⟨63, 32, .ro, 0⟩, ⟨31, 0, .ro, 0⟩]⟩
  | .FAB_ERR => ⟨.switch, 0x48, [], true, none,
      [⟨63, 63, .w1c, 0⟩, ⟨62, 62, .w1c, 0⟩, ⟨55, 48, .ro, 0⟩, ⟨47, 42, .ro, 0⟩, ⟨41, 38, .ro, 0⟩, ⟨31, 16, .ro, 0⟩,
       ⟨15, 0, .ro, 0⟩]⟩
  | .ROUTE => ⟨.switch, 0x1000, [(0x800, 0, 1), (0x8, 0, 127)], true, (some .operator),
      [⟨63, 63, .rwl, 0⟩, ⟨35, 0, .rwl, 0⟩]⟩
  | .PKEY => ⟨.switch, 0x2000, [(0x8, 0, 63)], true, (some .operator),
      [⟨63, 63, .rwl, 0⟩, ⟨62, 62, .rwl, 0⟩, ⟨51, 16, .rwl, 0⟩, ⟨15, 0, .rwl, 0⟩]⟩
  | .TEN_PKEY => ⟨.switch, 0x2400, [(0x8, 1, 63)], false, (some .operator),
      [⟨15, 0, .rwl, 0⟩]⟩
  | .PORT_CTRL => ⟨.port, 0x0, [], false, (some .installer),
      [⟨7, 6, .rwl, 0⟩, ⟨5, 4, .rwl, 0⟩, ⟨3, 3, .rwl, 1⟩, ⟨2, 2, .wo, 0⟩, ⟨0, 0, .rwl, 0⟩]⟩
  | .PORT_STATUS => ⟨.port, 0x8, [], true, none,
      [⟨63, 60, .ro, 0⟩, ⟨59, 58, .ro, 0⟩, ⟨57, 54, .ro, 0⟩, ⟨53, 50, .ro, 0⟩, ⟨49, 49, .ro, 0⟩, ⟨48, 48, .ro, 0⟩,
       ⟨47, 40, .ro, 0⟩, ⟨31, 26, .ro, 0⟩, ⟨15, 0, .ro, 0⟩]⟩
  | .PORT_VC_CFG => ⟨.port, 0x10, [], true, (some .installer),
      [⟨63, 48, .rwl, 0x2000⟩, ⟨47, 36, .rwl, 0x200⟩, ⟨35, 24, .rwl, 0x200⟩, ⟨23, 12, .rwl, 0x200⟩,
       ⟨11, 0, .rwl, 64⟩]⟩
  | .PORT_ARB => ⟨.port, 0x18, [], false, (some .operator),
      [⟨23, 16, .rwl, 1⟩, ⟨15, 8, .rwl, 4⟩, ⟨7, 0, .rwl, 2⟩]⟩
  | .PORT_CREDIT => ⟨.port, 0x20, [], true, none,
      [⟨63, 48, .ro, 0⟩, ⟨47, 36, .ro, 0⟩, ⟨35, 24, .ro, 0⟩, ⟨23, 12, .ro, 0⟩, ⟨11, 0, .ro, 0⟩]⟩
  | .PORT_FEC => ⟨.port, 0x28, [], true, none,
      [⟨63, 32, .ro, 0⟩, ⟨31, 0, .ro, 0⟩]⟩
  | .PORT_LINK => ⟨.port, 0x30, [], true, none,
      [⟨63, 32, .rw, 0⟩, ⟨31, 16, .rw, 0⟩, ⟨15, 0, .rw, 0⟩]⟩
  | .PORT_DROPS => ⟨.port, 0x38, [], true, none,
      [⟨63, 48, .ro, 0⟩, ⟨47, 32, .ro, 0⟩, ⟨31, 16, .ro, 0⟩, ⟨15, 0, .ro, 0⟩]⟩
  | .PORT_ERR => ⟨.port, 0x40, [], true, none,
      [⟨63, 63, .w1c, 0⟩, ⟨62, 62, .w1c, 0⟩, ⟨55, 48, .ro, 0⟩, ⟨47, 44, .ro, 0⟩, ⟨43, 40, .ro, 0⟩]⟩
  | .LANE_STATUS => ⟨.port, 0x100, [(0x8, 0, 3)], true, none,
      [⟨63, 63, .ro, 0⟩, ⟨62, 62, .ro, 0⟩, ⟨47, 32, .ro, 0⟩, ⟨31, 0, .ro, 0⟩]⟩
  | .PSHP_CFG => ⟨.opm, 0xFFE0, [(0x80, 0, 35), (0x20, 1, 3)], true, (some .operator),
      [⟨45, 45, .rwl, 1⟩, ⟨44, 44, .rwl, 0⟩, ⟨43, 20, .rwl, 0⟩, ⟨19, 0, .rwl, 0⟩]⟩
  | .SSHP_CFG => ⟨.opm, 0x20000, [(0x80, 1, 63), (0x20, 0, 1)], true, (some .operator),
      [⟨46, 46, .rwl, 0⟩, ⟨45, 45, .rwl, 1⟩, ⟨44, 44, .rwl, 0⟩, ⟨43, 20, .rwl, 0⟩, ⟨19, 0, .rwl, 0⟩]⟩
  | .OPM_CTRL => ⟨.opm, 0x0, [], true, (some .operator),
      [⟨63, 63, .rwl, 1⟩, ⟨62, 62, .rwl, 1⟩, ⟨47, 32, .rwl, 100⟩, ⟨15, 0, .rwl, 0x7D0⟩]⟩
  | .LEASE_CFG => ⟨.opm, 0x8, [], false, (some .operator),
      [⟨15, 0, .rwl, 50⟩]⟩
  | .OPM_STATUS => ⟨.opm, 0x10, [], true, none,
      [⟨63, 53, .ro, 0⟩, ⟨52, 32, .ro, 0⟩, ⟨20, 0, .ro, 0x9F00⟩]⟩
  | .OPM_COUNTS => ⟨.opm, 0x18, [], true, none,
      [⟨63, 32, .ro, 0⟩, ⟨31, 0, .ro, 0⟩]⟩
  | .CANCEL_COUNTS => ⟨.opm, 0x20, [], true, none,
      [⟨63, 42, .ro, 0⟩, ⟨41, 21, .ro, 0⟩, ⟨20, 0, .ro, 0⟩]⟩
  | .GUTTER_BYTES => ⟨.opm, 0x28, [], true, none,
      [⟨63, 0, .ro, 0⟩]⟩
  | .OPM_ERR => ⟨.opm, 0x30, [], true, none,
      [⟨63, 63, .w1c, 0⟩, ⟨62, 62, .w1c, 0⟩, ⟨55, 48, .ro, 0⟩, ⟨47, 44, .ro, 0⟩, ⟨43, 38, .ro, 0⟩, ⟨31, 16, .ro, 0⟩,
       ⟨15, 0, .ro, 0⟩]⟩
  | .WARD_STATE => ⟨.opm, 0x100, [(0x8, 1, 63)], true, none,
      [⟨63, 62, .ro, 0⟩, ⟨47, 32, .ro, 0⟩, ⟨31, 16, .ro, 0⟩, ⟨15, 0, .ro, 0⟩]⟩
  | .AUTH_CTL => ⟨.opm, 0x400, [(0x10, 0, 15)], true, (some .operator),
      [⟨63, 63, .rwl, 0⟩, ⟨62, 56, .rwl, 10⟩, ⟨55, 40, .rwl, 0⟩, ⟨39, 24, .rwl, 0⟩, ⟨23, 12, .ro, 0⟩,
       ⟨11, 0, .ro, 0⟩]⟩
  | .AUTH_LIST => ⟨.opm, 0x408, [(0x10, 0, 15)], true, (some .operator),
      [⟨63, 52, .rwl, 0⟩, ⟨51, 0, .rwl, 0⟩]⟩
  | .AUTH_COUNTS => ⟨.opm, 0x500, [(0x8, 0, 15)], true, none,
      [⟨47, 32, .ro, 0⟩, ⟨31, 16, .ro, 0⟩]⟩
  | .CMD_ALLOW => ⟨.opm, 0x600, [(0x8, 0, 7)], false, (some .operator),
      [⟨31, 31, .rwl, 0⟩, ⟨15, 0, .rwl, 0⟩]⟩
  | .CMD_TX_CTL => ⟨.opm, 0x700, [], true, (some .operator),
      [⟨63, 63, .wo, 0⟩, ⟨62, 62, .ro, 0⟩, ⟨61, 60, .rwl, 1⟩, ⟨47, 40, .ro, 0⟩, ⟨34, 30, .rwl, 0⟩, ⟨15, 0, .rwl, 0⟩]⟩
  | .CMD_TX_BODY => ⟨.opm, 0x708, [(0x8, 0, 2)], true, (some .operator),
      [⟨63, 0, .rwl, 0⟩]⟩
  | .STOP_TRAFFIC => ⟨.opm, 0x800, [], true, none,
      [⟨63, 0, .ro, 0⟩]⟩
  | .STOP_STEP => ⟨.opm, 0x808, [], true, none,
      [⟨63, 0, .ro, 0⟩]⟩
  | .COLL_STATUS => ⟨.opm, 0x30000, [(0x8, 0, 15)], true, none,
      [⟨63, 63, .ro, 0⟩, ⟨62, 60, .ro, 0⟩, ⟨59, 54, .ro, 0⟩, ⟨53, 50, .ro, 0⟩, ⟨49, 48, .ro, 0⟩, ⟨47, 32, .ro, 0⟩,
       ⟨31, 24, .ro, 0⟩, ⟨23, 0, .ro, 0⟩]⟩
  | .ALLEY_CTRL => ⟨.alley, 0x0, [], false, (some .installer),
      [⟨30, 0, .rwl, 0⟩]⟩
  | .ALLEY_CMD_EN => ⟨.alley, 0x8, [], false, (some .operator),
      [⟨30, 0, .rwl, 0⟩]⟩
  | .ALLEY_ERR => ⟨.alley, 0x10, [], true, none,
      [⟨63, 63, .w1c, 0⟩, ⟨62, 62, .w1c, 0⟩, ⟨55, 48, .ro, 0⟩, ⟨47, 43, .ro, 0⟩]⟩
  | .ALLEY_STATUS => ⟨.alley, 0x100, [(0x8, 0, 30)], true, none,
      [⟨63, 63, .ro, 0⟩, ⟨62, 62, .ro, 0⟩, ⟨47, 32, .ro, 0⟩, ⟨31, 16, .ro, 0⟩, ⟨15, 0, .ro, 0⟩]⟩
  | .RIDGE_STATUS => ⟨.ridge, 0x0, [], true, none,
      [⟨63, 61, .ro, 5⟩, ⟨60, 60, .w1c, 0⟩, ⟨59, 59, .w1c, 0⟩, ⟨58, 58, .w1c, 0⟩, ⟨57, 57, .w1c, 0⟩,
       ⟨56, 56, .w1c, 0⟩, ⟨55, 48, .ro, 0⟩, ⟨47, 40, .ro, 0⟩, ⟨39, 36, .ro, 0⟩, ⟨35, 32, .ro, 0⟩, ⟨31, 0, .ro, 0⟩]⟩
  | .RIDGE_CTRL => ⟨.ridge, 0x8, [], false, (some .installer),
      [⟨5, 5, .wo, 0⟩, ⟨4, 4, .rwl, 1⟩, ⟨3, 0, .rwl, 14⟩]⟩
  | .RET_LIMITS => ⟨.ridge, 0x40, [], true, (some .installer),
      [⟨63, 56, .rwl, 3⟩, ⟨55, 48, .rwl, 3⟩, ⟨47, 40, .rwl, 2⟩, ⟨39, 32, .rwl, 8⟩, ⟨31, 24, .rwl, 16⟩,
       ⟨23, 16, .rwl, 8⟩, ⟨15, 8, .rwl, 3⟩, ⟨7, 0, .rwl, 4⟩]⟩
  | .RET_LIMITS2 => ⟨.ridge, 0x48, [], true, (some .installer),
      [⟨63, 48, .rwl, 64⟩, ⟨47, 40, .rwl, 3⟩, ⟨39, 32, .rwl, 3⟩]⟩
  | .CCC_WDOG => ⟨.ridge, 0x50, [], false, (some .installer),
      [⟨31, 31, .wo, 0⟩, ⟨30, 30, .rwl, 0⟩, ⟨15, 0, .rwl, 0x4E20⟩]⟩
  | .FIRST => ⟨.ridge, 0x100, [(0x8, 0, 3)], true, none,
      [⟨63, 0, .ro, 0⟩]⟩
  | .RET_BLOCK => ⟨.ridge, 0x200, [(0x4, 0, 31)], false, none,
      [⟨31, 0, .ro, 0⟩]⟩
  | .RET_CLEAR => ⟨.ridge, 0x280, [], false, (some .installer),
      [⟨31, 28, .rwl, 0⟩, ⟨15, 0, .rwl, 0⟩]⟩
  | .RIDGE_FORCE => ⟨.ridge, 0x300, [(0x8, 0, 3)], true, (some .installer),
      [⟨63, 0, .rwl, 0⟩]⟩
  | .FORCE_UNIT => ⟨.ridge, 0x320, [], false, (some .installer),
      [⟨31, 31, .rwl, 0⟩, ⟨15, 0, .rwl, 0⟩]⟩
  | .GRAVE_FORCE => ⟨.ridge, 0x328, [], false, (some .maker),
      [⟨7, 0, .rwl, 0⟩]⟩
  | .HIST => ⟨.ridge, 0x1000, [(0x20, 0, 31), (0x8, 0, 3)], true, none,
      [⟨63, 0, .ro, 0⟩]⟩
  | .DFU_WDOG => ⟨.dfu, 0x0, [], false, (some .installer),
      [⟨31, 31, .wo, 0⟩, ⟨30, 30, .rwl, 0⟩, ⟨15, 0, .rwl, 0xFA0⟩]⟩
  | .DFU_FORCE => ⟨.dfu, 0x100, [(0x8, 0, 3)], true, (some .installer),
      [⟨63, 0, .rwl, 0⟩]⟩
  | .DFU_FORCE_UNIT => ⟨.dfu, 0x120, [], false, (some .installer),
      [⟨31, 31, .rwl, 0⟩, ⟨13, 0, .rwl, 0⟩]⟩
  | .BLK_FORCE => ⟨.blk, 0x80, [(0x8, 0, 3)], true, (some .installer),
      [⟨63, 0, .rwl, 0⟩]⟩
  | .HIF_STATUS => ⟨.hif, 0x0, [], true, none,
      [⟨63, 63, .ro, 0⟩, ⟨62, 59, .ro, 0⟩, ⟨58, 54, .ro, 0⟩, ⟨53, 53, .ro, 0⟩, ⟨52, 52, .ro, 0⟩, ⟨51, 51, .ro, 0⟩,
       ⟨50, 50, .w1c, 0⟩, ⟨49, 49, .w1c, 0⟩, ⟨31, 16, .ro, 0⟩]⟩
  | .HIF_ERR => ⟨.hif, 0x8, [], true, none,
      [⟨63, 63, .w1c, 0⟩, ⟨62, 62, .w1c, 0⟩, ⟨55, 52, .ro, 0⟩, ⟨51, 44, .ro, 0⟩, ⟨41, 36, .ro, 0⟩, ⟨35, 0, .ro, 0⟩]⟩
  | .BAR2_XLAT => ⟨.hif, 0x100, [(0x8, 0, 63)], true, (some .installer),
      [⟨63, 63, .rwl, 0⟩, ⟨62, 62, .rwl, 0⟩, ⟨55, 30, .rwl, 0⟩]⟩
  | .RES_TEN => ⟨.hif, 0x1000, [(0x8, 1, 63)], false, (some .operator),
      [⟨31, 31, .rwl, 0⟩, ⟨5, 0, .rwl, 0⟩]⟩
  | .RES_CH_CFG => ⟨.hif, 0x2000, [(0x40, 0, 63)], true, (some .operator),
      [⟨63, 63, .rwl, 0⟩, ⟨62, 62, .rwl, 0⟩, ⟨56, 52, .rwl, 6⟩, ⟨44, 32, .rwl, 1⟩]⟩
  | .RES_CH_BASE => ⟨.hif, 0x2008, [(0x40, 0, 63)], true, (some .operator),
      [⟨63, 12, .rwl, 0⟩]⟩
  | .RES_CH_PI => ⟨.hif, 0x2010, [(0x40, 0, 63)], true, none,
      [⟨63, 32, .ro, 1⟩, ⟨31, 0, .ro, 0⟩]⟩
  | .RES_CH_CI => ⟨.hif, 0x2018, [(0x40, 0, 63)], false, none,
      [⟨31, 0, .rw, 0⟩]⟩
  | .RES_CH_STATUS => ⟨.hif, 0x2020, [(0x40, 0, 63)], true, none,
      [⟨63, 51, .ro, 0⟩, ⟨50, 38, .ro, 0⟩, ⟨31, 0, .ro, 0⟩]⟩
  | .RP_STATUS => ⟨.hif, 0x10000, [(0x100, 0, 63)], false, none,
      [⟨31, 0, .ro, 0xFFFFFFFF⟩]⟩
  | .RESULT_ACK => ⟨.hif, 0x10008, [(0x100, 0, 63)], false, none,
      [⟨31, 0, .wo, 0⟩]⟩
  | .RP_DATA => ⟨.hif, 0x10080, [(0x100, 0, 63), (0x8, 0, 15)], true, none,
      [⟨63, 0, .ro, 0⟩]⟩
  | .CLAIM => ⟨.iccore, 0x0, [], false, none,
      [⟨31, 16, .ro, 0⟩, ⟨15, 0, .ro, 0⟩]⟩
  | .COMPLETE => ⟨.iccore, 0x8, [], false, none,
      [⟨15, 0, .wo, 0⟩]⟩
  | .THRESHOLD => ⟨.iccore, 0x10, [], false, none,
      [⟨2, 0, .rw, 0⟩]⟩
  | .SOFT => ⟨.iccore, 0x18, [], false, none,
      [⟨0, 0, .wo, 0⟩]⟩
  | .IC_STATUS => ⟨.chipic, 0xF00, [], false, none,
      [⟨31, 16, .ro, 0⟩]⟩
  | .GF_CFG => ⟨.chipic, 0x3000, [(0x8, 0, 7)], false, (some .installer),
      [⟨31, 16, .ro, 0⟩, ⟨8, 8, .ro, 0⟩, ⟨7, 0, .rwl, 32⟩]⟩
  | .ROLE_REQ => ⟨.secAgent, 0x0, [], false, none,
      [⟨31, 31, .wo, 0⟩, ⟨30, 30, .wo, 0⟩, ⟨29, 29, .wo, 0⟩, ⟨9, 8, .rw, 0⟩, ⟨2, 0, .rw, 0⟩]⟩
  | .ROLE_STATUS => ⟨.secAgent, 0x8, [], true, none,
      [⟨63, 63, .ro, 0⟩, ⟨62, 62, .ro, 0⟩, ⟨61, 61, .ro, 0⟩, ⟨55, 48, .ro, 0⟩, ⟨47, 40, .ro, 0⟩, ⟨31, 0, .ro, 0⟩]⟩
  | .ROLE_HELD => ⟨.secAgent, 0x10, [], true, none,
      [⟨63, 48, .ro, 0⟩, ⟨47, 32, .ro, 0⟩, ⟨31, 16, .ro, 0⟩, ⟨2, 0, .ro, 0⟩]⟩
  | .ROLE_CFG => ⟨.sec, 0x20, [], false, (some .installer),
      [⟨15, 0, .rwl, 0x384⟩]⟩
  | .ROLE_CHALLENGE => ⟨.secAgent, 0x100, [(0x8, 0, 5)], true, none,
      [⟨63, 0, .ro, 0⟩]⟩
  | .ROLE_RESP => ⟨.secAgent, 0x140, [(0x8, 0, 11)], true, none,
      [⟨63, 0, .rw, 0⟩]⟩
  | .KEY_DATA => ⟨.sec, 0x200, [(0x8, 0, 11)], true, (some .installer),
      [⟨63, 0, .rwl, 0⟩]⟩
  | .KEY_CTL => ⟨.sec, 0x280, [], false, (some .installer),
      [⟨31, 31, .wo, 0⟩, ⟨30, 30, .ro, 0⟩, ⟨29, 29, .ro, 0⟩, ⟨2, 0, .rwl, 0⟩]⟩
  | .KEY_STATUS => ⟨.sec, 0x288, [], false, none,
      [⟨15, 8, .ro, 0⟩, ⟨7, 0, .ro, 0⟩]⟩
  | .AUD_STATUS => ⟨.sec, 0x300, [], true, none,
      [⟨63, 63, .ro, 0⟩, ⟨62, 62, .ro, 0⟩, ⟨56, 48, .ro, 0⟩, ⟨47, 32, .ro, 0⟩, ⟨31, 0, .ro, 0⟩]⟩
  | .AUD_READ => ⟨.sec, 0x308, [], true, none,
      [⟨63, 63, .ro, 0⟩, ⟨62, 62, .ro, 0⟩, ⟨31, 0, .rw, 0⟩]⟩
  | .AUD_DATA => ⟨.sec, 0x340, [(0x8, 0, 7)], true, none,
      [⟨63, 0, .ro, 0⟩]⟩
  | .REPRO_SIG => ⟨.repro, 0x0, [], true, none,
      [⟨63, 48, .ro, 0⟩, ⟨47, 40, .ro, 0⟩, ⟨39, 32, .ro, 0⟩, ⟨31, 16, .ro, 0⟩]⟩
  | .DG_CMD => ⟨.repro, 0x10, [], false, (some .operator),
      [⟨31, 28, .rwl, 0⟩, ⟨9, 4, .rwl, 0⟩, ⟨3, 0, .rwl, 0⟩]⟩
  | .DG_STATUS => ⟨.repro, 0x18, [], true, none,
      [⟨63, 63, .ro, 0⟩, ⟨62, 62, .w1c, 0⟩, ⟨47, 0, .ro, 0⟩]⟩
  | .DG_SEL => ⟨.repro, 0x20, [], true, none,
      [⟨63, 63, .ro, 0⟩, ⟨9, 4, .rw, 0⟩, ⟨3, 0, .rw, 0⟩]⟩
  | .DG_VAL => ⟨.repro, 0x40, [(0x8, 0, 3)], true, none,
      [⟨63, 0, .ro, 0⟩]⟩
  | .DG_TEN => ⟨.repro, 0x100, [(0x8, 1, 63)], false, (some .operator),
      [⟨16, 16, .ro, 0⟩, ⟨0, 0, .rwl, 0⟩]⟩
  | .PWR_STATUS => ⟨.power, 0x0, [], true, none,
      [⟨63, 63, .ro, 0⟩, ⟨62, 60, .ro, 0⟩, ⟨59, 59, .ro, 0⟩, ⟨58, 58, .ro, 0⟩, ⟨57, 57, .ro, 0⟩, ⟨56, 56, .ro, 0⟩,
       ⟨55, 55, .w1c, 0⟩, ⟨47, 32, .ro, 0⟩, ⟨31, 24, .ro, 0⟩]⟩
  | .PWR_LIMIT => ⟨.power, 0x8, [], false, (some .installer),
      [⟨31, 24, .rwl, 115⟩, ⟨23, 16, .rwl, 105⟩, ⟨11, 0, .rwl, 0x76C⟩]⟩
  | .RAIL_STATUS => ⟨.power, 0x100, [(0x8, 0, 12)], true, none,
      [⟨63, 63, .ro, 0⟩, ⟨47, 32, .ro, 0⟩, ⟨15, 0, .ro, 0⟩]⟩
  | .RST_CTRL => ⟨.power, 0x200, [], false, (some .installer),
      [⟨1, 1, .wo, 0⟩, ⟨0, 0, .wo, 0⟩]⟩
  | .RST_CAUSE => ⟨.power, 0x208, [], true, none,
      [⟨63, 60, .ro, 1⟩, ⟨59, 56, .ro, 1⟩, ⟨31, 0, .ro, 0⟩]⟩
  | .FW_STATUS => ⟨.power, 0x300, [], true, none,
      [⟨63, 62, .ro, 0⟩, ⟨61, 60, .ro, 0⟩, ⟨59, 58, .ro, 0⟩, ⟨57, 56, .ro, 0⟩, ⟨55, 55, .ro, 0⟩, ⟨54, 54, .ro, 0⟩,
       ⟨47, 32, .ro, 0⟩, ⟨31, 16, .ro, 0⟩, ⟨15, 8, .ro, 0⟩]⟩
  | .FW_CTL => ⟨.power, 0x308, [], false, (some .installer),
      [⟨31, 28, .wo, 0⟩, ⟨27, 27, .ro, 0⟩, ⟨26, 24, .ro, 0⟩]⟩
  | .FW_SRC => ⟨.power, 0x310, [], true, (some .installer),
      [⟨63, 12, .rwl, 0⟩]⟩
  | .FW_FUSE => ⟨.power, 0x318, [], false, (some .maker),
      [⟨15, 8, .ro, 0⟩, ⟨0, 0, .wo, 0⟩]⟩
  | .I3C_CFG => ⟨.power, 0x400, [], false, (some .installer),
      [⟨7, 7, .rwl, 0⟩, ⟨6, 0, .rwl, 82⟩]⟩
  | .SRC_PRIV => ⟨.icpriv, 0x0, [(0x8, 1, 63)], true, none,
      [⟨63, 63, .rw, 0⟩, ⟨48, 46, .rw, 1⟩, ⟨45, 38, .rw, 1⟩, ⟨37, 24, .rw, 0⟩, ⟨23, 23, .ro, 0⟩, ⟨22, 22, .ro, 0⟩,
       ⟨15, 0, .ro, 0⟩]⟩
  | .SRC_SH => ⟨.chipic, 0x1000, [(0x8, 64, 511)], true, (some .installer),
      [⟨63, 63, .rwl, 0⟩, ⟨62, 60, .rwl, 0⟩, ⟨59, 49, .rwl, 0⟩, ⟨48, 46, .rwl, 1⟩, ⟨45, 38, .rwl, 1⟩,
       ⟨37, 24, .rwl, 0⟩, ⟨23, 23, .ro, 0⟩, ⟨22, 22, .ro, 0⟩, ⟨15, 0, .ro, 0⟩]⟩
  | .PSHP_STATE => ⟨.opm, 0xFFE8, [(0x80, 0, 35), (0x20, 1, 3)], true, none,
      [⟨63, 48, .ro, 0⟩, ⟨31, 0, .ro, 0⟩]⟩
  | .PSHP_SAMPLE => ⟨.opm, 0xFFF0, [(0x80, 0, 35), (0x20, 1, 3)], true, none,
      [⟨63, 48, .ro, 0⟩, ⟨47, 32, .ro, 0⟩, ⟨31, 0, .ro, 0⟩]⟩
  | .SSHP_STATE => ⟨.opm, 0x20008, [(0x80, 1, 63), (0x20, 0, 1)], true, none,
      [⟨63, 48, .ro, 0⟩, ⟨31, 0, .ro, 0⟩]⟩
  | .SSHP_SAMPLE => ⟨.opm, 0x20010, [(0x80, 1, 63), (0x20, 0, 1)], true, none,
      [⟨63, 48, .ro, 0⟩, ⟨47, 32, .ro, 0⟩, ⟨31, 0, .ro, 0⟩]⟩
  | .MSIX_ADDR => ⟨.hif, 0x40000, [(0x10, 0, 2047)], true, none,
      [⟨63, 0, .rw, 0⟩]⟩
  | .MSIX_DATA => ⟨.hif, 0x40008, [(0x10, 0, 2047)], false, none,
      [⟨31, 0, .rw, 0⟩]⟩
  | .MSIX_CTL => ⟨.hif, 0x4000C, [(0x10, 0, 2047)], false, none,
      [⟨0, 0, .rw, 1⟩]⟩
  | .MSIX_PBA => ⟨.hif, 0x48000, [(0x8, 0, 31)], true, none,
      [⟨63, 0, .ro, 0⟩]⟩

/-- Every register, block by block, for address decode. -/
def regsOf : Region → List RegName
  | .ident => [.CHIP_ID, .BLOCK_FUSE, .BLOCK_MAP]
  | .decode => [.DECODE_ERR_ADDR, .DECODE_ERR_INFO, .RING_STATUS, .RING_RETRY_COUNT]
  | .tick => [.TICK_CTRL, .TICK_CONFIG, .TICK_ACTIVE, .TIME_NOW, .TICK_COUNT, .ALIGN_CONFIG, .ALIGN_STATUS,
      .TEN_CMD, .TEN_ARG, .TEN_STATUS, .TEN_RESERVE, .TEN_STATE, .SCHED_CTRL, .SCHED_SLOT, .SCHED_STATUS,
      .SCHED_COUNTS]
  | .core => [.CORE_CTRL, .CORE_STATUS, .CORE_PC, .CQ_STATE, .CQ_ERR, .EVC]
  | .blk => [.BLK_STATUS, .BLK_PC, .BLK_INT, .BLK_ERR, .BLK_POISON, .BLK_CTRL, .BLK_SOFT_INT, .BLK_POST, .BLK_CHK,
      .BLK_FORCE]
  | .dma => [.DMA_POOL_CFG, .DMA_POOL_STATUS, .DMA_CH_STATUS, .DMA_CH_ERR]
  | .ga => [.GA_STATUS, .GA_ERR, .GA_POISON, .GA_CHK, .GA_CTRL, .GA_ACTIVE_CCLK]
  | .re => [.RE_STATUS, .RE_ERR, .RE_COUNTS, .RE_ACTIVE_CCLK, .RE_ECC, .RE_CFG]
  | .rm => [.RM_STATUS, .RM_ERR, .RM_HITS, .RM_MERGE, .RM_ACTIVE_CCLK, .RM_BYTES]
  | .square => [.SQ_CFG, .SQ_STATUS, .SQ_ECC, .SQ_ERR, .SQ_COMBINE, .SQ_TEN]
  | .t2 => [.T1_RESERVE, .T2_UP, .T2_RETIRED, .T2_ECC, .T2_ERR, .T2_RETAIN, .THATCH_STATS, .T2_RANGE_BASE,
      .T2_RANGE_LEN]
  | .flash => [.FL_CFG, .FL_TIMEOUT, .FL_TRIM_ADDR, .FL_TRIM_CTL, .FL_ERR, .FL_DRIVE, .FL_TEN]
  | .shp => [.SHP_CTRL, .SHP_CFG, .SHP_STATE, .SHP_SAMPLE]
  | .hbm => [.HBM_STATUS, .HBM_RETIRED, .HBM_ECC, .HBM_ERR]
  | .switch => [.FAB_ID, .FAB_ROLE, .LINK_TOKEN, .FAB_TIMERS, .EPOCH_CTRL, .EPOCH_STATUS, .FAB_E2E, .FAB_ERR,
      .ROUTE, .PKEY, .TEN_PKEY]
  | .port => [.PORT_CTRL, .PORT_STATUS, .PORT_VC_CFG, .PORT_ARB, .PORT_CREDIT, .PORT_FEC, .PORT_LINK, .PORT_DROPS,
      .PORT_ERR, .LANE_STATUS]
  | .opm => [.PSHP_CFG, .SSHP_CFG, .OPM_CTRL, .LEASE_CFG, .OPM_STATUS, .OPM_COUNTS, .CANCEL_COUNTS, .GUTTER_BYTES,
      .OPM_ERR, .WARD_STATE, .AUTH_CTL, .AUTH_LIST, .AUTH_COUNTS, .CMD_ALLOW, .CMD_TX_CTL, .CMD_TX_BODY,
      .STOP_TRAFFIC, .STOP_STEP, .COLL_STATUS, .PSHP_STATE, .PSHP_SAMPLE, .SSHP_STATE, .SSHP_SAMPLE]
  | .alley => [.ALLEY_CTRL, .ALLEY_CMD_EN, .ALLEY_ERR, .ALLEY_STATUS]
  | .ridge => [.RIDGE_STATUS, .RIDGE_CTRL, .RET_LIMITS, .RET_LIMITS2, .CCC_WDOG, .FIRST, .RET_BLOCK, .RET_CLEAR,
      .RIDGE_FORCE, .FORCE_UNIT, .GRAVE_FORCE, .HIST]
  | .dfu => [.DFU_WDOG, .DFU_FORCE, .DFU_FORCE_UNIT]
  | .hif => [.HIF_STATUS, .HIF_ERR, .BAR2_XLAT, .RES_TEN, .RES_CH_CFG, .RES_CH_BASE, .RES_CH_PI, .RES_CH_CI,
      .RES_CH_STATUS, .RP_STATUS, .RESULT_ACK, .RP_DATA, .MSIX_ADDR, .MSIX_DATA, .MSIX_CTL, .MSIX_PBA]
  | .iccore => [.CLAIM, .COMPLETE, .THRESHOLD, .SOFT]
  | .chipic => [.IC_STATUS, .GF_CFG, .SRC_SH]
  | .secAgent => [.ROLE_REQ, .ROLE_STATUS, .ROLE_HELD, .ROLE_CHALLENGE, .ROLE_RESP]
  | .sec => [.ROLE_CFG, .KEY_DATA, .KEY_CTL, .KEY_STATUS, .AUD_STATUS, .AUD_READ, .AUD_DATA]
  | .repro => [.REPRO_SIG, .DG_CMD, .DG_STATUS, .DG_SEL, .DG_VAL, .DG_TEN]
  | .power => [.PWR_STATUS, .PWR_LIMIT, .RAIL_STATUS, .RST_CTRL, .RST_CAUSE, .FW_STATUS, .FW_CTL, .FW_SRC, .FW_FUSE,
      .I3C_CFG]
  | .icpriv => [.SRC_PRIV]

/-- A field: its register and its bits. -/
structure Fld where
  reg : RegName
  hi : Nat
  lo : Nat
  deriving DecidableEq, Repr

namespace F

abbrev CHIP_ID_PART : Fld := ⟨.CHIP_ID, 31, 16⟩
abbrev CHIP_ID_STEPPING : Fld := ⟨.CHIP_ID, 15, 8⟩
abbrev CHIP_ID_REPRO_CLASS : Fld := ⟨.CHIP_ID, 7, 0⟩
abbrev BLOCK_FUSE_FUSED_ENABLED : Fld := ⟨.BLOCK_FUSE, 10, 0⟩
abbrev BLOCK_MAP_ENABLE : Fld := ⟨.BLOCK_MAP, 31, 0⟩
abbrev DECODE_ERR_ADDR_ADDR : Fld := ⟨.DECODE_ERR_ADDR, 63, 0⟩
abbrev DECODE_ERR_INFO_VALID : Fld := ⟨.DECODE_ERR_INFO, 31, 31⟩
abbrev DECODE_ERR_INFO_OVERFLOW : Fld := ⟨.DECODE_ERR_INFO, 30, 30⟩
abbrev DECODE_ERR_INFO_CHECK : Fld := ⟨.DECODE_ERR_INFO, 21, 20⟩
abbrev DECODE_ERR_INFO_ACCESS : Fld := ⟨.DECODE_ERR_INFO, 19, 16⟩
abbrev DECODE_ERR_INFO_SOURCE_TYPE : Fld := ⟨.DECODE_ERR_INFO, 15, 12⟩
abbrev DECODE_ERR_INFO_SOURCE_INDEX : Fld := ⟨.DECODE_ERR_INFO, 11, 0⟩
abbrev RING_STATUS_SPOKE_UP : Fld := ⟨.RING_STATUS, 11, 8⟩
abbrev RING_STATUS_LINK_RETIRED : Fld := ⟨.RING_STATUS, 7, 4⟩
abbrev RING_STATUS_LINK_UP : Fld := ⟨.RING_STATUS, 3, 0⟩
abbrev RING_RETRY_COUNT_LINK3 : Fld := ⟨.RING_RETRY_COUNT, 63, 48⟩
abbrev RING_RETRY_COUNT_LINK2 : Fld := ⟨.RING_RETRY_COUNT, 47, 32⟩
abbrev RING_RETRY_COUNT_LINK1 : Fld := ⟨.RING_RETRY_COUNT, 31, 16⟩
abbrev RING_RETRY_COUNT_LINK0 : Fld := ⟨.RING_RETRY_COUNT, 15, 0⟩
abbrev TICK_CTRL_EARLY_SWITCH : Fld := ⟨.TICK_CTRL, 7, 7⟩
abbrev TICK_CTRL_ALIGN_MODE : Fld := ⟨.TICK_CTRL, 6, 4⟩
abbrev TICK_CTRL_EN : Fld := ⟨.TICK_CTRL, 0, 0⟩
abbrev TICK_CONFIG_EAVE_US : Fld := ⟨.TICK_CONFIG, 26, 16⟩
abbrev TICK_CONFIG_PERIOD_US : Fld := ⟨.TICK_CONFIG, 13, 0⟩
abbrev TICK_ACTIVE_EAVE_US : Fld := ⟨.TICK_ACTIVE, 26, 16⟩
abbrev TICK_ACTIVE_PERIOD_US : Fld := ⟨.TICK_ACTIVE, 13, 0⟩
abbrev TIME_NOW_NS : Fld := ⟨.TIME_NOW, 63, 0⟩
abbrev TICK_COUNT_COUNT : Fld := ⟨.TICK_COUNT, 63, 0⟩
abbrev ALIGN_CONFIG_STEP_US : Fld := ⟨.ALIGN_CONFIG, 63, 56⟩
abbrev ALIGN_CONFIG_ASYM_NS : Fld := ⟨.ALIGN_CONFIG, 55, 44⟩
abbrev ALIGN_CONFIG_TICK_IN_DELAY_NS : Fld := ⟨.ALIGN_CONFIG, 43, 32⟩
abbrev ALIGN_CONFIG_SYNC_PORT : Fld := ⟨.ALIGN_CONFIG, 31, 24⟩
abbrev ALIGN_CONFIG_HOLDOVER_TICKS : Fld := ⟨.ALIGN_CONFIG, 23, 16⟩
abbrev ALIGN_CONFIG_SLEW_NS : Fld := ⟨.ALIGN_CONFIG, 12, 0⟩
abbrev ALIGN_STATUS_LOCKED : Fld := ⟨.ALIGN_STATUS, 63, 63⟩
abbrev ALIGN_STATUS_HOLDOVER : Fld := ⟨.ALIGN_STATUS, 62, 62⟩
abbrev ALIGN_STATUS_LOST : Fld := ⟨.ALIGN_STATUS, 61, 61⟩
abbrev ALIGN_STATUS_STEPPED : Fld := ⟨.ALIGN_STATUS, 60, 60⟩
abbrev ALIGN_STATUS_PATH_DELAY_NS : Fld := ⟨.ALIGN_STATUS, 55, 32⟩
abbrev ALIGN_STATUS_OFFSET_NS : Fld := ⟨.ALIGN_STATUS, 31, 0⟩
abbrev TEN_CMD_OP : Fld := ⟨.TEN_CMD, 31, 28⟩
abbrev TEN_CMD_TENANCY : Fld := ⟨.TEN_CMD, 5, 0⟩
abbrev TEN_ARG_DESC_ADDR : Fld := ⟨.TEN_ARG, 63, 0⟩
abbrev TEN_STATUS_BUSY : Fld := ⟨.TEN_STATUS, 31, 31⟩
abbrev TEN_STATUS_RESULT : Fld := ⟨.TEN_STATUS, 23, 16⟩
abbrev TEN_STATUS_TENANCY : Fld := ⟨.TEN_STATUS, 5, 0⟩
abbrev TEN_RESERVE_DN : Fld := ⟨.TEN_RESERVE, 31, 0⟩
abbrev TEN_STATE_STATE : Fld := ⟨.TEN_STATE, 63, 61⟩
abbrev TEN_STATE_DEGRADED : Fld := ⟨.TEN_STATE, 60, 60⟩
abbrev TEN_STATE_SAVED : Fld := ⟨.TEN_STATE, 59, 59⟩
abbrev TEN_STATE_OVERRUNS : Fld := ⟨.TEN_STATE, 55, 48⟩
abbrev TEN_STATE_STEP : Fld := ⟨.TEN_STATE, 47, 0⟩
abbrev SCHED_CTRL_SWAP : Fld := ⟨.SCHED_CTRL, 31, 31⟩
abbrev SCHED_CTRL_SWAP_PENDING : Fld := ⟨.SCHED_CTRL, 30, 30⟩
abbrev SCHED_CTRL_ACTIVE_BANK : Fld := ⟨.SCHED_CTRL, 29, 29⟩
abbrev SCHED_CTRL_LOCKSTEP_B1 : Fld := ⟨.SCHED_CTRL, 28, 28⟩
abbrev SCHED_CTRL_LOCKSTEP_B0 : Fld := ⟨.SCHED_CTRL, 27, 27⟩
abbrev SCHED_CTRL_LEN_B1 : Fld := ⟨.SCHED_CTRL, 26, 18⟩
abbrev SCHED_CTRL_LEN_B0 : Fld := ⟨.SCHED_CTRL, 17, 9⟩
abbrev SCHED_CTRL_START : Fld := ⟨.SCHED_CTRL, 7, 0⟩
abbrev SCHED_SLOT_TENANCY : Fld := ⟨.SCHED_SLOT, 57, 52⟩
abbrev SCHED_SLOT_STEP_KIND : Fld := ⟨.SCHED_SLOT, 47, 40⟩
abbrev SCHED_SLOT_BUDGET_US : Fld := ⟨.SCHED_SLOT, 31, 16⟩
abbrev SCHED_STATUS_LAST_TENANCY : Fld := ⟨.SCHED_STATUS, 21, 16⟩
abbrev SCHED_STATUS_LAST_WORK : Fld := ⟨.SCHED_STATUS, 10, 8⟩
abbrev SCHED_STATUS_CURSOR : Fld := ⟨.SCHED_STATUS, 7, 0⟩
abbrev SCHED_COUNTS_SKIPS : Fld := ⟨.SCHED_COUNTS, 63, 32⟩
abbrev SCHED_COUNTS_OVERRUNS : Fld := ⟨.SCHED_COUNTS, 31, 0⟩
abbrev CORE_CTRL_HALT_REQ : Fld := ⟨.CORE_CTRL, 1, 1⟩
abbrev CORE_CTRL_RUN : Fld := ⟨.CORE_CTRL, 0, 0⟩
abbrev CORE_STATUS_HALTED : Fld := ⟨.CORE_STATUS, 31, 31⟩
abbrev CORE_STATUS_WAITING : Fld := ⟨.CORE_STATUS, 30, 30⟩
abbrev CORE_STATUS_LEVEL : Fld := ⟨.CORE_STATUS, 7, 6⟩
abbrev CORE_STATUS_TENANCY : Fld := ⟨.CORE_STATUS, 5, 0⟩
abbrev CORE_PC_PC : Fld := ⟨.CORE_PC, 63, 0⟩
abbrev CQ_STATE_WAITING : Fld := ⟨.CQ_STATE, 63, 63⟩
abbrev CQ_STATE_BLOCKED : Fld := ⟨.CQ_STATE, 62, 62⟩
abbrev CQ_STATE_ERR : Fld := ⟨.CQ_STATE, 61, 61⟩
abbrev CQ_STATE_COUNT : Fld := ⟨.CQ_STATE, 42, 32⟩
abbrev CQ_STATE_LAST_SEQ : Fld := ⟨.CQ_STATE, 31, 0⟩
abbrev CQ_ERR_VALID : Fld := ⟨.CQ_ERR, 63, 63⟩
abbrev CQ_ERR_REASON : Fld := ⟨.CQ_ERR, 39, 36⟩
abbrev CQ_ERR_QUEUE : Fld := ⟨.CQ_ERR, 35, 34⟩
abbrev CQ_ERR_SEQ : Fld := ⟨.CQ_ERR, 31, 0⟩
abbrev EVC_VALUE : Fld := ⟨.EVC, 31, 0⟩
abbrev BLK_STATUS_RUNNING : Fld := ⟨.BLK_STATUS, 63, 63⟩
abbrev BLK_STATUS_HALTED : Fld := ⟨.BLK_STATUS, 62, 62⟩
abbrev BLK_STATUS_IE : Fld := ⟨.BLK_STATUS, 61, 61⟩
abbrev BLK_STATUS_LOGICAL : Fld := ⟨.BLK_STATUS, 57, 48⟩
abbrev BLK_STATUS_TENANCY : Fld := ⟨.BLK_STATUS, 47, 42⟩
abbrev BLK_STATUS_TAGS_BUSY : Fld := ⟨.BLK_STATUS, 39, 32⟩
abbrev BLK_STATUS_SEQ : Fld := ⟨.BLK_STATUS, 31, 0⟩
abbrev BLK_PC_PC : Fld := ⟨.BLK_PC, 63, 0⟩
abbrev BLK_INT_PEND : Fld := ⟨.BLK_INT, 31, 16⟩
abbrev BLK_INT_EN : Fld := ⟨.BLK_INT, 15, 0⟩
abbrev BLK_ERR_VALID : Fld := ⟨.BLK_ERR, 63, 63⟩
abbrev BLK_ERR_OVERFLOW : Fld := ⟨.BLK_ERR, 62, 62⟩
abbrev BLK_ERR_CODE : Fld := ⟨.BLK_ERR, 55, 48⟩
abbrev BLK_ERR_ADDR : Fld := ⟨.BLK_ERR, 47, 0⟩
abbrev BLK_POISON_TILE : Fld := ⟨.BLK_POISON, 63, 0⟩
abbrev BLK_CTRL_HALT_REQ : Fld := ⟨.BLK_CTRL, 0, 0⟩
abbrev BLK_SOFT_INT_RAISE : Fld := ⟨.BLK_SOFT_INT, 0, 0⟩
abbrev BLK_POST_VALUE : Fld := ⟨.BLK_POST, 31, 0⟩
abbrev DMA_POOL_CFG_MIN_KIB : Fld := ⟨.DMA_POOL_CFG, 15, 0⟩
abbrev DMA_POOL_STATUS_PEAK_KIB : Fld := ⟨.DMA_POOL_STATUS, 31, 16⟩
abbrev DMA_POOL_STATUS_IN_USE_KIB : Fld := ⟨.DMA_POOL_STATUS, 15, 0⟩
abbrev DMA_CH_STATUS_BUSY : Fld := ⟨.DMA_CH_STATUS, 63, 63⟩
abbrev DMA_CH_STATUS_QUEUED : Fld := ⟨.DMA_CH_STATUS, 62, 60⟩
abbrev DMA_CH_STATUS_TENANCY : Fld := ⟨.DMA_CH_STATUS, 59, 54⟩
abbrev DMA_CH_STATUS_LAST_STATUS : Fld := ⟨.DMA_CH_STATUS, 47, 40⟩
abbrev DMA_CH_STATUS_BYTES_DONE : Fld := ⟨.DMA_CH_STATUS, 39, 8⟩
abbrev DMA_CH_ERR_VALID : Fld := ⟨.DMA_CH_ERR, 63, 63⟩
abbrev DMA_CH_ERR_ADDR : Fld := ⟨.DMA_CH_ERR, 55, 0⟩
abbrev GA_STATUS_RUNNING : Fld := ⟨.GA_STATUS, 63, 63⟩
abbrev GA_STATUS_EMULATED : Fld := ⟨.GA_STATUS, 62, 62⟩
abbrev GA_STATUS_CTRL_VALID : Fld := ⟨.GA_STATUS, 61, 61⟩
abbrev GA_STATUS_CORRECTED : Fld := ⟨.GA_STATUS, 59, 52⟩
abbrev GA_STATUS_TENANCY : Fld := ⟨.GA_STATUS, 51, 46⟩
abbrev GA_STATUS_LAST_SEQ : Fld := ⟨.GA_STATUS, 31, 0⟩
abbrev GA_ERR_VALID : Fld := ⟨.GA_ERR, 63, 63⟩
abbrev GA_ERR_OVERFLOW : Fld := ⟨.GA_ERR, 62, 62⟩
abbrev GA_ERR_CODE : Fld := ⟨.GA_ERR, 51, 44⟩
abbrev GA_ERR_REASON : Fld := ⟨.GA_ERR, 43, 40⟩
abbrev GA_ERR_INDEX : Fld := ⟨.GA_ERR, 19, 0⟩
abbrev GA_POISON_TILE : Fld := ⟨.GA_POISON, 15, 0⟩
abbrev GA_CHK_VALID : Fld := ⟨.GA_CHK, 63, 63⟩
abbrev GA_CHK_OVERFLOW : Fld := ⟨.GA_CHK, 62, 62⟩
abbrev GA_CHK_COUNT : Fld := ⟨.GA_CHK, 47, 32⟩
abbrev GA_CHK_TILE : Fld := ⟨.GA_CHK, 31, 28⟩
abbrev GA_CHK_COL_VALID : Fld := ⟨.GA_CHK, 27, 27⟩
abbrev GA_CHK_COL : Fld := ⟨.GA_CHK, 23, 16⟩
abbrev GA_CTRL_HALT_REQ : Fld := ⟨.GA_CTRL, 0, 0⟩
abbrev GA_ACTIVE_CCLK_COUNT : Fld := ⟨.GA_ACTIVE_CCLK, 63, 0⟩
abbrev BLK_CHK_VALID : Fld := ⟨.BLK_CHK, 63, 63⟩
abbrev BLK_CHK_OVERFLOW : Fld := ⟨.BLK_CHK, 62, 62⟩
abbrev BLK_CHK_COUNT : Fld := ⟨.BLK_CHK, 47, 32⟩
abbrev BLK_CHK_TILE : Fld := ⟨.BLK_CHK, 31, 26⟩
abbrev BLK_CHK_COL_VALID : Fld := ⟨.BLK_CHK, 25, 25⟩
abbrev BLK_CHK_COL : Fld := ⟨.BLK_CHK, 20, 16⟩
abbrev RE_STATUS_BUSY : Fld := ⟨.RE_STATUS, 63, 63⟩
abbrev RE_STATUS_WARN : Fld := ⟨.RE_STATUS, 62, 62⟩
abbrev RE_STATUS_PHASE : Fld := ⟨.RE_STATUS, 61, 58⟩
abbrev RE_STATUS_QUEUED : Fld := ⟨.RE_STATUS, 57, 54⟩
abbrev RE_STATUS_TENANCY : Fld := ⟨.RE_STATUS, 53, 48⟩
abbrev RE_STATUS_HELD : Fld := ⟨.RE_STATUS, 47, 32⟩
abbrev RE_STATUS_JOBS : Fld := ⟨.RE_STATUS, 31, 0⟩
abbrev RE_ERR_VALID : Fld := ⟨.RE_ERR, 63, 63⟩
abbrev RE_ERR_OVERFLOW : Fld := ⟨.RE_ERR, 62, 62⟩
abbrev RE_ERR_CODE : Fld := ⟨.RE_ERR, 55, 48⟩
abbrev RE_ERR_REASON : Fld := ⟨.RE_ERR, 47, 44⟩
abbrev RE_ERR_JOB : Fld := ⟨.RE_ERR, 39, 32⟩
abbrev RE_ERR_DETAIL : Fld := ⟨.RE_ERR, 31, 0⟩
abbrev RE_COUNTS_DEFERRED : Fld := ⟨.RE_COUNTS, 63, 32⟩
abbrev RE_COUNTS_DROPPED : Fld := ⟨.RE_COUNTS, 31, 0⟩
abbrev RE_ACTIVE_CCLK_COUNT : Fld := ⟨.RE_ACTIVE_CCLK, 63, 0⟩
abbrev RE_ECC_CORRECTED : Fld := ⟨.RE_ECC, 15, 0⟩
abbrev RE_CFG_WARN_MARGIN_US : Fld := ⟨.RE_CFG, 11, 0⟩
abbrev RM_STATUS_BUSY : Fld := ⟨.RM_STATUS, 63, 63⟩
abbrev RM_STATUS_QUEUED : Fld := ⟨.RM_STATUS, 62, 59⟩
abbrev RM_STATUS_TENANCY : Fld := ⟨.RM_STATUS, 58, 53⟩
abbrev RM_STATUS_BINDINGS : Fld := ⟨.RM_STATUS, 52, 46⟩
abbrev RM_STATUS_FETCHES : Fld := ⟨.RM_STATUS, 45, 42⟩
abbrev RM_STATUS_OUTSTANDING : Fld := ⟨.RM_STATUS, 41, 31⟩
abbrev RM_STATUS_ENTRIES : Fld := ⟨.RM_STATUS, 30, 0⟩
abbrev RM_ERR_VALID : Fld := ⟨.RM_ERR, 63, 63⟩
abbrev RM_ERR_OVERFLOW : Fld := ⟨.RM_ERR, 62, 62⟩
abbrev RM_ERR_CODE : Fld := ⟨.RM_ERR, 55, 48⟩
abbrev RM_ERR_REASON : Fld := ⟨.RM_ERR, 47, 44⟩
abbrev RM_ERR_LAYER : Fld := ⟨.RM_ERR, 39, 24⟩
abbrev RM_ERR_EXPERT : Fld := ⟨.RM_ERR, 13, 0⟩
abbrev RM_HITS_HITS : Fld := ⟨.RM_HITS, 63, 32⟩
abbrev RM_HITS_MISSES : Fld := ⟨.RM_HITS, 31, 0⟩
abbrev RM_MERGE_JOINS : Fld := ⟨.RM_MERGE, 63, 32⟩
abbrev RM_MERGE_MERGE_FULL : Fld := ⟨.RM_MERGE, 31, 0⟩
abbrev RM_ACTIVE_CCLK_COUNT : Fld := ⟨.RM_ACTIVE_CCLK, 63, 0⟩
abbrev RM_BYTES_BYTES : Fld := ⟨.RM_BYTES, 63, 0⟩
abbrev SQ_CFG_BORROW_LIMIT : Fld := ⟨.SQ_CFG, 12, 0⟩
abbrev SQ_STATUS_FREE : Fld := ⟨.SQ_STATUS, 63, 51⟩
abbrev SQ_STATUS_POOL : Fld := ⟨.SQ_STATUS, 50, 38⟩
abbrev SQ_STATUS_BORROWED : Fld := ⟨.SQ_STATUS, 37, 25⟩
abbrev SQ_STATUS_RETIRED : Fld := ⟨.SQ_STATUS, 24, 12⟩
abbrev SQ_ECC_UNCORRECTED : Fld := ⟨.SQ_ECC, 31, 16⟩
abbrev SQ_ECC_CORRECTED : Fld := ⟨.SQ_ECC, 15, 0⟩
abbrev SQ_ERR_VALID : Fld := ⟨.SQ_ERR, 63, 63⟩
abbrev SQ_ERR_OVERFLOW : Fld := ⟨.SQ_ERR, 62, 62⟩
abbrev SQ_ERR_PRIV : Fld := ⟨.SQ_ERR, 28, 28⟩
abbrev SQ_ERR_LOT : Fld := ⟨.SQ_ERR, 27, 16⟩
abbrev SQ_ERR_LINE : Fld := ⟨.SQ_ERR, 15, 7⟩
abbrev SQ_COMBINE_COUNT : Fld := ⟨.SQ_COMBINE, 63, 0⟩
abbrev SQ_TEN_PRIV_LOTS : Fld := ⟨.SQ_TEN, 63, 51⟩
abbrev SQ_TEN_QUOTA_LOTS : Fld := ⟨.SQ_TEN, 50, 38⟩
abbrev SQ_TEN_USED : Fld := ⟨.SQ_TEN, 37, 25⟩
abbrev SQ_TEN_KEPT : Fld := ⟨.SQ_TEN, 24, 12⟩
abbrev T1_RESERVE_MIGRATING : Fld := ⟨.T1_RESERVE, 63, 63⟩
abbrev T1_RESERVE_SLOT : Fld := ⟨.T1_RESERVE, 55, 48⟩
abbrev T1_RESERVE_PAGES_LEFT : Fld := ⟨.T1_RESERVE, 47, 24⟩
abbrev T1_RESERVE_USED : Fld := ⟨.T1_RESERVE, 20, 16⟩
abbrev T1_RESERVE_UNITS : Fld := ⟨.T1_RESERVE, 4, 0⟩
abbrev T2_UP_CHANNEL : Fld := ⟨.T2_UP, 63, 0⟩
abbrev T2_RETIRED_CHANNEL : Fld := ⟨.T2_RETIRED, 63, 0⟩
abbrev T2_ECC_CORRECTED : Fld := ⟨.T2_ECC, 63, 32⟩
abbrev T2_ECC_UNCORRECTED : Fld := ⟨.T2_ECC, 31, 0⟩
abbrev T2_ERR_VALID : Fld := ⟨.T2_ERR, 63, 63⟩
abbrev T2_ERR_OVERFLOW : Fld := ⟨.T2_ERR, 62, 62⟩
abbrev T2_ERR_CODE : Fld := ⟨.T2_ERR, 55, 48⟩
abbrev T2_ERR_CHANNEL : Fld := ⟨.T2_ERR, 47, 42⟩
abbrev T2_ERR_FROM_COPY : Fld := ⟨.T2_ERR, 41, 41⟩
abbrev T2_ERR_OFFSET : Fld := ⟨.T2_ERR, 40, 0⟩
abbrev T2_RETAIN_VALID : Fld := ⟨.T2_RETAIN, 31, 31⟩
abbrev T2_RETAIN_PF_SEEN : Fld := ⟨.T2_RETAIN, 30, 30⟩
abbrev T2_RETAIN_SR_INCOMPLETE : Fld := ⟨.T2_RETAIN, 29, 29⟩
abbrev THATCH_STATS_REST_MIB : Fld := ⟨.THATCH_STATS, 63, 32⟩
abbrev THATCH_STATS_DECODED_MIB : Fld := ⟨.THATCH_STATS, 31, 0⟩
abbrev T2_RANGE_BASE_BASE : Fld := ⟨.T2_RANGE_BASE, 40, 12⟩
abbrev T2_RANGE_BASE_RESYNC : Fld := ⟨.T2_RANGE_BASE, 4, 4⟩
abbrev T2_RANGE_BASE_DEGRADED : Fld := ⟨.T2_RANGE_BASE, 3, 3⟩
abbrev T2_RANGE_BASE_MIRROR : Fld := ⟨.T2_RANGE_BASE, 2, 2⟩
abbrev T2_RANGE_BASE_RETAINED : Fld := ⟨.T2_RANGE_BASE, 1, 1⟩
abbrev T2_RANGE_BASE_EN : Fld := ⟨.T2_RANGE_BASE, 0, 0⟩
abbrev T2_RANGE_LEN_LEN : Fld := ⟨.T2_RANGE_LEN, 40, 12⟩
abbrev FL_CFG_SPLIT : Fld := ⟨.FL_CFG, 15, 12⟩
abbrev FL_CFG_STRIPE_DRIVES : Fld := ⟨.FL_CFG, 11, 8⟩
abbrev FL_CFG_STRIPE_UNIT : Fld := ⟨.FL_CFG, 7, 4⟩
abbrev FL_CFG_EN : Fld := ⟨.FL_CFG, 0, 0⟩
abbrev FL_TIMEOUT_TIMEOUT_MS : Fld := ⟨.FL_TIMEOUT, 15, 0⟩
abbrev FL_TRIM_ADDR_ADDR : Fld := ⟨.FL_TRIM_ADDR, 63, 0⟩
abbrev FL_TRIM_CTL_BUSY : Fld := ⟨.FL_TRIM_CTL, 63, 63⟩
abbrev FL_TRIM_CTL_ERR : Fld := ⟨.FL_TRIM_CTL, 62, 62⟩
abbrev FL_TRIM_CTL_PAGES : Fld := ⟨.FL_TRIM_CTL, 31, 0⟩
abbrev FL_ERR_VALID : Fld := ⟨.FL_ERR, 63, 63⟩
abbrev FL_ERR_OVERFLOW : Fld := ⟨.FL_ERR, 62, 62⟩
abbrev FL_ERR_DRIVE : Fld := ⟨.FL_ERR, 61, 59⟩
abbrev FL_ERR_CODE : Fld := ⟨.FL_ERR, 55, 48⟩
abbrev FL_ERR_NVME_STATUS : Fld := ⟨.FL_ERR, 47, 33⟩
abbrev FL_ERR_LBA : Fld := ⟨.FL_ERR, 32, 0⟩
abbrev FL_DRIVE_PRESENT : Fld := ⟨.FL_DRIVE, 63, 63⟩
abbrev FL_DRIVE_READY : Fld := ⟨.FL_DRIVE, 62, 62⟩
abbrev FL_DRIVE_FAILED : Fld := ⟨.FL_DRIVE, 61, 61⟩
abbrev FL_DRIVE_QUEUES : Fld := ⟨.FL_DRIVE, 55, 48⟩
abbrev FL_DRIVE_LBAS : Fld := ⟨.FL_DRIVE, 47, 0⟩
abbrev FL_TEN_FLUSH_AT_COMMIT : Fld := ⟨.FL_TEN, 1, 1⟩
abbrev FL_TEN_FUA_ALL : Fld := ⟨.FL_TEN, 0, 0⟩
abbrev SHP_CTRL_SAMPLE_US : Fld := ⟨.SHP_CTRL, 15, 0⟩
abbrev SHP_CFG_RESET_FILL : Fld := ⟨.SHP_CFG, 45, 45⟩
abbrev SHP_CFG_EN : Fld := ⟨.SHP_CFG, 44, 44⟩
abbrev SHP_CFG_RATE : Fld := ⟨.SHP_CFG, 43, 20⟩
abbrev SHP_CFG_BURST : Fld := ⟨.SHP_CFG, 19, 0⟩
abbrev SHP_STATE_DEPTH : Fld := ⟨.SHP_STATE, 63, 48⟩
abbrev SHP_STATE_TOKENS : Fld := ⟨.SHP_STATE, 31, 0⟩
abbrev SHP_SAMPLE_DEPTH_PEAK : Fld := ⟨.SHP_SAMPLE, 63, 48⟩
abbrev SHP_SAMPLE_DEPTH_LAST : Fld := ⟨.SHP_SAMPLE, 47, 32⟩
abbrev SHP_SAMPLE_DELAY_MAX_NS : Fld := ⟨.SHP_SAMPLE, 31, 0⟩
abbrev HBM_STATUS_UP : Fld := ⟨.HBM_STATUS, 63, 63⟩
abbrev HBM_STATUS_HOT : Fld := ⟨.HBM_STATUS, 62, 62⟩
abbrev HBM_STATUS_CRIT : Fld := ⟨.HBM_STATUS, 61, 61⟩
abbrev HBM_STATUS_TEMP_C : Fld := ⟨.HBM_STATUS, 55, 48⟩
abbrev HBM_STATUS_REPAIRS : Fld := ⟨.HBM_STATUS, 47, 32⟩
abbrev HBM_RETIRED_PC : Fld := ⟨.HBM_RETIRED, 63, 0⟩
abbrev HBM_ECC_CORRECTED : Fld := ⟨.HBM_ECC, 63, 32⟩
abbrev HBM_ECC_UNCORRECTED : Fld := ⟨.HBM_ECC, 31, 0⟩
abbrev HBM_ERR_VALID : Fld := ⟨.HBM_ERR, 63, 63⟩
abbrev HBM_ERR_OVERFLOW : Fld := ⟨.HBM_ERR, 62, 62⟩
abbrev HBM_ERR_CODE : Fld := ⟨.HBM_ERR, 55, 48⟩
abbrev HBM_ERR_SLOT : Fld := ⟨.HBM_ERR, 46, 39⟩
abbrev HBM_ERR_ADDR : Fld := ⟨.HBM_ERR, 38, 0⟩
abbrev FAB_ID_POD : Fld := ⟨.FAB_ID, 15, 10⟩
abbrev FAB_ID_RACK : Fld := ⟨.FAB_ID, 9, 5⟩
abbrev FAB_ID_MEMBER : Fld := ⟨.FAB_ID, 4, 0⟩
abbrev FAB_ROLE_TRANSIT_NOW : Fld := ⟨.FAB_ROLE, 1, 1⟩
abbrev FAB_ROLE_TRANSIT : Fld := ⟨.FAB_ROLE, 0, 0⟩
abbrev LINK_TOKEN_TOKEN : Fld := ⟨.LINK_TOKEN, 63, 0⟩
abbrev FAB_TIMERS_TAG_HOLD_US : Fld := ⟨.FAB_TIMERS, 63, 48⟩
abbrev FAB_TIMERS_EPOCH_HOLD_US : Fld := ⟨.FAB_TIMERS, 47, 32⟩
abbrev FAB_TIMERS_RESIDENCE_US : Fld := ⟨.FAB_TIMERS, 31, 20⟩
abbrev FAB_TIMERS_HOP_LIMIT : Fld := ⟨.FAB_TIMERS, 19, 16⟩
abbrev FAB_TIMERS_RETRY_US : Fld := ⟨.FAB_TIMERS, 15, 4⟩
abbrev FAB_TIMERS_RETRY_MAX : Fld := ⟨.FAB_TIMERS, 3, 0⟩
abbrev EPOCH_CTRL_COMMIT1 : Fld := ⟨.EPOCH_CTRL, 2, 2⟩
abbrev EPOCH_CTRL_COMMIT0 : Fld := ⟨.EPOCH_CTRL, 1, 1⟩
abbrev EPOCH_CTRL_SRC_EPOCH : Fld := ⟨.EPOCH_CTRL, 0, 0⟩
abbrev EPOCH_STATUS_READY1 : Fld := ⟨.EPOCH_STATUS, 63, 63⟩
abbrev EPOCH_STATUS_READY0 : Fld := ⟨.EPOCH_STATUS, 62, 62⟩
abbrev EPOCH_STATUS_LIVE1 : Fld := ⟨.EPOCH_STATUS, 61, 61⟩
abbrev EPOCH_STATUS_LIVE0 : Fld := ⟨.EPOCH_STATUS, 60, 60⟩
abbrev EPOCH_STATUS_INFLIGHT1 : Fld := ⟨.EPOCH_STATUS, 31, 16⟩
abbrev EPOCH_STATUS_INFLIGHT0 : Fld := ⟨.EPOCH_STATUS, 15, 0⟩
abbrev FAB_E2E_RESENDS : Fld := ⟨.FAB_E2E, 63, 32⟩
abbrev FAB_E2E_TIMEOUTS : Fld := ⟨.FAB_E2E, 31, 0⟩
abbrev FAB_ERR_VALID : Fld := ⟨.FAB_ERR, 63, 63⟩
abbrev FAB_ERR_OVERFLOW : Fld := ⟨.FAB_ERR, 62, 62⟩
abbrev FAB_ERR_CODE : Fld := ⟨.FAB_ERR, 55, 48⟩
abbrev FAB_ERR_PORT : Fld := ⟨.FAB_ERR, 47, 42⟩
abbrev FAB_ERR_REASON : Fld := ⟨.FAB_ERR, 41, 38⟩
abbrev FAB_ERR_SRC_ID : Fld := ⟨.FAB_ERR, 31, 16⟩
abbrev FAB_ERR_PKEY : Fld := ⟨.FAB_ERR, 15, 0⟩
abbrev ROUTE_VALID : Fld := ⟨.ROUTE, 63, 63⟩
abbrev ROUTE_PORTS : Fld := ⟨.ROUTE, 35, 0⟩
abbrev PKEY_VALID : Fld := ⟨.PKEY, 63, 63⟩
abbrev PKEY_LOCAL : Fld := ⟨.PKEY, 62, 62⟩
abbrev PKEY_PORTS : Fld := ⟨.PKEY, 51, 16⟩
abbrev PKEY_KEY : Fld := ⟨.PKEY, 15, 0⟩
abbrev TEN_PKEY_KEY : Fld := ⟨.TEN_PKEY, 15, 0⟩
abbrev PORT_CTRL_MAX_WIDTH : Fld := ⟨.PORT_CTRL, 7, 6⟩
abbrev PORT_CTRL_TEST_LOOP : Fld := ⟨.PORT_CTRL, 5, 4⟩
abbrev PORT_CTRL_QUICK : Fld := ⟨.PORT_CTRL, 3, 3⟩
abbrev PORT_CTRL_RETRAIN : Fld := ⟨.PORT_CTRL, 2, 2⟩
abbrev PORT_CTRL_EN : Fld := ⟨.PORT_CTRL, 0, 0⟩
abbrev PORT_STATUS_STATE : Fld := ⟨.PORT_STATUS, 63, 60⟩
abbrev PORT_STATUS_WIDTH : Fld := ⟨.PORT_STATUS, 59, 58⟩
abbrev PORT_STATUS_LANES_ACTIVE : Fld := ⟨.PORT_STATUS, 57, 54⟩
abbrev PORT_STATUS_LANES_RETIRED : Fld := ⟨.PORT_STATUS, 53, 50⟩
abbrev PORT_STATUS_LEADER : Fld := ⟨.PORT_STATUS, 49, 49⟩
abbrev PORT_STATUS_NBR_VALID : Fld := ⟨.PORT_STATUS, 48, 48⟩
abbrev PORT_STATUS_VERSION : Fld := ⟨.PORT_STATUS, 47, 40⟩
abbrev PORT_STATUS_NBR_PORT : Fld := ⟨.PORT_STATUS, 31, 26⟩
abbrev PORT_STATUS_NBR_ID : Fld := ⟨.PORT_STATUS, 15, 0⟩
abbrev PORT_VC_CFG_SHARE : Fld := ⟨.PORT_VC_CFG, 63, 48⟩
abbrev PORT_VC_CFG_MIN3 : Fld := ⟨.PORT_VC_CFG, 47, 36⟩
abbrev PORT_VC_CFG_MIN2 : Fld := ⟨.PORT_VC_CFG, 35, 24⟩
abbrev PORT_VC_CFG_MIN1 : Fld := ⟨.PORT_VC_CFG, 23, 12⟩
abbrev PORT_VC_CFG_MIN0 : Fld := ⟨.PORT_VC_CFG, 11, 0⟩
abbrev PORT_ARB_W3 : Fld := ⟨.PORT_ARB, 23, 16⟩
abbrev PORT_ARB_W2 : Fld := ⟨.PORT_ARB, 15, 8⟩
abbrev PORT_ARB_W1 : Fld := ⟨.PORT_ARB, 7, 0⟩
abbrev PORT_CREDIT_SHARED : Fld := ⟨.PORT_CREDIT, 63, 48⟩
abbrev PORT_CREDIT_VC3 : Fld := ⟨.PORT_CREDIT, 47, 36⟩
abbrev PORT_CREDIT_VC2 : Fld := ⟨.PORT_CREDIT, 35, 24⟩
abbrev PORT_CREDIT_VC1 : Fld := ⟨.PORT_CREDIT, 23, 12⟩
abbrev PORT_CREDIT_VC0 : Fld := ⟨.PORT_CREDIT, 11, 0⟩
abbrev PORT_FEC_CORRECTED : Fld := ⟨.PORT_FEC, 63, 32⟩
abbrev PORT_FEC_UNCORRECTED : Fld := ⟨.PORT_FEC, 31, 0⟩
abbrev PORT_LINK_REPLAYS : Fld := ⟨.PORT_LINK, 63, 32⟩
abbrev PORT_LINK_LINK_DOWNS : Fld := ⟨.PORT_LINK, 31, 16⟩
abbrev PORT_LINK_RETRAINS : Fld := ⟨.PORT_LINK, 15, 0⟩
abbrev PORT_DROPS_PKEY : Fld := ⟨.PORT_DROPS, 63, 48⟩
abbrev PORT_DROPS_RESIDENCE : Fld := ⟨.PORT_DROPS, 47, 32⟩
abbrev PORT_DROPS_ROUTE : Fld := ⟨.PORT_DROPS, 31, 16⟩
abbrev PORT_DROPS_LINK_LOSS : Fld := ⟨.PORT_DROPS, 15, 0⟩
abbrev PORT_ERR_VALID : Fld := ⟨.PORT_ERR, 63, 63⟩
abbrev PORT_ERR_OVERFLOW : Fld := ⟨.PORT_ERR, 62, 62⟩
abbrev PORT_ERR_CODE : Fld := ⟨.PORT_ERR, 55, 48⟩
abbrev PORT_ERR_LANES : Fld := ⟨.PORT_ERR, 47, 44⟩
abbrev PORT_ERR_REASON : Fld := ⟨.PORT_ERR, 43, 40⟩
abbrev LANE_STATUS_GOOD : Fld := ⟨.LANE_STATUS, 63, 63⟩
abbrev LANE_STATUS_RETIRED : Fld := ⟨.LANE_STATUS, 62, 62⟩
abbrev LANE_STATUS_SNR : Fld := ⟨.LANE_STATUS, 47, 32⟩
abbrev LANE_STATUS_PREFEC_ERR : Fld := ⟨.LANE_STATUS, 31, 0⟩
abbrev PSHP_CFG_RESET_FILL : Fld := ⟨.PSHP_CFG, 45, 45⟩
abbrev PSHP_CFG_EN : Fld := ⟨.PSHP_CFG, 44, 44⟩
abbrev PSHP_CFG_RATE : Fld := ⟨.PSHP_CFG, 43, 20⟩
abbrev PSHP_CFG_BURST : Fld := ⟨.PSHP_CFG, 19, 0⟩
abbrev SSHP_CFG_MODE : Fld := ⟨.SSHP_CFG, 46, 46⟩
abbrev SSHP_CFG_RESET_FILL : Fld := ⟨.SSHP_CFG, 45, 45⟩
abbrev SSHP_CFG_EN : Fld := ⟨.SSHP_CFG, 44, 44⟩
abbrev SSHP_CFG_RATE : Fld := ⟨.SSHP_CFG, 43, 20⟩
abbrev SSHP_CFG_BURST : Fld := ⟨.SSHP_CFG, 19, 0⟩
abbrev OPM_CTRL_COMBINE_EN : Fld := ⟨.OPM_CTRL, 63, 63⟩
abbrev OPM_CTRL_ATOMIC_COMBINE_EN : Fld := ⟨.OPM_CTRL, 62, 62⟩
abbrev OPM_CTRL_SAMPLE_US : Fld := ⟨.OPM_CTRL, 47, 32⟩
abbrev OPM_CTRL_HOLD_NS : Fld := ⟨.OPM_CTRL, 15, 0⟩
abbrev LEASE_CFG_LEASE_TTL_MS : Fld := ⟨.LEASE_CFG, 15, 0⟩
abbrev OPM_STATUS_ENTRIES : Fld := ⟨.OPM_STATUS, 63, 53⟩
abbrev OPM_STATUS_STORE_USED : Fld := ⟨.OPM_STATUS, 52, 32⟩
abbrev OPM_STATUS_STORE_SIZE : Fld := ⟨.OPM_STATUS, 20, 0⟩
abbrev OPM_COUNTS_JOINED_READS : Fld := ⟨.OPM_COUNTS, 63, 32⟩
abbrev OPM_COUNTS_JOINED_ATOMICS : Fld := ⟨.OPM_COUNTS, 31, 0⟩
abbrev CANCEL_COUNTS_CANCELLED : Fld := ⟨.CANCEL_COUNTS, 63, 42⟩
abbrev CANCEL_COUNTS_LATE : Fld := ⟨.CANCEL_COUNTS, 41, 21⟩
abbrev CANCEL_COUNTS_MISSED : Fld := ⟨.CANCEL_COUNTS, 20, 0⟩
abbrev GUTTER_BYTES_BYTES : Fld := ⟨.GUTTER_BYTES, 63, 0⟩
abbrev OPM_ERR_VALID : Fld := ⟨.OPM_ERR, 63, 63⟩
abbrev OPM_ERR_OVERFLOW : Fld := ⟨.OPM_ERR, 62, 62⟩
abbrev OPM_ERR_CODE : Fld := ⟨.OPM_ERR, 55, 48⟩
abbrev OPM_ERR_REASON : Fld := ⟨.OPM_ERR, 47, 44⟩
abbrev OPM_ERR_TENANCY : Fld := ⟨.OPM_ERR, 43, 38⟩
abbrev OPM_ERR_SRC_ID : Fld := ⟨.OPM_ERR, 31, 16⟩
abbrev OPM_ERR_KEY : Fld := ⟨.OPM_ERR, 15, 0⟩
abbrev WARD_STATE_STATE : Fld := ⟨.WARD_STATE, 63, 62⟩
abbrev WARD_STATE_EPOCH : Fld := ⟨.WARD_STATE, 47, 32⟩
abbrev WARD_STATE_FENCE_EPOCH : Fld := ⟨.WARD_STATE, 31, 16⟩
abbrev WARD_STATE_AGE_MS : Fld := ⟨.WARD_STATE, 15, 0⟩
abbrev AUTH_CTL_VALID : Fld := ⟨.AUTH_CTL, 63, 63⟩
abbrev AUTH_CTL_PERIOD_MS : Fld := ⟨.AUTH_CTL, 62, 56⟩
abbrev AUTH_CTL_WARD_ID : Fld := ⟨.AUTH_CTL, 55, 40⟩
abbrev AUTH_CTL_EPOCH : Fld := ⟨.AUTH_CTL, 39, 24⟩
abbrev AUTH_CTL_ACKED : Fld := ⟨.AUTH_CTL, 23, 12⟩
abbrev AUTH_CTL_FENCED : Fld := ⟨.AUTH_CTL, 11, 0⟩
abbrev AUTH_LIST_COUNT_M1 : Fld := ⟨.AUTH_LIST, 63, 52⟩
abbrev AUTH_LIST_ADDR : Fld := ⟨.AUTH_LIST, 51, 0⟩
abbrev AUTH_COUNTS_ACKED : Fld := ⟨.AUTH_COUNTS, 47, 32⟩
abbrev AUTH_COUNTS_FENCED : Fld := ⟨.AUTH_COUNTS, 31, 16⟩
abbrev CMD_ALLOW_VALID : Fld := ⟨.CMD_ALLOW, 31, 31⟩
abbrev CMD_ALLOW_FAB_ID : Fld := ⟨.CMD_ALLOW, 15, 0⟩
abbrev CMD_TX_CTL_GO : Fld := ⟨.CMD_TX_CTL, 63, 63⟩
abbrev CMD_TX_CTL_BUSY : Fld := ⟨.CMD_TX_CTL, 62, 62⟩
abbrev CMD_TX_CTL_PATH : Fld := ⟨.CMD_TX_CTL, 61, 60⟩
abbrev CMD_TX_CTL_RESULT : Fld := ⟨.CMD_TX_CTL, 47, 40⟩
abbrev CMD_TX_CTL_ALLEY_PORT : Fld := ⟨.CMD_TX_CTL, 34, 30⟩
abbrev CMD_TX_CTL_DST_ID : Fld := ⟨.CMD_TX_CTL, 15, 0⟩
abbrev CMD_TX_BODY_WORD : Fld := ⟨.CMD_TX_BODY, 63, 0⟩
abbrev STOP_TRAFFIC_TEN : Fld := ⟨.STOP_TRAFFIC, 63, 0⟩
abbrev STOP_STEP_TEN : Fld := ⟨.STOP_STEP, 63, 0⟩
abbrev COLL_STATUS_BUSY : Fld := ⟨.COLL_STATUS, 63, 63⟩
abbrev COLL_STATUS_QUEUED : Fld := ⟨.COLL_STATUS, 62, 60⟩
abbrev COLL_STATUS_TENANCY : Fld := ⟨.COLL_STATUS, 59, 54⟩
abbrev COLL_STATUS_OP : Fld := ⟨.COLL_STATUS, 53, 50⟩
abbrev COLL_STATUS_STAGE : Fld := ⟨.COLL_STATUS, 49, 48⟩
abbrev COLL_STATUS_GROUP_ID : Fld := ⟨.COLL_STATUS, 47, 32⟩
abbrev COLL_STATUS_GEN : Fld := ⟨.COLL_STATUS, 31, 24⟩
abbrev COLL_STATUS_STREAMS : Fld := ⟨.COLL_STATUS, 23, 0⟩
abbrev ALLEY_CTRL_EN : Fld := ⟨.ALLEY_CTRL, 30, 0⟩
abbrev ALLEY_CMD_EN_PORT : Fld := ⟨.ALLEY_CMD_EN, 30, 0⟩
abbrev ALLEY_ERR_VALID : Fld := ⟨.ALLEY_ERR, 63, 63⟩
abbrev ALLEY_ERR_OVERFLOW : Fld := ⟨.ALLEY_ERR, 62, 62⟩
abbrev ALLEY_ERR_CODE : Fld := ⟨.ALLEY_ERR, 55, 48⟩
abbrev ALLEY_ERR_PORT : Fld := ⟨.ALLEY_ERR, 47, 43⟩
abbrev ALLEY_STATUS_UP : Fld := ⟨.ALLEY_STATUS, 63, 63⟩
abbrev ALLEY_STATUS_MISMATCH : Fld := ⟨.ALLEY_STATUS, 62, 62⟩
abbrev ALLEY_STATUS_NBR_ID : Fld := ⟨.ALLEY_STATUS, 47, 32⟩
abbrev ALLEY_STATUS_CRC_ERRORS : Fld := ⟨.ALLEY_STATUS, 31, 16⟩
abbrev ALLEY_STATUS_COMMANDS : Fld := ⟨.ALLEY_STATUS, 15, 0⟩
abbrev RIDGE_STATUS_STATE : Fld := ⟨.RIDGE_STATUS, 63, 61⟩
abbrev RIDGE_STATUS_FIRST_VALID : Fld := ⟨.RIDGE_STATUS, 60, 60⟩
abbrev RIDGE_STATUS_TRANSIENT_PEND : Fld := ⟨.RIDGE_STATUS, 59, 59⟩
abbrev RIDGE_STATUS_PERMANENT_PEND : Fld := ⟨.RIDGE_STATUS, 58, 58⟩
abbrev RIDGE_STATUS_TERMINATE_PEND : Fld := ⟨.RIDGE_STATUS, 57, 57⟩
abbrev RIDGE_STATUS_REENTRY_DONE : Fld := ⟨.RIDGE_STATUS, 56, 56⟩
abbrev RIDGE_STATUS_GRAVE_CODE : Fld := ⟨.RIDGE_STATUS, 55, 48⟩
abbrev RIDGE_STATUS_LAST_GRAVE : Fld := ⟨.RIDGE_STATUS, 47, 40⟩
abbrev RIDGE_STATUS_RET_GA : Fld := ⟨.RIDGE_STATUS, 39, 36⟩
abbrev RIDGE_STATUS_REENTRIES : Fld := ⟨.RIDGE_STATUS, 35, 32⟩
abbrev RIDGE_STATUS_HIST_COUNT : Fld := ⟨.RIDGE_STATUS, 31, 0⟩
abbrev RIDGE_CTRL_RELEASE : Fld := ⟨.RIDGE_CTRL, 5, 5⟩
abbrev RIDGE_CTRL_AUTO_REENTRY : Fld := ⟨.RIDGE_CTRL, 4, 4⟩
abbrev RIDGE_CTRL_IRQ_EN : Fld := ⟨.RIDGE_CTRL, 3, 0⟩
abbrev RET_LIMITS_BLOCK_N : Fld := ⟨.RET_LIMITS, 63, 56⟩
abbrev RET_LIMITS_GA_N : Fld := ⟨.RET_LIMITS, 55, 48⟩
abbrev RET_LIMITS_LOT_N : Fld := ⟨.RET_LIMITS, 47, 40⟩
abbrev RET_LIMITS_SLOT_N : Fld := ⟨.RET_LIMITS, 39, 32⟩
abbrev RET_LIMITS_CHANNEL_N : Fld := ⟨.RET_LIMITS, 31, 24⟩
abbrev RET_LIMITS_LINKDOWN_N : Fld := ⟨.RET_LIMITS, 23, 16⟩
abbrev RET_LIMITS_LANE_N : Fld := ⟨.RET_LIMITS, 15, 8⟩
abbrev RET_LIMITS_ROW_CE : Fld := ⟨.RET_LIMITS, 7, 0⟩
abbrev RET_LIMITS2_RING_N : Fld := ⟨.RET_LIMITS2, 63, 48⟩
abbrev RET_LIMITS2_REPLAY_MAX : Fld := ⟨.RET_LIMITS2, 47, 40⟩
abbrev RET_LIMITS2_REENTRY_MAX : Fld := ⟨.RET_LIMITS2, 39, 32⟩
abbrev CCC_WDOG_KICK : Fld := ⟨.CCC_WDOG, 31, 31⟩
abbrev CCC_WDOG_EN : Fld := ⟨.CCC_WDOG, 30, 30⟩
abbrev CCC_WDOG_LIMIT_US : Fld := ⟨.CCC_WDOG, 15, 0⟩
abbrev FIRST_ENTRY : Fld := ⟨.FIRST, 63, 0⟩
abbrev RET_BLOCK_RETIRED : Fld := ⟨.RET_BLOCK, 31, 0⟩
abbrev RET_CLEAR_KIND : Fld := ⟨.RET_CLEAR, 31, 28⟩
abbrev RET_CLEAR_UNIT : Fld := ⟨.RET_CLEAR, 15, 0⟩
abbrev RIDGE_FORCE_CODE_BITS : Fld := ⟨.RIDGE_FORCE, 63, 0⟩
abbrev FORCE_UNIT_COUNT : Fld := ⟨.FORCE_UNIT, 31, 31⟩
abbrev FORCE_UNIT_UNIT : Fld := ⟨.FORCE_UNIT, 15, 0⟩
abbrev GRAVE_FORCE_CODE : Fld := ⟨.GRAVE_FORCE, 7, 0⟩
abbrev HIST_ENTRY : Fld := ⟨.HIST, 63, 0⟩
abbrev DFU_WDOG_KICK : Fld := ⟨.DFU_WDOG, 31, 31⟩
abbrev DFU_WDOG_EN : Fld := ⟨.DFU_WDOG, 30, 30⟩
abbrev DFU_WDOG_LIMIT_US : Fld := ⟨.DFU_WDOG, 15, 0⟩
abbrev DFU_FORCE_CODE_BITS : Fld := ⟨.DFU_FORCE, 63, 0⟩
abbrev DFU_FORCE_UNIT_COUNT : Fld := ⟨.DFU_FORCE_UNIT, 31, 31⟩
abbrev DFU_FORCE_UNIT_SUB : Fld := ⟨.DFU_FORCE_UNIT, 13, 0⟩
abbrev BLK_FORCE_CODE_BITS : Fld := ⟨.BLK_FORCE, 63, 0⟩
abbrev HIF_STATUS_LINK_UP : Fld := ⟨.HIF_STATUS, 63, 63⟩
abbrev HIF_STATUS_SPEED : Fld := ⟨.HIF_STATUS, 62, 59⟩
abbrev HIF_STATUS_WIDTH : Fld := ⟨.HIF_STATUS, 58, 54⟩
abbrev HIF_STATUS_BME : Fld := ⟨.HIF_STATUS, 53, 53⟩
abbrev HIF_STATUS_MSIX_EN : Fld := ⟨.HIF_STATUS, 52, 52⟩
abbrev HIF_STATUS_FN_MASK : Fld := ⟨.HIF_STATUS, 51, 51⟩
abbrev HIF_STATUS_CFG_REJECT : Fld := ⟨.HIF_STATUS, 50, 50⟩
abbrev HIF_STATUS_FLR_SEEN : Fld := ⟨.HIF_STATUS, 49, 49⟩
abbrev HIF_STATUS_ACK_STALE : Fld := ⟨.HIF_STATUS, 31, 16⟩
abbrev HIF_ERR_VALID : Fld := ⟨.HIF_ERR, 63, 63⟩
abbrev HIF_ERR_OVERFLOW : Fld := ⟨.HIF_ERR, 62, 62⟩
abbrev HIF_ERR_KIND : Fld := ⟨.HIF_ERR, 55, 52⟩
abbrev HIF_ERR_STATUS : Fld := ⟨.HIF_ERR, 51, 44⟩
abbrev HIF_ERR_WINDOW : Fld := ⟨.HIF_ERR, 41, 36⟩
abbrev HIF_ERR_OFFSET : Fld := ⟨.HIF_ERR, 35, 0⟩
abbrev BAR2_XLAT_VALID : Fld := ⟨.BAR2_XLAT, 63, 63⟩
abbrev BAR2_XLAT_WRITE : Fld := ⟨.BAR2_XLAT, 62, 62⟩
abbrev BAR2_XLAT_TARGET : Fld := ⟨.BAR2_XLAT, 55, 30⟩
abbrev RES_TEN_REPORT : Fld := ⟨.RES_TEN, 31, 31⟩
abbrev RES_TEN_CHANNEL : Fld := ⟨.RES_TEN, 5, 0⟩
abbrev RES_CH_CFG_EN : Fld := ⟨.RES_CH_CFG, 63, 63⟩
abbrev RES_CH_CFG_MODE : Fld := ⟨.RES_CH_CFG, 62, 62⟩
abbrev RES_CH_CFG_LOG2_SIZE : Fld := ⟨.RES_CH_CFG, 56, 52⟩
abbrev RES_CH_CFG_SLOTS : Fld := ⟨.RES_CH_CFG, 44, 32⟩
abbrev RES_CH_BASE_BASE : Fld := ⟨.RES_CH_BASE, 63, 12⟩
abbrev RES_CH_PI_NEXT_SEQ : Fld := ⟨.RES_CH_PI, 63, 32⟩
abbrev RES_CH_PI_PI : Fld := ⟨.RES_CH_PI, 31, 0⟩
abbrev RES_CH_CI_CI : Fld := ⟨.RES_CH_CI, 31, 0⟩
abbrev RES_CH_STATUS_HELD : Fld := ⟨.RES_CH_STATUS, 63, 51⟩
abbrev RES_CH_STATUS_RESERVED : Fld := ⟨.RES_CH_STATUS, 50, 38⟩
abbrev RES_CH_STATUS_STALLS : Fld := ⟨.RES_CH_STATUS, 31, 0⟩
abbrev RP_STATUS_STATUS : Fld := ⟨.RP_STATUS, 31, 0⟩
abbrev RESULT_ACK_SEQ : Fld := ⟨.RESULT_ACK, 31, 0⟩
abbrev RP_DATA_WORD : Fld := ⟨.RP_DATA, 63, 0⟩
abbrev CLAIM_EVENTS : Fld := ⟨.CLAIM, 31, 16⟩
abbrev CLAIM_SOURCE : Fld := ⟨.CLAIM, 15, 0⟩
abbrev COMPLETE_SOURCE : Fld := ⟨.COMPLETE, 15, 0⟩
abbrev THRESHOLD_LEVEL : Fld := ⟨.THRESHOLD, 2, 0⟩
abbrev SOFT_RAISE : Fld := ⟨.SOFT, 0, 0⟩
abbrev IC_STATUS_REJECTS : Fld := ⟨.IC_STATUS, 31, 16⟩
abbrev GF_CFG_GLITCHES : Fld := ⟨.GF_CFG, 31, 16⟩
abbrev GF_CFG_LEVEL : Fld := ⟨.GF_CFG, 8, 8⟩
abbrev GF_CFG_STABLE : Fld := ⟨.GF_CFG, 7, 0⟩
abbrev ROLE_REQ_GO : Fld := ⟨.ROLE_REQ, 31, 31⟩
abbrev ROLE_REQ_VERIFY : Fld := ⟨.ROLE_REQ, 30, 30⟩
abbrev ROLE_REQ_DROP : Fld := ⟨.ROLE_REQ, 29, 29⟩
abbrev ROLE_REQ_ROLE : Fld := ⟨.ROLE_REQ, 9, 8⟩
abbrev ROLE_REQ_SLOT : Fld := ⟨.ROLE_REQ, 2, 0⟩
abbrev ROLE_STATUS_PENDING : Fld := ⟨.ROLE_STATUS, 63, 63⟩
abbrev ROLE_STATUS_BUSY : Fld := ⟨.ROLE_STATUS, 62, 62⟩
abbrev ROLE_STATUS_LOCKED : Fld := ⟨.ROLE_STATUS, 61, 61⟩
abbrev ROLE_STATUS_RESULT : Fld := ⟨.ROLE_STATUS, 55, 48⟩
abbrev ROLE_STATUS_FAILS : Fld := ⟨.ROLE_STATUS, 47, 40⟩
abbrev ROLE_STATUS_REQ_ID : Fld := ⟨.ROLE_STATUS, 31, 0⟩
abbrev ROLE_HELD_MAKER_LEFT_S : Fld := ⟨.ROLE_HELD, 63, 48⟩
abbrev ROLE_HELD_INSTALLER_LEFT_S : Fld := ⟨.ROLE_HELD, 47, 32⟩
abbrev ROLE_HELD_OPERATOR_LEFT_S : Fld := ⟨.ROLE_HELD, 31, 16⟩
abbrev ROLE_HELD_HELD : Fld := ⟨.ROLE_HELD, 2, 0⟩
abbrev ROLE_CFG_TTL_S : Fld := ⟨.ROLE_CFG, 15, 0⟩
abbrev ROLE_CHALLENGE_BYTES : Fld := ⟨.ROLE_CHALLENGE, 63, 0⟩
abbrev ROLE_RESP_BYTES : Fld := ⟨.ROLE_RESP, 63, 0⟩
abbrev KEY_DATA_BYTES : Fld := ⟨.KEY_DATA, 63, 0⟩
abbrev KEY_CTL_GO : Fld := ⟨.KEY_CTL, 31, 31⟩
abbrev KEY_CTL_BUSY : Fld := ⟨.KEY_CTL, 30, 30⟩
abbrev KEY_CTL_ERR : Fld := ⟨.KEY_CTL, 29, 29⟩
abbrev KEY_CTL_SLOT : Fld := ⟨.KEY_CTL, 2, 0⟩
abbrev KEY_STATUS_REJECTED : Fld := ⟨.KEY_STATUS, 15, 8⟩
abbrev KEY_STATUS_LOADED : Fld := ⟨.KEY_STATUS, 7, 0⟩
abbrev AUD_STATUS_BUSY : Fld := ⟨.AUD_STATUS, 63, 63⟩
abbrev AUD_STATUS_FLASH_ERR : Fld := ⟨.AUD_STATUS, 62, 62⟩
abbrev AUD_STATUS_QUEUED : Fld := ⟨.AUD_STATUS, 56, 48⟩
abbrev AUD_STATUS_DROPPED : Fld := ⟨.AUD_STATUS, 47, 32⟩
abbrev AUD_STATUS_NEXT_SEQ : Fld := ⟨.AUD_STATUS, 31, 0⟩
abbrev AUD_READ_DONE : Fld := ⟨.AUD_READ, 63, 63⟩
abbrev AUD_READ_FOUND : Fld := ⟨.AUD_READ, 62, 62⟩
abbrev AUD_READ_SEQ : Fld := ⟨.AUD_READ, 31, 0⟩
abbrev AUD_DATA_WORD : Fld := ⟨.AUD_DATA, 63, 0⟩
abbrev REPRO_SIG_PART : Fld := ⟨.REPRO_SIG, 63, 48⟩
abbrev REPRO_SIG_STEPPING : Fld := ⟨.REPRO_SIG, 47, 40⟩
abbrev REPRO_SIG_REPRO_CLASS : Fld := ⟨.REPRO_SIG, 39, 32⟩
abbrev REPRO_SIG_FW_MAJOR : Fld := ⟨.REPRO_SIG, 31, 16⟩
abbrev DG_CMD_OP : Fld := ⟨.DG_CMD, 31, 28⟩
abbrev DG_CMD_TENANCY : Fld := ⟨.DG_CMD, 9, 4⟩
abbrev DG_CMD_ENTRY : Fld := ⟨.DG_CMD, 3, 0⟩
abbrev DG_STATUS_BUSY : Fld := ⟨.DG_STATUS, 63, 63⟩
abbrev DG_STATUS_REJECT : Fld := ⟨.DG_STATUS, 62, 62⟩
abbrev DG_STATUS_PAGES_LEFT : Fld := ⟨.DG_STATUS, 47, 0⟩
abbrev DG_SEL_SEALED : Fld := ⟨.DG_SEL, 63, 63⟩
abbrev DG_SEL_TENANCY : Fld := ⟨.DG_SEL, 9, 4⟩
abbrev DG_SEL_ENTRY : Fld := ⟨.DG_SEL, 3, 0⟩
abbrev DG_VAL_DIGEST : Fld := ⟨.DG_VAL, 63, 0⟩
abbrev DG_TEN_SEALED_ALL : Fld := ⟨.DG_TEN, 16, 16⟩
abbrev DG_TEN_EN : Fld := ⟨.DG_TEN, 0, 0⟩
abbrev PWR_STATUS_EMERG : Fld := ⟨.PWR_STATUS, 63, 63⟩
abbrev PWR_STATUS_STEP : Fld := ⟨.PWR_STATUS, 62, 60⟩
abbrev PWR_STATUS_CAUSE_POWER : Fld := ⟨.PWR_STATUS, 59, 59⟩
abbrev PWR_STATUS_CAUSE_TJ : Fld := ⟨.PWR_STATUS, 58, 58⟩
abbrev PWR_STATUS_CAUSE_HBM : Fld := ⟨.PWR_STATUS, 57, 57⟩
abbrev PWR_STATUS_CAUSE_PIN : Fld := ⟨.PWR_STATUS, 56, 56⟩
abbrev PWR_STATUS_CFG_REJECT : Fld := ⟨.PWR_STATUS, 55, 55⟩
abbrev PWR_STATUS_POWER_W : Fld := ⟨.PWR_STATUS, 47, 32⟩
abbrev PWR_STATUS_TJ_MAX_C : Fld := ⟨.PWR_STATUS, 31, 24⟩
abbrev PWR_LIMIT_TJ_EMERG_C : Fld := ⟨.PWR_LIMIT, 31, 24⟩
abbrev PWR_LIMIT_TJ_THROTTLE_C : Fld := ⟨.PWR_LIMIT, 23, 16⟩
abbrev PWR_LIMIT_LIMIT_W : Fld := ⟨.PWR_LIMIT, 11, 0⟩
abbrev RAIL_STATUS_IN_RANGE : Fld := ⟨.RAIL_STATUS, 63, 63⟩
abbrev RAIL_STATUS_CURRENT : Fld := ⟨.RAIL_STATUS, 47, 32⟩
abbrev RAIL_STATUS_MV : Fld := ⟨.RAIL_STATUS, 15, 0⟩
abbrev RST_CTRL_COLD : Fld := ⟨.RST_CTRL, 1, 1⟩
abbrev RST_CTRL_FABRIC : Fld := ⟨.RST_CTRL, 0, 0⟩
abbrev RST_CAUSE_KIND : Fld := ⟨.RST_CAUSE, 63, 60⟩
abbrev RST_CAUSE_SOURCE : Fld := ⟨.RST_CAUSE, 59, 56⟩
abbrev RST_CAUSE_BOOT_COUNT : Fld := ⟨.RST_CAUSE, 31, 0⟩
abbrev FW_STATUS_RUN_SLOT : Fld := ⟨.FW_STATUS, 63, 62⟩
abbrev FW_STATUS_ACTIVE : Fld := ⟨.FW_STATUS, 61, 60⟩
abbrev FW_STATUS_TRY_SLOT : Fld := ⟨.FW_STATUS, 59, 58⟩
abbrev FW_STATUS_TRIES_LEFT : Fld := ⟨.FW_STATUS, 57, 56⟩
abbrev FW_STATUS_A_VALID : Fld := ⟨.FW_STATUS, 55, 55⟩
abbrev FW_STATUS_B_VALID : Fld := ⟨.FW_STATUS, 54, 54⟩
abbrev FW_STATUS_FW_MAJOR : Fld := ⟨.FW_STATUS, 47, 32⟩
abbrev FW_STATUS_FW_MINOR : Fld := ⟨.FW_STATUS, 31, 16⟩
abbrev FW_STATUS_SVN : Fld := ⟨.FW_STATUS, 15, 8⟩
abbrev FW_CTL_OP : Fld := ⟨.FW_CTL, 31, 28⟩
abbrev FW_CTL_BUSY : Fld := ⟨.FW_CTL, 27, 27⟩
abbrev FW_CTL_RESULT : Fld := ⟨.FW_CTL, 26, 24⟩
abbrev FW_SRC_ADDR : Fld := ⟨.FW_SRC, 63, 12⟩
abbrev FW_FUSE_MIN_SVN : Fld := ⟨.FW_FUSE, 15, 8⟩
abbrev FW_FUSE_BURN_SVN : Fld := ⟨.FW_FUSE, 0, 0⟩
abbrev I3C_CFG_SMBUS : Fld := ⟨.I3C_CFG, 7, 7⟩
abbrev I3C_CFG_STATIC_ADDR : Fld := ⟨.I3C_CFG, 6, 0⟩
abbrev SRC_PRIV_EN : Fld := ⟨.SRC_PRIV, 63, 63⟩
abbrev SRC_PRIV_PRIO : Fld := ⟨.SRC_PRIV, 48, 46⟩
abbrev SRC_PRIV_COAL_COUNT : Fld := ⟨.SRC_PRIV, 45, 38⟩
abbrev SRC_PRIV_COAL_US : Fld := ⟨.SRC_PRIV, 37, 24⟩
abbrev SRC_PRIV_ACTIVE : Fld := ⟨.SRC_PRIV, 23, 23⟩
abbrev SRC_PRIV_PENDING : Fld := ⟨.SRC_PRIV, 22, 22⟩
abbrev SRC_PRIV_EVENTS : Fld := ⟨.SRC_PRIV, 15, 0⟩
abbrev SRC_SH_EN : Fld := ⟨.SRC_SH, 63, 63⟩
abbrev SRC_SH_TARGET : Fld := ⟨.SRC_SH, 62, 60⟩
abbrev SRC_SH_VECTOR : Fld := ⟨.SRC_SH, 59, 49⟩
abbrev SRC_SH_PRIO : Fld := ⟨.SRC_SH, 48, 46⟩
abbrev SRC_SH_COAL_COUNT : Fld := ⟨.SRC_SH, 45, 38⟩
abbrev SRC_SH_COAL_US : Fld := ⟨.SRC_SH, 37, 24⟩
abbrev SRC_SH_ACTIVE : Fld := ⟨.SRC_SH, 23, 23⟩
abbrev SRC_SH_PENDING : Fld := ⟨.SRC_SH, 22, 22⟩
abbrev SRC_SH_EVENTS : Fld := ⟨.SRC_SH, 15, 0⟩
abbrev PSHP_STATE_DEPTH : Fld := ⟨.PSHP_STATE, 63, 48⟩
abbrev PSHP_STATE_TOKENS : Fld := ⟨.PSHP_STATE, 31, 0⟩
abbrev PSHP_SAMPLE_DEPTH_PEAK : Fld := ⟨.PSHP_SAMPLE, 63, 48⟩
abbrev PSHP_SAMPLE_DEPTH_LAST : Fld := ⟨.PSHP_SAMPLE, 47, 32⟩
abbrev PSHP_SAMPLE_DELAY_MAX_NS : Fld := ⟨.PSHP_SAMPLE, 31, 0⟩
abbrev SSHP_STATE_DEPTH : Fld := ⟨.SSHP_STATE, 63, 48⟩
abbrev SSHP_STATE_TOKENS : Fld := ⟨.SSHP_STATE, 31, 0⟩
abbrev SSHP_SAMPLE_DEPTH_PEAK : Fld := ⟨.SSHP_SAMPLE, 63, 48⟩
abbrev SSHP_SAMPLE_DEPTH_LAST : Fld := ⟨.SSHP_SAMPLE, 47, 32⟩
abbrev SSHP_SAMPLE_DELAY_MAX_NS : Fld := ⟨.SSHP_SAMPLE, 31, 0⟩
abbrev MSIX_ADDR_ADDR : Fld := ⟨.MSIX_ADDR, 63, 0⟩
abbrev MSIX_DATA_DATA : Fld := ⟨.MSIX_DATA, 31, 0⟩
abbrev MSIX_CTL_MASK : Fld := ⟨.MSIX_CTL, 0, 0⟩
abbrev MSIX_PBA_PEND : Fld := ⟨.MSIX_PBA, 63, 0⟩

end F

end Sys2Proof.Machine
end

