-- ==== Sys2Proof/Machine/RegMap.lean ====
section
/-! DEFINITION. Where the control registers lie: the block offsets of R32 and R33, the offset of a register from its
indices, the register at an offset, and the reading and placing of a field in a register's value. -/

namespace Sys2Proof.Machine

/-- The offset in the control register space of the first byte of a block (R32, R33), from the leading indices of its
registers, and the indices that remain. Control cores are numbered 0 to 3 for the DCCs and 4, 5 for CCC0 and CCC1. The two
copies of the agent registers lie at one offset (R470); the copy of the I3C agent is kept 2^32 above it. -/
def Region.start : Region → List Nat → Nat × List Nat
  | .ident, ix => (0, ix)
  | .decode, ix => (0x1000, ix)
  | .ridge, ix => (0x10000, ix)
  | .tick, ix => (0x20000, ix)
  | .chipic, ix => (0x50000, ix)
  | .sec, ix => (0x60000, ix)
  | .secAgent, a :: ix => (0x60000 + a * 2 ^ 32, ix)
  | .repro, ix => (0x70000, ix)
  | .power, ix => (0x80000, ix)
  | .alley, ix => (0x90000, ix)
  | .hif, ix => (0x100000, ix)
  | .flash, ix => (0x200000, ix)
  | .t2, ix => (0x300000, ix)
  | .shp, ix => (0x400000, ix)
  | .port, p :: ix => (0x1000000 + p * 0x10000, ix)
  | .switch, ix => (0x1400000, ix)
  | .opm, ix => (0x1800000, ix)
  | .core, c :: ix => (if c < 4 then 0x2000000 + c * 0x800000 else 0x30000 + (c - 4) * 0x10000, ix)
  | .iccore, c :: ix => (if c < 4 then 0x2010000 + c * 0x800000 else 0x50000 + (c - 4) * 0x40, ix)
  | .icpriv, c :: ix => (if c < 4 then 0x2010400 + c * 0x800000 else 0x50400 + (c - 4) * 0x200, ix)
  | .re, d :: ix => (0x2020000 + d * 0x800000, ix)
  | .rm, d :: ix => (0x2030000 + d * 0x800000, ix)
  | .dma, d :: ix => (0x2040000 + d * 0x800000, ix)
  | .square, d :: ix => (0x2050000 + d * 0x800000, ix)
  | .hbm, d :: ix => (0x2060000 + d * 0x800000, ix)
  | .ga, d :: ix => (0x2080000 + d * 0x800000, ix)
  | .dfu, d :: ix => (0x2090000 + d * 0x800000, ix)
  | .blk, b :: ix => (0x2400000 + b / 256 * 0x800000 + b % 256 * 0x4000, ix)
  | _, ix => (0, ix)

/-- The sum of index × stride. -/
def strides : List (Nat × Nat × Nat) → List Nat → Nat
  | (st, _, _) :: ds, i :: ix => i * st + strides ds ix
  | _, _ => 0

/-- The offset of a register in the control register space, from its indices. -/
def RegName.addr (r : RegName) (ix : List Nat) : Nat :=
  let p := r.info.region.start ix
  p.1 + r.info.off + strides r.info.dims p.2

/-- The reset value of a register: its fields' reset values in place, and for GF_CFG the reset by line (R458). -/
def RegName.rst (r : RegName) (ix : List Nat) : W64 :=
  match r, ix with
  | .GF_CFG, [0] => 16
  | .GF_CFG, [1] => 64
  | _, _ => BitVec.ofNat 64 (r.info.fields.foldl (fun a f => a + f.rst * 2 ^ f.lo) 0)

/-- A field's value in a register's value. -/
def Fld.ext (f : Fld) (v : W64) : Nat := (v.toNat >>> f.lo) % 2 ^ (f.hi + 1 - f.lo)

/-- A register's value with a field replaced. -/
def Fld.ins (f : Fld) (v : W64) (x : Nat) : W64 :=
  let w := f.hi + 1 - f.lo
  let n := v.toNat
  BitVec.ofNat 64 (n % 2 ^ f.lo + (x % 2 ^ w) * 2 ^ f.lo + n / 2 ^ (f.hi + 1) * 2 ^ (f.hi + 1))

/-- The blocks that can hold an offset, each with the leading indices and the offset in the block. -/
def locate (off : Nat) : List (Region × List Nat × Nat) :=
  if off < 0x1000 then [(.ident, [], off)]
  else if off < 0x2000 then [(.decode, [], off - 0x1000)]
  else if off < 0x10000 then []
  else if off < 0x20000 then [(.ridge, [], off - 0x10000)]
  else if off < 0x30000 then [(.tick, [], off - 0x20000)]
  else if off < 0x40000 then [(.core, [4], off - 0x30000)]
  else if off < 0x50000 then [(.core, [5], off - 0x40000)]
  else if off < 0x50040 then [(.iccore, [4], off - 0x50000)]
  else if off < 0x50080 then [(.iccore, [5], off - 0x50040)]
  else if off < 0x50400 then []
  else if off < 0x50600 then [(.icpriv, [4], off - 0x50400)]
  else if off < 0x50800 then [(.icpriv, [5], off - 0x50600)]
  else if off < 0x60000 then [(.chipic, [], off - 0x50000)]
  else if off < 0x70000 then [(.sec, [], off - 0x60000), (.secAgent, [0], off - 0x60000)]
  else if off < 0x80000 then [(.repro, [], off - 0x70000)]
  else if off < 0x90000 then [(.power, [], off - 0x80000)]
  else if off < 0xA0000 then [(.alley, [], off - 0x90000)]
  else if off < 0x100000 then []
  else if off < 0x200000 then [(.hif, [], off - 0x100000)]
  else if off < 0x300000 then [(.flash, [], off - 0x200000)]
  else if off < 0x400000 then [(.t2, [], off - 0x300000)]
  else if off < 0x500000 then [(.shp, [], off - 0x400000)]
  else if off < 0x1000000 then []
  else if off < 0x1240000 then [(.port, [(off - 0x1000000) / 0x10000], off % 0x10000)]
  else if off < 0x1400000 then []
  else if off < 0x1800000 then [(.switch, [], off - 0x1400000)]
  else if off < 0x1C00000 then [(.opm, [], off - 0x1800000)]
  else if off < 0x2000000 then []
  else if off < 0x4000000 then
    let d := (off - 0x2000000) / 0x800000
    let l := off % 0x800000
    if l < 0x10000 then [(.core, [d], l)]
    else if l < 0x10400 then [(.iccore, [d], l - 0x10000)]
    else if l < 0x20000 then [(.icpriv, [d], l - 0x10400)]
    else if l < 0x30000 then [(.re, [d], l - 0x20000)]
    else if l < 0x40000 then [(.rm, [d], l - 0x30000)]
    else if l < 0x50000 then [(.dma, [d], l - 0x40000)]
    else if l < 0x60000 then [(.square, [d], l - 0x50000)]
    else if l < 0x80000 then [(.hbm, [d], l - 0x60000)]
    else if l < 0x90000 then [(.ga, [d], l - 0x80000)]
    else if l < 0xA0000 then [(.dfu, [d], l - 0x90000)]
    else if l < 0x400000 then []
    else [(.blk, [d * 256 + (l - 0x400000) / 0x4000], l % 0x4000)]
  else []

/-- The indices that place a register's first byte at relative offset `x`, if any. -/
def solveDims : List (Nat × Nat × Nat) → Nat → Option (List Nat)
  | [], x => if x = 0 then some [] else none
  | (st, a, b) :: ds, x =>
    let i := if ds.isEmpty then x / st else min (x / st) b
    if a ≤ i && i ≤ b && i * st ≤ x then (solveDims ds (x - i * st)).map (fun l => i :: l) else none

/-- The register whose aligned word of 4 bytes at block offset `x` is read: its indices, and whether `x` is the upper half
of a 64-bit register. -/
def regHere (r : RegName) (x : Nat) : Option (List Nat × Bool) :=
  let inf := r.info
  if x < inf.off then none
  else
    match solveDims inf.dims (x - inf.off) with
    | some ix => some (ix, false)
    | none =>
      if inf.w64 && inf.off + 4 ≤ x then (solveDims inf.dims (x - inf.off - 4)).map (fun ix => (ix, true)) else none

/-- The registers of a block: the blocks of CCC0 and CCC1 hold three of a control core's and nothing else. -/
def regsHere : Region → List Nat → List RegName
  | .core, c :: _ => if c < 4 then regsOf .core else [.CORE_CTRL, .CORE_STATUS, .CORE_PC]
  | g, _ => regsOf g

/-- The register at a 4-byte aligned offset of the control register space. -/
def regAt (off : Nat) : Option (RegName × List Nat × Bool) :=
  (locate off).findSome? fun (g, pre, x) =>
    (regsHere g pre).findSome? fun r => (regHere r x).map fun (ix, up) => (r, pre ++ ix, up)

end Sys2Proof.Machine
end

