-- ==== Sys2Proof/Machine/State.lean ====
section
/-! DEFINITION. The state of the device, as plain data. Every named control register has its home in `State.regs`; what the
spec describes but gives no register stands in the structures below. -/

namespace Sys2Proof.Machine

/-- What fuses and the factory fix (R1, R2, R7, R474, R499). The spec gives these values only as F, loaded from fuses. DESIGN
CHOICE (assumption 2): the model starts as a VK-9120, stepping B0, class 0, with serial number, keys and MIN_SVN of 0; the command
FUSE programs any other device. -/
structure Fuses where
  part : Nat := 0x9120
  stepping : Nat := 0xB0
  reproClass : Nat := 0
  /-- bit b set: the fuse that disables physical Block b on a VK-9096 is blown -/
  fusedMap : Nat := 0
  serial : Nat := 0
  fwKey : Nat := 0
  makerDigest : Nat := 0
  minSvn : Nat := 0
  deriving DecidableEq, Repr

/-- Whether the map of fused Blocks names 64 of each District (R2). -/
def Fuses.mapOk (f : Fuses) : Bool :=
  (List.range 4).all fun d => ((List.range 256).filter (fun i => f.fusedMap.testBit (256 * d + i))).length == 64

/-- Whether a Block is fused off (R2): none on a VK-9120, and 64 of each District on a VK-9096. DESIGN CHOICE (assumption 3): while
the map of a VK-9096 does not name 64 of each District, which no part shipped does, they are the last 64 of each District. -/
def Fuses.fused (f : Fuses) (b : Nat) : Bool :=
  f.part == 0x9096 && (if f.mapOk then f.fusedMap.testBit b else 192 ≤ b % 256)

/-- A Tenancy descriptor (R50). -/
structure Desc where
  gaMask : Nat := 0
  reMask : Nat := 0
  policy : Nat := 1
  maxOver : Nat := 1
  spareBlocks : Nat := 0
  wardRequired : Bool := false
  replT2 : Bool := false
  fixedOrder : Bool := false
  blocksPerExpert : Nat := 1
  priv : List Nat := [0, 0, 0, 0]
  cache : List Nat := [0, 0, 0, 0]
  t1Quota : Nat := 0
  t2Quota : Nat := 0
  t3Quota : Nat := 0
  shaper : Nat := 0
  ctx : Nat := 0
  ctxLen : Nat := 0
  entry : Nat := 0
  batten : Nat := 0
  deriving DecidableEq, Repr

/-- A bounds table entry loaded as valid (R78). -/
structure Bound where
  base : Nat
  pages : Nat
  rd : Bool
  wr : Bool
  ex : Bool
  cache : Bool
  engine : Bool
  deriving DecidableEq, Repr

/-- A state region record loaded as valid (R281). -/
structure StateRegion where
  vbase : Nat
  pages : Nat
  shadow : Nat
  table : Nat
  deriving DecidableEq, Repr

/-- A fabric record loaded as valid (R362). -/
structure FabRec where
  rtt : Nat
  ranksM1 : Nat
  ownRank : Nat
  wardId : Nat
  exportBase : Nat
  exportPages : Nat
  authId : Nat
  deriving DecidableEq, Repr

/-- A digest table entry as loaded (R464). `invalid` marks an entry with VALID = 1 that breaks R464. -/
structure DigestEntry where
  base : Nat
  word1 : Nat
  invalid : Bool
  deriving DecidableEq, Repr

/-- The control record of one Great Array, loaded as valid (R157, R158). -/
structure GaCtl where
  list : Nat
  entries : Nat
  feed : Nat
  deriving DecidableEq, Repr

/-- How a step ended. -/
inductive Ending where
  | commit
  | discard (code : Nat)
  | abandon (cause : Nat)
  deriving DecidableEq, Repr

/-- A step that has started and has no result record yet. -/
structure Run where
  step : Nat
  attempt : Nat := 0
  kind : Nat := 0
  slot : Nat := 0
  budget : Nat := 0
  firstNs : Nat := 0
  startNs : Nat := 0
  /-- the committed pointer word when attempt 0 started -/
  prevCommit : Nat := 0
  seed : Nat := 0
  input : List Nat := []
  /-- directory entry addresses whose DATA_ERROR led to a replay, newest first (R250) -/
  badDirs : List Nat := []
  /-- the Batten of the attempt is complete in T1 -/
  batten : Bool := false
  /-- step entry has been made on the participating DCCs -/
  entered : Bool := false
  urgent : Bool := false
  suspended : Bool := false
  /-- the present tick's overrun has been handled -/
  overrun : Bool := false
  overruns : Nat := 0
  /-- code of the event that marked this attempt for replay, if any -/
  mark : Option Nat := none
  lastCause : Nat := 0
  /-- the marked attempt has ended and waits for the tick start that replays it -/
  replayDue : Bool := false
  /-- a re-run under R166, which is no replay, is due or under way -/
  rerun : Bool := false
  /-- consecutive attempts marked for replay (R417) -/
  marks : Nat := 0
  isReplay : Bool := false
  /-- units that marked the previous and the present attempt by a counted event (R419) -/
  prevUnits : List Nat := []
  units : List Nat := []
  /-- discard code asked for in each District: by its DCC, or by a unit of it -/
  discards : KMap (Option Nat) := []
  /-- Districts whose DCC has retired STEPEND -/
  stepends : List Nat := []
  stepEnded : Bool := false
  flipped : Bool := false
  flushed : Bool := false
  ended : Option Ending := none
  endNs : Nat := 0
  endTick : Nat := 0
  /-- the result channel whose store slot the step reserved (R439) -/
  channel : Option Nat := none
  warn : Bool := false
  emulated : Bool := false
  /-- DG_TEN.EN as it stood at the tick start of the attempt -/
  digestOn : Bool := false
  digest : Nat := 0
  digestValid : Bool := false
  /-- drives written without FUA (R295) -/
  drives : List Nat := []
  /-- the step met a FENCED completion, or an access of it failed -/
  fenced : Bool := false
  deriving DecidableEq, Repr

/-- A line of a control core's data cache, held by the address that the core used (R523). -/
structure CacheLine where
  line : Nat
  data : List Byte
  dirty : Bool
  deriving DecidableEq, Repr

/-- What an outstanding access of a control core does when it completes. -/
inductive CoreAcc where
  | load (rd : Nat) (addr len : Nat) (signed : Bool)
  | store (addr len : Nat) (v : W64)
  | amo (rd : Nat) (addr len : Nat)
  | enq (rd func addr n : Nat) (have_ : List Byte)
  /-- a line of the data cache on its way back to memory -/
  | back (line : Nat) (data : List Byte)
  /-- an instruction fetched from another device -/
  | fetch (pc : Nat)
  deriving DecidableEq, Repr

/-- An access of a control core that has issued and not completed: the Tenancy that bounds it or 0, and its fabric request, if
it has one. -/
structure CoreReq where
  acc : CoreAcc
  ten : Nat
  tag : Option Nat
  /-- its name in the memory shaper where it waits, or 0 -/
  key : Nat := 0
  /-- its NVMe command, if it has one -/
  nvme : Option Nat := none
  deriving DecidableEq, Repr

/-- An ENQ that waits in the middle of its source: the entries that it takes, the bytes read, and DCACHE_MISS when it began. -/
structure EnqSt where
  n : Nat
  got : List Byte
  miss : Nat
  deriving DecidableEq, Repr

/-- What a control core waits for. -/
inductive CoreWait where
  | none
  | wfi
  | evwait (evc : Nat) (v : Nat)
  | access
  deriving DecidableEq, Repr

/-- A control core. -/
structure CoreSt where
  g : KMap W64 := []
  pc : Nat := 0
  lastPc : Nat := 0
  level : Nat := 1
  ie : Bool := false
  prevLevel : Nat := 0
  prevIe : Bool := false
  tvec : W64 := 0
  epc : W64 := 0
  cause : W64 := 0
  badaddr : W64 := 0
  scratch : W64 := 0
  errCount : Nat := 0
  errCode : Nat := 0
  errAddr : Nat := 0
  ten : Nat := 0
  step : Nat := 0
  batten : Nat := 0
  retired : Nat := 0
  wrongPath : Nat := 0
  mispredict : Nat := 0
  dmiss : Nat := 0
  imiss : Nat := 0
  wait : CoreWait := .none
  halted : Bool := false
  /-- between step entry and the retirement of STEPEND -/
  inStep : Bool := false
  dcache : List CacheLine := []
  icache : List Nat := []
  /-- accesses issued and not completed, oldest first -/
  reqs : List CoreReq := []
  /-- the ENQ under way, when it waits between the lines of its source -/
  enq : Option EnqSt := none
  /-- address of the instruction obtained over the fabric -/
  fetched : Option Nat := none
  /-- what the predictor, target buffer and return stack were updated by since they were cleared (R90): the address of each
  retired branch or jump and where it went -/
  branches : List (Nat × Nat) := []
  /-- the cclk count at core reset, in eightieths -/
  bornCycles : Nat := 0
  deriving DecidableEq, Repr

/-- A Command List entry in a queue, an inbox or a Sequencer (R98): its words, with TENANCY as R97 writes it, and the
District whose dispatcher took it, which is the District of its event counters. -/
structure CqEntry where
  dist : Nat
  w0 : Nat
  w1 : Nat
  w2 : Nat
  w3 : Nat
  /-- the index of the list entry of a retired Great Array that a RUN entry is a part of (R176) -/
  emu : Option Nat := none
  deriving DecidableEq, Repr

/-- A place in an inbox: the entry, and whether it has arrived there (R102). -/
structure InboxSlot where
  entry : CqEntry
  arrived : Bool
  deriving DecidableEq, Repr

/-- A ring partition (R117, R140). -/
structure RingPart where
  base : Nat
  size : Nat
  wr : Nat := 0
  rd : Nat := 0
  deriving DecidableEq, Repr

/-- An array pass in flight: the fields that its results depend on, and the operand store as it stood at issue (R153). -/
structure Pass where
  shape : Nat
  fmtA : Nat
  fmtB : Nat
  acc : Nat
  accum : Bool
  shingle : Bool
  a : Nat
  b : Nat
  gstride : Nat := 0
  rows : Nat
  cols : Nat
  len : Nat
  scaleA : Nat
  scaleB : Nat
  /-- words of its regions that held an uncorrectable error when it issued -/
  bad : List Nat := []
  snap : List Host.Cell
  /-- the cclk count at its issue, in eightieths -/
  bornCycles : Nat := 0
  /-- Great Array: list index, word 0 and word 1 of the entry -/
  index : Nat := 0
  w0 : Nat := 0
  w1 : Nat := 0
  deriving DecidableEq, Repr

/-- Who runs a DMA descriptor: a Block interface on a tag, or a channel of a District. -/
inductive DmaOwner where
  | blk (b tag : Nat)
  | ch (d c : Nat)
  deriving DecidableEq, Repr

/-- What an engine's running command has obtained so far, in order: for each access its status and its bytes. A command that has
to wait goes on from here. -/
abbrev Log := List (Nat × List Byte)

/-- A DMA descriptor that has been accepted and has not completed (R132). `log` holds what the piece in progress has obtained;
`status` is set once it has ended. -/
structure DmaJob where
  id : Nat
  owner : DmaOwner
  ten : Nat
  words : List Nat
  /-- offset of the descriptor in the scratchpad of a Block that issued it -/
  off : Nat
  /-- bytes completed -/
  bytes : Nat := 0
  /-- pool bytes reserved for reads that have not issued, and those that reads under way and data not yet written hold (R143) -/
  reserved : Nat := 0
  held : Nat := 0
  /-- the indices of a scattering REDUCE have been found to name legal destinations (R134) -/
  checked : Bool := false
  log : Log := []
  /-- the unit that waits for room in a ring partition -/
  ringUnit : Option (List Byte) := none
  /-- the skewed lines of a SKEW whose source has been read -/
  skewed : Option (List Byte) := none
  /-- fabric requests completed -/
  far : Nat := 0
  status : Option Nat := none
  /-- the address whose request failed -/
  errAddr : Nat := 0
  deriving DecidableEq, Repr

/-- A post on its way to a Block (R144, R145): `after` lists the descriptors that must complete first (POSTF). -/
structure Post where
  src : Nat
  ten : Nat
  target : Nat
  ctr : Nat
  value : Nat
  after : List Nat
  deriving DecidableEq, Repr

/-- A Block Sequencer (R108) with its inbox. Post counters have their home in BLK_POST. -/
structure BlkSt where
  s : KMap W64 := []
  v : KMap (BitVec 2048) := []
  m : KMap (BitVec 128) := []
  epc : Nat := 0
  ie : Bool := false
  en : BitVec 16 := 0
  pend : BitVec 16 := 0
  vec : KMap Nat := []
  parts : KMap (Option RingPart) := []
  /-- status word of the last descriptor of each tag, as DM.STAT returns it -/
  tagStat : KMap Nat := []
  sticky : BitVec 4 := 0
  timer : Nat := 0
  pc : Nat := 0
  lastPc : Nat := 0
  running : Option CqEntry := none
  inbox : List InboxSlot := []
  passes : List Pass := []
  /-- passes issued in the step -/
  issued : Nat := 0
  halted : Bool := false
  /-- lines of the instruction cache, by address (R111) -/
  icache : List Nat := []
  /-- the line whose fetch another device or a drive has not answered, and the number of its result -/
  fetching : Option (Nat × Nat) := none
  /-- the cclk count at program start, in eightieths -/
  bornCycles : Nat := 0
  deriving DecidableEq, Repr

/-- A CONVERT in flight on a Great Array (R162). -/
structure GaConv where
  index : Nat
  w0 : Nat
  w1 : Nat
  fmt : Nat
  acc : Nat
  out : Nat
  scale : Nat
  cols : Nat
  len : Nat
  deriving DecidableEq, Repr

/-- A list entry that a Great Array has read ahead (R159): its eight words, or the status with which the read failed. -/
structure GaEntry where
  words : List Nat
  status : Nat
  deriving DecidableEq, Repr

/-- A Great Array beyond its registers. -/
structure GaSt where
  /-- entries issued, completed or rejected: the fetch index of R159 -/
  index : Nat := 0
  ahead : List GaEntry := []
  passes : List Pass := []
  conv : Option GaConv := none
  halted : Bool := false
  /-- what the list read under way has obtained (R159) -/
  log : Log := []
  /-- list entries given to Blocks and not completed, by index: words 0 and 1 (R176) -/
  emu : KMap (Option (Nat × Nat)) := []
  deriving DecidableEq, Repr

/-- A descriptor that an engine's queue holds: its words and its Tenancy. -/
structure EngJob where
  ten : Nat
  words : List Nat
  deriving DecidableEq, Repr

/-- An assignment of a token (R189, R190): expert, rank, gate weight; `moved` when weight was moved to it. -/
structure Asg where
  expert : Nat
  rank : Nat
  gate : Nat
  kept : Bool := true
  moved : Bool := false
  deriving DecidableEq, Repr

/-- The running job of a Routing Engine: its index within the step, its phase as RE_STATUS codes it, what it has obtained, and
what it has computed. For a ROUTE job `sel` holds the assignments of each token selected so far, and `rows` the biases and the
exclusion mask; for a GATHER job `uniq` holds the distinct IDs, `inv` the index of each lookup, `rows` the rows read, and `kept`
the bags pooled. The fields from `count` to `deferred` go into the record. -/
structure ReRun where
  job : EngJob
  index : Nat
  /-- the cclk counts (in eightieths) at its start, and at the start and end of its selection -/
  startCyc : Nat
  phase : Nat := 1
  log : Log := []
  sel : List (List Asg) := []
  bad : Nat := 0
  selStart : Nat := 0
  selEnd : Nat := 0
  uniq : List Nat := []
  inv : List Nat := []
  rows : List (List Byte) := []
  failed : Nat := 0
  firstFailed : Nat := 0
  status : Nat := 0
  reason : Nat := 0
  warn : Bool := false
  count : Nat := 0
  kept : Nat := 0
  entries : Nat := 0
  dropped : Nat := 0
  moved : Nat := 0
  residual : Nat := 0
  limit : Nat := 0xFFFFFFFF
  maxBlock : Nat := 0
  deferred : List Nat := []
  ended : Bool := false
  /-- its work area: offset and bytes (R184) -/
  work : Nat × Nat := (0, 0)
  /-- the number of the free value of its outputs, once a program has written its work area (R184) -/
  spoil : Option Nat := none
  deriving DecidableEq, Repr

/-- A Routing Engine (R180): its job queue, its running job, the EXPERT entries held for CQ0, the ROUTE jobs started in the
attempt, and when RE_ERR was last captured. -/
structure ReSt where
  queue : List EngJob := []
  running : Option ReRun := none
  held : List CqEntry := []
  routes : Nat := 0
  errNs : Option Nat := none
  deriving DecidableEq, Repr

/-- A binding of a Residency Manager (R228). -/
structure Binding where
  layer : Nat
  dir : Nat
  place : Nat
  experts : Nat
  deriving DecidableEq, Repr

/-- An item of the stream that a Residency Manager serves (R226): a job, or a demand entry of a Tenancy. -/
inductive RmItem where
  | job (j : EngJob)
  | demand (ten : Nat) (words : List Nat)
  deriving DecidableEq, Repr

/-- What a served entry is: a demand entry with its arrival counter, a LOAD into a copy or into the operand buffer at an offset,
or an expert of a PREFETCH. `sig` is word 0 of the job. -/
inductive ServeKind where
  | demand (evc : Nat)
  | load (sig : Nat)
  | toGa (sig off : Nat)
  | prefetch (job : Nat)
  deriving DecidableEq, Repr

/-- An entry that a Residency Manager has looked up (R230): the clusters it wants, the state that its placement entry will
show, and how far it has come. `item` holds the words of the entry or job, for a suspend (R252). -/
structure Serve where
  kind : ServeKind
  ten : Nat
  item : List Nat
  layer : Nat
  expert : Nat
  place : Option Nat
  key : Nat
  decK : Nat
  size : Nat
  wanted : List Nat
  state : Nat := 1
  source : Nat := 0
  /-- the clusters that a TO_GA load has in the operand buffer -/
  got : List Nat := []
  log : Log := []
  placed : Bool := false
  raised : Bool := false
  deriving DecidableEq, Repr

/-- A range at rest that a fetch still has to read, with the cluster it decodes to. -/
structure RestRange where
  cluster : Nat
  addr : Nat
  len : Nat
  deriving DecidableEq, Repr

/-- A request of a fetch that is outstanding (R236, R237): its bytes, their place in the range at rest of a cluster, and its name. -/
structure FetchReq where
  name : Nat
  cluster : Nat
  off : Nat
  addr : Nat
  len : Nat
  log : Log := []
  deriving DecidableEq, Repr

/-- A fetch in progress (R234 to R237): its key, the ranges not yet asked for to their end, with the resting bytes of the first of
them asked for, its outstanding requests, and the ranges of which not all has been obtained, with the pieces obtained. `thatch` is
the format that a Thatch stream decodes to, and whether its ranges end with the stream. -/
structure Fetch where
  ten : Nat
  key : Nat
  home : Nat
  thatch : Option (Nat × Bool)
  size : Nat
  ranges : List RestRange
  asked : Nat := 0
  reqs : List FetchReq := []
  parts : List (RestRange × List (Nat × List Byte)) := []
  sent : Nat := 0
  prefetch : Bool := false
  leads : Bool := false
  deriving DecidableEq, Repr

/-- A Residency Manager. `log` belongs to the item being looked up; `pre` lists PREFETCH experts not yet started, as layer, expert
and job, and `preLog` belongs to the first of them; `preJobs` the PREFETCH jobs that have not completed, with their Tenancy and
word 0; `turn` is the place of the fetch whose turn it is (R237); `activeCyc` is the cclk count (in eightieths) when the fetches in
progress began; `failed` stands after a failure that ends the step (R248); `late` says when the last demand entry came, and how many
came at that time; `errNs` when RM_ERR was last captured. -/
structure RmSt where
  items : List RmItem := []
  binds : List Binding := []
  serves : List Serve := []
  fetches : List Fetch := []
  log : Log := []
  pre : List (Nat × Nat × Nat) := []
  preLog : Log := []
  preJobs : List (Nat × Nat × Nat) := []
  preNext : Nat := 0
  turn : Nat := 0
  activeCyc : Nat := 0
  failed : Bool := false
  late : Nat × Nat := (0, 0)
  errNs : Option Nat := none
  deriving DecidableEq, Repr

/-- The step's work in a District: its command queues and dispatcher, its Great Array, its Routing Engine and its Residency
Manager. -/
structure DistSt where
  cq : KMap (List CqEntry) := []
  /-- the queue of CQ0 to CQ2 that was served last (R101) -/
  rr : Nat := 2
  ga : GaSt := {}
  re : ReSt := {}
  rm : RmSt := {}
  deriving DecidableEq, Repr

/-- The core context of a suspended step, kept until it resumes (R93): the cores, District work and event counters of its
Districts, its Blocks by logical ID with their post counters, its descriptors and posts. -/
structure Stash where
  cores : KMap CoreSt := []
  dists : KMap DistSt := []
  evcs : KMap W64 := []
  blks : KMap BlkSt := []
  posts : KMap W64 := []
  dma : List DmaJob := []
  inflight : List Post := []
  /-- the registers that count since step entry -/
  regs : KMap W64 := []
  deriving DecidableEq, Repr

/-- A Tenancy. STATE, DEGRADED, SAVED, OVERRUNS and STEP have their home in TEN_STATE. -/
structure Ten where
  desc : Desc := {}
  /-- Blocks of the mask, ascending, spares included -/
  mask : List Nat := []
  /-- logical to physical Block ID, none where VALID = 0 -/
  bmap : List (Option Nat) := []
  spares : List Nat := []
  /-- the Block map of the image in the context area -/
  imgMap : List (Option Nat) := []
  ran : Bool := false
  lastRun : Nat := 0
  bounds : List (Option Bound) := []
  gaCtl : List (Option GaCtl) := []
  regions : List StateRegion := []
  fab : Option FabRec := none
  digTab : List (Option DigestEntry) := []
  /-- committed pointer (R283) -/
  cStep : Nat := 0
  cAtt : Nat := 0
  /-- the step number last started and the attempt its next start takes -/
  lastStep : Nat := 0
  nextAtt : Nat := 0
  run : Option Run := none
  /-- R288: no further step starts -/
  stopped : Bool := false
  /-- an uncorrectable word met a save or restore of the suspended step (R522) -/
  imageBad : Bool := false
  stash : Option Stash := none
  deriving DecidableEq, Repr

/-- A save or restore in progress (R61, R62). -/
structure Switch where
  incoming : Nat
  saves : List Nat
  fresh : Bool
  startNs : Nat
  deriving DecidableEq, Repr

/-- A Tenancy command in progress (R524). `result` is set once the command may complete. -/
structure TenCmd where
  ten : Nat
  result : Option Nat
  deriving DecidableEq, Repr

/-- The tick generator. -/
structure TickSt where
  /-- a tick runs -/
  active : Bool := false
  startNs : Nat := 0
  /-- end of the running tick -/
  endNs : Nat := 0
  /-- EN is 1 and the first tick has not started -/
  waiting : Bool := false
  waitNs : Nat := 0
  /-- the Eave of the running tick has begun -/
  eave : Bool := false
  /-- Tenancy whose step runs, or 0 -/
  cur : Nat := 0
  switch : Option Switch := none
  /-- Tenancies whose images are held in their own resources -/
  resident : List Nat := []
  /-- an urgent step that has not started -/
  urgent : Option Nat := none
  urgentChannel : Option Nat := none
  /-- the running step is being brought to its suspend point; the Tenancy of the urgent step that waits, or 0 -/
  suspending : Option Nat := none
  /-- Tenancies with a replay due, in order of their marks -/
  replays : List Nat := []
  /-- Tenancy whose overrun continues under EXTEND, or 0 -/
  extend : Nat := 0
  cmd : Option TenCmd := none
  /-- change to the length of the next ticks still to be made (R48), in ns -/
  slew : Int := 0
  /-- a step correction to be made by the next tick: a reference tick start, its tick number, and the change of device time -/
  stepTo : Option (Nat × Option Nat × Int) := none
  /-- the running tick has been lengthened by a step correction: what its end loads -/
  loading : Option (Option Nat × Int) := none
  offsets : List Int := []
  /-- TICK_OUT is high until this time -/
  outUntil : Nat := 0
  /-- ticks since the last valid reference -/
  holdTicks : Nat := 0
  refSeen : Bool := false
  lost : Bool := false
  /-- send time of the outstanding time exchange -/
  exchange : Option Nat := none
  sentExchange : Bool := false
  /-- reference tick start that a waiting generator takes -/
  refStart : Option Nat := none
  /-- registers written since the tick start whose change takes effect at the next one (RES_TEN, R439; DG_TEN), by offset, as they stood
  before -/
  latched : KMap (Option W32) := []
  deriving DecidableEq, Repr

/-- The interrupt controllers beyond their registers: the time of the first event in EVENTS of each source, and writes to
SRC_CFG that wait for the source to complete (R456), both by register address. -/
structure IcSt where
  firstT : KMap Nat := []
  deferred : KMap (Option W64) := []
  deriving DecidableEq, Repr

/-- A 128 B result record (R442): its sixteen words. -/
abbrev Rec := List Nat

/-- An outbound write that waits for Bus Master Enable or the link (R438): the oldest record of a channel, or a message. -/
inductive OutWrite where
  | ring (ch : Nat)
  | msi (vector : Nat)
  deriving DecidableEq, Repr

/-- The host endpoint beyond its registers. -/
structure HifSt where
  /-- records held per channel, oldest first -/
  held : KMap (List Rec) := []
  /-- writes that wait, in order -/
  outq : List OutWrite := []
  deriving DecidableEq, Repr

/-- The Ridge beyond its registers. -/
structure RidgeSt where
  /-- retirement counts of the running windows, by unit key -/
  counts : KMap Nat := []
  /-- units decided for retirement, by unit key, in decision order -/
  decided : List Nat := []
  /-- the retirement record of boot flash: unit keys -/
  record : List Nat := []
  /-- termination codes latched and not yet served -/
  terminate : Bool := false
  /-- grave code raised and not yet served -/
  grave : Option Nat := none
  /-- device times of the fast re-entries -/
  reentries : List Nat := []
  /-- The termination under way ends in HELD (R427): 0xD7 has been logged for it. -/
  hold : Bool := false
  /-- watchdog counts in ns: 0 to 3 the DCCs' L1 time, 4 the CCC -/
  wdog : KMap Nat := []
  graveN : Bool := true
  /-- device time + 1 of the capture in DECODE_ERR_ADDR and DECODE_ERR_INFO (R34) -/
  decodeNs : Nat := 0
  /-- why the sequence of R424 runs: SOURCE of RST_CAUSE (4 a fault, 3 RST_CTRL, 5 ACTIVATE) -/
  why : Nat := 4
  /-- power-fail sequence has run; no new work until the next reset (R290, R291) -/
  powerFail : Bool := false
  /-- words of the grave snapshot in boot flash whose commit marker is complete: FIRST, the history queue, RIDGE_STATUS -/
  snap : Option (List Nat) := none
  /-- the retention marker of T2 records a completed entry into self-refresh -/
  marker : Bool := false
  /-- cclk that have passed, in eightieths (R485) -/
  cycles : Nat := 0
  deriving DecidableEq, Repr

/-- A role session (R471). -/
structure Session where
  role : Nat
  slot : Nat
  endNs : Nat
  deriving DecidableEq, Repr

/-- The role state of one agent. -/
structure AgentSt where
  sessions : List Session := []
  challenge : Option Nat := none
  challengeNs : Nat := 0
  lockNs : Nat := 0
  deriving DecidableEq, Repr

/-- A journal entry that waits: words 0 to 6 of R476. -/
abbrev JEntry := List Nat

/-- A key of the key sector: the key, and the key that enrolled it. -/
structure KeyEntry where
  x : Nat
  y : Nat
  byX : Nat
  byY : Nat
  deriving DecidableEq, Repr

/-- The security engine, the journal and the digest engine beyond their registers. -/
structure SecSt where
  agents : KMap AgentSt := []
  /-- public keys by slot: X and Y -/
  keys : KMap (Option (Nat × Nat)) := []
  /-- the key sector of boot flash -/
  sector : KMap (Option KeyEntry) := []
  /-- an enrolment that waits: slot, and the entry to be written or none for a revocation -/
  keyPend : Option (Nat × Option KeyEntry) := none
  /-- the enrolment's journal entry SEQ -/
  keySeq : Nat := 0
  queue : List JEntry := []
  /-- SEQ of the entry queued last -/
  lastSeq : Nat := 0
  /-- journal slot that the next entry goes to -/
  head : Nat := 0
  ptr : Nat := 0
  committed : Nat := 0
  boot : Nat := 0
  /-- region digests of sealed entries, by Tenancy × 16 + entry; sealing without digest is `some none` -/
  seals : KMap (Option (Option Nat)) := []
  /-- ranges sealed, by the same key: base and byte length -/
  sealed : KMap (Option (Nat × Nat)) := []
  sealing : Option Nat := none
  unsealWait : Option Nat := none
  deriving DecidableEq, Repr

/-- An expert copy in Square (R231, R232, R242 to R246), keyed by its Tenancy and its directory entry address: its logical lots,
and its clusters present. -/
structure Copy where
  ten : Nat
  key : Nat
  gen : Nat
  first : Nat
  lots : Nat
  size : Nat
  kept : Bool := false
  held : Bool := true
  lastTick : Nat
  present : List Nat := []
  dropping : Bool := false
  deriving DecidableEq, Repr

/-- An entry of the fetch merge table (R234): the leading District, the Districts that joined, and the clusters registered and
landed. -/
structure MergeEntry where
  ten : Nat
  key : Nat
  leader : Nat
  joined : List Nat := []
  clusters : List Nat
  landed : List Nat := []
  ended : Bool := false
  deriving DecidableEq, Repr

/-- A District's Square. -/
structure SquareSt where
  retired : List Nat := []
  /-- physical lot + 1 by Tenancy × 4096 + logical lot -/
  map : KMap Nat := []
  copies : List Copy := []
  /-- BORROW_LIMIT in force since the last step entry (R247) -/
  borrow : Nat := 1024
  /-- the lines of copy lots whose first read is at most 128 cclk old, with the cclk count (in eightieths) of that read (R239) -/
  recent : List (Nat × Nat) := []
  deriving DecidableEq, Repr

/-- T1 beyond its registers. -/
structure T1St where
  /-- slots whose pages have left service -/
  retired : List Nat := []
  /-- retired slots beyond the reserve: every address ends with TARGET_RETIRED (R265) -/
  lost : List Nat := []
  /-- slots that will be so at the next tick start -/
  losing : List Nat := []
  /-- slots that wait for migration, in decision order -/
  waiting : List Nat := []
  migrating : Option Nat := none
  /-- page that holds the copy of a page, + 1 (R264) -/
  moved : KMap Nat := []
  /-- UNITS in force since the last tick start -/
  units : Nat := 2
  /-- the list of soft row repairs in boot flash: stack, pseudo-channel and row -/
  repairs : List (Nat × Nat × Nat) := []
  /-- corrected errors of the rows in the running 1-hour window (R418), by row and pseudo-channel of the device -/
  rows : KMap Nat := []
  /-- device times + 1 of the captures in HBM_ERR of Districts 0 to 3, T2_ERR and FL_ERR -/
  errNs : KMap Nat := []
  deriving DecidableEq, Repr

/-- What an NVMe command does. -/
inductive NvmeOp where
  | read | write | flush
  deriving DecidableEq, Repr

/-- An NVMe command that has been sent and not consumed (R293 to R296): the logical block and the bytes of it that are asked for,
at `addr` in device memory; who issued it, so that R295 orders it; `waits` when an engine waits for its result. -/
structure NvmeCmd where
  id : Nat
  op : NvmeOp
  drive : Nat
  lba : Nat
  addr : Nat
  len : Nat
  data : List Byte
  issueNs : Nat
  issuer : Nat
  ten : Nat
  fua : Bool
  waits : Bool
  result : Option (Nat × List Byte) := none
  deriving DecidableEq, Repr

/-- The flash port beyond its registers: recent timeouts by drive, drives whose link has dropped with the time, drives whose
controller has been reset, and the deallocation in progress. -/
structure FlashSt where
  cmds : List NvmeCmd := []
  nextId : Nat := 0
  timeouts : KMap (List Nat) := []
  linkDrop : KMap (Option Nat) := []
  resets : List Nat := []
  trim : Option (Nat × Nat) := none
  /-- I/O queue pairs that each drive takes; none for a drive without the 4 KiB LBA format (R293) -/
  queues : KMap Nat := []
  deriving DecidableEq, Repr

/-- A request that waits in a memory shaper queue. -/
structure ShapedReq where
  set : Nat
  queue : Nat
  bytes : Nat
  ten : Nat
  enterNs : Nat
  /-- names the access that waits -/
  key : Nat
  deriving DecidableEq, Repr

/-- The memory request shapers beyond their registers. -/
structure ShpSt where
  waiting : List ShapedReq := []
  /-- accesses that have been issued and not yet made: key and Tenancy -/
  issued : List (Nat × Nat) := []
  /-- sixteenths of the refill carried, by set × 4 + queue -/
  frac : KMap Nat := []
  peak : KMap Nat := []
  delay : KMap Nat := []
  /-- device times + 1 of the last configuration of each bucket (R300) -/
  cfgNs : KMap Nat := []
  deriving DecidableEq, Repr

/-! ### Power, firmware, balls and test -/

/-- The power controller beyond its registers: whether a throttle cause exists, and when the step moves next; when an emergency
condition last held; since when power has been above 1.1 × LIMIT_W, and a junction above 125 °C; the T2_PG latch on VDD_AON
(R483); and whether a power-fail sequence ran before the last reset. -/
structure PwrSt where
  cause : Bool := false
  dueNs : Nat := 0
  emergNs : Nat := 0
  /-- whether the last reading found a junction at or above TJ_EMERG_C -/
  tjOver : Bool := false
  overNs : Option Nat := none
  hotNs : Option Nat := none
  t2pg : Bool := true
  pfSeen : Bool := false
  deriving DecidableEq, Repr

/-- A boot selector copy (R494). -/
structure Selector where
  seq : Nat
  active : Nat
  trySlot : Nat
  tries : Nat
  deriving DecidableEq, Repr

/-- Firmware beyond its registers: the two copies of the boot selector, the settings record (R493) by register address, settings
that wait for their journal entry with its SEQ, a selector write of TRY or CONFIRM that waits for its entry (SEQ, ACTIVE, TRY_SLOT,
TRIES_LEFT), the RESULT of the WRITE that runs with its image, and whether the boot sequence has run since the last power-on or cold
reset. -/
structure FwSt where
  copies : List (Option Selector) := [none, none]
  saved : KMap (Option W64) := []
  waiting : List (Nat × Nat × W64) := []
  selPend : Option (Nat × Nat × Nat × Nat) := none
  writing : Option (Nat × List Byte) := none
  booted : Bool := false
  deriving DecidableEq, Repr

/-- The balls that hold a level of their own: PORST_N and POWER_FAIL_N as accepted, T2_RESET_N, FL_PERST_N, and whether the
transmitters are silenced. -/
structure PinSt where
  porstLow : Bool := false
  powerFailLow : Bool := false
  /-- the sensed lines whose low level has been accepted, by line -/
  low : KMap Bool := []
  t2ResetN : BitVec 16 := 0
  flPerstN : BitVec 8 := 0
  silent : Bool := true
  deriving DecidableEq, Repr

/-- The test access port: the instruction register, the preloaded and the captured cells of the boundary register (R516), and
the register that a private instruction reads. -/
structure TapSt where
  ir : BitVec 8 := 1
  preload : BitVec 3926 := 0
  capture : BitVec 3926 := 0
  priv : BitVec 64 := 0
  /-- what the last scan of the instruction register shifted out -/
  irOut : BitVec 8 := 0
  deriving DecidableEq, Repr

/-! ### Oplith -/

/-- A packet of Oplith (R318 to R320). `bytes` is BYTES of a data packet and BODY of a control packet; `body` is the payload,
or the body words as they lie in memory; `check` is the end-to-end check it carries. -/
structure Packet where
  cls : Nat
  opcode : Nat
  pkey : Nat
  src : Nat
  dst : Nat
  void : Bool := false
  epoch : Nat
  vc : Nat
  pathKey : Nat
  tag : Nat
  status : Nat := 0
  hops : Nat
  retry : Bool := false
  comb : Bool := false
  bytes : Nat
  /-- bits [17:10] of word 1 of a data header, which a source sends as zero -/
  rsv : Nat := 0
  addr : Nat := 0
  aux : Nat := 0
  body : List Byte := []
  check : Nat := 0
  deriving DecidableEq, Repr

/-- A packet that the switch holds: the port it came by, or none for one of this device's agents; whether it took shared
slots there; the output it waits for, or none once it is delivered here; the request, stream or combining entry it belongs
to. -/
structure SwPkt where
  pkt : Packet
  inp : Option Nat
  shared : Bool := false
  /-- its slots are to be reported when they are free: the port has not been trained since -/
  holds : Bool := true
  /-- slots of it that were reported at once, since they never arrive (a Void, R371) -/
  early : Nat := 0
  out : Option Nat
  sinceNs : Nat
  /-- RESIDENCE_US as it stood when the packet entered (R348) -/
  residUs : Nat := 0
  grantNs : Option Nat := none
  /-- its grant is known to lie in an earlier fclk than the present one -/
  past : Bool := false
  req : Option Nat := none
  coll : Option (Nat × Nat) := none
  comb : Option Nat := none
  deriving DecidableEq, Repr

/-- What a fabric request asks. -/
inductive FabKind where
  | read | write
  | atomic (op : Nat)
  deriving DecidableEq, Repr

/-- A fabric request of an agent of this device (R355 to R361). `got` holds the pieces of a READ that have arrived, by
offset; `missed` is set when it was cancelled after its grant, and tells a fence; `orphan` when its issuer no longer
waits. -/
structure FabReq where
  id : Nat
  srcType : Nat
  srcIdx : Nat
  ten : Nat
  kind : FabKind
  dst : Nat
  addr : Nat
  len : Nat
  data : List Byte
  pkey : Nat
  ward : Nat
  comb : Bool
  pathKey : Nat
  tag : Option Nat := none
  attempts : Nat := 0
  sentNs : Nat := 0
  /-- FAB_TIMERS as it stood at the last attempt (R348) -/
  timers : Nat := 0
  granted : Bool := false
  missed : Option Bool := none
  orphan : Bool := false
  got : KMap (List Byte) := []
  result : Option (Nat × List Byte) := none
  deriving DecidableEq, Repr

/-- A completion record of a non-idempotent request (R342): what it was answered with. -/
structure FabRecord where
  src : Nat
  tag : Nat
  opcode : Nat
  status : Nat
  old : Nat
  untilNs : Nat
  deriving DecidableEq, Repr

/-- A member of a combining entry: where its copy goes. -/
structure CombMember where
  src : Nat
  tag : Nat
  pathKey : Nat
  replied : Bool := false
  deriving DecidableEq, Repr

/-- A combining entry (R366): the range it reads in device memory, and its data once read. -/
structure CombEntry where
  id : Nat
  addr : Nat
  len : Nat
  pkey : Nat
  ward : Nat
  phys : Nat
  openNs : Nat
  closed : Bool := false
  members : List CombMember
  data : Option (Nat × List Byte) := none
  deriving DecidableEq, Repr

/-- A command that has been accepted and not yet executed (R381): its words, its sender, and the Alley port it came by, or
none for VC0; `reply` is false for one that the device applies to itself. -/
structure AccCmd where
  w0 : Nat
  w1 : Nat
  w2 : Nat
  src : Nat
  alley : Option Nat
  reply : Bool
  deriving DecidableEq, Repr

/-- The command that CMD_TX_CTL is sending (R382). -/
structure TxCmd where
  seq : Nat
  words : List Nat
  attempts : Nat
  sentNs : Nat
  /-- FAB_TIMERS as it stood at the last attempt (R348) -/
  timers : Nat
  vc0 : Bool
  deriving DecidableEq, Repr

/-- A lease authority (R390). -/
structure AuthSt where
  startNs : Nat := 0
  next : Nat := 0
  acked : Nat := 0
  fenced : Nat := 0
  deriving DecidableEq, Repr

/-- A collective descriptor that a context holds (R392). -/
structure CollJob where
  dist : Nat
  ten : Nat
  words : List Nat
  deriving DecidableEq, Repr

/-- A stream that a collective sends (R397): the peer, its parts (offset in the peer's export region, bytes), the attempt, when its
PUT_END was sent with FAB_TIMERS as it stood then (R348), and whether every part of it has been queued. -/
structure OutStream where
  peer : Nat
  parts : List (Nat × List Byte) := []
  attempt : Nat := 0
  endNs : Option Nat := none
  timers : Nat := 0
  ended : Bool := false
  acked : Bool := false
  deriving DecidableEq, Repr

/-- The running descriptor of a collective context. `done` counts the stages that have completed here; `cancel` is the status
with which a cancel or a fence ends it. -/
structure CollRun where
  job : CollJob
  startNs : Nat
  algo : Nat := 1
  ranks : List (Nat × Nat) := []
  seq : Nat := 0
  done : Nat := 0
  round : Nat := 0
  outs : List OutStream := []
  failed : List Nat := []
  status : Nat := 0
  reason : Nat := 0
  sent : Nat := 0
  resends : Nat := 0
  granted : Nat := 0
  deriving DecidableEq, Repr

/-- A PUT or PUT_END of a collective that has not passed its source bucket (R375): the context, the peer's index, the Tenancy, and
since when it waits. -/
structure PutMsg where
  coll : Nat
  peer : Nat
  ten : Nat
  pkt : Packet
  sinceNs : Nat
  deriving DecidableEq, Repr

/-- A context of the collective engine. -/
structure CollCtx where
  queue : List CollJob := []
  running : Option CollRun := none
  deriving DecidableEq, Repr

/-- A stream in the receive table (R397, R398): the receiving Tenancy, the sender's fabric ID and group index, the identity
without ATTEMPT, the highest attempt seen, its bytes, and the stream bytes of its PUT_END. -/
structure RxStream where
  ten : Nat
  src : Nat
  idx : Nat
  ident : Nat
  attempt : Nat := 0
  count : Nat := 0
  cancelled : Nat := 0
  total : Option Nat := none
  deriving DecidableEq, Repr

/-- A BARRIER received: the Tenancy, the sender, the identity without ATTEMPT, and the round. -/
structure RxBarrier where
  ten : Nat
  src : Nat
  ident : Nat
  round : Nat
  deriving DecidableEq, Repr

/-- The switch, the network and the transaction layer beyond their registers. -/
structure FabSt where
  reqs : List FabReq := []
  nextReq : Nat := 1
  nextTag : Nat := 0
  /-- tags that may not be reused yet: destination, tag, until -/
  tagHeld : List (Nat × Nat × Nat) := []
  sw : List SwPkt := []
  records : List FabRecord := []
  /-- cached rank translations: Tenancy, rank, entry -/
  xlat : List (Nat × Nat × Nat) := []
  comb : List CombEntry := []
  nextComb : Nat := 1
  /-- TEN_PKEY in force since the last tick start -/
  pkeys : KMap Nat := []
  /-- last SEQ executed by source, most recently used first -/
  seqs : List (Nat × Nat) := []
  cmds : List AccCmd := []
  tx : Option TxCmd := none
  txSeq : Nat := 0
  /-- time of the last renewal, by Tenancy -/
  leaseNs : KMap Nat := []
  auth : KMap AuthSt := []
  /-- ms + 1 of the last 0xC7, by shaper set -/
  policed : KMap Nat := []
  /-- time at which SRC_EPOCH last moved -/
  epochNs : Nat := 0
  colls : KMap CollCtx := []
  /-- messages of collectives that wait at their source buckets, oldest first -/
  puts : List PutMsg := []
  streams : List RxStream := []
  barriers : List RxBarrier := []
  /-- current generation + 1 and next sequence number, by Tenancy × 65536 + GROUP_ID -/
  gens : KMap (Nat × Nat) := []
  /-- OPLITH_VER of the running image, and the version last advertised -/
  version : Nat := 1
  advertised : Nat := 1
  /-- time + 1 of the last capture in FAB_ERR (0), OPM_ERR (1) and ALLEY_ERR (2) -/
  errNs : KMap Nat := []
  deriving DecidableEq, Repr

/-- A frame that is not idle, in a replay buffer, with the times it has been replayed. -/
structure TxFrame where
  fseq : Nat
  slots : List (BitVec 256)
  replays : Nat := 0
  deriving DecidableEq, Repr

/-- A frame as it left: its frame control word, its slots, and the code of the width at which it went. -/
structure SentFrame where
  ctl : Nat
  slots : List (BitVec 256)
  width : Nat := 0
  deriving DecidableEq, Repr

/-- A slot as it was accepted: its bits, when its frame crossed the ball, and whether it is to be reported when it is free: the port
has not been trained since. -/
structure RxSlot where
  bits : BitVec 256
  ns : Nat
  holds : Bool := true
  deriving DecidableEq, Repr

/-- What an end sends in step 5 of R309 (R310). -/
structure LinkParams where
  id : Nat
  port : Nat
  token : Nat
  version : Nat
  good : Nat
  maxWidth : Nat
  vcCfg : Nat
  deriving DecidableEq, Repr

/-- A port beyond its registers. -/
structure PortSt where
  /-- slots accepted and not yet taken -/
  rx : List RxSlot := []
  rxNext : Nat := 0
  ackValid : Bool := false
  /-- the next frame carries NAK -/
  nak : Bool := false
  /-- a NAK is unanswered since this time + 1 -/
  nakNs : Nat := 0
  /-- slots of granted packets that wait for a frame, with those packets and the slots of each still to go; and link packets -/
  tx : List (BitVec 256) := []
  packets : List (SwPkt × Nat) := []
  links : List (BitVec 256) := []
  txNext : Nat := 0
  buffer : List TxFrame := []
  /-- frames at the end of the buffer still to be resent -/
  resend : Nat := 0
  badRun : Nat := 0
  sinceIdle : Nat := 0
  lastNs : Nat := 0
  last : Option SentFrame := none
  /-- slots freed since the port became ACTIVE, by VC, 4 for shared; and the counts last received -/
  freed : KMap Nat := []
  seen : KMap Nat := []
  creditDue : Bool := false
  /-- input served last, by VC: 36 is the device's own agents -/
  rr : KMap Nat := []
  /-- grants of the device's own VC0 packets in the last µs -/
  vc0 : List Nat := []
  /-- the VC among 1 to 3 whose turn it is, and the slots it has been granted in this turn (R329) -/
  turn : Nat := 1
  spent : Nat := 0
  /-- PORT_VC_CFG in force since the last training (R350) -/
  vc : Nat := 8192 * 2 ^ 48 + 512 * 2 ^ 36 + 512 * 2 ^ 24 + 512 * 2 ^ 12 + 64
  /-- the number of each lane, in the order of this end's balls: both ends number lanes as the leader does (R310) -/
  lanes : List Nat := [0, 1, 2, 3]
  /-- lanes that the other end last called good -/
  theirGood : Nat := 0
  /-- what this end sent in step 5 of its last training -/
  params : Option LinkParams := none
  /-- time + 1 of the last capture in PORT_ERR -/
  errNs : Nat := 0
  trained : Bool := false
  /-- own RETRAIN_REQ outstanding: whether full, and when sent -/
  asked : Option (Bool × Nat) := none
  /-- the training that runs is a full one -/
  full : Bool := true
  /-- a full training was asked for and a quick one ran -/
  wantFull : Bool := false
  /-- own WIDTH_REQ outstanding -/
  widthAsk : Option Nat := none
  /-- narrowest width asked for by either end while a retrain overlapped -/
  widthCap : Nat := 0
  /-- width that applies at the boundary before a frame that is sent, or received: FSEQ and width -/
  widthTx : Option (Nat × Nat) := none
  widthRx : Option (Nat × Nat) := none
  /-- own VERSION request outstanding -/
  versionAsk : Bool := false
  versionTx : Option (Nat × Nat) := none
  versionRx : Option (Nat × Nat) := none
  /-- ms + 1 of the last 0xB0 -/
  loggedMs : Nat := 0
  downNs : Nat := 0
  deriving DecidableEq, Repr

/-- An Alley port beyond its registers: time of the last valid frame, of the last frame sent, and that frame. -/
structure AlleySt where
  rxNs : Nat := 0
  txNs : Nat := 0
  last : List Byte := []
  deriving DecidableEq, Repr

/-- What the last command returned to the outside. -/
structure OutSt where
  status : Nat := 0
  value : Nat := 0
  data : List Byte := []
  deriving DecidableEq, Repr

/-- Why the machine stops with a fault. No command of this device stops: an error is reported in registers. -/
inductive Fault where
  /-- raised by nothing: the block reports every error in its registers. Safe -/
  | none
  deriving DecidableEq, Repr

/-- Why a command has no meaning. -/
inductive Refusal where
  /-- raised by the dispatch for a command that has no meaning yet. Safe -/
  | notModelled (mnemonic : String)
  deriving DecidableEq, Repr

/-- The device. -/
structure State where
  fuses : Fuses := {}
  /-- device time in ns since the last reset of the tick generator, and the correction that TIME_NOW adds (R48) -/
  now : Nat := 0
  timeOff : Int := 0
  /-- control registers: the difference of each from its reset value, by offset in the control register space -/
  regs : KMap W64 := []
  /-- held lower halves of R11, by register offset × 16 + writer -/
  halves : KMap (Option Nat) := []
  mem : List Host.Cell := []
  /-- ECC words that hold an uncorrectable error, by the address of their first byte -/
  badWords : KMap Bool := []
  /-- ECC words that hold a correctable error -/
  weakWords : KMap Bool := []
  hostMem : List Host.Cell := []
  flash : List Host.Cell := []
  tick : TickSt := {}
  tens : KMap (Option Ten) := []
  cores : KMap CoreSt := []
  dists : KMap DistSt := []
  blks : KMap BlkSt := []
  /-- DMA descriptors accepted and not completed, in order of acceptance -/
  dma : List DmaJob := []
  nextJob : Nat := 1
  posts : List Post := []
  squares : KMap SquareSt := []
  merge : List MergeEntry := []
  /-- MIN_KIB (R143) and WARN_MARGIN_US (R203) in force since the last step entry, by District -/
  poolMin : KMap Nat := []
  margin : KMap Nat := []
  t1 : T1St := {}
  /-- lengths of the T2 ranges in force, in 4 KiB units (R269) -/
  t2Len : KMap Nat := []
  fl : FlashSt := {}
  shp : ShpSt := {}
  /-- bytes of Thatch read at rest, and delivered decoded, since cold reset -/
  thatchRest : Nat := 0
  thatchDec : Nat := 0
  ic : IcSt := {}
  hif : HifSt := {}
  fab : FabSt := {}
  ports : KMap PortSt := []
  alley : KMap AlleySt := []
  ridge : RidgeSt := {}
  sec : SecSt := {}
  pwr : PwrSt := {}
  fw : FwSt := {}
  pins : PinSt := {}
  tap : TapSt := {}
  out : OutSt := {}
  /-- counter that names the next free value -/
  free : Nat := 0
  pending : List Instr := []
  deriving DecidableEq, Repr

/-- The device right after reset. -/
def State.reset : State := {}

end Sys2Proof.Machine
end

