-- ==== Sys2Proof/Machine/Ops.lean ====
section
/-! DEFINITION. The named operations over the state that every meaning uses: registers and their fields, error capture,
memory bytes, the units of the device, time, and interrupt sources. -/

namespace Sys2Proof.Machine

/-! ### Registers -/

/-- The value of a control register. -/
def State.rget (s : State) (r : RegName) (ix : List Nat) : W64 := KMap.get 0 s.regs (r.addr ix) ^^^ r.rst ix

/-- Sets a control register. -/
def State.rset (s : State) (r : RegName) (ix : List Nat) (v : W64) : State :=
  { s with regs := KMap.set 0 s.regs (r.addr ix) (v ^^^ r.rst ix) }

/-- The value of a field. -/
def State.fget (s : State) (f : Fld) (ix : List Nat) : Nat := f.ext (s.rget f.reg ix)

/-- Sets a field, by hardware. -/
def State.fset (s : State) (f : Fld) (ix : List Nat) (x : Nat) : State := s.rset f.reg ix (f.ins (s.rget f.reg ix) x)

/-- Adds to a field that saturates. -/
def State.fsat (s : State) (f : Fld) (ix : List Nat) (n : Nat) : State :=
  s.fset f ix (satAdd (2 ^ (f.hi + 1 - f.lo) - 1) (s.fget f ix) n)

/-- Adds to a field that wraps. -/
def State.fadd (s : State) (f : Fld) (ix : List Nat) (n : Nat) : State := s.fset f ix (s.fget f ix + n)

/-- Sets one bit of a register by its number. -/
def State.rbit (s : State) (r : RegName) (ix : List Nat) (b : Nat) (on : Bool) : State := s.fset ⟨r, b, b⟩ ix on.toNat

/-- One bit of a register. -/
def State.rtest (s : State) (r : RegName) (ix : List Nat) (b : Nat) : Bool := (s.rget r ix).getLsbD b

/-- Sets several fields of registers with the same indices. -/
def State.fsets (s : State) (ix : List Nat) (l : List (Fld × Nat)) : State := l.foldl (fun s p => s.fset p.1 ix p.2) s

/-- Returns every register of an offset range to its reset value. -/
def State.resetRegs (s : State) (lo n : Nat) : State := { s with regs := KMap.clear s.regs lo n }

/-- Captures an error in a register with VALID and OVERFLOW: the first error fills the fields, a further one sets OVERFLOW. -/
def State.capture (s : State) (valid ovf : Fld) (ix : List Nat) (l : List (Fld × Nat)) : State :=
  if s.fget valid ix = 1 then s.fset ovf ix 1 else (s.fsets ix l).fset valid ix 1

/-- Captures the error with code `c` in a register where, of two errors in one clock, the lower code stands, with OVERFLOW for the other;
`same` tells that the last capture was in this clock. The flag tells that the register was free. -/
def State.captureLow (s : State) (valid ovf code : Fld) (ix : List Nat) (same : Bool) (c : Nat) (l : List (Fld × Nat)) :
    Bool × State :=
  let l := (code, c) :: l
  if s.fget valid ix != 1 then (true, s.capture valid ovf ix l)
  else if same && c < s.fget code ix then (false, (s.fsets ix l).fset ovf ix 1)
  else (false, s.fset ovf ix 1)

/-- Captures an error in a register with VALID alone. -/
def State.captureFirst (s : State) (valid : Fld) (ix : List Nat) (l : List (Fld × Nat)) : State :=
  if s.fget valid ix = 1 then s else (s.fsets ix l).fset valid ix 1

/-! ### Time -/

/-- The watchdog counts after `dt` more ns: each DCC at L1 outside WFI, and the CCC's count of all time (R423). -/
def State.wdogCounts (s : State) (dt : Nat) : KMap Nat :=
  [0, 1, 2, 3, 4].foldl (fun (m : KMap Nat) c =>
    let k := KMap.get (if c < 4 then {} else { level := 2 }) s.cores c
    if c = 4 || (k.level == 1 && k.wait != CoreWait.wfi) then KMap.set 0 m c (KMap.get 0 m c + dt) else m) s.ridge.wdog

/-- The cclk count after `dt` more ns, in eightieths: of every 16 edges of 1.8 GHz the throttle removes as many as its step (R485). -/
def State.cyclesAfter (s : State) (dt : Nat) : Nat := s.ridge.cycles + dt * 9 * (16 - s.fget F.PWR_STATUS_STEP [])

/-- Device time advances to `t`; it never runs back. -/
def State.at (s : State) (t : Nat) : State :=
  { s with now := max s.now t,
           ridge := { s.ridge with wdog := s.wdogCounts (t - s.now), cycles := s.cyclesAfter (t - s.now) } }

/-- Whole cclk since the count `from_`. -/
def State.cclkSince (s : State) (from_ : Nat) : Nat := (s.ridge.cycles - from_) / 80

/-- Whether work has stopped: the power-fail sequence has run, or STATE is neither RUN nor BOOT (R290, R424, R428). -/
def State.stopped (s : State) : Bool :=
  s.ridge.powerFail || (s.fget F.RIDGE_STATUS_STATE [] != 0 && s.fget F.RIDGE_STATUS_STATE [] != 5)

/-- TIME_NOW (R48): device time with the corrections made. -/
def State.timeNow (s : State) : Nat := (((s.now : Nat) : Int) + s.timeOff).toNat

/-- A fresh number that names a free value. -/
def State.tickFree (s : State) : State := { s with free := s.free + 1 }

/-! ### Units -/

def State.ten (s : State) (t : Nat) : Option Ten := KMap.get none s.tens t

def State.setTen (s : State) (t : Nat) (v : Option Ten) : State := { s with tens := KMap.set none s.tens t v }

/-- Changes a Tenancy that exists. -/
def State.updTen (s : State) (t : Nat) (f : Ten → Ten) : State :=
  match s.ten t with
  | some v => s.setTen t (some (f v))
  | none => s

def State.run (s : State) (t : Nat) : Option Run := (s.ten t).bind Ten.run

/-- Changes the step of a Tenancy that has one. -/
def State.updRun (s : State) (t : Nat) (f : Run → Run) : State :=
  s.updTen t (fun v => { v with run := v.run.map f })

/-- The Tenancies that exist, ascending. -/
def State.tenIds (s : State) : List Nat := (s.tens.filter (fun p => p.2.isSome)).map Prod.fst

def State.core (s : State) (c : Nat) : CoreSt :=
  KMap.get (if c < 4 then {} else { level := 2 }) s.cores c

def State.setCore (s : State) (c : Nat) (v : CoreSt) : State :=
  { s with cores := KMap.set (if c < 4 then {} else { level := 2 }) s.cores c v }

def State.updCore (s : State) (c : Nat) (f : CoreSt → CoreSt) : State := s.setCore c (f (s.core c))

def State.sq (s : State) (d : Nat) : SquareSt := KMap.get {} s.squares d

def State.updSq (s : State) (d : Nat) (f : SquareSt → SquareSt) : State :=
  { s with squares := KMap.upd {} s.squares d f }

def State.dist (s : State) (d : Nat) : DistSt := KMap.get {} s.dists d

def State.updDist (s : State) (d : Nat) (f : DistSt → DistSt) : State := { s with dists := KMap.upd {} s.dists d f }

def State.blk (s : State) (b : Nat) : BlkSt := KMap.get {} s.blks b

def State.updBlk (s : State) (b : Nat) (f : BlkSt → BlkSt) : State := { s with blks := KMap.upd {} s.blks b f }

def State.ga (s : State) (d : Nat) : GaSt := (s.dist d).ga

def State.updGa (s : State) (d : Nat) (f : GaSt → GaSt) : State := s.updDist d (fun x => { x with ga := f x.ga })

/-- The District of a physical Block. -/
def blkDist (b : Nat) : Nat := b / 256

/-- A local source of a Block becomes pending (R147). -/
def State.blkPend (s : State) (b src : Nat) : State :=
  s.updBlk b (fun x => { x with pend := x.pend ||| BitVec.ofNat 16 (2 ^ src) })

/-- An event counter is raised; it saturates (R103). -/
def State.evcAdd (s : State) (d i n : Nat) : State := s.fsat F.EVC_VALUE [d, i % 1024] n

/-- STATE of a Tenancy (R50 and TEN_STATE). -/
inductive TSt where
  | free | defined | resident | running | suspended | draining
  deriving DecidableEq, Repr

/-- The number of a Tenancy state. -/
def TSt.num : TSt → Nat
  | .free => 0
  | .defined => 1
  | .resident => 2
  | .running => 3
  | .suspended => 4
  | .draining => 5

def State.tst (s : State) (t : Nat) : Nat := s.fget F.TEN_STATE_STATE [t]

def State.setTst (s : State) (t : Nat) (x : TSt) : State := s.fset F.TEN_STATE_STATE [t] x.num

/-- Whether a physical Block is enabled by fuse (R2). -/
def State.fuseEnabled (s : State) (b : Nat) : Bool := b < 1024 && !s.fuses.fused b

/-- Whether a Block is retired in service. -/
def State.blkRetired (s : State) (b : Nat) : Bool := s.rtest .RET_BLOCK [b / 32] (b % 32)

/-- Whether a Great Array is retired in service. -/
def State.gaRetired (s : State) (d : Nat) : Bool := s.rtest .RIDGE_STATUS [] (36 + d)

/-- The Districts in which a Tenancy holds at least one logical Block (R91), ascending. -/
def Ten.districts (t : Ten) : List Nat :=
  [0, 1, 2, 3].filter (fun d => t.bmap.any (fun e => match e with | some b => b / 256 == d | none => false))

/-- The physical Block of a logical ID in a Tenancy's map. -/
def Ten.phys (t : Ten) (l : Nat) : Option Nat := (t.bmap[l]?).join

/-- The logical ID that a physical Block holds in a Tenancy's map. -/
def Ten.logical (t : Ten) (b : Nat) : Option Nat := t.bmap.findIdx? (fun e => e == some b)

/-- The Tenancy whose step runs, or 0, when it holds the physical Block. -/
def State.runnerOfBlock (s : State) (b : Nat) : Nat :=
  match s.ten s.tick.cur with
  | some t => if (t.logical b).isSome then s.tick.cur else 0
  | none => 0

/-- Whether a Tenancy's step has started and not ended. -/
def Ten.inStep (t : Ten) : Bool := match t.run with | some r => r.ended.isNone | none => false

/-- The Tenancy whose unfinished step's data a physical Block holds (R412): the running one, or one suspended in place; or 0. -/
def State.stepOfBlock (s : State) (b : Nat) : Nat :=
  if s.runnerOfBlock b != 0 then s.runnerOfBlock b
  else (s.tick.resident.find? (fun t => match s.ten t with | some v => v.inStep && (v.logical b).isSome | none => false)).getD 0

/-- The Tenancy whose unfinished step's data a unit of a District holds (R412); or 0. -/
def State.stepOfDist (s : State) (d : Nat) : Nat :=
  let uses := fun t => match s.ten t with | some v => v.inStep && v.districts.contains d | none => false
  if uses s.tick.cur then s.tick.cur else (s.tick.resident.find? uses).getD 0

/-! ### Raw bytes -/

/-- A byte of device memory, by physical place. -/
def State.byte (s : State) (a : Nat) : Byte := KMap.get 0 s.mem a

def readList (m : List Host.Cell) (d : Byte) : Nat → Nat → List Byte
  | _, 0 => []
  | a, n + 1 => KMap.get d m a :: readList m d (a + 1) n

def writeList (d : Byte) (m : List Host.Cell) (a : Nat) : List Byte → List Host.Cell
  | [] => m
  | b :: t => writeList d (KMap.set d m a b) (a + 1) t

/-- Bytes of device memory as they stand, with no check and no event. -/
def State.rawRead (s : State) (a n : Nat) : List Byte := readList s.mem 0 a n

/-- Writes bytes of device memory as they are, with no check and no event. -/
def State.rawWrite (s : State) (a : Nat) (l : List Byte) : State := { s with mem := writeList 0 s.mem a l }

/-- Zeroes a range of device memory, with good codes. -/
def State.rawZero (s : State) (a n : Nat) : State :=
  { s with mem := KMap.clear s.mem a n, badWords := KMap.clear s.badWords a n, weakWords := KMap.clear s.weakWords a n }

/-- Moves a range of device memory as it stands, stored errors included (R522). -/
def State.rawCopy (s : State) (src dst n : Nat) : State :=
  { s with mem := KMap.splice s.mem dst n (KMap.slice s.mem src n dst),
           badWords := KMap.splice s.badWords dst n (KMap.slice s.badWords src n dst),
           weakWords := KMap.splice s.weakWords dst n (KMap.slice s.weakWords src n dst) }

/-- A 64-bit word of device memory as it stands. -/
def State.rawWord (s : State) (a : Nat) : Nat := leNat (s.rawRead a 8)

def hostRead (s : State) (a n : Nat) : List Byte := readList s.hostMem 0 a n

def State.hostWrite (s : State) (a : Nat) (l : List Byte) : State := { s with hostMem := writeList 0 s.hostMem a l }

/-- Erased boot flash reads 0xFF. -/
def State.flashRead (s : State) (a n : Nat) : List Byte := readList s.flash 0xFF a n

def State.flashWrite (s : State) (a : Nat) (l : List Byte) : State := { s with flash := writeList 0xFF s.flash a l }

def State.flashErase (s : State) (a n : Nat) : State := { s with flash := KMap.clear s.flash a n }

/-! ### Interrupt sources (R450 to R456) -/

/-- A source: a private one of a core, or a shared one. -/
inductive Src where
  | priv (core n : Nat)
  | shared (n : Nat)
  deriving DecidableEq, Repr

def Src.reg : Src → RegName
  | .priv _ _ => .SRC_PRIV
  | .shared _ => .SRC_SH

def Src.ix : Src → List Nat
  | .priv c n => [c, n]
  | .shared n => [n]

def Src.addr (x : Src) : Nat := x.reg.addr x.ix

/-- A field of a source's SRC_CFG: the private and the shared form have the same bits. -/
def Src.f (x : Src) (hi lo : Nat) : Fld := ⟨x.reg, hi, lo⟩

/-- The sources of R450 and R451; a number not listed never becomes pending. -/
def Src.listed : Src → Bool
  | .priv c n => if c < 4 then 1 ≤ n && n ≤ 8 else (1 ≤ n && n ≤ 4) || n == 8
  | .shared n => (64 ≤ n && n ≤ 80) || (96 ≤ n && n ≤ 162) || (256 ≤ n && n ≤ 323)

/-- One event of a source is counted (R452). -/
def State.srcEvent (s : State) (x : Src) : State :=
  let e := s.fget (x.f 15 0) x.ix
  let s := s.fset (x.f 15 0) x.ix (satAdd 0xFFFF e 1)
  if e = 0 then { s with ic := { s.ic with firstT := KMap.set 0 s.ic.firstT x.addr (s.now + 1) } } else s

/-- Whether a source is pending (R452). -/
def State.srcPending (s : State) (x : Src) : Bool :=
  let e := s.fget (x.f 15 0) x.ix
  let us := s.fget (x.f 37 24) x.ix
  x.listed && s.fget (x.f 63 63) x.ix == 1 && s.fget (x.f 23 23) x.ix == 0 && 0 < e &&
    (s.fget (x.f 45 38) x.ix ≤ e ||
      (us != 0 && (KMap.get 0 s.ic.firstT x.addr) + us * 1000 ≤ s.now + 1))

/-- EVENTS returns to 0. -/
def State.srcClear (s : State) (x : Src) : State :=
  { s.fset (x.f 15 0) x.ix 0 with ic := { s.ic with firstT := KMap.set 0 s.ic.firstT x.addr 0 } }

/-- The sources that a core can claim: its private bank, and the shared sources that target it. -/
def State.claimable (s : State) (c : Nat) : List Src :=
  (List.range' 1 63).map (Src.priv c) ++
    ((List.range' 64 448).filter (fun n => s.fget F.SRC_SH_TARGET [n] == c)).map Src.shared

/-- The winner among a core's pending sources above a threshold: the highest PRIO, then the lowest number (R453). -/
def State.winner (s : State) (c thr : Nat) : Option Src :=
  (s.claimable c).foldl (fun best x =>
    if s.srcPending x && thr < s.fget (x.f 48 46) x.ix then
      match best with
      | none => some x
      | some b => if s.fget (b.f 48 46) b.ix < s.fget (x.f 48 46) x.ix then some x else best
    else best) none

/-- Whether a core's interrupt request is raised (R453). -/
def State.intRaised (s : State) (c : Nat) : Bool := (s.winner c (s.fget F.THRESHOLD_LEVEL [c])).isSome

/-! ### Roles and the journal -/

/-- The agent code of a writer (R470); a DCC or a DMA channel is no agent and holds no role. -/
def writerAgent : Writer → Option Nat
  | .host => some 0
  | .i3c => some 1
  | .core c => if 4 ≤ c.val then some 2 else none
  | .dma => none

/-- The code of a role in messages and sessions (R472). -/
def Role.num : Role → Nat
  | .operator => 1
  | .installer => 2
  | .maker => 3

def State.agentSt (s : State) (a : Nat) : AgentSt := KMap.get {} s.sec.agents a

def State.updAgent (s : State) (a : Nat) (f : AgentSt → AgentSt) : State :=
  { s with sec := { s.sec with agents := KMap.upd {} s.sec.agents a f } }

/-- A session that ends now still grants the writes of this cclk (R471). -/
def Session.endAt (x : Session) (now : Nat) : Session := { x with endNs := min x.endNs now }

/-- The session by which an agent holds a role now. -/
def State.session (s : State) (a : Nat) (r : Role) : Option Session :=
  (s.agentSt a).sessions.find? (fun x => x.role == r.num && s.now ≤ x.endNs)

/-- Whether a writer holds a role (R470): FIRMWARE holds Operator and Installer at all times, and Maker only in BOOT. -/
def State.holds (s : State) (w : Writer) (r : Role) : Bool :=
  match writerAgent w with
  | none => false
  | some 2 => if r == Role.maker then s.fget F.RIDGE_STATUS_STATE [] == 5 else true
  | some a => (s.session a r).isSome

/-- Whether the journal has room for `n` entries (R479). -/
def State.journalRoom (s : State) (n : Nat := 1) : Bool := s.sec.queue.length + n ≤ 256

/-- The place of an agent among those whose entries are queued in one cclk (R475): FIRMWARE, HOST, I3C, COMMAND. -/
def agentPlace (a : Nat) : Nat := ([1, 2, 0][a]?).getD 3

/-- How many of the queued entries, from the last, are of this cclk and of agents that come after an agent (R475). -/
def State.entriesBehind (s : State) (agent : Nat) : Nat :=
  (s.sec.queue.reverse.takeWhile (fun e => (e[1]?).getD 0 == s.timeNow % 2 ^ 64 &&
    agentPlace agent < agentPlace (bits (e.headD 0) 31 28))).length

/-- The SEQ of an entry, or a later entry's number for one of the `m` entries from `seq` on before which another is put. -/
def bumpSeq (seq m x : Nat) : Nat := if (x + 2 ^ 32 - seq) % 2 ^ 32 < m then (x + 1) % 2 ^ 32 else x

/-- Queues a journal entry (R475, R476): words 0 to 6. -/
def State.journal (s : State) (agent role kind slot detail srcId object old new : Nat) : State :=
  let next := s.fget F.AUD_STATUS_NEXT_SEQ []
  let m := s.entriesBehind agent
  let k := s.sec.queue.length - m
  let seq := (next + 2 ^ 32 - m) % 2 ^ 32
  let w0 := seq * 2 ^ 32 + agent % 16 * 2 ^ 28 + role % 4 * 2 ^ 26 + kind % 4 * 2 ^ 24 + slot % 256 * 2 ^ 16 + detail % 2 ^ 16
  let e : JEntry := [w0, s.timeNow % 2 ^ 64, s.sec.boot % 2 ^ 32 * 2 ^ 32 + srcId % 2 ^ 16 * 2 ^ 16, object % 2 ^ 64, old % 2 ^ 64,
    new % 2 ^ 64, 0]
  let s := { s with
    sec := { s.sec with
      queue := s.sec.queue.take k ++ e :: (s.sec.queue.drop k).map (fun (x : JEntry) => (x.headD 0 + 2 ^ 32) % 2 ^ 64 :: x.drop 1),
      lastSeq := seq, keySeq := bumpSeq seq m s.sec.keySeq },
    fw := { s.fw with
      waiting := s.fw.waiting.map (fun (x : Nat × Nat × W64) => (bumpSeq seq m x.1, x.2)),
      selPend := s.fw.selPend.map (fun (x : Nat × Nat × Nat × Nat) => (bumpSeq seq m x.1, x.2)) } }
  (s.fset F.AUD_STATUS_NEXT_SEQ [] (next + 1)).fset F.AUD_STATUS_QUEUED [] s.sec.queue.length

/-- The key slot of the session by which a writer holds a role, or 0xFF. -/
def State.roleSlot (s : State) (w : Writer) (r : Role) : Nat :=
  match writerAgent w with
  | some 2 => 0xFF
  | some a => match s.session a r with | some x => x.slot | none => 0xFF
  | none => 0xFF

/-- The device address of a register. -/
def regDevAddr (r : RegName) (ix : List Nat) : Nat := 0x00000FF000000000 + r.addr ix % 2 ^ 32

/-! ### Throttle causes (R486) -/

/-- The accepted level of a sensed line. -/
def State.line (s : State) (l : Nat) : Bool := s.fget F.GF_CFG_LEVEL [l] == 1

/-- Whether a line is low: its low level has been accepted and no high level since. -/
def PinSt.isLow (p : PinSt) (l : Nat) : Bool := KMap.get false p.low l

/-- A private instruction of the test access port stops, because one of its conditions has ended (R517). -/
def State.tapStop (s : State) : State :=
  if s.tap.ir.toNat / 4 = 0x10 then { s with tap := { s.tap with ir := 0xFF, priv := 0 } } else s

/-- Whether a throttle cause exists (R486). -/
def State.throttleCause (s : State) : Bool :=
  s.fget F.PWR_STATUS_CAUSE_POWER [] == 1 || s.fget F.PWR_STATUS_CAUSE_TJ [] == 1 || s.fget F.PWR_STATUS_CAUSE_HBM [] == 1 ||
    s.pins.isLow 2

/-- A cause has come or the last one has gone: the step rises at once, or falls after 1 ms. -/
def State.noteCause (s : State) : State :=
  let c := s.throttleCause
  let s := s.fset F.PWR_STATUS_CAUSE_PIN [] (s.pins.isLow 2 || s.pins.isLow 3 : Bool).toNat
  if c = s.pwr.cause then s
  else { s with pwr := { s.pwr with cause := c, dueNs := if c then s.now else s.now + 1000000 } }

end Sys2Proof.Machine
end

