-- ==== Sys2Proof/Machine/NetBase.lean ====
section
/-! DEFINITION. The layout of packets and slots (R318 to R321), the packets that the switch holds, the ends of fabric requests
(R361), and their cancellation before a grant (R369, R370). -/

namespace Sys2Proof.Machine

/-! ### Layout -/

/-- The slots that credits are taken for: those of the whole packet (R318, R327), also for a Void (R371). -/
def Packet.credits (p : Packet) : Nat := if p.cls = 1 then (16 + 16 * p.bytes + 31) / 32 else 1 + (p.bytes + 31) / 32

/-- The slots that a packet occupies (R318): a Void is a header alone (R370). -/
def Packet.slots (p : Packet) : Nat := if p.void then 1 else p.credits

/-- The header words of a packet (R319, R320). -/
def Packet.header (p : Packet) : List Nat :=
  let w0 := p.opcode % 256 * 2 ^ 56 + p.pkey % 2 ^ 16 * 2 ^ 40 + p.src % 2 ^ 16 * 2 ^ 24 + p.dst % 2 ^ 16 * 2 ^ 8
    + p.void.toNat * 2 ^ 7 + p.epoch % 2 * 2 ^ 6 + p.vc % 4 * 2 ^ 4 + p.cls % 16
  let w1 := p.pathKey % 2 ^ 16 * 2 ^ 48 + p.tag % 2 ^ 16 * 2 ^ 32 + p.status % 256 * 2 ^ 24 + p.hops % 16 * 2 ^ 20
    + p.retry.toNat * 2 ^ 19 + p.comb.toNat * 2 ^ 18
  if p.cls = 1 then [w0, w1 + p.bytes % 4 * 2 ^ 16 + p.check % 2 ^ 16]
  else [w0, w1 + p.rsv % 2 ^ 8 * 2 ^ 10 + p.bytes % 2 ^ 10, p.addr % 2 ^ 64, p.aux % 2 ^ 32 * 2 ^ 32 + p.check % 2 ^ 32]

/-- The bytes of a packet as R6 lays them out. -/
def Packet.encode (p : Packet) : List Byte := p.header.flatMap (leBytes 8) ++ (if p.void then [] else p.body)

/-- The end-to-end check over header and payload (R321). -/
def Packet.ecrc (p : Packet) : Nat :=
  let l := ({ p with hops := 0, epoch := 0, void := false, retry := false, check := 0 }).header.flatMap (leBytes 8) ++ p.body
  if p.cls = 1 then crc16 l else crc32c l

/-- A packet with its check. -/
def Packet.sealed (p : Packet) : Packet := { p with check := p.ecrc }

/-- Whether the end-to-end check holds. -/
def Packet.checkOk (p : Packet) : Bool := p.void || p.check == p.ecrc

/-- Bytes cut into slots of 32 B, the last padded with zeros. -/
def toSlots : Nat → List Byte → List (BitVec 256)
  | 0, _ => []
  | n + 1, l => BitVec.ofNat 256 (leNat (l.take 32)) :: toSlots n (l.drop 32)

/-- The slots that carry a packet. -/
def Packet.toSlots (p : Packet) : List (BitVec 256) := Machine.toSlots p.slots p.encode

/-- 64-bit word `i` of the bytes of a packet. -/
def bodyWord (l : List Byte) (i : Nat) : Nat := leNat ((l.drop (8 * i)).take 8)

/-- The bytes of slots. -/
def slotBytes (l : List (BitVec 256)) : List Byte := l.flatMap (fun x => leBytes 32 x.toNat)

/-- A packet read from its slots. R320 gives VOID of a control header as zero; set, it marks the Void of a control packet (R370;
assumption 90). -/
def Packet.parse (l : List (BitVec 256)) : Packet :=
  let b := slotBytes l
  let w0 := bodyWord b 0
  let w1 := bodyWord b 1
  let ctl := bits w0 3 0 == 1
  let n := if ctl then 16 * bits w1 17 16 else bits w1 9 0
  let void := w0.testBit 7
  { cls := bits w0 3 0, opcode := bits w0 63 56, pkey := bits w0 55 40, src := bits w0 39 24, dst := bits w0 23 8,
    void := void, epoch := bit w0 6, vc := bits w0 5 4, pathKey := bits w1 63 48, tag := bits w1 47 32,
    status := bits w1 31 24, hops := bits w1 23 20, retry := w1.testBit 19, comb := w1.testBit 18,
    bytes := if ctl then bits w1 17 16 else bits w1 9 0, rsv := if ctl then 0 else bits w1 17 10,
    addr := if ctl then 0 else bodyWord b 2, aux := if ctl then 0 else bodyWord b 3 / 2 ^ 32,
    body := if void then [] else (b.drop (if ctl then 16 else 32)).take n,
    check := if ctl then bits w1 15 0 else bodyWord b 3 % 2 ^ 32 }

/-- The slots that the packet or link packet at the head of a slot stream occupies. -/
def headLen (x : BitVec 256) : Nat :=
  let v := x.toNat
  match v % 16 with
  | 1 => if v.testBit 7 then 1 else (16 + 16 * bits v 81 80 + 31) / 32
  | 2 => if v.testBit 7 then 1 else 1 + (min (bits v 73 64) 512 + 31) / 32
  | _ => 1

/-- Whether this device knows an opcode (R323, R356). -/
def opcodeDefined (cls op : Nat) : Bool :=
  if cls = 1 then [0x01, 0x21, 0x22, 0x41, 0x42, 0x44, 0xC0, 0xC1, 0xC4, 0xC5, 0xF0, 0xF1].contains op
  else [0x02, 0x20, 0x40].contains op || (0x10 ≤ op && op ≤ 0x19)

/-! ### The switch -/

def State.port (s : State) (p : Nat) : PortSt := KMap.get {} s.ports p

def State.updPort (s : State) (p : Nat) (f : PortSt → PortSt) : State := { s with ports := KMap.upd {} s.ports p f }

def State.updFab (s : State) (f : FabSt → FabSt) : State := { s with fab := f s.fab }

/-- The kinds of credit: VC 0 to 3, 4 for shared. -/
def SwPkt.kind (q : SwPkt) : Nat := if q.shared then 4 else q.pkt.vc

/-- `n` slots that a packet of a port held are free again, and are reported in the next frame (R327). -/
def State.freeSome (s : State) (q : SwPkt) (n : Nat) : State :=
  match if q.holds then q.inp else none with
  | some p => s.updPort p (fun x => { x with freed := KMap.upd 0 x.freed q.kind (fun k => (k + n) % 65536), creditDue := true })
  | none => s

/-- What slots a packet still holds are free. -/
def State.freeSlots (s : State) (q : SwPkt) : State := s.freeSome q (q.pkt.credits - q.early)

/-- A packet has entered by a port: the slots of a Void that never arrive are free at once (R371). -/
def State.freeEarly (s : State) (q : SwPkt) : SwPkt × State :=
  if q.pkt.void then ({ q with early := q.pkt.credits - 1 }, s.freeSome q (q.pkt.credits - 1)) else (q, s)

/-- A combining entry is freed once every member has its copy and every copy has been granted, or is gone (R366). -/
def State.freeComb (s : State) (id : Nat) : State :=
  match s.fab.comb.find? (fun e => e.id == id) with
  | some e =>
    if e.data.isSome && e.members.all CombMember.replied && !s.fab.sw.any (fun q => q.comb == some id) then
      s.updFab (fun f => { f with comb := f.comb.filter (fun e => e.id != id) })
    else s
  | none => s

/-- A packet has left the switch for good: its slots are free, and a combining entry whose copy it was may go. -/
def State.swGone (s : State) (q : SwPkt) : State :=
  let s := s.freeSlots q
  match q.comb with | some e => s.freeComb e | none => s

/-- Takes the packet at place `n` out of the switch; its slots are freed. -/
def State.swDrop (s : State) (n : Nat) : State :=
  match s.fab.sw[n]? with
  | some q => (s.updFab (fun f => { f with sw := f.sw.eraseIdx n })).swGone q
  | none => s

/-- Packets of a VC that wait for an output. -/
def State.portWaiting (s : State) (p v : Nat) : Nat := (s.fab.sw.filter (fun q => q.out == some p && q.pkt.vc == v)).length

/-- A packet enters the switch with the residence limit as it stands (R348); the depth that its port shaper's queue reaches counts for
the interval's peak (R377). -/
def State.swAdd (s : State) (q : SwPkt) : State :=
  let q := if q.residUs = 0 then { q with residUs := s.fget F.FAB_TIMERS_RESIDENCE_US [] } else q
  let s := s.updFab (fun f => { f with sw := f.sw ++ [q] })
  match q.out with
  | none => s
  | some p =>
    let n := s.portWaiting p q.pkt.vc
    if q.pkt.vc = 0 then s
    else { s with shp := { s.shp with peak := KMap.upd 0 s.shp.peak (RegName.addr .PSHP_CFG [p, q.pkt.vc]) (fun x => max x n) } }

/-! ### Requests -/

/-- Request `id`, if it is known. -/
def State.fabReq (s : State) (id : Nat) : Option FabReq := s.fab.reqs.find? (fun r => r.id == id)

/-- Changes request `id`. -/
def State.updReq (s : State) (id : Nat) (g : FabReq → FabReq) : State :=
  s.updFab (fun f => { f with reqs := f.reqs.map (fun r => if r.id = id then g r else r) })

/-- A field of a kept copy of FAB_TIMERS. -/
def timerOf (f : Fld) (v : Nat) : Nat := bits v f.hi f.lo

/-- A request ends (R361): a request cancelled after its grant whose response is OK ends as CANCEL_MISSED, its tag rests for
TAG_HOLD_US after its last attempt (R341, R348), and its issuer, if it still waits, finds the result. -/
def State.fabFinish (s : State) (id st : Nat) (data : List Byte) : State :=
  match s.fabReq id with
  | none => s
  | some r =>
    let st := if r.missed.isSome && st = 0 then 0x1E else st
    let hold := match r.tag with
      | some t => [(r.dst, t, r.sentNs + timerOf F.FAB_TIMERS_TAG_HOLD_US r.timers * 1000)]
      | none => []
    let s := s.updFab (fun f => { f with tagHeld := f.tagHeld.filter (fun h => s.now < h.2.2) ++ hold })
    if r.orphan then s.updFab (fun f => { f with reqs := f.reqs.filter (fun q => q.id != id) })
    else s.updReq id (fun q => { q with result := some (st, data) })

/-- The result of a request, which its issuer takes. -/
def State.fabResult (s : State) (id : Nat) : Option (Nat × List Byte) := (s.fabReq id).bind FabReq.result

/-- The issuer is done with a request. -/
def State.fabDrop (s : State) (id : Nat) : State :=
  s.updFab (fun f => { f with reqs := f.reqs.filterMap (fun r =>
    if r.id != id then some r else if r.result.isSome then none else some { r with orphan := true }) })

/-- The packets granted on an output and its slots, with those that satisfy a test and have not begun made Voids (R370). -/
def voidTx (t : SwPkt → Bool) : List (SwPkt × Nat) → List (BitVec 256) → List (SwPkt × Nat) × List (BitVec 256)
  | [], l => ([], l)
  | (q, n) :: ps, l =>
    let r := voidTx t ps (l.drop n)
    if n = q.pkt.slots && t q then
      let v := { q with pkt := { q.pkt with void := true } }
      ((v, v.pkt.slots) :: r.1, v.pkt.toSlots ++ r.2)
    else ((q, n) :: r.1, l.take n ++ r.2)

/-- Bytes of payload that a Void leaves in the Gutter: a control packet has none (R318, R370). -/
def Packet.gutter (p : Packet) : Nat := if p.cls = 1 || p.void then 0 else p.bytes

/-- Whether a packet was granted in this fclk. Device times that are equal count as one fclk, unless a command has said otherwise
(assumption 158). -/
def State.grantedNow (s : State) (q : SwPkt) : Bool := q.grantNs == some s.now && !q.past && q.inp.isNone && !q.pkt.void

/-- The named packets, by output and place there, were granted in an earlier fclk than this one (R370). -/
def State.grantedBefore (s : State) (past : List (PortId × Nat)) : State :=
  past.foldl (fun s x => s.updPort x.1 (fun y => { y with packets := y.packets.modify x.2 (fun z => ({ z.1 with past := true }, z.2)) })) s

/-- The messages of this device that satisfy a test and were granted in this very fclk leave as Voids: how many, and the bytes that
go to the Gutter (R370). -/
def State.voidMsgs (s : State) (t : SwPkt → Bool) : Nat × Nat × State :=
  let hit := fun (q : SwPkt) => s.grantedNow q && t q
  (List.range 36).foldl (fun (acc : Nat × Nat × State) p =>
    let l := ((acc.2.2.port p).packets.filter (fun x => x.2 == x.1.pkt.slots && hit x.1)).map (fun x => x.1.pkt)
    if l.isEmpty then acc
    else
      let bytes := (l.map Packet.gutter).sum
      let s := acc.2.2.updPort p (fun x => let r := voidTx hit x.packets x.tx; { x with packets := r.1, tx := r.2 })
      (acc.1 + l.length, acc.2.1 + bytes, (s.fadd F.GUTTER_BYTES_BYTES [] bytes).fsat F.CANCEL_COUNTS_LATE [] l.length)) (0, 0, s)

/-- A cancel meets a request (R370): waiting for its grant, it is removed and ends as CANCELLED; in the fclk of its grant it leaves as
a Void and ends as CANCELLED_LATE; a fence reports FENCED for both. After that fclk it is tracked to its response. -/
def State.cancelReq (s : State) (r : FabReq) (fence : Bool) : State :=
  if r.result.isSome then s
  else if r.granted then
    let v := s.voidMsgs (fun q => q.req == some r.id)
    if v.1 != 0 then v.2.2.fabFinish r.id (if fence then 0x14 else 0x1D) []
    else (s.updReq r.id (fun q => { q with missed := some fence })).fsat F.CANCEL_COUNTS_MISSED [] 1
  else
    let s := s.updFab (fun f => { f with sw := f.sw.filter (fun q => q.req != some r.id) })
    (s.fabFinish r.id (if fence then 0x14 else 0x1C) []).fsat F.CANCEL_COUNTS_CANCELLED [] 1

/-- Cancels the requests that satisfy a test. -/
def State.cancelReqs (s : State) (p : FabReq → Bool) (fence : Bool) : State :=
  (s.fab.reqs.filter p).foldl (fun s r => s.cancelReq r fence) s

/-- A cancel meets the messages of a collective context (R370): those that wait for their grant, or at their source bucket, are
removed, and those granted in this fclk leave as Voids, whose payload was not sent. How many there were of each. -/
def State.cancelColl (s : State) (c : Nat) : Nat × Nat × State :=
  let mine := fun (q : SwPkt) => match q.coll with | some (d, _) => d == c | none => false
  let n := (s.fab.sw.filter mine).length + (s.fab.puts.filter (fun m => m.coll == c)).length
  let s := (s.updFab (fun f => { f with sw := f.sw.filter (fun q => !mine q), puts := f.puts.filter (fun m => m.coll != c) })).fsat
    F.CANCEL_COUNTS_CANCELLED [] n
  let v := s.voidMsgs mine
  (n, v.1, v.2.2.updFab (fun f => { f with colls := KMap.upd {} f.colls c (fun x => { x with
    running := x.running.map (fun r => { r with sent := r.sent - v.2.1 }) }) }))

def CollJob.w (j : CollJob) (i : Nat) : Nat := (j.words[i]?).getD 0
def CollJob.op (j : CollJob) : Nat := bits (j.w 0) 63 60
def CollJob.size (j : CollJob) : Nat := bits (j.w 0) 15 0 + 1

/-- The stages of an operation. -/
def CollRun.stages (r : CollRun) : Nat :=
  match r.job.op, r.algo with
  | 4, 1 => 2
  | 4, _ => 4
  | 2, 2 => 2
  | 5, 2 => 2
  | 1, _ => 1
  | 2, _ => 1
  | 3, _ => 1
  | 5, _ => 1
  | _, _ => 0

/-- Rounds of a barrier. -/
def barrierRounds (n : Nat) : Nat := if n ≤ 1 then 0 else Nat.log2 (n - 1) + 1

/-- Whether a collective has queued its last message: no stage or round is still to come, and every stream has its PUT_END. -/
def CollRun.allQueued (r : CollRun) : Bool :=
  if r.job.op = 6 || r.job.op = 7 then barrierRounds r.job.size ≤ r.round + 1
  else r.stages ≤ r.done + 1 && r.outs.all OutStream.ended

/-- The status with which a cancel ends a running collective (R372), when it removed and voided so many messages of it; a fence ends it
with FENCED (R388). -/
def CollRun.cancelled (r : CollRun) (fence : Bool) (removed voided : Nat) : Nat :=
  if fence then 0x14
  else if r.granted = 0 then 0x1C
  else if removed = 0 && voided = 0 && r.allQueued then 0x1E
  else 0x1D

/-- The collectives of a Tenancy's step go with the step (R392): their messages that wait are removed. -/
def State.dropColls (s : State) (t : Nat) : State :=
  s.fab.colls.foldl (fun s p =>
    let s := match p.2.running with
      | some r => if r.job.ten = t then
          let q := s.cancelColl p.1
          q.2.2.updFab (fun f => { f with colls := KMap.upd {} f.colls p.1 (fun x => { x with running := none }) })
        else s
      | none => s
    s.updFab (fun f => { f with colls := KMap.upd {} f.colls p.1 (fun x =>
      { x with queue := x.queue.filter (fun j => j.ten != t) }) })) s

/-- The fabric work of a Tenancy's step attempt goes with it (R369): its messages are cancelled, and nobody waits for them. -/
def State.dropFabric (s : State) (t : Nat) : State :=
  let ids := (s.fab.reqs.filter (fun r => r.ten == t)).map FabReq.id
  ids.foldl State.fabDrop ((s.cancelReqs (fun r => r.ten == t) false).dropColls t)

end Sys2Proof.Machine
end

