-- ==== Sys2Proof/Machine/StepWork.lean ====
section
/-! DEFINITION. What the end of a step attempt does to the work of the step, and the end itself. -/

namespace Sys2Proof.Machine

/-- A control core leaves the step: its outstanding accesses go, its data cache is invalidated without writing back (R523),
and it waits in WFI state until the next step entry (R91). -/
def CoreSt.leaveStep (c : CoreSt) : CoreSt :=
  { c with reqs := [], dcache := [], inStep := false, wait := .wfi, enq := none, fetched := none }

/-- The physical Blocks that hold a Tenancy's logical IDs, with those IDs. -/
def Ten.blocks (v : Ten) : List (Nat × Nat) := v.bmap.zipIdx.filterMap (fun p => p.1.map (fun b => (p.2, b)))

/-- The registers of a Block that belong to a program: its post counters. -/
def postLo (b : Nat) : Nat := RegName.addr .BLK_POST [b, 0]

/-- The event counters of a District. -/
def evcLo (d : Nat) : Nat := RegName.addr .EVC [d, 0]

/-- Whether a DMA descriptor belongs to a Tenancy's step. -/
def DmaJob.ofTen (t : Nat) (j : DmaJob) : Bool := j.ten == t

/-- What a District keeps when the work of a step leaves it: the halt of its Great Array, which is GA_CTRL's (R175). -/
def DistSt.cleared (x : DistSt) : DistSt := { ga := { halted := x.ga.halted } }

/-- Drops the work of a Tenancy's step attempt without a trace (R93, R416, R523): while it runs, the queues, event counters and engines
of the Districts, its Blocks' programs and inboxes, its descriptors and posts, its fabric messages and collectives, and the lines of
its cores. A pass in flight runs to its end (R175). -/
def State.dropWork (s : State) (t : Nat) : State :=
  match s.ten t with
  | none => s
  | some v =>
    let s := if s.tick.cur = t then
        v.blocks.foldl (fun s p => s.updBlk p.2 (fun x =>
          { x with running := none, inbox := [], ie := false, timer := 0 }))
          ([0, 1, 2, 3].foldl (fun s d => (s.updDist d (fun x => let y := x.cleared; { y with ga := { y.ga with passes := x.ga.passes } })
            ).resetRegs (evcLo d) 4096) (v.districts.foldl (fun s d => s.updCore d CoreSt.leaveStep) s))
      else s
    let live := s.fl.cmds.filter (fun c => c.ten != t || !c.waits || c.result.isNone)
    let cmds := live.map (fun c => if c.ten = t then { c with waits := false } else c)
    ({ s with
       dma := s.dma.filter (fun j => !j.ofTen t), posts := s.posts.filter (fun p => p.ten != t),
       merge := s.merge.filter (fun m => m.ten != t),
       fl := { s.fl with cmds := cmds },
       shp := { s.shp with waiting := s.shp.waiting.filter (fun r => r.ten != t),
                           issued := s.shp.issued.filter (fun r => r.2 != t) } }).dropFabric t

/-- Frees the lots of a copy (R244): they leave the lot map of its Tenancy. -/
def SquareSt.freeCopy (q : SquareSt) (c : Copy) : SquareSt :=
  { q with copies := q.copies.erase c, map := KMap.clear q.map (c.ten * 4096 + c.first) c.lots }

/-- The copies of a Tenancy when its step ends: none is held any more (R243), and those being dropped free their lots (R251). -/
def SquareSt.stepEnd (q : SquareSt) (t : Nat) : SquareSt :=
  let q := (q.copies.filter (fun c => c.ten == t && c.dropping)).foldl SquareSt.freeCopy q
  { q with copies := q.copies.map (fun c => if c.ten = t then { c with held := false } else c) }

def State.copiesEnd (s : State) (t : Nat) : State := [0, 1, 2, 3].foldl (fun s d => s.updSq d (fun q => q.stepEnd t)) s

/-- Ends an UNSEAL that waited for the step of a Tenancy (R465). -/
def State.finishUnseal (s : State) (t : Nat) : State :=
  match s.sec.unsealWait with
  | some k =>
    if k / 16 == t then
      ({ s with sec := { s.sec with unsealWait := none, seals := KMap.set none s.sec.seals k none,
                                    sealed := KMap.set none s.sec.sealed k none } }).fset F.DG_STATUS_BUSY [] 0
    else s
  | none => s

/-- The step of a Tenancy ends: committed, discarded or abandoned. Its record is built later when it reserved a slot
(R443); otherwise nothing of it remains. -/
def State.endStep (s : State) (t : Nat) (e : Ending) : State :=
  match s.run t with
  | none => s
  | some r =>
    let s := (match e with | .commit => s | _ => s.dropWork t).copiesEnd t
    let s := match e with | .discard _ => s | _ => s.fset F.TEN_STATE_OVERRUNS [t] 0
    let s := if s.tst t = TSt.draining.num then s else s.setTst t (if s.tick.resident.contains t then .resident else .defined)
    let s := { s with tick := { s.tick with
      cur := if s.tick.cur = t then 0 else s.tick.cur,
      extend := if s.tick.extend = t then 0 else s.tick.extend,
      replays := s.tick.replays.filter (· != t),
      suspending := if s.tick.cur = t && s.tick.suspending = some 0 then none else s.tick.suspending } }
    let r' := { r with ended := some e, endNs := s.timeNow, endTick := s.fget F.TICK_COUNT_COUNT [] }
    let s := s.updTen t (fun v => { v with
      run := if r.channel.isSome then some r' else none, stash := none, imageBad := false })
    s.finishUnseal t

end Sys2Proof.Machine
end

