-- ==== Sys2Proof/Machine/Faults.lean ====
section
/-! DEFINITION. Logging an event (R404 to R420): its class and level, the action it takes on the step of its Tenancy, the
counts and the retirement they decide, its history entry and the first event, and the bits and interrupts of the Ridge. -/

namespace Sys2Proof.Machine

/-- What an event does (R406). -/
inductive FaultAct where
  | log | replay | byData | discard (code : Nat) | retire | terminate | grave | abandon (cause : Nat) | held
  deriving DecidableEq, Repr

/-- The class of a code: 0 transient, 1 permanent, 2 grave (R406). -/
def codeClass (c : Nat) : Nat :=
  if [0xA1, 0xA2, 0xA5, 0xA9, 0xB2, 0xB3, 0xD0, 0xD4, 0xD5, 0xD6].contains c then 1
  else if 0xD8 ≤ c && c ≤ 0xDD then 2 else 0

/-- The action of a code (R406). -/
def codeAct (c aux : Nat) : FaultAct :=
  if [0x66, 0x67, 0x70, 0x71, 0x72, 0x73, 0x82, 0x95].contains c then .replay
  else if [0x68, 0x74, 0x81, 0x86, 0x92].contains c then .byData
  else if c == 0x52 then .discard (aux % 2 ^ 16)
  else if [0x60, 0x61, 0x75, 0x76, 0x80, 0x84, 0x87, 0x90, 0x91, 0x93, 0x94, 0x96, 0xA6, 0xC6, 0xCA].contains c then
    .discard (0xFB00 + c)
  else if [0xA1, 0xA2, 0xA5, 0xA9, 0xB2, 0xB3, 0xD0, 0xD4, 0xD5, 0xD6].contains c then .retire
  else if [0x55, 0x56, 0x57, 0x58, 0xD1, 0xD2].contains c then .terminate
  else if 0xD8 ≤ c && c ≤ 0xDD then .grave
  else if c == 0x44 then .abandon 2
  else if c == 0xD3 then .abandon 3
  else if c == 0xD7 then .held
  else .log

/-- The action that the history entry shows (R409). -/
def FaultAct.num : FaultAct → Nat
  | .log => 0
  | .replay => 1
  | .byData => 1
  | .discard _ => 2
  | .abandon _ => 3
  | .retire => 4
  | .terminate => 5
  | .grave => 6
  | .held => 7

/-- The key of a unit in the retirement counts: Block, Great Array, Square lot, T1 slot, T2 channel, ring link, lane and
port, each in its own range. -/
def unitKey (kind u : Nat) : Nat := kind * 2 ^ 16 + u

/-- The unit that a counted event counts towards, with the field of its limit (R418). -/
def countedUnit (e : Event) : Option (Nat × Fld) :=
  let d := e.unit / 2 ^ 14
  let sub := e.unit % 2 ^ 14
  if [0x66, 0x67, 0x70].contains e.code then some (unitKey 1 e.unit, F.RET_LIMITS_BLOCK_N)
  else if [0x71, 0x72, 0x73].contains e.code then some (unitKey 2 d, F.RET_LIMITS_GA_N)
  else if e.code == 0x95 then some (unitKey 3 (d * 4096 + sub), F.RET_LIMITS_LOT_N)
  else if e.code == 0xA0 then some (unitKey 4 sub, F.RET_LIMITS_SLOT_N)
  else if e.code == 0xA4 then some (unitKey 5 e.unit, F.RET_LIMITS_CHANNEL_N)
  else if e.code == 0xB1 then some (unitKey 8 e.unit, F.RET_LIMITS_LINKDOWN_N)
  else none

/-- The unit key that a retirement code names by UNIT (R521). -/
def retireKey (e : Event) : Option Nat :=
  let d := e.unit / 2 ^ 14
  let sub := e.unit % 2 ^ 14
  match e.code with
  | 0xD4 => some (unitKey 1 (d * 256 + sub % 256))
  | 0xD5 => some (unitKey 2 d)
  | 0xD6 => some (unitKey 3 (d * 4096 + sub))
  | 0xA1 => some (unitKey 4 sub)
  | 0xA2 => some (unitKey 4 sub)
  | 0xA5 => some (unitKey 5 e.unit)
  | 0xA9 => some (unitKey 9 e.unit)
  | 0xB2 => some (unitKey 7 e.unit)
  | 0xB3 => some (unitKey 8 e.unit)
  | 0xD0 => some (unitKey 6 e.unit)
  | _ => none

/-- The retirement event of a unit whose count decides it (R420). -/
def retireEvent (s : State) (key : Nat) : Event :=
  let u := key % 2 ^ 16
  match key / 2 ^ 16 with
  | 1 => { code := 0xD4, level := 1, unit := u / 256 * 2 ^ 14 + u % 256 }
  | 2 => { code := 0xD5, level := 1, unit := u * 2 ^ 14 }
  | 3 => { code := 0xD6, level := 1, unit := u / 4096 * 2 ^ 14 + u % 4096 }
  | 4 =>
    let used := s.fget F.T1_RESERVE_USED [] + s.t1.waiting.length
    { code := if used < s.t1.units then 0xA1 else 0xA2, level := 1, unit := u / 64 * 2 ^ 14 + u }
  | 5 => { code := 0xA5, unit := u }
  | 6 => { code := 0xD0, unit := u }
  | 7 => { code := 0xB2, unit := u }
  | _ => { code := 0xB3, unit := u }

/-- Whether the event's step takes its action: the step of its Tenancy runs and its flip has not been made (R412). -/
def State.stepTakes (s : State) (t : Nat) : Bool :=
  t != 0 && s.tick.cur == t &&
    match s.run t with
    | some r => !r.flipped && r.ended.isNone
    | none => false

/-- Whether the event's step can be marked for replay: it runs, or is suspended with its data in place, and its flip has not been
made (R412). -/
def State.replayTakes (s : State) (t : Nat) : Bool :=
  t != 0 && match s.run t with
    | some r => !r.flipped && r.ended.isNone && !r.replayDue && (s.tick.cur == t || r.suspended)
    | none => false

/-- Sets one PEND bit of RIDGE_STATUS, and raises its interrupt when it was clear and is enabled (R451). -/
def State.setPend (s : State) (bit : Nat) : State :=
  let s' := s.rbit .RIDGE_STATUS [] bit true
  if !s.rtest .RIDGE_STATUS [] bit && s.rtest .RIDGE_CTRL [] (59 - bit) then s'.srcEvent (.shared (64 + (59 - bit))) else s'

/-- Marks the running step for replay (R412). `unit` is the counted unit, if any. -/
def State.markReplay (s : State) (t code unit dir : Nat) : State :=
  s.updRun t (fun r => { r with
    mark := some (r.mark.getD code),
    marks := if r.mark.isNone then r.marks + 1 else r.marks,
    units := if unit = 0 then r.units else unit :: r.units,
    badDirs := if code = 0x92 then dir :: r.badDirs else r.badDirs })

/-- A suspended step that is marked waits for its replay in place of resuming (R412). -/
def State.replaySuspended (s : State) (t : Nat) : State :=
  match s.run t with
  | some r =>
    if r.suspended && s.tick.cur != t then
      let s := { s with tick := { s.tick with
        replays := s.tick.replays.filter (· != t) ++ [t], extend := if s.tick.extend = t then 0 else s.tick.extend } }
      (s.updTen t (fun v => { v with
        stash := none, run := v.run.map (fun r => { r with suspended := false, replayDue := true, stepEnded := false }) })).setTst t .running
    else s
  | none => s

/-- Asks for discard of the running step as the DCC of District `d` would (R92). A request that stands is kept. -/
def State.askDiscard (s : State) (t d code : Nat) : State :=
  s.updRun t (fun r => { r with discards :=
    if (KMap.get none r.discards d).isSome then r.discards else KMap.set none r.discards d (some code) })

/-- The District whose DCC an event's discard is taken as: the unit's, or the lowest-numbered participating one. -/
def State.discardDist (s : State) (e : Event) : Nat :=
  if e.level = 0 then e.unit / 256
  else if e.level = 1 then e.unit / 2 ^ 14
  else match s.ten e.ten with
    | some v => v.districts.headD 0
    | none => 0

/-- The action an event takes in this state: a replay or discard needs a running step to take it (R408, R412), and an
event that acts by completion status is replayed after DATA_ERROR, but for R250. -/
def State.resolveAct (s : State) (e : Event) : FaultAct :=
  let a : FaultAct := match codeAct e.code e.aux with
    | .byData =>
      if !e.dataErr then FaultAct.discard (0xFB00 + e.code)
      else if e.code == 0x92 && (match s.run e.ten with | some r => r.isReplay && r.badDirs.contains e.aux | none => false)
      then FaultAct.discard 0xFB92
      else FaultAct.replay
    | a => a
  match a with
  | .replay => if s.replayTakes e.ten then a else .log
  | .discard _ => if s.stepTakes e.ten then a else .log
  | .abandon _ => if (s.run e.ten).isSome then a else .log
  | a => a

/-- The T2 channel of a page of the T2 window (R266). -/
def t2PageChannel (p : Nat) : Nat :=
  (p % 64) ^^^ (p / 64 % 64) ^^^ (p / 4096 % 64) ^^^ (p / 262144 % 64) ^^^ (p / 16777216 % 32)

/-- Whether a line of an enabled mirrored range lies on a retired channel (R272). A span of 64 pages or more, which starts at a multiple
of its length, lies on every channel. -/
def State.t2Degraded (s : State) (r : Nat) : Bool :=
  s.fget F.T2_RANGE_BASE_EN [r] == 1 && s.fget F.T2_RANGE_BASE_MIRROR [r] == 1 &&
    (List.range (min 64 (2 * KMap.get 0 s.t2Len r))).any (fun i =>
      s.rtest .T2_RETIRED [] (t2PageChannel (s.fget F.T2_RANGE_BASE_BASE [r] + i)))

/-- DEGRADED of the mirrored ranges with a line on a retired channel. -/
def State.degradeRanges (s : State) : State :=
  (List.range 16).foldl (fun s r => if s.t2Degraded r then s.fset F.T2_RANGE_BASE_DEGRADED [r] 1 else s) s

/-- The unit leaves service at once, or is decided for the next tick start (R420). -/
def State.retireNow (s : State) (key code : Nat) : State :=
  let u := key % 2 ^ 16
  if s.ridge.decided.contains key then s else
  let s := { s with ridge := { s.ridge with decided := s.ridge.decided ++ [key],
                                            record := if key / 2 ^ 16 ≤ 4 then s.ridge.record ++ [key] else s.ridge.record } }
  match key / 2 ^ 16 with
  | 4 =>
    if code == 0xA2 then { s with t1 := { s.t1 with losing := s.t1.losing ++ [u] } }
    else { s with t1 := { s.t1 with waiting := s.t1.waiting ++ [u] } }
  | 5 => ((s.rbit .T2_RETIRED [] u true).rbit .T2_UP [] u false).degradeRanges
  | 6 => (s.rbit .RING_STATUS [] (4 + u) true).rbit .RING_STATUS [] u false
  | 7 => s.fset F.LANE_STATUS_RETIRED [u / 4, u % 4] 1
  | 8 => if s.fget F.PORT_STATUS_STATE [u] = 8 then s
    else (s.fset F.PORT_STATUS_STATE [u] 8).srcEvent (.shared (96 + u))
  | 9 => s.fset F.FL_DRIVE_FAILED [u] 1
  | _ => s

/-- Whether an event names a Block that is fused off: such a Block raises no faults (R2). -/
def State.atFused (s : State) (e : Event) : Bool :=
  (e.level == 0 && !s.fuseEnabled e.unit) || (e.code == 0xD4 && !s.fuseEnabled (e.unit / 2 ^ 14 * 256 + e.unit % 256))

/-- Takes an event's action on the step, the unit or the chip. -/
def State.takeAct (s : State) (e : Event) (a : FaultAct) (unit : Nat) : State :=
  match a with
  | .replay => (s.markReplay e.ten e.code unit e.aux).replaySuspended e.ten
  | .discard c => s.askDiscard e.ten (s.discardDist e) c
  | .abandon c => s.endStep e.ten (.abandon c)
  | .retire => match retireKey e with | some k => s.retireNow k e.code | none => s
  | .terminate => { s with ridge := { s.ridge with terminate := true } }
  | .grave => { s with ridge := { s.ridge with grave := some e.code } }
  | .held =>
    let st := s.fget F.RIDGE_STATUS_STATE []
    if st = 0 || st = 1 || st = 5 then { s with ridge := { s.ridge with terminate := true, hold := true } } else s
  | _ => s

/-- Word `w` of the entry of an event (R409). -/
def entryWord (e : Event) (forced first inReplay : Bool) (time step act : Nat) : Nat → Nat
  | 0 => e.code % 256 * 2 ^ 56 + codeClass e.code * 2 ^ 54 + e.level % 4 * 2 ^ 52 + forced.toNat * 2 ^ 51
      + first.toNat * 2 ^ 50 + inReplay.toNat * 2 ^ 49 + e.ten % 64 * 2 ^ 42 + e.detail % 2 ^ 32
  | 1 => time % 2 ^ 64
  | 2 => step % 2 ^ 48
  | _ => e.unit % 2 ^ 16 * 2 ^ 48 + act * 2 ^ 36

/-- Word `w` of the history entry at place `k`. -/
def State.hist (s : State) (k w : Nat) : Nat := (s.rget .HIST [k % 32, w]).toNat

/-- Whether the entry at a place arrived in the fclk of an event and comes after it: by CODE, then by UNIT (R404), and a forced one after a
detected one (R408). -/
def State.entryAfter (s : State) (e : Event) (forced : Bool) (k : Nat) : Bool :=
  s.hist k 1 == s.timeNow % 2 ^ 64 &&
    (e.code * 2 ^ 16 + e.unit) * 2 + forced.toNat < (bits (s.hist k 0) 63 56 * 2 ^ 16 + bits (s.hist k 3) 63 48) * 2 + bit (s.hist k 0) 51

/-- How many of the newest entries come after an event of their fclk. -/
def State.entriesAfter (s : State) (e : Event) (forced : Bool) : Nat :=
  let n := s.fget F.RIDGE_STATUS_HIST_COUNT []
  ((List.range (min n 31)).takeWhile (fun i => s.entryAfter e forced (n + 31 - i))).length

/-- Whether an event is merged into the entry at place `k` (R410): the same CODE and UNIT within 1 ms. A forced event and a detected one of
one fclk are both entered (R408), and a grave event never merges. -/
def State.mergesWith (s : State) (e : Event) (forced : Bool) (k : Nat) : Bool :=
  codeClass e.code != 2 && bits (s.hist k 0) 63 56 == e.code && bits (s.hist k 3) 63 48 == e.unit && 0 < s.hist k 0 &&
    s.timeNow ≤ s.hist k 1 + 1000000 && !(s.hist k 1 == s.timeNow % 2 ^ 64 && bit (s.hist k 0) 51 != forced.toNat)

/-- Enters an event in the history queue at its place (R404), or merges it into the entry before that place (R410), and freezes it as the
first event when none is frozen, or when the frozen one arrived in its fclk and comes after it (R411). -/
def State.enterHistory (s : State) (e : Event) (forced : Bool) (act : Nat) (run : Option Run) : State :=
  let n := s.fget F.RIDGE_STATUS_HIST_COUNT []
  let m := s.entriesAfter e forced
  let j := n + 32 - m
  let taken := (List.range m).any (fun i => (s.hist (j + i) 0).testBit 50)
  let first := s.fget F.RIDGE_STATUS_FIRST_VALID [] == 0 || taken
  if !first && s.mergesWith e forced (j + 31) then
    let w3 := s.hist (j + 31) 3
    s.rset .HIST [(j + 31) % 32, 3] (BitVec.ofNat 64 (w3 - bits w3 47 40 * 2 ^ 40 + satAdd 255 (bits w3 47 40) 1 * 2 ^ 40))
  else
    let step := match run with | some r => r.step | none => 0
    let rep := match run with | some r => r.attempt != 0 | none => false
    let word := fun w => BitVec.ofNat 64 (entryWord e forced first rep s.timeNow step act w)
    let put := fun (k : Nat) (f : Nat → W64) (s : State) => [0, 1, 2, 3].foldl (fun s w => s.rset .HIST [k % 32, w] (f w)) s
    let later := fun (i w : Nat) => let x := s.hist (j + i) w
      BitVec.ofNat 64 (if w = 0 && x.testBit 50 then x - 2 ^ 50 else x)
    let s := put j word ((List.range m).foldl (fun s i => put (j + i + 1) (later i) s) s)
    let s := s.fset F.RIDGE_STATUS_HIST_COUNT [] (n + 1)
    if first then ([0, 1, 2, 3].foldl (fun s w => s.rset .FIRST [w] (word w)) s).fset F.RIDGE_STATUS_FIRST_VALID [] 1 else s

/-- The entry and the Ridge's bits for one event whose action is settled. -/
def State.recordEvent (s : State) (e : Event) (forced : Bool) (a : FaultAct) (run : Option Run := s.run e.ten) : State :=
  let s := s.enterHistory e forced a.num run
  if a.num = 4 then s.setPend 58 else if codeClass e.code = 0 then s.setPend 59 else s

/-- A retirement decided by a count or by R419: it is logged and takes effect (R420). -/
def State.decideRetire (s : State) (key : Nat) : State :=
  let e := retireEvent s key
  (s.retireNow key e.code).recordEvent e false .retire

/-- Counts an event towards its unit's retirement and decides it at the limit, or at once when a replay meets the unit that
marked the previous attempt (R418 to R420). A unit already decided is not counted. -/
def State.countEvent (s : State) (e : Event) (key : Nat) (limit : Fld) : State :=
  if s.ridge.decided.contains key then s
  else
    let n := KMap.get 0 s.ridge.counts key + 1
    let s := { s with ridge := { s.ridge with counts := KMap.set 0 s.ridge.counts key n } }
    let again := (key / 2 ^ 16 == 1 || key / 2 ^ 16 == 2) &&
      (match s.run e.ten with | some r => r.isReplay && r.prevUnits.contains key | none => false)
    if s.fget limit [] ≤ n || again then s.decideRetire key else s

/-- REPLAY_MAX consecutive marked attempts abandon the step (R417). -/
def State.replayLimit (s : State) (t : Nat) : State :=
  match s.run t with
  | some r =>
    if r.mark.isSome && s.fget F.RET_LIMITS2_REPLAY_MAX [] ≤ r.marks && r.ended.isNone then
      let e : Event := { code := 0xD3, ten := t }
      (s.recordEvent e false (.abandon 3)).endStep t (.abandon 3)
    else s
  | none => s

/-- The District that has lost both of its ring links. With two opposite links retired no District has, and the rule does not say
which of them UNIT names: DESIGN CHOICE (assumption 4), the District with the number of the link retired last. -/
def State.cutDistrict (s : State) (l : Nat) : Nat :=
  ([0, 1, 2, 3].find? (fun d => s.rtest .RING_STATUS [] (4 + d) && s.rtest .RING_STATUS [] (4 + (d + 3) % 4))).getD l

/-- A second retired ring link makes a District unreachable, which terminates the chip (R22). -/
def State.ringCut (s : State) (l : Nat) : State :=
  if 2 ≤ ([0, 1, 2, 3].filter (fun i => s.rtest .RING_STATUS [] (4 + i))).length then
    ({ s with ridge := { s.ridge with terminate := true } }).recordEvent { code := 0xD1, unit := s.cutDistrict l } false .terminate
  else s

/-- A termination code latched while STATE is REENTRY logs 0xDD (R427). -/
def State.reentryFailed (s : State) : State :=
  if s.ridge.terminate && s.fget F.RIDGE_STATUS_STATE [] = 2 then
    ({ s with ridge := { s.ridge with terminate := false, grave := some 0xDD } }).recordEvent { code := 0xDD } false .grave
  else s

/-- An event is logged. `forced` marks an event of R407; `counts` is false for a forced event whose COUNT is 0. -/
def State.raiseEv (s : State) (e : Event) (forced : Bool := false) (counts : Bool := true) : State :=
  let a := s.resolveAct e
  let unit := match countedUnit e with | some (k, _) => k | none => 0
  let s0 := s
  let s := s.takeAct e a unit
  let s := s.recordEvent e forced a (s0.run e.ten)
  let s := match countedUnit e with
    | some (k, l) => if counts then (if s0.ridge.decided.contains k then s else s.countEvent e k l) else s
    | none => s
  match a with
  | .replay => s.replayLimit e.ten
  | .retire => if e.code == 0xD0 then (s.ringCut e.unit).reentryFailed else s
  | .terminate => s.reentryFailed
  | _ => s

/-- A chip-level event with no detail. -/
def State.chipEv (s : State) (code : Nat) (unit : Nat := 0) (ten : Nat := 0) (detail : Nat := 0) : State :=
  s.raiseEv { code := code, level := 2, unit := unit, ten := ten, detail := detail }

/-- A District-level event. -/
def State.distEv (s : State) (code d sub : Nat) (ten : Nat := 0) (detail : Nat := 0) (dataErr : Bool := false)
    (aux : Nat := 0) : State :=
  s.raiseEv { code := code, level := 1, unit := d * 2 ^ 14 + sub, ten := ten, detail := detail, dataErr := dataErr, aux := aux }

/-- A Block-level event. -/
def State.blkEv (s : State) (code b : Nat) (ten : Nat := 0) (detail : Nat := 0) (dataErr : Bool := false) : State :=
  s.raiseEv { code := code, level := 0, unit := b, ten := ten, detail := detail, dataErr := dataErr }

/-! ### Writes under a role (R7, R469, R475, R479) -/

/-- A write of register value `new` that changes RWL fields, or takes a WO action, under a role: without the role it is
ignored with 0x31; with a value that the chapter does not admit it takes `bad`; with no room in the journal queue for the `n` entries
that it makes it is ignored and counted; otherwise its entry is queued and it takes effect. -/
def State.gated (s : State) (w : Writer) (role : Role) (r : RegName) (ix : List Nat) (new n : Nat) (valid : Bool)
    (bad act : State → State) : State :=
  if !s.holds w role then s.chipEv 0x31
  else if !valid then bad s
  else if !s.journalRoom n then s.fsat F.AUD_STATUS_DROPPED [] 1
  else act (s.journal ((writerAgent w).getD 0) role.num 0 (s.roleSlot w role) 0 0 (regDevAddr r ix) (s.rget r ix).toNat new)

end Sys2Proof.Machine
end

