-- ==== Sys2Proof/Machine/RmStop.lean ====
section
/-! DEFINITION. The stream of a Residency Manager, and how the manager stops after a failure (R226, R234, R248). -/

namespace Sys2Proof.Machine

def State.rm (s : State) (d : Nat) : RmSt := (s.dist d).rm

def State.updRm (s : State) (d : Nat) (f : RmSt → RmSt) : State := s.updDist d (fun x => { x with rm := f x.rm })

/-- A demand entry joins the stream. -/
def RmSt.addDemand (r : RmSt) (now ten : Nat) (words : List Nat) : RmSt :=
  { r with items := r.items ++ [.demand ten words], late := if r.late.1 = now then (now, r.late.2 + 1) else (now, 1) }

/-- A job joins the stream, before the demand entries that have come at the same time (R226). -/
def RmSt.addJob (r : RmSt) (now : Nat) (j : EngJob) : RmSt :=
  let n := if r.late.1 = now then
      min r.late.2 ((r.items.reverse.takeWhile (fun x => match x with | .demand _ _ => true | .job _ => false)).length) else 0
  let k := r.items.length - n
  { r with items := r.items.take k ++ .job j :: r.items.drop k }

/-- The copy of a key in a District. -/
def State.copyOf (s : State) (d t key : Nat) : Option Copy :=
  (s.sq d).copies.find? (fun c => c.ten == t && c.key == key && !c.dropping)

/-- The state of a serve after a failure: it shows FAILED unless it is complete already. -/
def Serve.fail (x : Serve) : Serve := { x with state := 5 }

/-- Whether every wanted cluster of a serve is present (R230). -/
def State.serveComplete (s : State) (d : Nat) (x : Serve) : Bool :=
  match x.state with
  | 1 => (match s.copyOf d x.ten x.key with | some c => x.wanted.all (c.present.contains ·) | none => false)
  | 2 => x.wanted.all (x.got.contains ·)
  | _ => true

/-- Ends the span in which a fetch was in progress. -/
def State.fetchesIdle (s : State) (d : Nat) : State := s.fadd F.RM_ACTIVE_CCLK_COUNT [d] (s.cclkSince (s.rm d).activeCyc)

/-- A Residency Manager stops fetching (R248): entries that are not complete, and every entry from the one of `key` on, show
FAILED. -/
def State.rmStop (s : State) (d : Nat) (key : Option Nat) : State :=
  let r := s.rm d
  let from_ := match key with | some k => r.serves.findIdx (fun x => x.key == k) | none => r.serves.length
  let serves := r.serves.zipIdx.map fun p =>
    if p.1.placed || (p.2 < from_ && s.serveComplete d p.1) then p.1 else p.1.fail
  let s := if r.fetches.isEmpty then s else s.fetchesIdle d
  s.updRm d (fun x => { x with serves := serves, fetches := [], turn := 0, pre := [], failed := true })

/-- Removes a District's leading entries from the merge table and stops the Districts that had joined them. -/
def State.dropLead (s : State) (d ten : Nat) : State :=
  let mine := s.merge.filter (fun m => m.ten == ten && m.leader == d && !m.ended)
  let s := { s with merge := s.merge.map (fun m => if m.ten = ten && m.leader = d then { m with ended := true } else m) }
  mine.foldl (fun s m => m.joined.foldl (fun s e => if e = d then s else s.rmStop e (some m.key)) s) s

/-- Captures a failure of a Residency Manager: of two in one cclk the lower code stands, with OVERFLOW for the other. -/
def State.rmErr (s : State) (d code reason layer expert : Nat) : State :=
  let fields := [(F.RM_ERR_CODE, code), (F.RM_ERR_REASON, reason), (F.RM_ERR_LAYER, layer), (F.RM_ERR_EXPERT, expert)]
  if s.fget F.RM_ERR_VALID [d] = 0 then
    (s.capture F.RM_ERR_VALID F.RM_ERR_OVERFLOW [d] fields).updRm d (fun x => { x with errNs := some s.now })
  else if (s.rm d).errNs = some s.now && code < s.fget F.RM_ERR_CODE [d] then (s.fsets [d] fields).fset F.RM_ERR_OVERFLOW [d] 1
  else s.fset F.RM_ERR_OVERFLOW [d] 1

/-- A failure of a Residency Manager: it is captured and logged; one that ends the step also stops the manager (R248). -/
def State.rmFail (s : State) (d ten code reason layer expert : Nat) (key : Option Nat) (dataErr : Bool := false) : State :=
  let s := (s.rmErr d code reason layer expert).distEv code d 0 ten (layer % 256 * 2 ^ 24 + expert % 2 ^ 14) dataErr (key.getD 0)
  if code = 0x97 then s else (s.rmStop d key).dropLead d ten

end Sys2Proof.Machine
end

