-- ==== Sys2Proof/Machine/Access.lean ====
section
/-! DEFINITION. Accesses to the device address space: the windows (R24), the checks of R31 in their order, the lot and Block
maps, the agent-state redirection (R283 to R285), sealed and mirrored memory, and the reads and writes of a line with the
tiers' statuses (R256 to R273). -/

namespace Sys2Proof.Machine

/-- Completion statuses (R137, R257, R343, R373, R399). -/
abbrev St.ok : Nat := 0x00
abbrev St.descInvalid : Nat := 0x10
abbrev St.bounds : Nat := 0x11
abbrev St.unmapped : Nat := 0x12
abbrev St.addrWidth : Nat := 0x13
abbrev St.fenced : Nat := 0x14
abbrev St.dataError : Nat := 0x15
abbrev St.targetRetired : Nat := 0x16
abbrev St.readOnly : Nat := 0x17
abbrev St.ioError : Nat := 0x18
abbrev St.fabricTimeout : Nat := 0x19
abbrev St.unavailable : Nat := 0x1A
abbrev St.pkeyDenied : Nat := 0x1B
abbrev St.cancelled : Nat := 0x1C
abbrev St.policed : Nat := 0x1F
abbrev St.groupFailed : Nat := 0x20

/-- Who issues an access: SOURCE_TYPE and SOURCE_INDEX of DECODE_ERR_INFO, the Tenancy on whose behalf it is made or 0,
whether the ENGINE column of R80 applies, and the level and UNIT of a bounds violation (R521). -/
structure Issuer where
  src : Nat
  idx : Nat
  ten : Nat
  engine : Bool
  level : Nat
  unit : Nat
  deriving DecidableEq, Repr

/-- The kinds of access (ACCESS of DECODE_ERR_INFO). -/
inductive AccKind where
  | rd | wr | atomic | fetch | dmaRd | dmaWr
  deriving DecidableEq, Repr

def AccKind.num : AccKind → Nat
  | .rd => 0
  | .wr => 1
  | .atomic => 2
  | .fetch => 3
  | .dmaRd => 4
  | .dmaWr => 5

/-- A write of any kind. -/
def AccKind.isWrite : AccKind → Bool
  | .wr => true
  | .atomic => true
  | .dmaWr => true
  | _ => false

/-- The host, outside any Tenancy. -/
def hostIssuer : Issuer := ⟨6, 0, 0, false, 2, 0⟩

/-- The device itself, outside any Tenancy: its reads of Battens, rank tables and lease lists. SOURCE_TYPE has no code for them.
DESIGN CHOICE (assumption 6): they name CCC0 as their source. -/
def deviceIssuer : Issuer := ⟨2, 0, 0, false, 2, 0⟩

/-- A control core: bounded while a DCC runs at L0. -/
def State.coreIssuer (s : State) (c : Nat) : Issuer :=
  if c < 4 then ⟨1, c, if (s.core c).level = 0 then (s.core c).ten else 0, false, 1, c * 2 ^ 14 + 0x100⟩
  else ⟨2, c - 4, 0, false, 2, 0⟩

/-- A Block, working for a Tenancy. -/
def blkIssuer (b ten : Nat) : Issuer := ⟨0, b, ten, true, 0, b⟩

/-- The Routing Engine of a District. -/
def reIssuer (d ten : Nat) : Issuer := ⟨3, d, ten, true, 1, d * 2 ^ 14 + 0x101⟩

/-- The Residency Manager of a District. -/
def rmIssuer (d ten : Nat) : Issuer := ⟨4, d, ten, true, 1, d * 2 ^ 14 + 0x102⟩

/-- A DMA channel of a District. -/
def dmaIssuer (d c ten : Nat) : Issuer := ⟨5, d * 64 + c, ten, true, 1, d * 2 ^ 14 + c⟩

/-- A request that entered by an Oplith port. -/
def portIssuer (p : Nat) : Issuer := ⟨7, p, 0, false, 2, 0⟩

/-- A collective context of the chip die. SOURCE_TYPE has no code for the collective engine. DESIGN CHOICE (assumption 7): a decode
failure of its own names Oplith ingress, index 0. -/
def collIssuer (c ten : Nat) : Issuer := ⟨7, 0, ten, true, 2, c⟩

/-- The resource behind an address. -/
inductive Tier where
  | t1 | t2 | t3
  | square (d : Nat)
  | spad (b : Nat)
  | ga (d : Nat)
  | resram (d : Nat)
  deriving DecidableEq, Repr

/-- Where an address leads. -/
inductive Place where
  | mem (t : Tier) (phys : Nat)
  | ctl (off : Nat)
  | rack (m off : Nat)
  | beyond (rank off : Nat)
  deriving DecidableEq, Repr

/-- A window and the offset in it, before the maps of a Tenancy (R24). -/
inductive Win where
  | t1 | t2
  | square (d off : Nat)
  | spad (id off : Nat)
  | ga (d off : Nat)
  | resram (d off : Nat)
  | ctl (off : Nat)
  | t3 (off : Nat)
  | rack (m off : Nat)
  | beyond (rank off : Nat)
  | hole
  deriving DecidableEq, Repr

def t2Base : Nat := 0x10000000000
def squareBase (d : Nat) : Nat := 0xF0000000000 + d * 0x40000000
def spadBase (b : Nat) : Nat := 0xF1000000000 + b * 0x100000
def gaBase (d : Nat) : Nat := 0xF2000000000 + d * 0x2000000
def reBase (d : Nat) : Nat := 0xF3000000000 + d * 0x1000000
def ctlBase : Nat := 0xFF000000000
def t3Base : Nat := 0x1000000000000
def rackBase : Nat := 0x40000000000000
def beyondBase : Nat := 0x80000000000000

/-- Whether `[a, a + n)` lies in `[lo, hi)`. -/
def within (a n lo hi : Nat) : Bool := lo ≤ a && a + n ≤ hi

def inT1 (a n : Nat) : Bool := within a n 0 0x6000000000
def inT2 (a n : Nat) : Bool := within a n t2Base 0x28000000000
def inT3 (a n : Nat) : Bool := within a n t3Base 0x2000000000000

/-- Two byte ranges meet. -/
def overlap (a n b m : Nat) : Bool := a < b + m && b < a + n

/-- The window of an address (R24). -/
def winOf (a : Nat) : Win :=
  if a < 0x6000000000 then .t1
  else if a < 0x10000000000 then .hole
  else if a < 0x28000000000 then .t2
  else if a < 0xF0000000000 then .hole
  else if a < 0xF0100000000 then
    let o := a - 0xF0000000000
    if o % 0x40000000 < 0x10000000 then .square (o / 0x40000000) (o % 0x40000000) else .hole
  else if a < 0xF1000000000 then .hole
  else if a < 0xF1040000000 then .spad ((a - 0xF1000000000) / 0x100000) (a % 0x100000)
  else if a < 0xF2000000000 then .hole
  else if a < 0xF2008000000 then
    let o := a - 0xF2000000000
    if o % 0x2000000 < 0x1400000 then .ga (o / 0x2000000) (o % 0x2000000) else .hole
  else if a < 0xF3000000000 then .hole
  else if a < 0xF3004000000 then
    let o := a - 0xF3000000000
    if o % 0x1000000 < 0x800000 then .resram (o / 0x1000000) (o % 0x1000000) else .hole
  else if a < 0xFF000000000 then .hole
  else if a < 0xFF004000000 then .ctl (a - 0xFF000000000)
  else if a < 0x1000000000000 then .hole
  else if a < 0x2000000000000 then .t3 (a - 0x1000000000000)
  else if a < 0x40000000000000 then .hole
  else if a < 0x80000000000000 then
    let o := a - 0x40000000000000
    if o / 0x20000000000 < 32 then .rack (o / 0x20000000000) (o % 0x20000000000) else .hole
  else if a < 0x100000000000000 then .beyond ((a - 0x80000000000000) / 0x800000000) (a % 0x800000000)
  else .hole

/-- The local address of an offset in a rack slice (R27). -/
def sliceLocal (off : Nat) : Option Nat :=
  if off < 0x6000000000 then some off
  else if off < 0x8000000000 then none
  else some (t2Base + (off - 0x8000000000))

/-- The drives over which T3 is striped: none in sliced mode (R292). -/
def State.t3Drives (s : State) : Nat := match s.fget F.FL_CFG_STRIPE_DRIVES [] with | 0 => 0 | k => 2 ^ k

/-- The bytes used of a drive: at most the first 32 TiB (R292). -/
def State.t3Cap (s : State) (d : Nat) : Nat := min (s.fget F.FL_DRIVE_LBAS [d] * 4096) (2 ^ 45)

/-- Whether a T3 offset lies in the striped part (R292). -/
def State.t3Striped (s : State) (o : Nat) : Bool :=
  o < s.t3Drives * (List.range s.t3Drives).foldl (fun m d => min m (s.t3Cap d)) (2 ^ 45)

/-- The drive and byte of a T3 offset (R292). -/
def State.t3Map (s : State) (o : Nat) : Nat × Nat :=
  let n := s.t3Drives
  let u := 65536 * 2 ^ s.fget F.FL_CFG_STRIPE_UNIT []
  if s.t3Striped o then (o / u % n, o / u / n * u + o % u) else (o / 2 ^ 45, o % 2 ^ 45)

/-- Whether a T3 offset lies on an installed drive (R25, R292). In striped mode only the drives from N on are sliced. -/
def State.t3Mapped (s : State) (o : Nat) : Bool :=
  let p := s.t3Map o
  (s.t3Striped o || s.t3Drives ≤ p.1) && s.fget F.FL_DRIVE_PRESENT [p.1] == 1 && p.2 < s.t3Cap p.1

/-- Whether a rack member's slice is absent (R25, R357): its route table is not READY, or its entry is not valid. The
device's own slice never is. -/
def State.memberAbsent (s : State) (m : Nat) : Bool :=
  if m = s.fget F.FAB_ID_MEMBER [] then false
  else
    let e := s.fget F.EPOCH_CTRL_SRC_EPOCH []
    let ready := if e = 0 then s.fget F.EPOCH_STATUS_READY0 [] else s.fget F.EPOCH_STATUS_READY1 []
    ready = 0 || s.fget F.ROUTE_VALID [e, m] = 0

/-- Whether the address is mapped at all (R25), with the logical Block IDs of a Tenancy (R26). -/
def State.mapped (s : State) (ten : Nat) (w : Win) : Bool :=
  match w with
  | .hole => false
  | .spad id _ =>
    if ten = 0 then s.fuseEnabled id
    else match s.ten ten with
      | some t => (t.phys id).isSome
      | none => false
  | .t3 o => s.t3Mapped o
  | .rack m off => !s.memberAbsent m && (sliceLocal off).isSome
  | _ => true

/-- Whether the union of the bounds entries that cover the page of an address grants the flags (R78, R79). -/
def Ten.tableGrants (t : Ten) (a : Nat) (rd wr ex engine : Bool) : Bool :=
  let cov := t.bounds.filterMap (fun e => match e with
    | some b => if b.base ≤ a && a < b.base + b.pages * 4096 then some b else none
    | none => none)
  (!rd || cov.any Bound.rd) && (!wr || cov.any Bound.wr) && (!ex || cov.any Bound.ex) && (!engine || cov.any Bound.engine)

/-- Whether an address is granted for caching at L0 (R78). -/
def Ten.tableCaches (t : Ten) (a : Nat) : Bool :=
  t.bounds.any (fun e => match e with
    | some b => b.base ≤ a && a < b.base + b.pages * 4096 && b.cache
    | none => false)

/-- The Batten record of a step (R414). -/
def Ten.battenAddr (t : Ten) (step : Nat) : Nat := t.desc.batten + 0x2000 * (step % 4)

/-- The lot of a Tenancy's Square address: its physical lot, and whether it is a PRIV lot (R220, R221). -/
def State.lot (s : State) (ten d l : Nat) : Option (Nat × Bool) :=
  match KMap.get 0 (s.sq d).map (ten * 4096 + l), s.ten ten with
  | 0, _ => none
  | p + 1, some t => some (p, l < 32 * (t.desc.priv[d]?).getD 0)
  | _, none => none

/-- The Tenancy bounds check (R79 to R81). -/
def State.inBounds (s : State) (i : Issuer) (k : AccKind) (a : Nat) (w : Win) : Bool :=
  if i.ten = 0 then true
  else match s.ten i.ten with
    | none => false
    | some t =>
      let fetch := k == .fetch
      let dccFetch := fetch && !i.engine
      let table := t.tableGrants a (!k.isWrite && !dccFetch) k.isWrite dccFetch i.engine
      let implicit := match w with
        | .spad id _ => (t.phys id).isSome
        | .ga d _ => t.desc.gaMask.testBit d
        | .resram d _ => t.desc.reMask.testBit d
        | .square d off =>
          (match s.lot i.ten d (off / 65536) with
          | some (_, priv) => priv || !k.isWrite
          | none => false)
        | .t1 =>
          (match t.run with
          | some r => s.tick.cur == i.ten && t.battenAddr r.step ≤ a && a < t.battenAddr r.step + 0x2000 && !k.isWrite
          | none => false)
        | .ctl off =>
          i.src == 1 && !k.isWrite && 0x2000100 + i.idx * 0x800000 ≤ off && off < 0x2000120 + i.idx * 0x800000
        | _ => false
      (match w with
        | .ctl _ => false
        | .square _ _ => false
        | _ => table) || (implicit && !dccFetch)

/-- Check 4 of R31 (R386): only a Tenancy whose Ward is HELD, or an access outside any Tenancy, passes. -/
def State.wardOk (s : State) (ten : Nat) : Bool :=
  ten == 0 || match s.ten ten with
    | some t => (match t.fab with | some f => f.wardId != 0 | none => false) && s.fget F.WARD_STATE_STATE [ten] == 1
    | none => false

/-- Puts a failed decode in the capture registers. -/
def State.decodeTake (s : State) (a info : Nat) : State :=
  let s := (s.rset .DECODE_ERR_ADDR [] (BitVec.ofNat 64 a)).rset .DECODE_ERR_INFO [] (BitVec.ofNat 64 info)
  { s with ridge := { s.ridge with decodeNs := s.now + 1 } }

/-- Captures a failed decode and logs it (R23, R25). Of two failures in one cclk while VALID was 0 the one with the lower
{SOURCE_TYPE, SOURCE_INDEX} is captured, and OVERFLOW is set for the other (R34). DESIGN CHOICE (assumption 5): device time is kept
in ns, and failures at one device time count as failures in one cclk. -/
def State.decodeFail (s : State) (i : Issuer) (k : AccKind) (a check : Nat) : State :=
  let info := 2 ^ 31 + check * 2 ^ 20 + k.num * 2 ^ 16 + i.src % 16 * 2 ^ 12 + i.idx % 2 ^ 12
  let held := (s.rget .DECODE_ERR_INFO []).toNat
  let s := if s.fget F.DECODE_ERR_INFO_VALID [] = 0 then s.decodeTake a info
    else if s.ridge.decodeNs = s.now + 1 && info % 2 ^ 16 < held % 2 ^ 16 then s.decodeTake a (info + 2 ^ 30)
    else s.fset F.DECODE_ERR_INFO_OVERFLOW [] 1
  s.chipEv 0x34 0 i.ten info

/-- The physical place of a checked address. -/
def State.placeOf (s : State) (ten a : Nat) (w : Win) : Place :=
  match w with
  | .t1 => .mem .t1 a
  | .t2 => .mem .t2 a
  | .square d off =>
    if ten = 0 then .mem (.square d) a
    else match s.lot ten d (off / 65536) with
      | some (p, _) => .mem (.square d) (squareBase d + p * 65536 + off % 65536)
      | none => .mem (.square d) a
  | .spad id off =>
    let b := if ten = 0 then id else match s.ten ten with
      | some t => (t.phys id).getD id
      | none => id
    .mem (.spad b) (spadBase b + off)
  | .ga d _ => .mem (.ga d) a
  | .resram d _ => .mem (.resram d) a
  | .ctl off => .ctl off
  | .t3 _ => .mem .t3 a
  | .rack m off =>
    if m = s.fget F.FAB_ID_MEMBER [] then
      match sliceLocal off with
      | some l => .mem (if l < t2Base then .t1 else .t2) l
      | none => .rack m off
    else .rack m off
  | .beyond r off => .beyond r off
  | .hole => .ctl 0

/-! ### Requests that the device addresses to itself (R358) -/

/-- Captures an event of the fabric in FAB_ERR (`k` = 0), OPM_ERR (1) or ALLEY_ERR (2). Device times that are equal count as one fclk
(assumption 5). -/
def State.fabCapture (s : State) (k : Nat) (valid ovf code : Fld) (c : Nat) (l : List (Fld × Nat)) : State :=
  let q := s.captureLow valid ovf code [] (KMap.get 0 s.fab.errNs k == s.now + 1) c l
  if q.1 then { q.2 with fab := { q.2.fab with errNs := KMap.set 0 q.2.fab.errNs k (s.now + 1) } } else q.2

/-- Captures and logs an event of the network (0xB4 to 0xBA); `port` 0x3F names local delivery or the source. -/
def State.fabErr (s : State) (code port reason src key : Nat) (ten : Nat := 0) : State :=
  let s := s.fabCapture 0 F.FAB_ERR_VALID F.FAB_ERR_OVERFLOW F.FAB_ERR_CODE code [(F.FAB_ERR_PORT, port),
    (F.FAB_ERR_REASON, reason), (F.FAB_ERR_SRC_ID, src), (F.FAB_ERR_PKEY, key)]
  s.chipEv code (if [0xB4, 0xB5, 0xB6].contains code then port else 0) ten (src % 2 ^ 16 * 2 ^ 16 + key % 2 ^ 16)

/-- Captures an event of the transaction layer in OPM_ERR. -/
def State.opmCapture (s : State) (code reason ten src key : Nat) : State :=
  s.fabCapture 1 F.OPM_ERR_VALID F.OPM_ERR_OVERFLOW F.OPM_ERR_CODE code [(F.OPM_ERR_REASON, reason), (F.OPM_ERR_TENANCY, ten),
    (F.OPM_ERR_SRC_ID, src), (F.OPM_ERR_KEY, key)]

/-- Captures and logs an event of the transaction layer (0xC0 to 0xCA). -/
def State.opmErr (s : State) (code reason ten src key : Nat) (unit : Nat := 0) : State :=
  (s.opmCapture code reason ten src key).chipEv code unit ten (src % 2 ^ 16 * 2 ^ 16 + key % 2 ^ 16)

/-- The device's own fabric ID. -/
def State.fabId (s : State) : Nat := (s.rget .FAB_ID []).toNat % 2 ^ 16

/-- Whether the device is in Transit (R344). -/
def State.inTransit (s : State) : Bool := s.fget F.FAB_ROLE_TRANSIT_NOW [] == 1

/-- Whether a key admits local delivery (R339). -/
def State.keyLocal (s : State) (key : Nat) : Bool :=
  key == 0xFFFF || (List.range 64).any fun i =>
    s.fget F.PKEY_VALID [i] == 1 && s.fget F.PKEY_KEY [i] == key && s.fget F.PKEY_LOCAL [i] == 1

/-- The key that a request of a Tenancy carries, or one made outside any Tenancy (R338). -/
def State.tenKey (s : State) (t : Nat) : Nat := if t = 0 then 0xFFFF else KMap.get 0 s.fab.pkeys t

/-- WARD_ID of a Tenancy, or 0. -/
def State.wardId (s : State) (t : Nat) : Nat := match (s.ten t).bind Ten.fab with | some f => f.wardId | none => 0

/-- WARD of a request (R356): WARD_ID and WARD_EPOCH, or zero outside any Tenancy. -/
def State.wardOf (s : State) (t : Nat) : Nat := if t = 0 then 0 else s.wardId t * 65536 + s.fget F.WARD_STATE_EPOCH [t]

/-- SEQ a is newer than b (R381). -/
def newer (a b : Nat) : Bool := let d := (a + 65536 - b % 65536) % 65536; 1 ≤ d && d ≤ 32767

/-- The Ward epoch check at the target (R389). -/
def State.targetWard (s : State) (ward src : Nat) : Nat × State :=
  let id := ward / 65536
  let e := ward % 65536
  if id != 0 && s.tenIds.any (fun t => s.wardId t == id && newer (s.fget F.WARD_STATE_EPOCH [t]) e) then
    (St.fenced, s.opmErr 0xC2 0 0 src id)
  else (St.ok, s)

/-- Checks 1 and 2 of R358 on a request that the device addresses to itself. -/
def State.selfAdmits (s : State) (key ten : Nat) : Nat × State :=
  if !s.keyLocal key then (St.pkeyDenied, s.fabErr 0xB4 0x3F 0 s.fabId key ten)
  else if s.inTransit then (St.unavailable, s)
  else (St.ok, s)

/-- The checks of R358 before the target tier's on an access to the device's own rack slice, whose address is mapped. -/
def State.sliceCheck (s : State) (ten : Nat) : Nat × State :=
  let q := s.selfAdmits (s.tenKey ten) ten
  if q.1 != 0 then q else q.2.targetWard (q.2.wardOf ten) q.2.fabId

/-- Checks 1 to 4 of R31 on an address, in order, and the place it leads to; an access to the device's own rack slice, which is served
here, then meets the checks of R358. A failed check logs its code. -/
def State.check (s : State) (i : Issuer) (k : AccKind) (a : Nat) : Nat × Option Place × State :=
  if 2 ^ 56 ≤ a then (St.addrWidth, none, s.decodeFail i k a 1)
  else
    let w := winOf a
    if !s.mapped i.ten w then (St.unmapped, none, s.decodeFail i k a 2)
    else if !s.inBounds i k a w then
      (St.bounds, none, s.raiseEv { code := 0x50, level := i.level, unit := i.unit, ten := i.ten })
    else
      let shared := match w with
        | .rack _ _ => true
        | .beyond _ _ => true
        | _ => false
      if shared && !s.wardOk i.ten then (St.fenced, none, s)
      else match w, s.placeOf i.ten a w with
        | .rack _ _, .mem t p =>
          let q := s.sliceCheck i.ten
          (q.1, if q.1 = 0 then some (.mem t p) else none, q.2)
        | _, pl => (St.ok, some pl, s)

/-! ### Mirrored ranges -/

/-- The T2 channel of an address (R266). -/
def t2Channel (a : Nat) : Nat := t2PageChannel ((a - t2Base) / 4096)

/-- Whether a T2 address lies on a retired channel. -/
def State.t2Gone (s : State) (a : Nat) : Bool := s.rtest .T2_RETIRED [] (t2Channel a)

/-- The enabled range whose data half or copy half holds a T2 offset, with the other half's offset. -/
def State.mirrorOf (s : State) (o : Nat) : Option (Nat × Bool × Nat) :=
  (List.range 16).findSome? fun r =>
    let base := s.fget F.T2_RANGE_BASE_BASE [r] * 4096
    let len := KMap.get 0 s.t2Len r * 4096
    if s.fget F.T2_RANGE_BASE_EN [r] = 1 && s.fget F.T2_RANGE_BASE_MIRROR [r] = 1 then
      if base ≤ o && o < base + len then some (r, false, o + len)
      else if base + len ≤ o && o < base + 2 * len then some (r, true, o - len)
      else none
    else none

/-- The copy that serves reads of the data half of a mirrored range: not while it is being filled, nor on a retired channel (R271). -/
def State.t2Copy (s : State) (a : Nat) : Option Nat :=
  match s.mirrorOf (a - t2Base) with
  | some (r, false, o) => if s.fget F.T2_RANGE_BASE_RESYNC [r] = 1 || s.t2Gone (t2Base + o) then none else some (t2Base + o)
  | _ => none

/-- ECC words of `w` bytes that a range covers, by first address. -/
def wordsOf (w a n : Nat) : List Nat := (List.range ((a + n + w - 1) / w - a / w)).map (fun i => (a / w + i) * w)

/-- The uncorrectable words of a range. -/
def State.badIn (s : State) (w a n : Nat) : List Nat := (wordsOf w a n).filter (fun x => KMap.get false s.badWords x)

/-- The correctable words of a range. -/
def State.weakIn (s : State) (w a n : Nat) : List Nat := (wordsOf w a n).filter (fun x => KMap.get false s.weakWords x)

/-- Where the device itself finds the ECC word of an address of T1 or T2: in the copy when the word's channel is retired, or when the
word is uncorrectable and that of the copy is not (R271). -/
def State.servedAt (s : State) (a : Nat) : Nat :=
  if a < t2Base then a
  else match s.t2Copy a with
    | some c => if s.t2Gone a || (KMap.get false s.badWords (a / 32 * 32) && !KMap.get false s.badWords (c / 32 * 32)) then c else a
    | none => a

/-- A 64-bit word as the device itself reads it. -/
def State.memWord (s : State) (a : Nat) : Nat := s.rawWord (s.servedAt a)

/-! ### Agent-state pages -/

/-- The state region that holds an address at its base addresses: its Tenancy, record and page. -/
def State.regionOf (s : State) (a : Nat) : Option (Nat × StateRegion × Nat) :=
  s.tenIds.findSome? fun t => match s.ten t with
    | some v => (v.regions.find? fun r => r.vbase ≤ a && a < r.vbase + r.pages * 4096).map
        fun r => (t, r, (a - r.vbase) / 4096)
    | none => none

/-- Whether an address lies in a shadow range or a region table, which software must not store to (R285). -/
def State.regionPrivate (s : State) (a : Nat) : Bool :=
  s.tenIds.any fun t => match s.ten t with
    | some v => v.regions.any fun r =>
        (r.shadow ≤ a && a < r.shadow + r.pages * 4096) || (r.table ≤ a && a < r.table + 8 + 8 * r.pages)
    | none => false

/-- The committed copy of a page (R283): 0 or 1. -/
def committedSide (entry cStep cAtt : Nat) : Nat :=
  let side := entry / 2 ^ 63 % 2
  let watt := entry / 2 ^ 47 % 2 ^ 16
  let wstep := entry % 2 ^ 47
  if wstep < cStep % 2 ^ 47 || (wstep = cStep % 2 ^ 47 && watt = cAtt) then side else 1 - side

/-- The address of an offset in one copy of a region. -/
def StateRegion.copyAddr (r : StateRegion) (side a : Nat) : Nat := if side = 0 then a else r.shadow + (a - r.vbase)

/-- Whether an access is made by the running step of a Tenancy. -/
def State.runningStep (s : State) (ten owner : Nat) : Option Run :=
  if ten = owner && s.tick.cur = owner then (s.run owner).filter (fun r => r.ended.isNone) else none

/-- The place a read of an agent-state page reaches (R283). -/
def State.redirectRead (s : State) (ten a : Nat) : Nat :=
  match s.regionOf a with
  | none => a
  | some (t, r, p) =>
    match s.ten t with
    | none => a
    | some v =>
      let e := s.memWord (r.table + 8 + 8 * p)
      let c := committedSide e v.cStep v.cAtt
      let side := match s.runningStep ten t with
        | some q => if e % 2 ^ 47 = q.step % 2 ^ 47 && e / 2 ^ 47 % 2 ^ 16 = q.attempt then e / 2 ^ 63 % 2 else c
        | none => c
      r.copyAddr side a

/-- Whether a range of device memory holds an uncorrectable word. -/
def State.anyBad (s : State) (a n : Nat) : Bool := s.badWords.any (fun p => a ≤ p.1 && p.1 < a + n && p.2)

/-- Whether a byte range is sealed (R465, R466). -/
def State.isSealed (s : State) (a n : Nat) : Bool :=
  s.sec.sealed.any (fun p => match p.2 with | some (b, l) => a < b + l && b < a + n | none => false)

/-! ### The tiers -/

/-- The T1 slot of an address (R259). -/
def t1Slot (a : Nat) : Nat :=
  let p := a / 4096
  (p % 256) ^^^ (p / 256 % 256) ^^^ (p / 65536 % 256) ^^^ (p / 16777216 % 8)

/-- The slot where a T1 page's data lies now: that of its migrated copy if it has one (R264). -/
def State.t1SlotNow (s : State) (a : Nat) : Nat :=
  match KMap.get 0 s.t1.moved (a / 4096) with
  | 0 => t1Slot a
  | p + 1 => t1Slot (p * 4096)

/-- The first address of the T1 reserve (R263). -/
def State.t1Top (s : State) : Nat := 0x6000000000 - s.t1.units * 0x60000000

/-- Corrected words are written back with good codes (R519). -/
def State.mend (s : State) (l : List Nat) : State :=
  { s with weakWords := l.foldl (fun m x => KMap.set false m x false) s.weakWords }

/-- Captures an event in an error register of the tiers: of two in one cclk while VALID was 0 the lower code stands, with OVERFLOW for
the other. `k` names the register: 0 to 3 HBM_ERR of a District, 4 T2_ERR, 5 FL_ERR. Device times that are equal count as one cclk
(assumption 5). -/
def State.tierCapture (s : State) (k : Nat) (valid ovf code : Fld) (ix : List Nat) (c : Nat) (fields : List (Fld × Nat)) : State :=
  let fields := (code, c) :: fields
  if s.fget valid ix = 0 then
    let s := s.capture valid ovf ix fields
    { s with t1 := { s.t1 with errNs := KMap.set 0 s.t1.errNs k (s.now + 1) } }
  else if KMap.get 0 s.t1.errNs k = s.now + 1 && c < s.fget code ix then (s.fsets ix fields).fset ovf ix 1
  else s.fset ovf ix 1

/-- Where the line of a T1 address lies: its own place, or that of its page's migrated copy (R264). -/
def State.t1Home (s : State) (a : Nat) : Nat :=
  match KMap.get 0 s.t1.moved (a / 4096) with
  | 0 => a
  | p + 1 => p * 4096 + a % 4096

/-- The DRAM row that holds a line at a place of T1, among those of its pseudo-channel and all pseudo-channels (R259, R262). The layout
of rows is not given: a free value. -/
def t1RowOf (h : Nat) : Nat := (t1Slot h * 2 + h / 128 % 2) + 512 * Config.t1Row (h / 128)

/-- T1 words that the controller has corrected: they are written back, and each is counted in HBM_ECC and towards the repair of its row
(R260, R418, R519). -/
def State.t1Corrected (s : State) (l : List Nat) : State :=
  l.foldl (fun s x =>
    let h := s.t1Home x
    ({ s with t1 := { s.t1 with rows := KMap.upd 0 s.t1.rows (t1RowOf h) (· + 1) } }).fsat F.HBM_ECC_CORRECTED
      [t1Slot h / 64, t1Slot h / 32 % 2] 1) (s.mend l)

/-- T2 words that a package has corrected: they are written back, and counted in T2_ECC (R268, R519). -/
def State.t2Corrected (s : State) (l : List Nat) : State :=
  if l.isEmpty then s else (s.mend l).fsat F.T2_ECC_CORRECTED [] l.length

/-- Counts and logs an uncorrectable T1 read at the line of an address (R260). -/
def State.t1Error (s : State) (ten a : Nat) : State :=
  let sl := s.t1SlotNow a
  let d := sl / 64
  let line := a / 128 * 128
  let s := s.fsat F.HBM_ECC_UNCORRECTED [d, sl / 32 % 2] 1
  let s := s.tierCapture d F.HBM_ERR_VALID F.HBM_ERR_OVERFLOW F.HBM_ERR_CODE [d] 0xA0
    [(F.HBM_ERR_SLOT, sl), (F.HBM_ERR_ADDR, line)]
  s.distEv 0xA0 d sl ten (line % 2 ^ 32)

/-- Counts and logs an uncorrectable T2 read (R268). -/
def State.t2Error (s : State) (ten a : Nat) (fromCopy : Bool) : State :=
  let ch := t2Channel a
  let o := (a - t2Base) / 128 * 128
  let s := s.fsat F.T2_ECC_UNCORRECTED [] 1
  let s := s.tierCapture 4 F.T2_ERR_VALID F.T2_ERR_OVERFLOW F.T2_ERR_CODE [] 0xA4
    [(F.T2_ERR_CHANNEL, ch), (F.T2_ERR_FROM_COPY, fromCopy.toNat), (F.T2_ERR_OFFSET, o)]
  s.chipEv 0xA4 ch ten (o % 2 ^ 32)

/-- A store that the device protects memory against (R270, R285, R466). -/
def State.protectedStore (s : State) (ten a : Nat) : State :=
  let t2 := t2Base ≤ a && a < 0x28000000000
  let o := (a - t2Base) / 128 * 128
  let s := if t2 then s.tierCapture 4 F.T2_ERR_VALID F.T2_ERR_OVERFLOW F.T2_ERR_CODE [] 0xA7
      [(F.T2_ERR_CHANNEL, t2Channel a), (F.T2_ERR_FROM_COPY, 0), (F.T2_ERR_OFFSET, o)]
    else s
  s.chipEv 0xA7 0 ten (if t2 then o % 2 ^ 32 else 0)

/-- Whether a T1 address is out of service: in the reserve, or on a slot retired beyond it (R263, R265). -/
def State.t1Gone (s : State) (a : Nat) : Bool := s.t1Top ≤ a || s.t1.lost.contains (s.t1SlotNow a)

/-- Reads bytes of T1, within one line. -/
def State.t1Read (s : State) (ten a n : Nat) : Nat × List Byte × State :=
  if s.t1Gone a then (St.targetRetired, [], s)
  else
    let s := s.t1Corrected (s.weakIn 32 a n)
    if (s.badIn 32 a n).isEmpty then (St.ok, s.rawRead a n, s) else (St.dataError, s.rawRead a n, s.t1Error ten a)

/-- A failing line of the data half is rewritten from the copy (R271): each word whose copy is good. -/
def State.t2Rewrite (s : State) (a c : Nat) : State :=
  (wordsOf 32 (a / 128 * 128) 128).foldl (fun s x =>
    if KMap.get false s.badWords (x - a / 128 * 128 + c / 128 * 128) then s
    else s.rawCopy (x - a / 128 * 128 + c / 128 * 128) x 32) s

/-- Reads bytes of T2, within one line: a line of the data half of a mirrored range that fails is served from the copy and rewritten,
and one on a retired channel is served from the copy (R271, R272). `linkBad` is a third link failure of the read (R268). -/
def State.t2Read (s : State) (ten a n : Nat) (linkBad : Bool := false) : Nat × List Byte × State :=
  let gone := s.t2Gone a
  let s := if gone then s else s.t2Corrected (s.weakIn 32 a n)
  if !gone && !linkBad && (s.badIn 32 a n).isEmpty then (St.ok, s.rawRead a n, s)
  else match s.t2Copy a with
    | none => if gone then (St.targetRetired, [], s) else (St.dataError, s.rawRead a n, s.t2Error ten a false)
    | some c =>
      let s := s.t2Corrected (if gone then s.weakIn 32 c n else s.weakIn 32 (c / 128 * 128) 128)
      if !(s.badIn 32 c n).isEmpty then
        (St.dataError, s.rawRead (if gone then c else a) n, s.t2Error ten (if gone then c else a) false)
      else if gone then (St.ok, s.rawRead c n, s.fsat F.T2_ECC_UNCORRECTED [] 1)
      else (St.ok, s.rawRead c n, (s.t2Rewrite a c).t2Error ten a true)

/-- Whether a write of `n` bytes covers a word of `w` bytes in part: such a word is read first (R258). -/
def partWord (w a n x : Nat) : Bool := !(a ≤ x && x + w ≤ a + n)

/-- Writes bytes over ECC words of `w` bytes: whole words take good codes, and a word that the bytes cover in part and whose read fails
keeps its old contents (R258). A read fails on an uncorrectable word, or with `linkBad` on its link. The flag tells whether a word was
kept. -/
def State.eccWrite (s : State) (w a : Nat) (l : List Byte) (linkBad : Bool := false) : Bool × State :=
  let n := l.length
  let kept := (wordsOf w a n).filter (fun x => partWord w a n x && (linkBad || KMap.get false s.badWords x))
  let full := (s.badIn w a n).filter (fun x => !partWord w a n x)
  let old := s
  let s := s.rawWrite a l
  let s := { s with badWords := full.foldl (fun m x => KMap.set false m x false) s.badWords }
  let s := s.mend (s.weakIn w a n)
  let s := kept.foldl (fun s x => s.rawWrite x (old.rawRead x w)) s
  (!kept.isEmpty, s)

/-- The correctable words that a write reads first. -/
def State.weakParts (s : State) (a n : Nat) : List Nat := (s.weakIn 32 a n).filter (partWord 32 a n)

/-- Writes bytes of T1, within one line. -/
def State.t1Write (s : State) (ten a : Nat) (l : List Byte) : Nat × State :=
  if s.t1Gone a then (St.targetRetired, s)
  else
    let p := (s.t1Corrected (s.weakParts a l.length)).eccWrite 32 a l
    if p.1 then (St.dataError, p.2.t1Error ten a) else (St.ok, p.2)

/-- Writes bytes at one place of T2; nothing is written on a retired channel. The flag tells whether a word was kept. -/
def State.t2Put (s : State) (a : Nat) (l : List Byte) (linkBad : Bool := false) : Bool × State :=
  if s.t2Gone a then (false, s) else (s.t2Corrected (s.weakParts a l.length)).eccWrite 32 a l linkBad

/-- Writes bytes of T2, within one line: both halves of a mirrored range, or the surviving one (R270, R272). A word of a half that is
covered in part and whose read fails keeps its contents there, and the write ends with DATA_ERROR (R258; assumption 77). -/
def State.t2Write (s : State) (ten a : Nat) (l : List Byte) (linkBad : Bool := false) : Nat × State :=
  match s.mirrorOf (a - t2Base) with
  | some (_, true, _) => (St.readOnly, s.protectedStore ten a)
  | some (_, false, o) =>
    let c := t2Base + o
    if s.t2Gone a && s.t2Gone c then (St.targetRetired, s)
    else
      let p := s.t2Put a l linkBad
      let q := p.2.t2Put c l
      if p.1 then (St.dataError, q.2.t2Error ten a false)
      else if q.1 then (St.dataError, q.2.t2Error ten c false)
      else (St.ok, q.2)
  | none =>
    if s.t2Gone a then (St.targetRetired, s)
    else
      let p := s.t2Put a l linkBad
      if p.1 then (St.dataError, p.2.t2Error ten a false) else (St.ok, p.2)

/-- Reads bytes of a line of T1 or T2 at their place. -/
def State.lineRead (s : State) (ten a n : Nat) : Nat × List Byte × State :=
  if a < t2Base then s.t1Read ten a n else s.t2Read ten a n

/-- Writes bytes of a line of T1 or T2 at their place. -/
def State.lineWrite (s : State) (ten a : Nat) (l : List Byte) (linkBad : Bool := false) : Nat × State :=
  if a < t2Base then s.t1Write ten a l else s.t2Write ten a l linkBad

/-! ### Writes of agent-state pages -/

/-- Writes deliberately uncorrectable codes at words of T1 or T2, in both halves of a mirrored range (R522). -/
def State.spoilWords (s : State) (l : List Nat) : State :=
  let both := l.flatMap (fun x => x :: (if x < t2Base then [] else
    match s.mirrorOf (x - t2Base) with | some (_, false, o) => [t2Base + o] | _ => []))
  { s with badWords := both.foldl (fun m x => KMap.set false m x true) s.badWords }

/-- The first-write copy of an agent-state page, line by line (R284). A word that the source holds uncorrectable is logged, and written
so (R522); the flag tells that one was met. -/
def State.copyPage (s : State) (ten src dst : Nat) : Bool × State :=
  (List.range 32).foldl (fun (acc : Bool × State) i =>
    let r := acc.2.lineRead ten (src + 128 * i) 128
    if r.1 = St.targetRetired then (acc.1, r.2.2)
    else
      let bad := (wordsOf 32 (src + 128 * i) 128).filter (fun x => r.1 != 0 && KMap.get false r.2.2.badWords (r.2.2.servedAt x))
      (acc.1 || r.1 != 0, (r.2.2.lineWrite ten (dst + 128 * i) r.2.1).2.spoilWords (bad.map (fun x => x - src + dst)))) (false, s)

/-- The place a write of `n` bytes to an agent-state page reaches, with the first write's copy and the new entry
(R284, R285), or `none` when the write is refused as READ_ONLY. The flag tells that the copy met an uncorrectable word,
which marks the step for replay (R522). -/
def State.redirectWrite (s : State) (i : Issuer) (a n : Nat) : Option (Nat × Bool × State) :=
  match s.regionOf a with
  | none => if s.regionPrivate a then none else some (a, false, s)
  | some (t, r, p) =>
    match s.ten t with
    | none => none
    | some v =>
      let ea := r.table + 8 + 8 * p
      let e := s.memWord ea
      let c := committedSide e v.cStep v.cAtt
      match s.runningStep i.ten t with
      | some q =>
        if e % 2 ^ 47 = q.step % 2 ^ 47 && e / 2 ^ 47 % 2 ^ 16 = q.attempt then
          some (r.copyAddr (e / 2 ^ 63 % 2) a, false, s)
        else
          let sh := 1 - c
          let pg := r.vbase + 4096 * p
          let m := if n < 4096 then s.copyPage i.ten (r.copyAddr c pg) (r.copyAddr sh pg) else (false, s)
          let s := (m.2.lineWrite i.ten ea (leBytes 8 (sh * 2 ^ 63 + q.attempt % 2 ^ 16 * 2 ^ 47 + q.step % 2 ^ 47))).2
          some (r.copyAddr sh a, m.1, s)
      | none =>
        if i.ten = 0 && i.src = 6 && (match v.run with | some q => q.ended.isSome | none => true) then
          some (r.copyAddr c a, false, s)
        else none

/-- The place that a write would reach. -/
def State.writeTarget (s : State) (i : Issuer) (a n : Nat) : Nat :=
  match s.redirectWrite i a n with
  | some r => r.1
  | none => a

/-- Whether an address lies in the copy half of a mirrored range. -/
def State.inCopyHalf (s : State) (a : Nat) : Bool :=
  t2Base ≤ a && match s.mirrorOf (a - t2Base) with | some (_, true, _) => true | _ => false

/-- Whether stores and atomics of a source to a place end with READ_ONLY: sealed memory, protected agent-state memory, or a copy half
(R270, R285, R466). -/
def State.writeBarred (s : State) (i : Issuer) (t : Tier) (a n : Nat) : Bool :=
  match t with
  | .t1 | .t2 => s.isSealed a n || (s.redirectWrite i a n).isNone || s.inCopyHalf (s.writeTarget i a n)
  | _ => false

/-- The place of a T3 byte by drive: that of its address in sliced mode (R292). -/
def State.t3Phys (s : State) (a : Nat) : Nat := let p := s.t3Map (a - t3Base); t3Base + p.1 * 2 ^ 45 + p.2

/-- Whether a T3 address lies on a failed drive; in striped mode one failed drive takes the striped part (R296). -/
def State.t3Failed (s : State) (a : Nat) : Bool :=
  let o := a - t3Base
  if s.t3Striped o then (List.range s.t3Drives).any (fun e => s.fget F.FL_DRIVE_FAILED [e] == 1)
  else s.fget F.FL_DRIVE_FAILED [(s.t3Map o).1] == 1

/-- An uncorrectable word of Square: the copy is being dropped, the error is counted, captured and logged (R251), and when its step
runs the Residency Manager stops (R248). -/
def State.squareError (s : State) (ten d a : Nat) : State :=
  let lot := (a - squareBase d) / 65536
  let own := (s.sq d).map.find? (fun p => p.2 == lot + 1)
  let owner := match own with | some p => p.1 / 4096 | none => 0
  let priv : Bool := match own, s.ten owner with
    | some p, some t => p.1 % 4096 < 32 * (t.desc.priv[d]?).getD 0
    | _, _ => false
  let s := s.fsat F.SQ_ECC_UNCORRECTED [d] 1
  let s := s.capture F.SQ_ERR_VALID F.SQ_ERR_OVERFLOW [d]
    [(F.SQ_ERR_PRIV, priv.toNat), (F.SQ_ERR_LOT, lot), (F.SQ_ERR_LINE, (a - squareBase d) % 65536 / 128)]
  let hit := fun (c : Copy) => match own with
    | some p => !priv && c.ten = owner && c.first ≤ p.1 % 4096 && p.1 % 4096 < c.first + c.lots
    | none => false
  let key := ((s.sq d).copies.find? hit).map Copy.key
  let at_ := match (s.rm d).serves.find? (fun x => key == some x.key) with | some x => (x.layer, x.expert) | none => (0, 0)
  let s := s.updSq d (fun q => { q with copies := q.copies.map (fun c => if hit c then { c with dropping := true } else c) })
  let s := (s.rmErr d 0x95 0 at_.1 at_.2).distEv 0x95 d lot ten
    (priv.toNat * 2 ^ 28 + lot * 65536 + (a - squareBase d) % 65536 / 128 * 128)
  if ten != 0 && ten == s.tick.cur then (s.rmStop d key).dropLead d ten else s

/-- Captures and logs an error of a Great Array (R173, R179): `index` is the list index of the entry concerned, or 0. -/
def State.gaErr (s : State) (d code reason index ten : Nat) (dataErr : Bool := false) : State :=
  (s.capture F.GA_ERR_VALID F.GA_ERR_OVERFLOW [d] [(F.GA_ERR_CODE, code), (F.GA_ERR_REASON, reason), (F.GA_ERR_INDEX, index)]).distEv
    code d 0 ten (index % 2 ^ 20) dataErr

/-- Captures a failure of a Routing Engine: of two in one cclk the lower code stands, with OVERFLOW for the other (R215). -/
def State.reErr (s : State) (d code reason detail : Nat) : State :=
  let e := (s.dist d).re
  let job := match e.running with | some r => r.index % 256 | none => 0
  let fields := [(F.RE_ERR_CODE, code), (F.RE_ERR_REASON, reason), (F.RE_ERR_JOB, job), (F.RE_ERR_DETAIL, detail)]
  if s.fget F.RE_ERR_VALID [d] = 0 then
    (s.capture F.RE_ERR_VALID F.RE_ERR_OVERFLOW [d] fields).updDist d (fun x => { x with re := { x.re with errNs := some s.now } })
  else if e.errNs = some s.now && code < s.fget F.RE_ERR_CODE [d] then (s.fsets [d] fields).fset F.RE_ERR_OVERFLOW [d] 1
  else s.fset F.RE_ERR_OVERFLOW [d] 1

/-- Logs an error that a read of an on-chip memory meets, by its tier. -/
def State.chipMemError (s : State) (ten : Nat) (t : Tier) (a : Nat) : State :=
  match t with
  | .square d => s.squareError ten d a
  | .spad b =>
    let off := a - spadBase b
    let code := if off < 0xC0000 then 0x66 else 0x67
    let tile := (off - 0xC0000) / 0x1000
    let was := s.rtest .BLK_POISON [b] tile
    let s := if off < 0xC0000 then s else s.rbit .BLK_POISON [b] tile true
    let s := s.capture F.BLK_ERR_VALID F.BLK_ERR_OVERFLOW [b] [(F.BLK_ERR_CODE, code), (F.BLK_ERR_ADDR, off)]
    let s := s.blkEv code b ten (off % 2 ^ 32)
    if off < 0xC0000 then s.blkPend b 6 else if was then s else s.blkPend b 5
  | .ga d =>
    let off := a - gaBase d
    if off < 0x1000000 then s.gaErr d 0x72 0 0 ten
    else (s.rbit .GA_POISON [d] ((off - 0x1000000) / 0x40000) true).gaErr d 0x73 0 0 ten
  | .resram d => (s.reErr d 0x82 0 0).distEv 0x82 d 0 ten
  | _ => s

/-- The Tenancy whose step an error belongs to that is met in an on-chip memory (R412): the reader's, or the one whose step's data
the memory holds. -/
def State.memOwner (s : State) (ten : Nat) (t : Tier) (a : Nat) : Nat :=
  if ten != 0 then ten
  else match t with
    | .spad b => s.stepOfBlock b
    | .ga d => s.stepOfDist d
    | .resram d => s.stepOfDist d
    | .square d =>
      match (s.sq d).map.find? (fun p => p.2 == (a - squareBase d) / 65536 + 1) with
      | some p => (match s.ten (p.1 / 4096) with | some v => if v.inStep then p.1 / 4096 else 0 | none => 0)
      | none => 0
    | _ => 0

/-- A read that reaches the Square controller (R239): a read of a line of a copy lot within 128 cclk of the first such read is combined
with it; reads of PRIV lots never combine. -/
def State.squareRead (s : State) (d a : Nat) : State :=
  match (s.sq d).map.find? (fun p => p.2 == (a - squareBase d) / 65536 + 1) with
  | some p =>
    if p.1 % 4096 < (match s.ten (p.1 / 4096) with | some t => 32 * (t.desc.priv[d]?).getD 0 | none => 0) then s
    else
      let q := (s.sq d).recent.filter (fun x => s.cclkSince x.2 ≤ 128)
      if q.any (fun x => x.1 == a / 128) then (s.updSq d (fun x => { x with recent := q })).fadd F.SQ_COMBINE_COUNT [d] 1
      else s.updSq d (fun x => { x with recent := q ++ [(a / 128, s.ridge.cycles)] })
  | none => s

/-- Counts the words that an on-chip memory has corrected. -/
def State.eccCount (s : State) (t : Tier) (n : Nat) : State :=
  if n = 0 then s
  else match t with
    | .square d => s.fsat F.SQ_ECC_CORRECTED [d] n
    | .ga d => s.fsat F.GA_STATUS_CORRECTED [d] n
    | .resram d => s.fsat F.RE_ECC_CORRECTED [d] n
    | _ => s

/-- A write of a Routing Engine's SRAM that meets the work area of its running job corrupts the job's outputs (R184). -/
def State.spoilJob (s : State) (d off n : Nat) : State :=
  match (s.dist d).re.running with
  | some r =>
    if overlap off n r.work.1 r.work.2 then
      (s.updDist d (fun x => { x with re := { x.re with running := some { r with spoil := some s.free } } })).tickFree
    else s
  | none => s

/-- Writes bytes of an on-chip memory. A word that they cover in part is read first: one that is uncorrectable keeps its contents, and
is an error as a read of it is; one that is corrected is counted (R258). -/
def State.chipWrite (s : State) (ten : Nat) (t : Tier) (a : Nat) (l : List Byte) : Nat × State :=
  let part := fun x => !(a ≤ x && x + 8 ≤ a + l.length)
  let s1 := (s.eccCount t ((s.weakIn 8 a l.length).filter part).length).eccWrite 8 a l
  match (s.badIn 8 a l.length).find? part with
  | none => (St.ok, s1.2)
  | some x => (St.dataError, s1.2.chipMemError (s.memOwner ten t a) t x)

/-- Reads bytes at a place, within one line: check 5 of R31. Square serves whole lines (R222, R251). -/
def State.tierRead (s : State) (ten : Nat) (t : Tier) (a n : Nat) : Nat × List Byte × State :=
  match t with
  | .t1 => let a := s.redirectRead ten a; s.t1Read ten a n
  | .t2 => let a := s.redirectRead ten a; s.t2Read ten a n
  | .t3 => if s.t3Failed a then (St.targetRetired, [], s) else (St.ok, s.rawRead (s.t3Phys a) n, s)
  | _ =>
    let s := match t with | .square d => s.squareRead d a | _ => s
    let w := match t with | .square _ => (a / 128 * 128, 128) | _ => (a, n)
    if (s.badIn 8 w.1 w.2).isEmpty then
      let weak := s.weakIn 8 w.1 w.2
      let s := if weak.isEmpty then s else (s.mend weak).eccCount t weak.length
      (St.ok, s.rawRead a n, s)
    else (St.dataError, s.rawRead a n, s.chipMemError (s.memOwner ten t a) t a)

/-- A write closes the combining entries whose range it meets (R366). -/
def State.closeComb (s : State) (a n : Nat) : State :=
  { s with fab := { s.fab with comb := s.fab.comb.map (fun e => if overlap e.phys e.len a n then { e with closed := true } else e) } }

/-- Writes bytes at a place, within one line: check 5 of R31. -/
def State.tierWrite (s : State) (i : Issuer) (t : Tier) (a : Nat) (l : List Byte) (linkBad : Bool := false) : Nat × State :=
  match t with
  | .t3 =>
    if s.t3Failed a then (St.targetRetired, s)
    else
      let d := (s.t3Map (a - t3Base)).1
      let lba := (s.t3Map (a - t3Base)).2 / 4096
      let s := s.tierCapture 5 F.FL_ERR_VALID F.FL_ERR_OVERFLOW F.FL_ERR_CODE [] 0xA8
        [(F.FL_ERR_DRIVE, d), (F.FL_ERR_NVME_STATUS, 0), (F.FL_ERR_LBA, lba)]
      (St.ioError, s.chipEv 0xA8 d i.ten (lba % 2 ^ 32))
  | .t1 | .t2 =>
    let s := s.closeComb a l.length
    if s.isSealed a l.length then (St.readOnly, s.protectedStore i.ten a)
    else match s.redirectWrite i a l.length with
      | none => (St.readOnly, s.protectedStore i.ten a)
      | some (p, bad, s) =>
        let s := if bad then (s.markReplay i.ten (if p < t2Base then 0xA0 else 0xA4) 0 0).replayLimit i.ten else s
        s.lineWrite i.ten p l linkBad
  | .resram d => (s.spoilJob d (a - reBase d) l.length).chipWrite i.ten t a l
  | _ => s.chipWrite i.ten t a l

/-- The pieces of a range, cut at 128 B lines. -/
def pieces (a n : Nat) : List (Nat × Nat) :=
  (List.range ((a + n + 127) / 128 - a / 128)).map fun i =>
    let lo := max a ((a / 128 + i) * 128)
    (lo, min (a + n) ((a / 128 + i + 1) * 128) - lo)

/-- Whether an access of `n` bytes is one that control registers accept: aligned, of 32 or 64 bits (R9). -/
def regShaped (off n : Nat) : Bool := (n = 4 || n = 8) && off % n = 0

/-- Reads a local range line by line; the first line that fails ends it with its status. A read that control registers do not
accept gives all ones and logs 0x32 (R9); another place that is not local memory ends it with ADDR_UNMAPPED. -/
def State.busRead (s : State) (i : Issuer) (k : AccKind) (a n : Nat) : Nat × List Byte × State :=
  (pieces a n).foldl (fun (acc : Nat × List Byte × State) p =>
    if acc.1 != 0 then acc
    else match acc.2.2.check i k p.1 with
      | (0, some (.mem t ph), s) =>
        let r := s.tierRead i.ten t ph p.2
        (r.1, acc.2.1 ++ r.2.1, r.2.2)
      | (0, some (.ctl off), s) =>
        if regShaped off p.2 then (St.unmapped, acc.2.1, s) else (0, acc.2.1 ++ List.replicate p.2 0xFF, s.chipEv 0x32)
      | (0, _, s) => (St.unmapped, acc.2.1, s)
      | (st, _, s) => (st, acc.2.1, s)) (0, [], s)

/-- Whether a write goes on to its next line: an uncorrectable word keeps its contents alone (R258); another failure ends the write. -/
def writeGoesOn (st : Nat) : Bool := st == 0 || st == St.dataError

/-- Writes a local range line by line; it ends with the status of the first line that fails. A write that control registers do not
accept has no effect and logs 0x32 (R9). -/
def State.busWrite (s : State) (i : Issuer) (k : AccKind) (a : Nat) (l : List Byte) : Nat × State :=
  (pieces a l.length).foldl (fun (acc : Nat × State) p =>
    if !writeGoesOn acc.1 then acc
    else
      let r := match acc.2.check i k p.1 with
        | (0, some (.mem t ph), s) => s.tierWrite i t ph ((l.drop (p.1 - a)).take p.2)
        | (0, some (.ctl off), s) => if regShaped off p.2 then (St.unmapped, s) else (0, s.chipEv 0x32)
        | (0, _, s) => (St.unmapped, s)
        | (st, _, s) => (st, s)
      (if acc.1 = 0 then r.1 else acc.1, r.2)) (0, s)

/-- A 64-bit word read from local memory, with its status. -/
def State.busWord (s : State) (i : Issuer) (k : AccKind) (a : Nat) : Nat × Nat × State :=
  let r := s.busRead i k a 8
  (r.1, leNat r.2.1, r.2.2)

end Sys2Proof.Machine
end

