-- ==== Sys2Proof/Machine/Numbers.lean ====
section
/-! DEFINITION. The number formats of the arrays and the vector unit (R122, R168): the exact value of an encoding, and rounding
an exact value once to nearest even. A finite value is a sign, a whole number and a power of two. -/

namespace Sys2Proof.Machine

/-- An exact value. The sign of a finite value matters when it is zero. -/
inductive Num where
  | nan
  | inf (neg : Bool)
  | fin (neg : Bool) (m : Nat) (e : Int)
  deriving DecidableEq, Repr

/-- A binary floating-point format: width, exponent and mantissa bits, bias, and its special values: 0 none, 1 one NaN and no
infinity, 2 as IEEE 754. -/
structure Fmt where
  w : Nat
  eb : Nat
  mb : Nat
  bias : Int
  special : Nat
  deriving DecidableEq, Repr

def fp32 : Fmt := ⟨32, 8, 23, 127, 2⟩
def bf16 : Fmt := ⟨16, 8, 7, 127, 2⟩
def fp16 : Fmt := ⟨16, 5, 10, 15, 2⟩
def e4m3 : Fmt := ⟨8, 4, 3, 7, 1⟩
def e5m2 : Fmt := ⟨8, 5, 2, 15, 2⟩
def e2m3 : Fmt := ⟨6, 2, 3, 1, 0⟩
def e3m2 : Fmt := ⟨6, 3, 2, 3, 0⟩
def e2m1 : Fmt := ⟨4, 2, 1, 1, 0⟩

/-- The format of a format code (R122); `none` for INT8 and the reserved codes. -/
def fmtOf : Nat → Option Fmt
  | 0 => some e4m3
  | 1 => some e5m2
  | 2 => some e4m3
  | 3 => some e5m2
  | 4 => some e2m3
  | 5 => some e3m2
  | 6 => some e2m1
  | 8 => some bf16
  | 9 => some fp16
  | _ => none

/-- Bits of an element of a format code (R168). -/
def fmtBits (c : Nat) : Nat := if c = 7 then 8 else match fmtOf c with | some f => f.w | none => 0

/-- Whether a format code has an E8M0 scale per 32 elements. -/
def fmtMx (c : Nat) : Bool := 2 ≤ c && c ≤ 6

/-- 2^e scaling of a whole number by a shift that may go either way; exact only for `0 ≤ e`. -/
def pow2Mul (m : Nat) (e : Int) : Nat := if 0 ≤ e then m * 2 ^ e.toNat else m / 2 ^ (-e).toNat

/-- The exact value of an encoding. -/
def Fmt.decode (f : Fmt) (v : Nat) : Num :=
  let neg := v.testBit (f.w - 1)
  let x := v / 2 ^ f.mb % 2 ^ f.eb
  let m := v % 2 ^ f.mb
  let top := 2 ^ f.eb - 1
  if f.special = 2 && x = top then (if m = 0 then .inf neg else .nan)
  else if f.special = 1 && x = top && m = 2 ^ f.mb - 1 then .nan
  else if x = 0 then .fin neg m (1 - f.bias - f.mb)
  else .fin neg (m + 2 ^ f.mb) (x - f.bias - f.mb)

/-- The largest finite encoding without its sign. -/
def Fmt.maxCode (f : Fmt) : Nat :=
  if f.special = 2 then (2 ^ f.eb - 1) * 2 ^ f.mb - 1
  else if f.special = 1 then 2 ^ (f.eb + f.mb) - 2
  else 2 ^ (f.eb + f.mb) - 1

def Fmt.sign (f : Fmt) (neg : Bool) : Nat := if neg then 2 ^ (f.w - 1) else 0

/-- The encoding of an infinity of a format that has one. -/
def Fmt.infCode (f : Fmt) (neg : Bool) : Nat := f.sign neg + (2 ^ f.eb - 1) * 2 ^ f.mb

/-- `m × 2^e` rounded to a whole number to nearest even; `sticky` tells that the exact value lies a little above `m`. -/
def roundHalfEven (m : Nat) (e : Int) (sticky : Bool) : Nat :=
  let m' := m * 4 + sticky.toNat
  let sh := 2 - e
  if sh ≤ 0 then m' * 2 ^ (-sh).toNat
  else
    let k := sh.toNat
    let n := m' / 2 ^ k
    let r := m' % 2 ^ k
    if 2 ^ (k - 1) < r || (r = 2 ^ (k - 1) && n % 2 = 1) then n + 1 else n

/-- What a rounding reports: the encoding, and whether it overflowed or underflowed. -/
structure Rounded where
  code : Nat
  ovf : Bool
  udf : Bool
  deriving DecidableEq, Repr

/-- Rounds a finite exact value once to nearest even, keeping subnormals. Beyond the range it becomes an infinity, or with
`sat` the largest finite value. -/
def Fmt.round (f : Fmt) (neg : Bool) (m : Nat) (e : Int) (sticky sat : Bool) : Rounded :=
  if m = 0 && !sticky then ⟨f.sign neg, false, false⟩
  else
    let lead := e + Nat.log2 m
    let tiny := m = 0 || lead < 1 - f.bias
    let q : Int := (if tiny then 1 - f.bias else lead) - f.mb
    let n := roundHalfEven m (e - q) sticky
    let code := (q + f.mb + f.bias - 1).toNat * 2 ^ f.mb + n
    let inexact := sticky || (e < q && m % 2 ^ (q - e).toNat != 0)
    if f.maxCode < code then
      ⟨if sat || f.special != 2 then f.sign neg + f.maxCode else f.infCode neg, true, false⟩
    else ⟨f.sign neg + code, false, tiny && inexact⟩

/-- A signed exact sum: `m × 2^e`. -/
structure Dy where
  m : Int
  e : Int
  deriving DecidableEq, Repr

def Dy.add (a b : Dy) : Dy :=
  let e := min a.e b.e
  ⟨a.m * 2 ^ (a.e - e).toNat + b.m * 2 ^ (b.e - e).toNat, e⟩

def Dy.neg (a : Dy) : Bool := a.m < 0

/-- The dyadic value of a finite number; zero for the rest. -/
def Num.dy : Num → Dy
  | .fin neg m e => ⟨if neg then -(m : Int) else m, e⟩
  | _ => ⟨0, 0⟩

def Num.isNan : Num → Bool
  | .nan => true
  | _ => false

def Num.isInf : Num → Bool
  | .inf _ => true
  | _ => false

def Num.neg : Num → Bool
  | .nan => false
  | .inf n => n
  | .fin n _ _ => n

def Num.isZero : Num → Bool
  | .fin _ 0 _ => true
  | _ => false

/-- The exact product; an infinity times zero is a NaN. -/
def Num.mul : Num → Num → Num
  | .nan, _ => .nan
  | _, .nan => .nan
  | .inf a, .inf b => .inf (a != b)
  | .inf a, .fin b m _ => if m = 0 then .nan else .inf (a != b)
  | .fin a m _, .inf b => if m = 0 then .nan else .inf (a != b)
  | .fin a m e, .fin b n k => .fin (a != b) (m * n) (e + k)

/-- The exact sum. A zero sum is negative only when both addends are negative zeros. -/
def Num.add : Num → Num → Num
  | .nan, _ => .nan
  | _, .nan => .nan
  | .inf a, .inf b => if a = b then .inf a else .nan
  | .inf a, .fin _ _ _ => .inf a
  | .fin _ _ _, .inf b => .inf b
  | .fin a m e, .fin b n k =>
    let d := (Num.fin a m e).dy.add (Num.fin b n k).dy
    if d.m = 0 then .fin (a && b && m = 0 && n = 0) 0 0 else .fin d.neg d.m.natAbs d.e

/-- The exact value times a power of two. -/
def Num.scale (x : Num) (k : Int) : Num :=
  match x with
  | .fin n m e => .fin n m (e + k)
  | x => x

def Num.negate : Num → Num
  | .nan => .nan
  | .inf n => .inf (!n)
  | .fin n m e => .fin (!n) m e

/-- Compares two numbers that are not NaN: whether the first is below the second as a value. -/
def Num.lt : Num → Num → Bool
  | .nan, _ => false
  | _, .nan => false
  | .inf a, .inf b => a && !b
  | .inf a, .fin _ _ _ => a
  | .fin _ _ _, .inf b => !b
  | .fin a m e, .fin b n k => let d := (Num.fin a m e).dy.add (Num.fin (!b) n k).dy; d.m < 0

/-- Equality of value. -/
def Num.eqv (a b : Num) : Bool := !a.isNan && !b.isNan && !a.lt b && !b.lt a

/-- An integer encoding of `w` bits, two's complement, as an exact value. -/
def intNum (w v : Nat) : Num := let i := toSigned w v; .fin (i < 0) i.natAbs 0

/-- A value rounded to a whole number to nearest even. -/
def Num.toInt : Num → Int
  | .fin neg m e => if neg then -(roundHalfEven m e false : Int) else roundHalfEven m e false
  | _ => 0

/-- The value of an element of a format code: INT8 elements are whole numbers. -/
def elemNum (c v : Nat) : Num := if c = 7 then intNum 8 v else match fmtOf c with | some f => f.decode v | none => .nan

/-- The value of an E8M0 scale, or a NaN (R168). -/
def e8m0 (v : Nat) : Num := if v = 0xFF then .nan else .fin false 1 (v - 127)

/-- A NaN of a format that has one: every bit that the format leaves open comes from `seed`. -/
def Fmt.nanCode (f : Fmt) (seed : Nat) : Nat :=
  f.sign (seed % 2 = 1) + (2 ^ f.eb - 1) * 2 ^ f.mb +
    (if f.special = 1 then 2 ^ f.mb - 1 else 1 + seed / 2 % (2 ^ f.mb - 1))

/-- Rounds to a format code with saturation, as CVT and CONVERT do (R127, R162). What the manual does not state is a free
value: the bits of a NaN, a NaN in a format without one, and whether an infinity saturates in a format that has infinities. -/
def encodeElem (c : Nat) (x : Num) : Nat :=
  match c, fmtOf c, x with
  | 7, _, .nan => Config.nanElem c % 256
  | 7, _, .inf neg => if neg then 0x80 else 127
  | 7, _, .fin _ _ _ =>
    let i := x.toInt
    (if i < -128 then 0x80 else if 127 < i then 127 else (i % 256).toNat)
  | _, some f, .nan => if f.special = 0 then Config.nanElem c % 2 ^ f.w else f.nanCode (Config.nanElem c)
  | _, some f, .inf neg => if f.special = 2 && !Config.infSaturates c then f.infCode neg else f.sign neg + f.maxCode
  | _, some f, .fin neg m e => (f.round neg m e false true).code
  | _, none, _ => 0

/-- Bits `[lo, lo + n)` of a byte list read as a little-endian number. -/
def bitField (l : List Byte) (lo n : Nat) : Nat := leNat ((l.drop (lo / 8)).take ((lo % 8 + n + 7) / 8)) / 2 ^ (lo % 8) % 2 ^ n

/-- The elements of `n` bytes of a byte list. -/
def elems (n : Nat) (l : List Byte) : List Nat := (List.range (l.length / n)).map (fun i => leNat ((l.drop (n * i)).take n))

end Sys2Proof.Machine
end

