-- ==== Sys2Proof/Machine/ArrayMath.lean ====
section
/-! DEFINITION. What a pass of a Block array or a Great Array computes (R120 to R124, R135, R154, R161, R168 to R171): where
its operand elements and scales lie, the terms of each output element, and the one rounding of R170. Shape codes of a Great
Array stand here as 16 (G256) and 17 (G512). -/

namespace Sys2Proof.Machine

/-- A ceiling division. -/
def cdiv (a b : Nat) : Nat := (a + b - 1) / b

/-- The length of a skewed line of `l` lanes of `w` bits (R135). -/
def skewPitch (l w : Nat) : Nat := 32 * cdiv (l * w) 256

/-- Lanes of the streamed operand A of a shape. -/
def shapeLanes (shape : Nat) : Nat := if shape = 1 || 16 ≤ shape then 64 else 32

/-- The pitch of the rows of B (R123, R154). -/
def Pass.pitchB (p : Pass) : Nat :=
  if 16 ≤ p.shape then 32 * fmtBits p.fmtB else skewPitch 32 (fmtBits p.fmtB)

/-- Stored rows of a stationary B: a Shingle operand stores 32. -/
def Pass.storedRows (p : Pass) : Nat :=
  if 16 ≤ p.shape then p.rows else if p.shape = 1 && !p.shingle then 64 else 32

/-- Scale groups G of A (R169). -/
def Pass.groupsA (p : Pass) : Nat := if p.shape = 3 then cdiv p.len 32 else cdiv p.rows 32

/-- Scale groups G of B: a Shingle B has 2, whatever the valid K (R169, R171). -/
def Pass.groupsB (p : Pass) : Nat := if p.shape != 3 && p.shingle then 2 else p.groupsA

/-- The regions of a pass in its operand store, as (offset, bytes) (R123, R161, R169, R171). -/
def Pass.regions (p : Pass) : List (Nat × Nat) :=
  let lines := p.len + shapeLanes p.shape - 1
  let pa := skewPitch (shapeLanes p.shape) (fmtBits p.fmtA)
  let a := if 16 ≤ p.shape then (List.range (cdiv p.rows 64)).map (fun j => (p.a + j * p.gstride * 4096, lines * pa))
    else [(p.a, lines * pa)]
  let b := if p.shape = 3 then [(p.b, (p.len + 31) * skewPitch 32 (fmtBits p.fmtB))]
    else [(p.b, p.storedRows * p.pitchB + (if p.shingle then 256 else 0))]
  let sa := if fmtMx p.fmtA then [(p.scaleA, (if p.shape = 3 then p.rows else p.len) * p.groupsA)] else []
  let sb := if fmtMx p.fmtB then [(p.scaleB, p.cols * p.groupsB)] else []
  a ++ b ++ sa ++ sb

/-- The tiles that a pass writes. -/
def Pass.tiles (p : Pass) : List Nat :=
  (List.range (if p.shape = 3 then 1 else cdiv p.len (if 16 ≤ p.shape then 256 else 32))).map (· + p.acc)

/-- Element of A: row or lane `k` at step `s`, by the byte reader of the operand store. -/
def Pass.elemA (p : Pass) (rd : Nat → Nat → List Byte) (s k : Nat) : Num :=
  let w := fmtBits p.fmtA
  let l := shapeLanes p.shape
  let base := p.a + (if 16 ≤ p.shape then k / 64 * p.gstride * 4096 else 0)
  let lane := k % l
  elemNum p.fmtA (bitField (rd (base + (s + lane) * skewPitch l w) (skewPitch l w)) (lane * w) w)

/-- Element of B for K row `k` and column `n`. -/
def Pass.elemB (p : Pass) (rd : Nat → Nat → List Byte) (k n : Nat) : Num :=
  let w := fmtBits p.fmtB
  let at_ := fun row col => elemNum p.fmtB (bitField (rd (p.b + row * p.pitchB) p.pitchB) (col * w) w)
  if p.shape = 2 then at_ n k
  else if p.shape = 3 then elemNum p.fmtB (bitField (rd (p.b + (k + n) * skewPitch 32 w) (skewPitch 32 w)) (n * w) w)
  else at_ k n

/-- The MX scale of an operand, or 1. -/
def mxScale (fmt base idx : Nat) (rd : Nat → Nat → List Byte) : Num :=
  if fmtMx fmt then e8m0 (leNat (rd (base + idx) 1)) else .fin false 1 0

/-- The scaled products of output row `i` and column `n`, each exact (R170, R171). For OS32 the row is a lane of A and K is
the step. -/
def Pass.terms (p : Pass) (rd : Nat → Nat → List Byte) (i n : Nat) : List Num :=
  let scaled := fun (a b : Num) (ia ib : Nat) =>
    let sa := mxScale p.fmtA p.scaleA ia rd
    let sb := mxScale p.fmtB p.scaleB ib rd
    (a.mul b).mul (sa.mul sb)
  let ia := fun k => i * p.groupsA + k / 32
  let ib := fun k => n * p.groupsB + k / 32
  if p.shape = 3 then (List.range p.len).map fun k => scaled (p.elemA rd k i) (p.elemB rd k n) (ia k) (ib k)
  else if p.shingle then
    (List.range 32).filterMap fun j =>
      let idx := leNat (rd (p.b + 32 * p.pitchB + 8 * j) 8) / 4 ^ n % 4
      let k := 4 * (j / 2) + idx
      if k < p.rows then some (scaled (p.elemA rd i k) (p.elemB rd j n) (ia k) (ib k)) else none
  else (List.range p.rows).map fun k => scaled (p.elemA rd i k) (p.elemB rd k n) (ia k) (ib k)

/-- One output element: the exact sum of its terms and of the old value, rounded once (R170). -/
def passElem (terms : List Num) (old : Nat) (accum : Bool) : Nat :=
  let sum := terms.foldl Num.add (.fin true 0 0)
  match sum with
  | .nan => 0x7FC00000
  | _ =>
    let o := if accum then fp32.decode old else .fin false 0 0
    if o.isNan then fp32.nanCode (Config.nanBits [old])
    else match sum.add o with
      | .nan => 0x7FC00000
      | .inf neg => fp32.infCode neg
      | .fin neg m e => (fp32.round neg m e false false).code

/-- The offset of FP32 element (row, column) of the output of a pass, from the base of its accumulator (R114). -/
def Pass.outOff (p : Pass) (i n : Nat) : Nat :=
  if 16 ≤ p.shape then (p.acc + i / 256) * 0x40000 + i % 256 * 1024 + n * 4
  else if p.shape = 3 then p.acc * 0x1000 + i * 128 + n * 4
  else (p.acc + i / 32) * 0x1000 + i % 32 * 128 + n * 4

/-- Output rows of a pass. -/
def Pass.outRows (p : Pass) : Nat := if p.shape = 3 then p.rows else p.len

/-- The rows of results of a pass with their offsets in the accumulator, from the byte readers of the operand store and of the
accumulator. -/
def Pass.results (p : Pass) (rd acc : Nat → Nat → List Byte) : List (Nat × List Byte) :=
  (List.range p.outRows).map fun i => (p.outOff i 0, (List.range p.cols).flatMap fun n =>
    leBytes 4 (passElem (p.terms rd i n) (leNat (acc (p.outOff i n) 4)) p.accum))

/-- The words with an uncorrectable error of the regions of a pass whose operand store lies at `base`. -/
def State.regionBads (s : State) (base : Nat) (p : Pass) : List Nat := p.regions.flatMap (fun r => s.badIn 8 (base + r.1) r.2)

/-- The words with an uncorrectable error that a pass has read: `late` names the lines that it read as they are now (R153, R173). -/
def State.passBads (s : State) (base : Nat) (p : Pass) (late : List Nat) : List Nat :=
  let isLate := fun x => late.contains ((x - base) / 128)
  p.bad.filter (fun x => !isLate x) ++ (s.regionBads base p).filter isLate

/-- The words of the old results with a parity error, for a pass that adds to them. -/
def State.oldBads (s : State) (base : Nat) (p : Pass) (out : List (Nat × List Byte)) : List Nat :=
  if p.accum then out.flatMap (fun r => s.badIn 8 (base + r.1) r.2.length) else []

/-! ### Microscaling (R127 MXQ, R162) -/

/-- The exponent of the largest power of two in an MX element format. -/
def mxEmax : Nat → Int
  | 2 => 8
  | 3 => 15
  | 4 => 2
  | 5 => 4
  | _ => 2

/-- The E8M0 scale of a group by the OCP microscaling rule: the exponent of the largest magnitude less that of the largest
element, within E8M0. The rule states none for a group of zeros, or one with a NaN or an infinity: a free value. -/
def mxGroupScale (c : Nat) (l : List Num) : Nat :=
  if l.any (fun x => x.isNan || x.isInf) then Config.mxOpenScale c 1 % 256
  else
    let lead := fun (x : Num) => match x with
      | .fin _ m e => if m = 0 then none else some (e + (Nat.log2 m : Int))
      | _ => none
    match l.filterMap lead with
    | [] => Config.mxOpenScale c 0 % 256
    | a :: t => (max (min (t.foldl max a - mxEmax c + 127) 254) 0).toNat

/-- An element of a group, divided by its scale and rounded with saturation. -/
def mxElem (c scale : Nat) (x : Num) : Nat := encodeElem c (x.scale (127 - (scale : Int)))

/-- Packs codes of `w` bits into bytes, low elements first. -/
def packBits (w : Nat) (l : List Nat) : List Byte :=
  let v := l.zipIdx.foldl (fun a p => a + p.1 * 2 ^ (p.2 * w)) 0
  leBytes ((l.length * w + 7) / 8) v

end Sys2Proof.Machine
end

