-- ==== Sys2Proof/Machine/Buckets.lean ====
section
/-! DEFINITION. The token buckets of the memory shapers (R298 to R301), the port shapers (R374) and the source buckets (R375):
one set of operations over their CFG, STATE and SAMPLE registers, whose bits agree. -/

namespace Sys2Proof.Machine

/-- A bucket: of a memory shaper set, of a port on a VC 1 to 3, or of a source set. -/
inductive Bucket where
  | mem (set q : Nat)
  | port (p v : Nat)
  | src (set q : Nat)
  deriving DecidableEq, Repr

def Bucket.cfg : Bucket → RegName
  | .mem _ _ => .SHP_CFG
  | .port _ _ => .PSHP_CFG
  | .src _ _ => .SSHP_CFG

def Bucket.state : Bucket → RegName
  | .mem _ _ => .SHP_STATE
  | .port _ _ => .PSHP_STATE
  | .src _ _ => .SSHP_STATE

def Bucket.sample : Bucket → RegName
  | .mem _ _ => .SHP_SAMPLE
  | .port _ _ => .PSHP_SAMPLE
  | .src _ _ => .SSHP_SAMPLE

def Bucket.ix : Bucket → List Nat
  | .mem s q => [s, q]
  | .port p v => [p, v]
  | .src s q => [s, q]

def Bucket.key (b : Bucket) : Nat := b.cfg.addr b.ix

def State.bucketEn (s : State) (b : Bucket) : Bool := s.rtest b.cfg b.ix 44

/-- The signed token count. -/
def State.tokens (s : State) (b : Bucket) : Int := toSigned 32 (s.fget ⟨b.state, 31, 0⟩ b.ix)

def State.setTokens (s : State) (b : Bucket) (n : Int) : State := s.fset ⟨b.state, 31, 0⟩ b.ix (n % 2 ^ 32).toNat

/-- A request may issue: the count is zero or more, or the bucket does not shape (R299). -/
def State.bucketOpen (s : State) (b : Bucket) : Bool := !s.bucketEn b || 0 ≤ s.tokens b

/-- Whether a bucket was configured in this cclk: its count then stays at what the configuration set (R300). Device times that are equal
count as one cclk (assumption 5). -/
def State.bucketFixed (s : State) (b : Bucket) : Bool := KMap.get 0 s.shp.cfgNs b.key == s.now + 1

/-- A request of `n` units of 64 B issues (R299). -/
def State.bucketCharge (s : State) (b : Bucket) (n : Nat) : State :=
  if s.bucketEn b && !s.bucketFixed b then s.setTokens b (s.tokens b - n) else s

/-- One refill of 62.5 ns: a sixteenth of RATE, with the remainder kept, held at BURST (R299). -/
def State.bucketRefill (s : State) (b : Bucket) : State :=
  let rate := s.fget ⟨b.cfg, 43, 20⟩ b.ix
  if rate = 0 || s.bucketFixed b then s
  else
    let f := KMap.get 0 s.shp.frac b.key + rate
    let s := { s with shp := { s.shp with frac := KMap.set 0 s.shp.frac b.key (f % 16) } }
    s.setTokens b (min (s.tokens b + (f / 16 : Nat)) (s.fget ⟨b.cfg, 19, 0⟩ b.ix))

/-- A configuration takes effect: the count becomes BURST or zero by RESET_FILL (R300). -/
def State.bucketConfig (s : State) (b : Bucket) (v : Nat) : State :=
  let s := s.rset b.cfg b.ix (BitVec.ofNat 64 v)
  let s := { s with shp := { s.shp with cfgNs := KMap.set 0 s.shp.cfgNs b.key (s.now + 1) } }
  s.setTokens b (if v.testBit 45 then (bits v 19 0 : Nat) else (0 : Nat))

/-- A waiting queue of a bucket grew to `depth`. -/
def State.bucketDepth (s : State) (b : Bucket) (depth : Nat) : State :=
  { s with shp := { s.shp with peak := KMap.upd 0 s.shp.peak b.key (fun p => max p depth) } }

/-- A request that waited `ns` left the queue of a bucket. -/
def State.bucketDelay (s : State) (b : Bucket) (ns : Nat) : State :=
  { s with shp := { s.shp with delay := KMap.upd 0 s.shp.delay b.key (fun p => max p ns) } }

/-- A sample point (R301): the peaks of the interval are recorded and start again. -/
def State.bucketSample (s : State) (b : Bucket) (depth : Nat) : State :=
  let s := s.fsets b.ix [(⟨b.sample, 63, 48⟩, min 0xFFFF (KMap.get 0 s.shp.peak b.key)),
    (⟨b.sample, 47, 32⟩, min 0xFFFF depth), (⟨b.sample, 31, 0⟩, min 0xFFFFFFFF (KMap.get 0 s.shp.delay b.key))]
  { s with shp := { s.shp with peak := KMap.set 0 s.shp.peak b.key depth, delay := KMap.set 0 s.shp.delay b.key 0 } }

/-- Every bucket of the device. -/
def allBuckets : List Bucket :=
  ((List.range' 1 63).flatMap fun s => (List.range 3).map (Bucket.mem s)) ++
    ((List.range 36).flatMap fun p => (List.range' 1 3).map (Bucket.port p)) ++
    ((List.range' 1 63).flatMap fun s => (List.range 2).map (Bucket.src s))

/-! ### Memory shapers -/

/-- The bucket that shapes a request, if one does (R298): a tier of the set that the Tenancy names. -/
def State.shapeBucket (s : State) (i : Issuer) (t : Tier) : Option Bucket :=
  let set := match s.ten i.ten with | some v => v.desc.shaper | none => 0
  if i.ten = 0 || i.src = 7 || set = 0 then none
  else match t with
    | .t1 => some (.mem set 0)
    | .t2 => some (.mem set 1)
    | .t3 => some (.mem set 2)
    | _ => none

/-- Bytes that a request moves in its tier (R299): a mirrored write counts twice, by the copy that it
reaches (R284), T3 counts 4 KiB for each logical block. -/
def State.shapeBytes (s : State) (i : Issuer) (t : Tier) (a n : Nat) (wr : Bool) : Nat :=
  match t with
  | .t3 => 4096 * ((a + n + 4095) / 4096 - a / 4096)
  | .t2 => if wr && (s.mirrorOf (s.writeTarget i a n - t2Base)).isSome then 2 * n else n
  | _ => n

/-- The waiting requests of a bucket, oldest first. -/
def State.shapeQueue (s : State) (set q : Nat) : List ShapedReq := s.shp.waiting.filter (fun r => r.set == set && r.queue == q)

/-- A request that its queue has let go is made. -/
def State.shapeTaken (s : State) (key : Nat) : State :=
  { s with shp := { s.shp with issued := s.shp.issued.filter (fun p => p.1 != key) } }

/-- A request asks to issue (R299). It issues at once when none waits before it and the count allows it; otherwise it waits in
its queue until SHAPER_ISSUE lets it go. -/
def State.shaped (s : State) (i : Issuer) (t : Tier) (a n : Nat) (wr : Bool) (key : Nat) : Bool × State :=
  match s.shapeBucket i t with
  | some (.mem set q) =>
    let b := Bucket.mem set q
    let bytes := s.shapeBytes i t a n wr
    if s.shp.issued.any (fun p => p.1 == key) then
      (true, s.shapeTaken key)
    else if s.shp.waiting.any (fun r => r.key == key) then (false, s)
    else if (s.shapeQueue set q).isEmpty && s.bucketOpen b then (true, s.bucketCharge b ((bytes + 63) / 64))
    else
      let r : ShapedReq := { set := set, queue := q, bytes := bytes, ten := i.ten, enterNs := s.now, key := key }
      let s := { s with shp := { s.shp with waiting := s.shp.waiting ++ [r] } }
      (false, s.bucketDepth b (s.shapeQueue set q).length)
  | _ => (true, s)

/-- A request leaves its queue unmade, or has been let go. -/
def State.shapeGone (s : State) (key : Nat) : State :=
  let s := s.shapeTaken key
  { s with shp := { s.shp with waiting := s.shp.waiting.filter (fun r => r.key != key) } }

/-- Whether a request would issue at once (R299): nothing waits before it, and the count allows it. -/
def State.shapeFree (s : State) (i : Issuer) (t : Tier) : Bool :=
  match s.shapeBucket i t with
  | some (.mem set q) => (s.shapeQueue set q).isEmpty && s.bucketOpen (.mem set q)
  | _ => true

end Sys2Proof.Machine
end

