-- ==== Sys2Proof/Machine/Sha.lean ====
section
/-! DEFINITION. The hash functions that the manual names: SHA-256 for result digests (R465, R467) and SHA-384 for firmware,
keys and role challenges (R472, R474, R495). Both are those of FIPS 180-4, which the manual only names (PRESUMED,
assumption 159). -/

namespace Sys2Proof.Machine

/-- The numbers in which the two functions differ: word size in bits, rotations of the two message and the two round functions,
and rounds. -/
structure ShaKind where
  w : Nat
  rounds : Nat
  m0 : Nat × Nat × Nat
  m1 : Nat × Nat × Nat
  r0 : Nat × Nat × Nat
  r1 : Nat × Nat × Nat
  k : List Nat
  init : List Nat
  deriving DecidableEq, Repr

/-- Rotation to the right of a `w`-bit word. -/
def rotr (w n v : Nat) : Nat := (v >>> n) ||| (v <<< (w - n)) % 2 ^ w

/-- Two rotations and a shift. -/
def shaSmall (w : Nat) (p : Nat × Nat × Nat) (v : Nat) : Nat := rotr w p.1 v ^^^ rotr w p.2.1 v ^^^ (v >>> p.2.2)

/-- Three rotations. -/
def shaBig (w : Nat) (p : Nat × Nat × Nat) (v : Nat) : Nat := rotr w p.1 v ^^^ rotr w p.2.1 v ^^^ rotr w p.2.2 v

/-- The message schedule, newest word first. -/
def shaSchedule (c : ShaKind) : Nat → List Nat → List Nat
  | 0, l => l
  | n + 1, l =>
    let g := fun i => (l[i]?).getD 0
    shaSchedule c n (((shaSmall c.w c.m1 (g 1) + g 6 + shaSmall c.w c.m0 (g 14) + g 15) % 2 ^ c.w) :: l)

/-- One round. -/
def shaRound (c : ShaKind) (st : List Nat) (kw : Nat × Nat) : List Nat :=
  match st with
  | [a, b, d, e, f, g, h, i] =>
    let ch := (f &&& g) ^^^ ((2 ^ c.w - 1 - f) &&& h)
    let maj := (a &&& b) ^^^ (a &&& d) ^^^ (b &&& d)
    let t1 := i + shaBig c.w c.r1 f + ch + kw.1 + kw.2
    let t2 := shaBig c.w c.r0 a + maj
    [(t1 + t2) % 2 ^ c.w, a, b, d, (e + t1) % 2 ^ c.w, f, g, h]
  | l => l

/-- One block, as its sixteen words. -/
def shaBlock (c : ShaKind) (st ws : List Nat) : List Nat :=
  let sched := (shaSchedule c (c.rounds - 16) ws.reverse).reverse
  let out := (c.k.zip sched).foldl (shaRound c) st
  (st.zip out).map (fun p => (p.1 + p.2) % 2 ^ c.w)

/-- Bytes cut into big-endian words. -/
def beWords (n : Nat) : Nat → List Byte → List Nat
  | 0, _ => []
  | k + 1, l => beNat (l.take n) :: beWords n k (l.drop n)

/-- The blocks of a padded message. -/
def shaBlocks (c : ShaKind) : Nat → List Nat → List Byte → List Nat
  | 0, st, _ => st
  | n + 1, st, l => shaBlocks c n (shaBlock c st (beWords (c.w / 8) 16 l)) (l.drop (2 * c.w))

/-- The padded message. -/
def shaPad (c : ShaKind) (l : List Byte) : List Byte :=
  let bs := 2 * c.w
  let lenBytes := c.w / 4
  let zeros := (bs - (l.length + 1 + lenBytes) % bs) % bs
  l ++ [0x80] ++ List.replicate zeros 0 ++ beBytes lenBytes (8 * l.length)

/-- The words of the hash of a message. -/
def shaWords (c : ShaKind) (l : List Byte) : List Nat :=
  let m := shaPad c l
  shaBlocks c (m.length / (2 * c.w)) c.init m

def sha256Kind : ShaKind where
  w := 32
  rounds := 64
  m0 := (7, 18, 3)
  m1 := (17, 19, 10)
  r0 := (2, 13, 22)
  r1 := (6, 11, 25)
  k := [0x428A2F98, 0x71374491, 0xB5C0FBCF, 0xE9B5DBA5, 0x3956C25B, 0x59F111F1, 0x923F82A4, 0xAB1C5ED5,
   0xD807AA98, 0x12835B01, 0x243185BE, 0x550C7DC3, 0x72BE5D74, 0x80DEB1FE, 0x9BDC06A7, 0xC19BF174,
   0xE49B69C1, 0xEFBE4786, 0x0FC19DC6, 0x240CA1CC, 0x2DE92C6F, 0x4A7484AA, 0x5CB0A9DC, 0x76F988DA,
   0x983E5152, 0xA831C66D, 0xB00327C8, 0xBF597FC7, 0xC6E00BF3, 0xD5A79147, 0x06CA6351, 0x14292967,
   0x27B70A85, 0x2E1B2138, 0x4D2C6DFC, 0x53380D13, 0x650A7354, 0x766A0ABB, 0x81C2C92E, 0x92722C85,
   0xA2BFE8A1, 0xA81A664B, 0xC24B8B70, 0xC76C51A3, 0xD192E819, 0xD6990624, 0xF40E3585, 0x106AA070,
   0x19A4C116, 0x1E376C08, 0x2748774C, 0x34B0BCB5, 0x391C0CB3, 0x4ED8AA4A, 0x5B9CCA4F, 0x682E6FF3,
   0x748F82EE, 0x78A5636F, 0x84C87814, 0x8CC70208, 0x90BEFFFA, 0xA4506CEB, 0xBEF9A3F7, 0xC67178F2]
  init := [0x6A09E667, 0xBB67AE85, 0x3C6EF372, 0xA54FF53A, 0x510E527F, 0x9B05688C, 0x1F83D9AB, 0x5BE0CD19]

/-- The first and the second half of the round constants of SHA-384. -/
def sha384K0 : List Nat := [0x428A2F98D728AE22, 0x7137449123EF65CD, 0xB5C0FBCFEC4D3B2F, 0xE9B5DBA58189DBBC,
   0x3956C25BF348B538, 0x59F111F1B605D019, 0x923F82A4AF194F9B, 0xAB1C5ED5DA6D8118,
   0xD807AA98A3030242, 0x12835B0145706FBE, 0x243185BE4EE4B28C, 0x550C7DC3D5FFB4E2,
   0x72BE5D74F27B896F, 0x80DEB1FE3B1696B1, 0x9BDC06A725C71235, 0xC19BF174CF692694,
   0xE49B69C19EF14AD2, 0xEFBE4786384F25E3, 0x0FC19DC68B8CD5B5, 0x240CA1CC77AC9C65,
   0x2DE92C6F592B0275, 0x4A7484AA6EA6E483, 0x5CB0A9DCBD41FBD4, 0x76F988DA831153B5,
   0x983E5152EE66DFAB, 0xA831C66D2DB43210, 0xB00327C898FB213F, 0xBF597FC7BEEF0EE4,
   0xC6E00BF33DA88FC2, 0xD5A79147930AA725, 0x06CA6351E003826F, 0x142929670A0E6E70,
   0x27B70A8546D22FFC, 0x2E1B21385C26C926, 0x4D2C6DFC5AC42AED, 0x53380D139D95B3DF,
   0x650A73548BAF63DE, 0x766A0ABB3C77B2A8, 0x81C2C92E47EDAEE6, 0x92722C851482353B]

def sha384K1 : List Nat := [0xA2BFE8A14CF10364, 0xA81A664BBC423001, 0xC24B8B70D0F89791, 0xC76C51A30654BE30,
   0xD192E819D6EF5218, 0xD69906245565A910, 0xF40E35855771202A, 0x106AA07032BBD1B8,
   0x19A4C116B8D2D0C8, 0x1E376C085141AB53, 0x2748774CDF8EEB99, 0x34B0BCB5E19B48A8,
   0x391C0CB3C5C95A63, 0x4ED8AA4AE3418ACB, 0x5B9CCA4F7763E373, 0x682E6FF3D6B2B8A3,
   0x748F82EE5DEFB2FC, 0x78A5636F43172F60, 0x84C87814A1F0AB72, 0x8CC702081A6439EC,
   0x90BEFFFA23631E28, 0xA4506CEBDE82BDE9, 0xBEF9A3F7B2C67915, 0xC67178F2E372532B,
   0xCA273ECEEA26619C, 0xD186B8C721C0C207, 0xEADA7DD6CDE0EB1E, 0xF57D4F7FEE6ED178,
   0x06F067AA72176FBA, 0x0A637DC5A2C898A6, 0x113F9804BEF90DAE, 0x1B710B35131C471B,
   0x28DB77F523047D84, 0x32CAAB7B40C72493, 0x3C9EBE0A15C9BEBC, 0x431D67C49C100D4C,
   0x4CC5D4BECB3E42B6, 0x597F299CFC657E2A, 0x5FCB6FAB3AD6FAEC, 0x6C44198C4A475817]

def sha384Kind : ShaKind where
  w := 64
  rounds := 80
  m0 := (1, 8, 7)
  m1 := (19, 61, 6)
  r0 := (28, 34, 39)
  r1 := (14, 18, 41)
  k := sha384K0 ++ sha384K1
  init := [0xCBBB9D5DC1059ED8, 0x629A292A367CD507, 0x9159015A3070DD17, 0x152FECD8F70E5939,
   0x67332667FFC00B31, 0x8EB44A8768581511, 0xDB0C2E0D64F98FA7, 0x47B5481DBEFA4FA4]

/-- SHA-256: 32 bytes. -/
def sha256 (l : List Byte) : List Byte := (shaWords sha256Kind l).flatMap (beBytes 4)

/-- SHA-384: 48 bytes. -/
def sha384 (l : List Byte) : List Byte := ((shaWords sha384Kind l).take 6).flatMap (beBytes 8)

end Sys2Proof.Machine
end

