-- ==== Sys2Proof/Machine/Net.lean ====
section
/-! DEFINITION. The network layer of Oplith: partition keys (R338, R339), routes and epochs (R331, R332, R336), the discarding
and sending of packets, and the captures of its events. -/

namespace Sys2Proof.Machine

/-! ### Captures -/

/-- A rejected configuration write (0xB9). -/
def State.fabReject (s : State) (reason : Nat) : State := s.fabErr 0xB9 0x3F reason 0 0

/-- Captures an event of a port in PORT_ERR. -/
def State.portCapture (s : State) (p code lanes reason : Nat) : State :=
  let q := s.captureLow F.PORT_ERR_VALID F.PORT_ERR_OVERFLOW F.PORT_ERR_CODE [p] ((s.port p).errNs == s.now + 1) code
    [(F.PORT_ERR_LANES, lanes), (F.PORT_ERR_REASON, reason)]
  if q.1 then q.2.updPort p (fun x => { x with errNs := s.now + 1 }) else q.2

/-- Captures and logs an event of a port (0xB0 to 0xB3, 0xB8); `unit` is the port, or port × 4 + lane. -/
def State.portErr (s : State) (p code lanes reason unit : Nat) : State := (s.portCapture p code lanes reason).chipEv code unit

/-! ### Ports, keys and routes -/

/-- STATE in PORT_STATUS. -/
abbrev Pst.disabled : Nat := 0
abbrev Pst.down : Nat := 1
abbrev Pst.training : Nat := 2
abbrev Pst.active : Nat := 3
abbrev Pst.retraining : Nat := 4
abbrev Pst.width : Nat := 5
abbrev Pst.selfLoop : Nat := 6
abbrev Pst.version : Nat := 7
abbrev Pst.retired : Nat := 8
abbrev Pst.test : Nat := 9

def State.portState (s : State) (p : Nat) : Nat := s.fget F.PORT_STATUS_STATE [p]

/-- STATE changes; a change is an event of source 96 + p (R451). -/
def State.setPortState (s : State) (p x : Nat) : State :=
  if s.portState p = x then s else (s.fset F.PORT_STATUS_STATE [p] x).srcEvent (.shared (96 + p))

def State.portActive (s : State) (p : Nat) : Bool := s.portState p == Pst.active

/-- LINK_TOKEN (R313): the low 64 bits of the digest of the serial number. -/
def State.linkToken (s : State) : Nat := beNat ((sha256 (beBytes 16 s.fuses.serial)).drop 24)

/-- Whether a key passes at a port (R339); the management key passes everywhere. -/
def State.keyAt (s : State) (key port : Nat) : Bool :=
  key == 0xFFFF || (List.range 64).any fun i =>
    s.fget F.PKEY_VALID [i] == 1 && s.fget F.PKEY_KEY [i] == key && (s.fget F.PKEY_PORTS [i]).testBit port

/-- Whether the route table of an epoch is READY. -/
def State.epochReady (s : State) (e : Nat) : Bool :=
  (if e = 0 then s.fget F.EPOCH_STATUS_READY0 [] else s.fget F.EPOCH_STATUS_READY1 []) == 1

/-- The route entry for a destination (R331). -/
def State.routeEntry (s : State) (dst : Nat) : Nat :=
  let own := s.fabId
  if bits dst 15 10 != bits own 15 10 then 64 + bits dst 15 10
  else if bits dst 9 5 != bits own 9 5 then 32 + bits dst 9 5
  else dst % 32

/-- The port a packet takes (R332), but for the port it came by; none when it has no route. -/
def State.route (s : State) (epoch src dst pathKey : Nat) (from_ : Option Nat) : Option Nat :=
  let k := s.routeEntry dst
  if s.fget F.ROUTE_VALID [epoch, k] = 0 then none
  else
    let set := s.fget F.ROUTE_PORTS [epoch, k]
    let l := (List.range 36).filter (fun p => set.testBit p)
    let i := crc16 (leBytes 2 src ++ leBytes 2 dst ++ leBytes 2 pathKey) % l.length
    (l.drop i ++ l.take i).find? (fun p => s.portActive p && some p != from_)

/-! ### Packets that the switch holds -/

/-- Counts a packet discarded at a port: field of PORT_DROPS. -/
def State.countDrop (s : State) (inp : Option Nat) (f : Fld) : State :=
  match inp with
  | some p => s.fsat f [p] 1
  | none => s

/-- The port number that FAB_ERR names. -/
def portOr (p : Option Nat) : Nat := p.getD 0x3F

/-- Discards the packet at place `n` with 0xB5 (R324, R332, R334, R336). -/
def State.swDiscard (s : State) (n reason : Nat) : State :=
  match s.fab.sw[n]? with
  | some q =>
    let f := if reason = 1 then F.PORT_DROPS_RESIDENCE else F.PORT_DROPS_ROUTE
    ((s.swDrop n).countDrop q.inp f).fabErr 0xB5 (portOr q.inp) reason q.pkt.src q.pkt.pkey
  | none => s

/-- Packets of an epoch that the device holds (INFLIGHT). -/
def State.inflight (s : State) (e : Nat) : Nat :=
  (s.fab.sw.filter (fun q => q.pkt.epoch == e)).length +
    (s.ports.map (fun p => (p.2.packets.filter (fun q => q.1.pkt.epoch == e)).length)).sum

/-- Sends a packet of this device (responses, commands, leases): it takes the epoch as it stands, its hop limit and check, and
waits for its output; one to its own fabric ID is delivered here (R358). With no route or a refused key it is not sent. In Transit the device sources only commands and their
acknowledgements on VC0, and DEVICE_UNAVAILABLE on VC2 (R344; TIME packets leave by `sendTime`). -/
def State.emit (s : State) (p : Packet) (now : Nat) (comb : Option Nat := none)
    (coll : Option (Nat × Nat) := none) : State :=
  let e := s.fget F.EPOCH_CTRL_SRC_EPOCH []
  let p := ({ p with epoch := e, src := s.fabId, hops := s.fget F.FAB_TIMERS_HOP_LIMIT [] }).sealed
  let mute := s.inTransit && !(p.opcode == 0xC0 || p.opcode == 0xC1 || (p.vc == 2 && p.status == St.unavailable))
  if p.dst = s.fabId && !mute then
    (if s.keyLocal p.pkey then s.swAdd { pkt := p, inp := none, out := none, sinceNs := now, grantNs := some now }
     else s.fabErr 0xB4 0x3F 0 p.src p.pkey)
  else
  let r := if s.epochReady e && !mute then s.route e p.src p.dst p.pathKey none else none
  match r with
  | none => s
  | some o =>
    if s.keyAt p.pkey o then s.swAdd { pkt := p, inp := none, out := some o, sinceNs := now, comb := comb, coll := coll }
    else s.fabErr 0xB4 0x3F 0 p.src p.pkey

end Sys2Proof.Machine
end

