-- ==== Sys2Proof/Machine/FabBase.lean ====
section
/-! DEFINITION. The transaction layer of Oplith: how a request is served at its target (R358, R359, R389), how an agent of this
device sends one (R355, R357, R360, R364), its injection (R336, R338, R339, R341, R375), and its result. -/

namespace Sys2Proof.Machine

/-! ### At the target -/

/-- The atomic operations, numbered as ATOMIC_SWAP to ATOMIC_CAS and as FUNC of AMO are (R82, R359), on `w` bytes. -/
def atomicOp (op w old v cmp : Nat) : Nat :=
  let m := 2 ^ (8 * w)
  let a := old % m
  let b := v % m
  let sa := toSigned (8 * w) a
  let sb := toSigned (8 * w) b
  match op with
  | 0 => b
  | 1 => (a + b) % m
  | 2 => a &&& b
  | 3 => a ||| b
  | 4 => a ^^^ b
  | 5 => if sb < sa then b else a
  | 6 => if sa < sb then b else a
  | 7 => if b < a then b else a
  | 8 => if a < b then b else a
  | _ => if a = cmp % m then b else a

/-- The address check of R358: the local address of a request, or its status. -/
def State.targetAddr (s : State) (addr len key src : Nat) : Nat × Nat × State :=
  if addr.testBit 57 then
    let t := bits addr 63 58
    let off := bits addr 34 0
    let ok := match (s.ten t).bind Ten.fab with
      | some f => bits addr 56 35 == 0 && KMap.get 0 s.fab.pkeys t == key && off + len ≤ f.exportPages * 4096
      | none => false
    match ok, (s.ten t).bind Ten.fab with
    | true, some f => (St.ok, f.exportBase + off, s)
    | _, _ => (St.unmapped, 0, s.opmErr 0xC1 0 t src key)
  else if 2 ^ 41 ≤ addr then (St.unmapped, 0, s)
  else match sliceLocal addr with
    | some a => (St.ok, a, s)
    | none => (St.unmapped, 0, s)

/-- Checks 3 and 4 of R358. -/
def State.targetCheck (s : State) (addr len key ward src : Nat) : Nat × Nat × State :=
  let r := s.targetAddr addr len key src
  if r.1 != 0 then r
  else
    let w := r.2.2.targetWard ward src
    (w.1, r.2.1, w.2)

/-- Reads local memory for a request. -/
def State.serveRead (s : State) (port phys len : Nat) : Nat × List Byte × State := s.busRead (portIssuer port) .rd phys len

/-- Writes local memory for a request. -/
def State.serveWrite (s : State) (port phys : Nat) (l : List Byte) : Nat × State := s.busWrite (portIssuer port) .wr phys l

/-- An atomic at its tier (R82, R359): its status and the old value. Protected memory refuses every atomic, whether or not it would
store (R270, R285); a CAS whose comparison fails stores nothing. -/
def State.coreAtomic (s : State) (i : Issuer) (t : Tier) (ph n op v cmp : Nat) : Nat × Nat × State :=
  if s.writeBarred i t ph n then (St.readOnly, 0, s.protectedStore i.ten ph)
  else if t == .t3 then let r := s.tierWrite i t ph (List.replicate n 0); (r.1, 0, r.2)
  else
    let r := s.tierRead i.ten t ph n
    if r.1 != 0 then (r.1, 0, r.2.2)
    else
      let old := leNat r.2.1
      if op = 9 && old != cmp % 2 ^ (8 * n) then (0, old, r.2.2)
      else
        let q := r.2.2.tierWrite i t ph (leBytes n (atomicOp op n old v cmp))
        (q.1, old, q.2)

/-- Executes an atomic at its line (R359): its status and the old value. -/
def State.serveAtomic (s : State) (i : Issuer) (phys op w v cmp : Nat) : Nat × Nat × State :=
  if phys % w != 0 then (St.unmapped, 0, s)
  else match s.check i .atomic phys with
    | (0, some (.mem t ph), s) => s.coreAtomic i t ph w op v cmp
    | (0, _, s) => (St.unmapped, 0, s)
    | (st, _, s) => (st, 0, s)

/-- TARGET_RETIRED where the tier of a mapped address would refuse a read of a line for being out of service, which is the check of
the target tier that a READ can fail before its memory is read (R358, R365, R367); otherwise 0. -/
def State.readGone (s : State) (a n : Nat) : Nat :=
  if (pieces a n).any (fun p => if p.1 < t2Base then s.t1Gone p.1 else s.t2Gone p.1 && (s.t2Copy p.1).isNone) then St.targetRetired
  else St.ok

/-! ### Answers -/

/-- Answers a request with COMPLETE or ATOMIC_DATA. -/
def State.answer (s : State) (q : Packet) (status : Nat) (old : Option Nat) : State :=
  let p : Packet := { cls := 1, opcode := if old.isSome && status = 0 then 0x22 else 0x21, pkey := q.pkey, src := s.fabId,
                      dst := q.src, epoch := 0, vc := 2, pathKey := q.pathKey, tag := q.tag, status := status, hops := 0,
                      bytes := if old.isSome && status = 0 then 1 else 0,
                      body := if old.isSome && status = 0 then leBytes 16 (old.getD 0) else [] }
  s.emit p s.now

/-! ### Requests at their target -/

/-- The packet delivered at place `n`, when it has one of these opcodes. -/
def State.delivered (s : State) (n : Nat) (ops : List Nat) : Option SwPkt :=
  match s.fab.sw[n]? with
  | some q => if q.out.isNone && ops.contains q.pkt.opcode then some q else none
  | none => none

/-- The port by which a packet entered. -/
def SwPkt.portNo (q : SwPkt) : Nat := q.inp.getD 0

/-- The record that a request matches (R342): kept for TAG_HOLD_US. -/
def State.recordOf (s : State) (p : Packet) : Option FabRecord :=
  s.fab.records.find? (fun r => r.src == p.src && r.tag == p.tag && s.now < r.untilNs)

/-- A non-idempotent request at its target (R342): answered from its record, or executed once and recorded; with no room for
a record it waits. -/
def State.once (s : State) (n : Nat) (q : SwPkt) (run : State → Nat × Option Nat × State) : State :=
  let p := q.pkt
  match s.recordOf p with
  | some r => (s.swDrop n).answer p r.status (if r.opcode = 0x02 then none else some r.old)
  | none =>
    let s := s.updFab (fun f => { f with records := f.records.filter (fun r => s.now < r.untilNs) })
    if 65536 ≤ s.fab.records.length then s
    else
      let r := run (s.swDrop n)
      let rec_ : FabRecord := { src := p.src, tag := p.tag, opcode := p.opcode, status := r.1, old := r.2.1.getD 0,
                                untilNs := s.now + s.fget F.FAB_TIMERS_TAG_HOLD_US [] * 1000 }
      (r.2.2.updFab (fun f => { f with records := f.records ++ [rec_] })).answer p r.1 r.2.1

/-- The width of an atomic packet's operand: CAS carries the swap and then the compare value (R356). -/
def atomicWidth (p : Packet) : Nat := if p.opcode = 0x19 then p.bytes / 2 else p.bytes

/-- One atomic of a received packet. -/
def State.atomicOnce (s : State) (n : Nat) (q : SwPkt) : State :=
  let p := q.pkt
  s.once n q (fun s =>
    let w := atomicWidth p
    let c := if !(w = 4 || w = 8) || (p.opcode = 0x19 && p.bytes % 2 = 1) then (St.unmapped, 0, s)
      else s.targetCheck p.addr w p.pkey p.aux p.src
    if c.1 != 0 then (c.1, none, c.2.2)
    else
      let r := c.2.2.serveAtomic (portIssuer q.portNo) c.2.1 (p.opcode - 0x10) w (leNat (p.body.take w)) (leNat (p.body.drop w))
      (r.1, some r.2.1, r.2.2))

/-- Two atomics that may combine (R368). -/
def combines (a b : Packet) : Bool :=
  a.comb && b.comb && a.opcode == b.opcode && 0x11 ≤ a.opcode && a.opcode ≤ 0x18 && a.bytes == b.bytes && a.addr == b.addr &&
    a.pkey == b.pkey && a.aux == b.aux

/-- The opcodes of atomics (R356). -/
def atomicOps : List Nat := (List.range 10).map (· + 0x10)

/-- The atomics that wait at this device and combine with one of them, in the order of their arrival; those of one fclk by ascending
ingress port (R368). -/
def State.atomicMembers (s : State) (p : Packet) : List SwPkt :=
  (s.fab.sw.filter (fun r => r.out.isNone && combines p r.pkt)).insertionSort
    (fun a b => decide (a.sinceNs * 64 + a.portNo ≤ b.sinceNs * 64 + b.portNo))

/-- Atomic `n` executes, and when atomics combine every one that waits and matches it, in order: each receives what it would have
received alone. Those that the fold took in beyond the first are counted; one answered from its record is not. -/
def State.atomicGroup (s : State) (n : Nat) (q : SwPkt) : State :=
  let l := if s.fget F.OPM_CTRL_ATOMIC_COMBINE_EN [] = 1 then s.atomicMembers q.pkt else []
  if l.length ≤ 1 then s.atomicOnce n q
  else
    (l.foldl (fun (acc : Bool × State) r => match acc.2.fab.sw.findIdx? (fun x => x == r) with
      | some m =>
        let known := (acc.2.recordOf r.pkt).isSome
        let t := acc.2.atomicOnce m r
        (acc.1 || !known, if acc.1 && !known then t.fsat F.OPM_COUNTS_JOINED_ATOMICS [] 1 else t)
      | none => acc) (false, s)).2

/-- A local atomic joins the earlier ones that wait at its line and combine with it (R368): they execute first, and it is counted. An
atomic that arrived in this very fclk comes after a local one. -/
def State.atomicAhead (s : State) (p : Packet) : State :=
  if s.fget F.OPM_CTRL_ATOMIC_COMBINE_EN [] = 0 || s.ridge.powerFail then s
  else
    let l := (s.atomicMembers p).filter (fun r => r.sinceNs < s.now)
    if l.isEmpty then s
    else (l.foldl (fun (s : State) r => match s.fab.sw.findIdx? (fun x => x == r) with
      | some m => s.atomicOnce m r
      | none => s) s).fsat F.OPM_COUNTS_JOINED_ATOMICS [] l.length

/-! ### At the source -/

/-- The line of an offset in a fabric address. -/
def FabReq.meets (a b : FabReq) : Bool := a.dst == b.dst && overlap (a.addr / 128 * 128) ((a.addr + a.len + 127) / 128 * 128 - a.addr / 128 * 128)
  (b.addr / 128 * 128) ((b.addr + b.len + 127) / 128 * 128 - b.addr / 128 * 128)

/-- Whether the order of R360 lets a request leave: no earlier request of its issuer to its lines that must come first. -/
def State.fabOrdered (s : State) (r : FabReq) : Bool :=
  (s.fab.reqs.takeWhile (fun q => q.id != r.id)).all fun q =>
    q.result.isSome || q.srcType != r.srcType || q.srcIdx != r.srcIdx || !q.meets r ||
      (r.kind == .read && q.kind == .read)

/-- A tag towards a destination that is neither outstanding nor resting (R341); none while there is none. Of so many tags in a row as
are taken, and one more, one is free. -/
def State.freshTag (s : State) (dst : Nat) : Option Nat :=
  let held := s.fab.tagHeld.filter (fun h => h.1 == dst && s.now < h.2.2)
  let busy := fun t => s.fab.reqs.any (fun q => q.tag == some t) || held.any (fun h => h.2.1 == t)
  ((List.range (min 65536 (s.fab.reqs.length + held.length + 1))).map (fun i => (s.fab.nextTag + i) % 65536)).find? (fun t => !busy t)

/-- The packet of a request (R356, R357). -/
def FabReq.packet (r : FabReq) (src epoch hops : Nat) : Packet :=
  let base : Packet := { cls := 1, opcode := 1, pkey := r.pkey, src := src, dst := r.dst, epoch := epoch, vc := 1,
                         pathKey := r.pathKey, tag := r.tag.getD 0, hops := hops, retry := 1 < r.attempts, comb := r.comb,
                         bytes := 1 }
  (match r.kind with
    | .read => { base with body := leBytes 8 r.addr ++ leBytes 8 (r.ward * 2 ^ 32 + r.len % 8192) }
    | .write => { base with cls := 2, opcode := 2, bytes := r.len, addr := r.addr, aux := r.ward, body := r.data }
    | .atomic op => { base with cls := 2, opcode := 0x10 + op, bytes := r.data.length, addr := r.addr, aux := r.ward,
                                body := r.data }).sealed

/-- The source bucket of a Tenancy's requests (q = 0) or PUTs (q = 1), if its set is shaped. -/
def State.srcBucket (s : State) (t q : Nat) : Option Bucket :=
  match s.ten t with
  | some v => if v.desc.shaper = 0 then none else some (.src v.desc.shaper q)
  | none => none

/-- Logs 0xC7, at most once per set per ms (R375). -/
def State.policedEvent (s : State) (t : Nat) : State :=
  let set := match s.ten t with | some v => v.desc.shaper | none => 0
  if KMap.get 0 s.fab.policed set = s.now / 1000000 + 1 then s
  else
    (s.updFab (fun f => { f with policed := KMap.set 0 f.policed set (s.now / 1000000 + 1) })).opmErr 0xC7 0 t 0
      (KMap.get 0 s.fab.pkeys t)

/-- One attempt of a request (R341): it takes a tag at its first attempt, and waits while there is none; with a route and an admitted key
it is charged to its source bucket and waits for its output. With no route, or in Transit (R344), the attempt is not sent. -/
def State.injectReq (s : State) (r : FabReq) : State :=
  match r.tag.or (s.freshTag r.dst) with
  | none => s
  | some tag =>
    let s := if r.tag.isSome then s else s.updFab (fun f => { f with nextTag := (tag + 1) % 65536 })
    let since := r.sentNs
    let r := { r with tag := some tag, attempts := r.attempts + 1, sentNs := s.now, timers := (s.rget .FAB_TIMERS []).toNat }
    let s := s.updReq r.id (fun _ => r)
    let e := s.fget F.EPOCH_CTRL_SRC_EPOCH []
    match if s.epochReady e && !s.inTransit then s.route e s.fabId r.dst r.pathKey none else none with
    | none => s
    | some o =>
      if !s.keyAt r.pkey o then (s.fabFinish r.id St.pkeyDenied []).fabErr 0xB4 0x3F 0 s.fabId r.pkey r.ten
      else
        let p := r.packet s.fabId e (s.fget F.FAB_TIMERS_HOP_LIMIT [])
        let s := match s.srcBucket r.ten 0 with
          | some b => if r.attempts ≤ 1 then (s.bucketCharge b ((p.slots + 1) / 2)).bucketDelay b (s.now - since)
            else s.bucketCharge b ((p.slots + 1) / 2)
          | none => s
        let s := if r.attempts ≤ 1 then s else s.fsat F.FAB_E2E_RESENDS [] 1
        s.swAdd { pkt := p, inp := none, out := some o, sinceNs := s.now, req := some r.id }

/-- Requests that wait at a source bucket. -/
def State.srcWaiting (s : State) (set : Nat) : Nat :=
  (s.fab.reqs.filter (fun r => r.attempts == 0 && r.result.isNone &&
    (match s.ten r.ten with | some v => v.desc.shaper | none => 0) == set)).length

/-- The destination of a request that an agent makes to a control register of this device. -/
abbrev ctlDst : Nat := 65536

/-- What a source bucket says to a message (R375). -/
inductive Gate where
  | goes | waits | policed
  deriving DecidableEq, Repr

/-- A message of a Tenancy at its source bucket: with a negative count it waits in SHAPE mode, and is refused in POLICE mode. -/
def State.srcGate (s : State) (t q : Nat) : Gate :=
  match s.srcBucket t q with
  | none => .goes
  | some b => if s.bucketOpen b then .goes else if s.rtest .SSHP_CFG b.ix 46 then .policed else .waits

/-- A request that its source bucket refuses. -/
def State.fabPoliced (s : State) (r : FabReq) : State := (s.fabFinish r.id St.policed []).policedEvent r.ten

/-- PUTs that wait at a source bucket. -/
def State.putWaiting (s : State) (set : Nat) : Nat :=
  (s.fab.puts.filter (fun m => m.pkt.cls == 2 && (match s.ten m.ten with | some v => v.desc.shaper | none => 0) == set)).length

/-- A PUT or PUT_END leaves its source bucket; from then on the END_ACK of its stream is waited for (R397). -/
def State.putGo (s : State) (m : PutMsg) : State :=
  let s := match if m.pkt.cls = 2 then s.srcBucket m.ten 1 else none with
    | some b => (s.bucketCharge b ((m.pkt.slots + 1) / 2)).bucketDelay b (s.now - m.sinceNs)
    | none => s
  let s := s.emit m.pkt s.now none (some (m.coll, m.peer))
  let timers := (s.rget .FAB_TIMERS []).toNat
  let own := m.pkt.dst = s.fabId
  let sent := fun (r : CollRun) => { r with
    granted := if own then r.granted + 1 else r.granted
    sent := if own then r.sent + m.pkt.gutter else r.sent
    outs := if m.pkt.cls = 2 then r.outs else r.outs.map (fun o =>
      if o.peer = m.peer then { o with endNs := some s.now, timers := timers } else o) }
  s.updFab (fun f => { f with colls := KMap.upd {} f.colls m.coll (fun x => { x with running := x.running.map sent }) })

/-- A PUT that its source bucket refuses is not sent (R375): 0xC7. Its stream comes short, and is sent again (R397). -/
def State.putPoliced (s : State) (m : PutMsg) : State := s.policedEvent m.ten

/-- The messages of collectives that wait at their source buckets leave, in order, as far as these let them (R375). -/
def State.putPump (s : State) : State :=
  (s.fab.puts.foldl (fun (acc : List Nat × State) m =>
    let s := acc.2
    let stay := fun (s : State) => s.updFab (fun f => { f with puts := f.puts ++ [m] })
    if acc.1.contains m.coll then (acc.1, stay s)
    else match if m.pkt.cls = 2 then s.srcGate m.ten 1 else .goes with
      | .goes => (acc.1, s.putGo m)
      | .policed => (acc.1, s.putPoliced m)
      | .waits =>
        let s := stay s
        (m.coll :: acc.1, match s.srcBucket m.ten 1 with | some b => s.bucketDepth b (s.putWaiting (b.ix.headD 0)) | none => s))
    ([], s.updFab (fun f => { f with puts := [] }))).2

/-- Requests that have not made their first attempt leave as far as order and their source buckets let them (R360, R375), and so do the
messages of collectives. -/
def State.fabPump (s : State) : State :=
  State.putPump ((s.fab.reqs.filter (fun r => r.attempts == 0 && r.result.isNone && r.dst != ctlDst)).foldl
    (fun (acc : List Bucket × State) r =>
      let s := acc.2
      if !s.fabOrdered r then acc
      else match s.srcBucket r.ten 0 with
        | none => (acc.1, s.injectReq r)
        | some b =>
          if acc.1.contains b then acc
          else match s.srcGate r.ten 0 with
            | .goes => (acc.1, s.injectReq r)
            | .policed => (acc.1, s.fabPoliced r)
            | .waits => (acc.1 ++ [b], s.bucketDepth b (s.srcWaiting (b.ix.headD 0)))) ([], s)).2

/-- A rank's entry (R364), from the cached translations or by a T1 read: status and entry. -/
def State.rankEntry (s : State) (t rank : Nat) : Nat × Nat × State :=
  match (s.ten t).bind Ten.fab with
  | none => (St.unmapped, 0, s)
  | some f =>
    if f.ranksM1 < rank then (St.unmapped, 0, s.opmErr 0xC1 0 t 0 (KMap.get 0 s.fab.pkeys t))
    else
      let r := match s.fab.xlat.find? (fun x => x.1 == t && x.2.1 == rank) with
        | some x => (St.ok, x.2.2, s)
        | none =>
          let q := s.busWord deviceIssuer .rd (f.rtt + 8 * rank)
          if q.1 != 0 then (q.1, 0, q.2.2)
          else (St.ok, q.2.1, q.2.2.updFab (fun f => { f with xlat :=
            (if f.xlat.length < 4096 then f.xlat else f.xlat.eraseIdx (Config.cacheVictim s.free % 4096)) ++ [(t, rank, q.2.1)] }))
      if r.1 != 0 then r
      else
        let e := r.2.1
        if !e.testBit 63 || e.testBit 62 || bits e 55 16 != 0 then
          (St.unmapped, 0, r.2.2.opmErr 0xC1 0 t 0 (KMap.get 0 s.fab.pkeys t))
        else r

/-- Drops the cached translations of a Tenancy (R364). -/
def State.dropRanks (s : State) (t : Nat) : State := s.updFab (fun f => { f with xlat := f.xlat.filter (fun x => x.1 != t) })

/-- Serves a request that this device addresses to itself through its own rank, with the checks of R358. -/
def State.serveSelf (s : State) (r : FabReq) : Nat × List Byte × State :=
  let q := s.selfAdmits r.pkey r.ten
  if q.1 != 0 then (q.1, [], q.2)
  else
    let c := q.2.targetCheck r.addr r.len r.pkey r.ward s.fabId
    if c.1 != 0 then (c.1, [], c.2.2)
    else match r.kind with
      | .read => c.2.2.serveRead 0 c.2.1 r.len
      | .write => let q := c.2.2.serveWrite 0 c.2.1 r.data; (q.1, [], q.2)
      | .atomic op =>
        let s := c.2.2.atomicAhead (r.packet s.fabId 0 0)
        let q := s.serveAtomic (portIssuer 0) c.2.1 op r.len (leNat (r.data.take r.len)) (leNat (r.data.drop r.len))
        (q.1, leBytes 8 q.2.1, q.2.2)

/-- An agent sends a request to a place off the device, or a DMA channel one to a register: its number, by which the result is found. A Tenancy stopped at traffic
scope sends nothing (R383). -/
def State.fabSend (s : State) (i : Issuer) (pl : Place) (kind : FabKind) (len : Nat) (data : List Byte) (comb : Bool) :
    Nat × State :=
  let id := s.fab.nextReq
  let t := i.ten
  let ward := s.wardOf t
  let key := s.tenKey t
  let base : FabReq := { id := id, srcType := i.src, srcIdx := i.idx, ten := t, kind := kind, dst := 0, addr := 0, len := len,
                         data := data, pkey := key, ward := ward, comb := comb, sentNs := s.now, pathKey := (Config.pathKey s.free).toNat }
  let s := (s.updFab (fun f => { f with nextReq := id + 1 })).tickFree
  let ended := fun (s : State) (st : Nat) (d : List Byte) =>
    s.updFab (fun f => { f with reqs := f.reqs ++ [{ base with result := some (st, d) }] })
  if s.rtest .STOP_TRAFFIC [] t then (id, ended s St.cancelled [])
  else match pl with
    | .rack m off =>
      let dst := s.fabId / 32 * 32 + m
      (id, (s.updFab (fun f => { f with reqs := f.reqs ++ [{ base with dst := dst, addr := off }] })).fabPump)
    | .beyond rank off =>
      let e := s.rankEntry t rank
      if e.1 != 0 then (id, ended e.2.2 e.1 [])
      else
        let s := e.2.2
        let r := { base with dst := e.2.1 % 65536, addr := bits e.2.1 61 56 * 2 ^ 58 + 2 ^ 57 + off }
        if r.dst = s.fabId then
          let q := s.serveSelf r
          (id, ended q.2.2 q.1 q.2.1)
        else (id, (s.updFab (fun f => { f with reqs := f.reqs ++ [r] })).fabPump)
    | .ctl off => (id, s.updFab (fun f => { f with reqs := f.reqs ++ [{ base with dst := ctlDst, addr := off }] }))
    | _ => (id, ended s St.unmapped [])

/-- A request ends, and those that its line held leave. -/
def State.fabEnd (s : State) (id st : Nat) (data : List Byte) : State := (s.fabFinish id st data).fabPump

end Sys2Proof.Machine
end

