-- ==== Sys2Proof/Machine/Flash.lean ====
section
/-! DEFINITION. The flash port's NVMe commands (R292 to R296): sending one for a piece of a T3 access, and its result. -/

namespace Sys2Proof.Machine

def State.updFl (s : State) (f : FlashSt → FlashSt) : State := { s with fl := f s.fl }

/-- The queues of a drive are created: it serves requests where its link is up and it has the 4 KiB LBA format (R293, R296). -/
def State.driveUp (s : State) (d : Nat) : State :=
  s.fsets [d] [(F.FL_DRIVE_QUEUES, KMap.get 0 s.fl.queues d),
    (F.FL_DRIVE_READY, (KMap.get 0 s.fl.queues d != 0 && (KMap.get none s.fl.linkDrop d).isNone : Bool).toNat)]

/-- Captures and logs an error of the flash port (R296). -/
def State.flError (s : State) (code drive status lba ten : Nat) : State :=
  (s.tierCapture 5 F.FL_ERR_VALID F.FL_ERR_OVERFLOW F.FL_ERR_CODE [] code [(F.FL_ERR_DRIVE, drive), (F.FL_ERR_NVME_STATUS, status),
    (F.FL_ERR_LBA, lba)]).chipEv code drive ten (lba % 2 ^ 32)

/-- Whether an access within one logical block of T3 may be sent: a write must cover the block (R294). -/
def t3Whole (a n : Nat) : Bool := a % 4096 == 0 && n == 4096

/-- The name of an issuer. -/
def Issuer.key (i : Issuer) : Nat := i.src * 2 ^ 32 + i.idx

/-- Sends a Read or Write of one logical block (R294); the step's drives that are written without FUA are recorded (R295). -/
def State.nvmeSend (s : State) (i : Issuer) (wr : Bool) (a n : Nat) (data : List Byte) (waits : Bool) : Nat × State :=
  let p := s.t3Map (a - t3Base)
  let fua := wr && i.ten != 0 && s.fget F.FL_TEN_FUA_ALL [i.ten] == 1
  let c : NvmeCmd := { id := s.fl.nextId, op := if wr then .write else .read, drive := p.1, lba := p.2 / 4096, addr := s.t3Phys a,
                       len := n, data := data, issueNs := s.now, issuer := i.key, ten := i.ten, fua := fua, waits := waits }
  let s := s.updFl (fun f => { f with cmds := f.cmds ++ [c], nextId := f.nextId + 1 })
  (c.id, if wr && !fua then s.updRun i.ten (fun r => { r with drives := if r.drives.contains p.1 then r.drives else p.1 :: r.drives })
    else s)

def State.nvmeCmd (s : State) (id : Nat) : Option NvmeCmd := s.fl.cmds.find? (fun c => c.id == id)

/-- The result of a command that has ended. -/
def State.nvmeResult (s : State) (id : Nat) : Option (Nat × List Byte) := (s.nvmeCmd id).bind NvmeCmd.result

def State.nvmeDrop (s : State) (id : Nat) : State := s.updFl (fun f => { f with cmds := f.cmds.filter (fun c => c.id != id) })

/-- One access within a logical block of T3: a result at once, or the command sent for it. -/
def State.t3Access (s : State) (i : Issuer) (wr : Bool) (a n : Nat) (data : List Byte) (waits : Bool) :
    ((Nat × List Byte) ⊕ Nat) × State :=
  if s.t3Failed a then (.inl (St.targetRetired, []), s)
  else if wr && !t3Whole a n then
    let p := s.t3Map (a - t3Base)
    (.inl (St.ioError, []), s.flError 0xA8 p.1 0 (p.2 / 4096) i.ten)
  else let r := s.nvmeSend i wr a n data waits; (.inr r.1, r.2)

/-- A command has ended: those of its issuer to its block that waited for it may be sent, and their TIMEOUT_MS runs from then (R295,
R296). -/
def State.nvmeNext (s : State) (c : NvmeCmd) : State :=
  s.updFl (fun f => { f with cmds := f.cmds.map (fun x =>
    if x.id != c.id && x.issuer == c.issuer && x.drive == c.drive && x.lba == c.lba && x.result.isNone then { x with issueNs := s.now }
    else x) })

/-- Ends a command with a status: an engine that waits takes the result, and any other command answers outside. -/
def State.nvmeEnd (s : State) (c : NvmeCmd) (st : Nat) (data : List Byte) : State :=
  let s := if c.op == .write then s.nvmeNext c else s
  if c.waits then
    s.updFl (fun f => { f with cmds := f.cmds.map (fun x => if x.id = c.id then { x with result := some (st, data) } else x) })
  else { s.nvmeDrop c.id with out := { status := st, value := c.id, data := data } }

end Sys2Proof.Machine
end

