-- ==== Sys2Proof/Machine/Eng.lean ====
section
/-! DEFINITION. How an engine works through memory: each of its requests passes the checks of R31, waits in its Tenancy's memory
shaper (R298, R299), is served here or goes over the fabric (R355), and its result is recorded, so that a command that has to
wait goes on from where it stopped. -/

namespace Sys2Proof.Machine

/-! ### Interlocks -/

/-- Whether the step of a Tenancy is under way: entered and not ended, with no power failure (R290). -/
def State.stepRuns (s : State) (t : Nat) : Bool :=
  !s.stopped && (t == 0 || s.tick.cur == t && match s.run t with | some r => r.entered && r.ended.isNone | none => false)

/-- Whether a PASS in flight writes a Great Array accumulator tile that a range touches (R165). -/
def State.gaTileBusy (s : State) (d off n : Nat) : Bool :=
  (s.dist d).ga.passes.any fun p => p.tiles.any fun t => overlap off n (0x1000000 + t * 0x40000) 0x40000

/-- Whether an access waits for a tile (R165). -/
def State.tileWait (s : State) (t : Tier) (a n : Nat) : Bool :=
  match t with
  | .ga d => s.gaTileBusy d (a - gaBase d) n
  | _ => false

/-! ### The record of a command -/

/-- An engine's command under way: what was obtained before and not yet used, all that has been obtained, and the device. -/
structure EngSt where
  past : Log
  all : Log
  dev : State

/-- A computation of an engine that can wait. -/
abbrev Eng := OptionT (StateM EngSt)

/-- One thing that an engine does: it takes its recorded result, or does it now and records it, or waits. -/
def Eng.op (f : State → Option (Nat × List Byte) × State) : Eng (Nat × List Byte) :=
  OptionT.mk fun e => match e.past with
    | x :: t => (some x, { e with past := t })
    | [] => match f e.dev with
      | (some x, s) => (some x, { e with all := e.all ++ [x], dev := s })
      | (none, s) => (none, { e with dev := s })

/-- Runs a computation from its record: its result, or none while it waits; the record to keep; the device. -/
def Eng.go {α : Type} (m : Eng α) (log : Log) (s : State) : Option α × Log × State :=
  match (OptionT.run m).run { past := log, all := log, dev := s } with
  | (some a, e) => (some a, [], e.dev)
  | (none, e) => (none, e.all, e.dev)

/-- An effect, made once. -/
def Eng.act (f : State → State) : Eng Unit := do
  let _ ← Eng.op (fun s => (some (0, []), f s))

/-- A number, read once. -/
def Eng.num (f : State → Nat) : Eng Nat := do
  let r ← Eng.op (fun s => (some (f s, []), s))
  pure r.1

/-- Waits until a condition holds. -/
def Eng.wait (p : State → Bool) : Eng Unit := do
  let _ ← Eng.op (fun s => if p s then (some (0, []), s) else (none, s))

/-! ### Accesses -/

/-- A range cut at multiples of `c`. -/
def cutAt (c a n : Nat) : List (Nat × Nat) :=
  (List.range (if n = 0 then 0 else (a + n + c - 1) / c - a / c)).map fun i =>
    let lo := max a ((a / c + i) * c)
    (lo, min (a + n) ((a / c + i + 1) * c) - lo)

/-- Whether an address lies in a window that can lead off the device. -/
def farAddr (a : Nat) : Bool := rackBase ≤ a && a < 2 ^ 56

/-- The range of an access, cut into requests: at lines here, at logical blocks in T3, and as R355 splits it off the device. -/
def requests (wr : Bool) (a n : Nat) : List (Nat × Nat) :=
  cutAt (if farAddr a then (if wr then 512 else 4096) else if inT3 a 1 then 4096 else 128) a n

/-- Reads a local range of one request. -/
def State.localRead (s : State) (i : Issuer) (t : Tier) (ph n : Nat) : Nat × List Byte × State :=
  (cutAt 128 ph n).foldl (fun (acc : Nat × List Byte × State) p =>
    if acc.1 != 0 then acc
    else
      let r := acc.2.2.tierRead i.ten t p.1 p.2
      (r.1, acc.2.1 ++ r.2.1, r.2.2)) (0, [], s)

/-- Writes a local range of one request. -/
def State.localWrite (s : State) (i : Issuer) (t : Tier) (ph : Nat) (l : List Byte) : Nat × State :=
  (cutAt 128 ph l.length).foldl (fun (acc : Nat × State) p =>
    if !writeGoesOn acc.1 then acc
    else
      let r := acc.2.tierWrite i t p.1 ((l.drop (p.1 - ph)).take p.2)
      (if acc.1 = 0 then r.1 else acc.1, r.2)) (0, s)

/-- Results at and above this number name a request that has been sent: an even distance a fabric request, an odd one an NVMe
command. -/
abbrev farTag : Nat := 2 ^ 16

/-- One request of an engine as it issues: served here, or sent over the fabric. In the control window, a request that registers do not
accept reads all ones or has no effect, and logs 0x32 (R9); an aligned one of 4 or 8 bytes of a DMA channel goes to its register. -/
def State.issue (s : State) (i : Issuer) (k : AccKind) (key a n : Nat) (data : List Byte) (comb : Bool) :
    Option (Nat × List Byte) × State :=
  match s.check i k a with
  | (0, some (.mem t ph), s) =>
    if s.tileWait t ph n then (none, s)
    else match s.shaped i t ph n k.isWrite key with
      | (false, s) => (none, s)
      | (true, s) =>
        if t == .t3 then match s.t3Access i k.isWrite a n data true with
          | (.inl x, s) => (some x, s)
          | (.inr id, s) => (some (farTag + 2 * id + 1, []), s)
        else if k.isWrite then let r := s.localWrite i t ph data; (some (r.1, []), r.2)
        else let r := s.localRead i t ph n; (some (r.1, r.2.1), r.2.2)
  | (0, some (.ctl off), s) =>
    if i.src = 5 && regShaped off n then
      let r := s.fabSend i (.ctl off) (if k.isWrite then .write else .read) n data comb
      (some (farTag + 2 * r.1, []), r.2)
    else (some (0, if k.isWrite then [] else List.replicate n 0xFF), s.chipEv 0x32)
  | (0, some pl, s) =>
    let r := s.fabSend i pl (if k.isWrite then .write else .read) n data comb
    (some (farTag + 2 * r.1, []), r.2)
  | (0, none, s) => (some (St.unmapped, []), s)
  | (st, _, s) => (some (st, []), s)

/-- One request of an engine, to its completion. -/
def Eng.request (i : Issuer) (k : AccKind) (key a n : Nat) (data : List Byte) (comb : Bool) : Eng (Nat × List Byte) := do
  let r ← Eng.op (fun s => s.issue i k key a n data comb)
  if r.1 < farTag then pure r
  else
    let id := (r.1 - farTag) / 2
    if r.1 % 2 = 0 then
      Eng.op (fun s => match s.fabResult id with
        | some x => (some x, s.fabDrop id)
        | none => (none, s))
    else
      Eng.op (fun s => match s.nvmeResult id with
        | some x => (some x, s.nvmeDrop id)
        | none => (none, s))

/-- The places of the lines of a read that is one request here, each after its checks; the status of the first that fails one. -/
def State.linePlaces (s : State) (i : Issuer) (a n : Nat) : Nat × List (Tier × Nat × Nat) × State :=
  (cutAt 128 a n).foldl (fun (acc : Nat × List (Tier × Nat × Nat) × State) p =>
    if acc.1 != 0 then acc
    else match acc.2.2.check i .rd p.1 with
      | (0, some (.mem t ph), s) => (0, acc.2.1 ++ [(t, ph, p.2)], s)
      | (0, _, s) => (St.unmapped, [], s)
      | (st, _, s) => (st, [], s)) (0, [], s)

/-- A read that is one request here, whatever lines it covers (R211, R236): its shaper is charged for it once. -/
def State.issueLines (s : State) (i : Issuer) (key a n : Nat) : Option (Nat × List Byte) × State :=
  match s.linePlaces i a n with
  | (0, (t, ph, m) :: rest, s) =>
    let ps := (t, ph, m) :: rest
    if ps.any (fun p => s.tileWait p.1 p.2.1 p.2.2) then (none, s)
    else match s.shaped i t ph n false key with
      | (false, s) => (none, s)
      | (true, s) =>
        let r := ps.foldl (fun (acc : Nat × List Byte × State) p =>
          if acc.1 != 0 then acc
          else
            let r := acc.2.2.tierRead i.ten p.1 p.2.1 p.2.2
            (r.1, acc.2.1 ++ r.2.1, r.2.2)) (0, [], s)
        (some (r.1, r.2.1), r.2.2)
  | (st, _, s) => (some (st, []), s)

/-- Whether an address is served by lines here: not off the device, in T3 or in the control window. -/
def lineAddr (a : Nat) : Bool := !farAddr a && !inT3 a 1 && !(match winOf a with | .ctl _ => true | _ => false)

/-- Reads a range in one request where it is served by lines, and in the requests of R355 off the device. -/
def Eng.readOne (i : Issuer) (key a n : Nat) (comb : Bool) : Eng (Nat × List Byte) :=
  if lineAddr a then Eng.op (fun s => s.issueLines i key a n)
  else (requests false a n).foldlM (fun (acc : Nat × List Byte) p => do
    if acc.1 != 0 then pure acc
    else
      let r ← Eng.request i .rd key p.1 p.2 [] comb
      pure (r.1, acc.2 ++ r.2)) (0, [])

/-- Reads a range: the first request that fails ends it with its status. -/
def Eng.read (i : Issuer) (k : AccKind) (key a n : Nat) (comb : Bool := false) : Eng (Nat × List Byte) :=
  (requests false a n).foldlM (fun (acc : Nat × List Byte) p => do
    if acc.1 != 0 then pure acc
    else
      let r ← Eng.request i k key p.1 p.2 [] comb
      pure (r.1, acc.2 ++ r.2)) (0, [])

/-- Writes a range: the first request that fails ends it with its status, and those before it stand. -/
def Eng.write (i : Issuer) (k : AccKind) (key a : Nat) (l : List Byte) : Eng Nat :=
  (requests true a l.length).foldlM (fun (st : Nat) p => do
    if st != 0 then pure st
    else
      let r ← Eng.request i k key p.1 p.2 ((l.drop (p.1 - a)).take p.2) false
      pure r.1) 0

end Sys2Proof.Machine
end

