-- ==== Sys2Proof/Machine/RealFn.lean ====
section
/-! DEFINITION. The functions of the vector unit (R128): each is evaluated on whole numbers that stand for a real number
times 2^320, which is far finer than any format needs to round the exact value once, and its exact cases and special inputs
stand apart. -/

namespace Sys2Proof.Machine

/-- Fraction bits of the fixed-point numbers. -/
abbrev fpBits : Nat := 320

/-- One, in fixed point. -/
def fpOne : Int := 2 ^ fpBits

/-- Σ t_k, where t_0 = `t` and `step k t` gives the next term, over `n` terms. -/
def sumSeries (step : Nat → Int → Int) : Nat → Nat → Int → Int
  | 0, _, _ => 0
  | n + 1, k, t => t + sumSeries step n (k + 1) (step k t)

/-- Σ (±) z^(2k+1) / (2k+1) on numbers of `p` fraction bits: the inverse hyperbolic tangent, or the inverse tangent. -/
def atanSeries (p : Nat) (alt : Bool) (z : Int) : Nat → Nat → Int → Int
  | 0, _, _ => 0
  | n + 1, k, t =>
    (if alt && k % 2 = 1 then -(t / (2 * k + 1)) else t / (2 * k + 1)) + atanSeries p alt z n (k + 1) (t * z / 2 ^ p * z / 2 ^ p)

/-- π with `p` fraction bits, by Machin's formula. -/
def fpPi (p : Nat) : Int :=
  let a := (2 : Int) ^ p / 5
  let b := (2 : Int) ^ p / 239
  16 * atanSeries p true a (p / 4 + 2) 0 a - 4 * atanSeries p true b (p / 15 + 2) 0 b

/-- ln 2 in fixed point. -/
def fpLn2 : Int := let z := fpOne / 3; 2 * atanSeries fpBits false z 110 0 z

/-- e^r in fixed point, for r in [0, 1). -/
def fpExpFrac (r : Int) : Int := sumSeries (fun k t => t * r / fpOne / (k + 1)) 90 0 fpOne

/-- e^x for a fixed-point x: `m × 2^k` with m in fixed point. -/
def fpExp (x : Int) : Int × Int :=
  let k := x / fpLn2
  (fpExpFrac (x - k * fpLn2), k)

/-- ln m in fixed point, for a fixed-point m in [1, 2). -/
def fpLog (m : Int) : Int := let z := (m - fpOne) * fpOne / (m + fpOne); 2 * atanSeries fpBits false z 110 0 z

/-- sin r and cos r in fixed point, for |r| below 2. -/
def fpSin (r : Int) : Int := sumSeries (fun k t => -(t * r / fpOne * r / fpOne / ((2 * k + 2) * (2 * k + 3)))) 60 0 r
def fpCos (r : Int) : Int := sumSeries (fun k t => -(t * r / fpOne * r / fpOne / ((2 * k + 1) * (2 * k + 2)))) 60 0 fpOne

/-- An exact value in fixed point, held within ±2^`c`. -/
def fpOf (x : Num) (c : Nat) : Int :=
  match x with
  | .fin neg m e =>
    let v : Int := min (if (c : Int) + 1 < e + Nat.log2 m then 2 ^ (c + fpBits) else (pow2Mul m (e + fpBits) : Int)) (2 ^ (c + fpBits))
    if neg then -v else v
  | _ => 0

/-- 1 / (1 + e^(-x)) as `m × 2^k` with m in fixed point. -/
def fpSigmoid (x : Int) : Int × Int :=
  if 0 ≤ x then
    let e := fpExp (-x)
    (fpOne * fpOne / (fpOne + (if 0 ≤ e.2 then e.1 * 2 ^ e.2.toNat else e.1 / 2 ^ (-e.2).toNat)), 0)
  else
    let e := fpExp x
    (e.1 * fpOne / (fpOne + (if 0 ≤ e.2 then e.1 * 2 ^ e.2.toNat else e.1 / 2 ^ (-e.2).toNat)), e.2)

/-- The result of a function before its rounding. -/
inductive FnRes where
  | nan (invalid : Bool)
  | inf (neg divZero : Bool)
  | exact (neg : Bool) (m : Nat) (e : Int)
  /-- a number that is not exact at any width: it lies beside `m × 2^e` -/
  | approx (neg : Bool) (m : Nat) (e : Int)
  /-- the manual states no result -/
  | open_
  deriving DecidableEq, Repr

/-- An inexact result from fixed point. -/
def FnRes.ofFp (v : Int) (k : Int) : FnRes := .approx (v < 0) v.natAbs (k - fpBits)

/-- The square root of `m × 2^e`, exact where it is exact. -/
def sqrtRes (m : Nat) (e : Int) : FnRes :=
  let e' := e - 400
  let e2 := if e' % 2 = 0 then e' else e' - 1
  let n := m * 2 ^ (e - e2).toNat
  let r := Nat.sqrt n
  if r * r = n then .exact false r (e2 / 2) else .approx false r (e2 / 2)

/-- a / b times a power of two, exact where it is exact. -/
def divRes (neg : Bool) (a b : Nat) (e : Int) : FnRes :=
  let n := a * 2 ^ 400
  if n % b = 0 then .exact neg (n / b) (e - 400) else .approx neg (n / b) (e - 400)

/-- √(2/π) in fixed point. -/
def fpSqrt2Pi : Int := ((2 * 2 ^ (3 * fpBits) / (fpPi fpBits).toNat : Nat).sqrt : Int)

/-- x reduced by multiples of π/2: the multiple modulo 4, and the rest in fixed point. -/
def fpReduce (neg : Bool) (m : Nat) (e : Int) : Nat × Int :=
  let p := fpBits + 200
  let h := fpPi p / 2
  let x : Int := (pow2Mul m (e + p) : Int)
  let x := if neg then -x else x
  let k := x / h
  ((k % 4).toNat, (x - k * h) / 2 ^ 200)

/-- sin x, or cos x with `q` = 1. -/
def trigRes (neg : Bool) (m : Nat) (e : Int) (q : Nat) : FnRes :=
  let p := fpReduce neg m e
  match (p.1 + q) % 4 with
  | 0 => .ofFp (fpSin p.2) 0
  | 1 => .ofFp (fpCos p.2) 0
  | 2 => .ofFp (-(fpSin p.2)) 0
  | _ => .ofFp (-(fpCos p.2)) 0

/-- sin x for tiny x keeps its relative precision. -/
def sinRes (neg : Bool) (m : Nat) (e : Int) : FnRes :=
  if e + Nat.log2 m < -40 then
    let v := fpOf (.fin neg m e) 0
    .ofFp (fpSin v) 0
  else trigRes neg m e 0

/-- A VX function of OP 0x10 to 0x1A on an exact value (R127, R128). -/
def vxFn (op : Nat) (x : Num) : FnRes :=
  match x with
  | .nan => .nan false
  | .inf neg =>
    match op with
    | 0x10 => if neg then .exact false 0 0 else .inf false false
    | 0x11 => if neg then .nan true else .inf false false
    | 0x12 => .exact neg 0 0
    | 0x13 => if neg then .nan true else .exact false 0 0
    | 0x14 => if neg then .nan true else .inf false false
    | 0x15 => .exact neg 1 0
    | 0x16 => if neg then .exact false 0 0 else .exact false 1 0
    | 0x17 => if neg then .open_ else .inf false false
    | 0x18 => if neg then .open_ else .inf false false
    | _ => .nan true
  | .fin neg 0 _ =>
    match op with
    | 0x10 => .exact false 1 0
    | 0x11 => .inf true true
    | 0x12 => .inf neg true
    | 0x13 => .inf neg true
    | 0x16 => .exact false 1 (-1)
    | 0x1A => .exact false 1 0
    | _ => .exact neg 0 0
  | .fin neg m e =>
    match op with
    | 0x10 => let r := fpExp (fpOf x 8); .ofFp r.1 r.2
    | 0x11 =>
      if neg then .nan true
      else
        let l := Nat.log2 m
        let k : Int := e + l
        let f : Int := (pow2Mul m ((fpBits : Int) - l) : Int)
        if f = fpOne && k = 0 then .exact false 0 0 else .ofFp (k * fpLn2 + fpLog f) 0
    | 0x12 => divRes neg 1 m (-e)
    | 0x13 =>
      if neg then .nan true
      else match sqrtRes m e with
        | .exact _ r k => divRes false 1 r (-k)
        | .approx _ r k => match divRes false 1 r (-k) with
          | .exact n a b => .approx n a b
          | y => y
        | y => y
    | 0x14 => if neg then .nan true else sqrtRes m e
    | 0x15 =>
      let a := fpExp (2 * (fpOf (.fin false m e) 6))
      let v := a.1 * 2 ^ a.2.toNat
      let n := (v - fpOne) * fpOne / (v + fpOne)
      .ofFp (if neg then -n else n) 0
    | 0x16 => let r := fpSigmoid (fpOf x 8); .ofFp r.1 r.2
    | 0x17 => let r := fpSigmoid (fpOf x 9); .approx neg (m * r.1.natAbs) (e + r.2 - fpBits)
    | 0x18 =>
      let v := fpOf x 6
      let y := fpSqrt2Pi * (v + v * v / fpOne * v / fpOne * 44715 / 1000000) / fpOne
      let r := fpSigmoid (max (min (2 * y) (2 ^ (fpBits + 9))) (-(2 ^ (fpBits + 9))))
      .approx neg (m * r.1.natAbs) (e + r.2 - fpBits)
    | 0x19 => sinRes neg m e
    | _ => trigRes neg m e 1

end Sys2Proof.Machine
end

