-- ==== Sys2Proof/Machine/Vector.lean ====
section
/-! DEFINITION. The lanes of the vector unit and what each operation gives in a lane (R126 to R130). -/

namespace Sys2Proof.Machine

/-- A vector register. -/
abbrev Vec := BitVec 2048

/-- Lane width of a TYPE: 0 FP32, 1 BF16, 2 FP16, 3 INT32. -/
def tyBits (ty : Nat) : Nat := if ty = 1 || ty = 2 then 16 else 32

def tyLanes (ty : Nat) : Nat := 2048 / tyBits ty

/-- The floating-point format of a TYPE. -/
def tyFmt (ty : Nat) : Fmt := match ty with | 1 => bf16 | 2 => fp16 | _ => fp32

/-- Lane `i` of `w` bits. -/
def Vec.lane (v : Vec) (w i : Nat) : Nat := (v.extractLsb' (i * w) w).toNat

/-- A lane replaced. -/
def Vec.setLane (v : Vec) (w i x : Nat) : Vec :=
  (v &&& ~~~(BitVec.ofNat 2048 ((2 ^ w - 1) * 2 ^ (i * w)))) ||| BitVec.ofNat 2048 (x % 2 ^ w * 2 ^ (i * w))

/-- Writes lanes under a mask: a lane whose bit is 0 keeps its old value. -/
def Vec.write (old : Vec) (w : Nat) (mask : BitVec 128) (l : List Nat) : Vec :=
  l.zipIdx.foldl (fun v p => if mask.getLsbD p.2 then v.setLane w p.2 p.1 else v) old

/-- The value of a lane code under a TYPE. -/
def laneNum (ty v : Nat) : Num := if ty = 3 then intNum 32 v else (tyFmt ty).decode v

/-- Sticky flags: 1 INVALID, 2 DIVZERO, 4 OVERFLOW, 8 UNDERFLOW. -/
structure LaneOut where
  code : Nat
  flags : Nat
  deriving DecidableEq, Repr

/-- A result rounded once to a TYPE. `seed` names the operation and its operands, for the values the manual leaves open: NaN
bits, and INT32 results out of range. -/
def laneRound (ty : Nat) (x : Num) (sticky : Bool) (seed : List Nat) : LaneOut :=
  if ty = 3 then
    match x with
    | .fin neg m e =>
      let n := roundHalfEven m e sticky
      let i : Int := if neg then -(n : Int) else n
      if -(2 ^ 31 : Int) ≤ i && i < 2 ^ 31 then ⟨(i % 2 ^ 32).toNat, 0⟩ else ⟨Config.vxOpen seed % 2 ^ 32, 4⟩
    | _ => ⟨Config.vxOpen seed % 2 ^ 32, 0⟩
  else
    match x with
    | .nan => ⟨(tyFmt ty).nanCode (Config.nanBits seed), 0⟩
    | .inf neg => ⟨(tyFmt ty).infCode neg, 0⟩
    | .fin neg m e =>
      let r := (tyFmt ty).round neg m e sticky false
      ⟨r.code, (if r.ovf then 4 else 0) + (if r.udf then 8 else 0)⟩

/-- An exact result of operands; a NaN from operands that are none is invalid. -/
def laneExact (ty : Nat) (x : Num) (ins : List Num) (seed : List Nat) : LaneOut :=
  let r := laneRound ty x false seed
  if x.isNan && !ins.any Num.isNan then { r with flags := r.flags ||| 1 } else r

/-- The smaller or larger of two numbers: a NaN propagates, and a negative zero is below a positive one. -/
def numMin (a b : Num) : Num :=
  if a.isNan || b.isNan then .nan else if a.lt b then a else if b.lt a then b else if a.neg then a else b

def numMax (a b : Num) : Num :=
  if a.isNan || b.isNan then .nan else if a.lt b then b else if b.lt a then a else if a.neg then b else a

/-- ADD to NEG (OP 0x00 to 0x07) in a lane. -/
def laneArith (op ty a b c : Nat) : LaneOut :=
  let x := laneNum ty a
  let y := laneNum ty b
  let z := laneNum ty c
  let seed := [op, ty, a, b, c]
  match op with
  | 0 => laneExact ty (x.add y) [x, y] seed
  | 1 => laneExact ty (x.add y.negate) [x, y] seed
  | 2 => laneExact ty (x.mul y) [x, y] seed
  | 3 => laneExact ty ((x.mul y).add z) [x, y, z] seed
  | 4 => laneExact ty (numMin x y) [x, y] seed
  | 5 => laneExact ty (numMax x y) [x, y] seed
  | 6 => if ty = 3 then laneExact ty (if x.neg then x.negate else x) [x] seed else ⟨a % 2 ^ (tyBits ty - 1), 0⟩
  | _ => if ty = 3 then laneExact ty x.negate [x] seed
    else ⟨if a.testBit (tyBits ty - 1) then a % 2 ^ (tyBits ty - 1) else a + 2 ^ (tyBits ty - 1), 0⟩

/-- EXP to COS (OP 0x10 to 0x1A) in a lane. -/
def laneFn (op ty a : Nat) : LaneOut :=
  let seed := [op, ty, a]
  match vxFn op (laneNum ty a) with
  | .nan inv => let r := laneRound ty .nan false seed; { r with flags := r.flags ||| inv.toNat }
  | .inf neg dz => let r := laneRound ty (.inf neg) false seed; { r with flags := r.flags ||| (if dz then 2 else 0) }
  | .exact neg m e => laneRound ty (.fin neg m e) false seed
  | .approx neg m e => laneRound ty (.fin neg m e) true seed
  | .open_ => ⟨Config.vxOpen seed % 2 ^ tyBits ty, 0⟩

/-- CMP in a lane: 0 LT, 1 LE, 2 EQ, 3 NE. A comparison with a NaN holds only as NE. -/
def laneCmp (op ty a b : Nat) : Bool :=
  let x := laneNum ty a
  let y := laneNum ty b
  match op with
  | 0 => x.lt y
  | 1 => x.lt y || x.eqv y
  | 2 => x.eqv y
  | _ => !x.eqv y

/-- One level of the pairwise tree over lane order (R128). -/
def pairAdd (ty : Nat) : List LaneOut → List LaneOut
  | a :: b :: t =>
    let r := laneArith 0 ty a.code b.code 0
    { r with flags := r.flags ||| a.flags ||| b.flags } :: pairAdd ty t
  | l => l

/-- The pairwise-tree sum of a list of lanes. -/
def treeSum (ty : Nat) : Nat → List LaneOut → LaneOut
  | 0, l => l.headD ⟨0, 0⟩
  | n + 1, l => treeSum ty n (pairAdd ty l)

/-- Inserts an indexed FP32 lane into a list in descending order, after its equals. -/
def insertDesc (x : Nat × Nat) : List (Nat × Nat) → List (Nat × Nat)
  | [] => [x]
  | y :: t => if (fp32.decode y.1).lt (fp32.decode x.1) then x :: y :: t else y :: insertDesc x t

/-- The stable descending order of FP32 lanes, each with its index. -/
def sortDesc (l : List Nat) : List (Nat × Nat) := l.zipIdx.foldl (fun acc x => insertDesc x acc) []

end Sys2Proof.Machine
end

