-- ==== Sys2Proof/Machine/BlockBase.lean ====
section
/-! DEFINITION. What every Block instruction uses: the Sequencer's registers, the condition under which it issues, the fetch
(R111), the end of a program by a fault (R150), its scratchpad and accumulator (R114), and the checks of a DMA descriptor
(R134). -/

namespace Sys2Proof.Machine

/-- A scalar register; s0 reads zero (R108). -/
def BlkSt.sreg (k : BlkSt) (i : Nat) : W64 := if i = 0 then 0 else KMap.get 0 k.s i

/-- Writes a scalar register; a write to s0 is discarded. -/
def BlkSt.setS (k : BlkSt) (i : Nat) (v : W64) : BlkSt := if i = 0 then k else { k with s := KMap.set 0 k.s i v }

/-- A vector register. -/
def BlkSt.vreg (k : BlkSt) (i : Nat) : Vec := KMap.get 0 k.v i

def BlkSt.setV (k : BlkSt) (i : Nat) (v : Vec) : BlkSt := { k with v := KMap.set 0 k.v i v }

/-- A mask register; m0 reads all ones. -/
def BlkSt.mask (k : BlkSt) (i : Nat) : BitVec 128 := if i = 0 then BitVec.allOnes 128 else KMap.get 0 k.m i

/-- Writes a mask register; a write to m0 is discarded. -/
def BlkSt.setM (k : BlkSt) (i : Nat) (v : BitVec 128) : BlkSt := if i = 0 then k else { k with m := KMap.set 0 k.m i v }

/-- A ring partition. -/
def BlkSt.part (k : BlkSt) (i : Nat) : Option RingPart := KMap.get none k.parts i

def BlkSt.setPart (k : BlkSt) (i : Nat) (p : RingPart) : BlkSt := { k with parts := KMap.set none k.parts i (some p) }

/-- AVAIL of a partition (R140). -/
def RingPart.avail (p : RingPart) : Nat := p.wr - p.rd

/-- Whether a DMA descriptor belongs to a Block's own interface. -/
def DmaJob.ofBlk (j : DmaJob) (b : Nat) : Bool := match j.owner with | .blk x _ => x == b | .ch _ _ => false

/-- Whether a tag of a Block is busy. -/
def State.tagBusy (s : State) (b n : Nat) : Bool := s.dma.any (fun j => j.owner == .blk b n)

/-- Sets PEND for new sticky flags (R130). -/
def State.addSticky (s : State) (b flags : Nat) : State :=
  let k := s.blk b
  let new := k.sticky ||| BitVec.ofNat 4 flags
  let s := s.updBlk b (fun x => { x with sticky := new })
  if new = k.sticky then s else s.blkPend b 7

/-- SIG_EN of a Great Array list entry (R159). -/
def State.gaSignal (s : State) (d w1 : Nat) : State := if w1.testBit 52 then s.evcAdd d (bits w1 51 42) 1 else s

/-- Completes a Great Array list entry: its SEQ is reported and its SIG_EN takes effect (R159). -/
def State.gaComplete (s : State) (d w0 w1 : Nat) : State :=
  (s.fset F.GA_STATUS_LAST_SEQ [d] (bits w0 31 0)).gaSignal d w1

/-- Whether a RUN entry that is a part of list entry `i` of a District's retired Great Array has not completed (R176). -/
def State.emuLeft (s : State) (d i : Nat) : Bool :=
  (KMap.get [] (s.dist d).cq 1).any (fun e => e.emu == some i) ||
    s.blks.any (fun p => (match p.2.running with | some e => e.emu == some i && e.dist == d | none => false) ||
      p.2.inbox.any (fun x => x.entry.emu == some i && x.entry.dist == d))

/-- A RUN entry that is a part of an emulated list entry has completed: the last one completes the list entry (R176). -/
def State.emuDone (s : State) (d : Nat) (emu : Option Nat) : State :=
  match emu with
  | none => s
  | some i => match KMap.get none (s.dist d).ga.emu i with
    | none => s
    | some w => if s.emuLeft d i then s
      else (s.updGa d (fun g => { g with emu := KMap.set none g.emu i none })).gaComplete d w.1 w.2

/-- A Command List entry completes: SIG_EN and IRQ take effect (R99). -/
def State.entryDone (s : State) (e : CqEntry) : State :=
  let s := s.emuDone e.dist e.emu
  let s := if e.w1.testBit 52 then s.evcAdd e.dist (bits e.w1 51 42) 1 else s
  if e.w0.testBit 59 then s.srcEvent (.priv e.dist 1) else s

/-- The program of a Block ends and its entry completes. -/
def State.programDone (s : State) (b : Nat) : State :=
  match (s.blk b).running with
  | some e => (s.updBlk b (fun x => { x with running := none })).entryDone e
  | none => s

/-- Captures a Block fault and logs it. -/
def State.blkCapture (s : State) (b code addr : Nat) (dataErr : Bool := false) : State :=
  (s.capture F.BLK_ERR_VALID F.BLK_ERR_OVERFLOW [b] [(F.BLK_ERR_CODE, code), (F.BLK_ERR_ADDR, addr)]).blkEv code b
    (s.runnerOfBlock b) (addr % 2 ^ 32) dataErr

/-- A program ended by a fault (R150): it completes its entry, and the event discards or replays the step. -/
def State.blkFault (s : State) (b code addr : Nat) (dataErr : Bool := false) : State :=
  (s.blkCapture b code addr dataErr).programDone b

/-- Whether a Block's Sequencer issues instructions: a program runs in the running step, which has been entered and neither
ended nor is being suspended, and the Block is not halted. -/
def State.blkReady (s : State) (b : Nat) : Bool :=
  let t := s.runnerOfBlock b
  (s.blk b).running.isSome && !(s.blk b).halted && !s.stopped && t != 0 && s.tick.suspending.isNone &&
    match s.run t with
    | some r => r.entered && r.ended.isNone
    | none => false

/-- The step's deadline (R66). -/
def State.deadline (s : State) (budgetUs : Nat) : Nat :=
  let d := s.fget F.TICK_ACTIVE_PERIOD_US [] - s.fget F.TICK_ACTIVE_EAVE_US []
  s.tick.startNs + (if 0 < budgetUs && budgetUs < d then budgetUs else d) * 1000

/-- Whether an array pass may start (R43, R66, R69, R174): not in the Eave, nor for a step at or past its deadline, nor under
emergency throttle. -/
def State.passAllowed (s : State) : Bool :=
  !s.tick.eave && s.fget F.PWR_STATUS_EMERG [] == 0 &&
    match s.run s.tick.cur with
    | some r => !r.overrun && s.now < s.deadline r.budget
    | none => false

/-- Lines of a Block's instruction cache: 16 KiB of 128 B (R111). -/
abbrev blkLines : Nat := 128

/-- Puts a line in the instruction cache of a Block. DESIGN CHOICE (assumption 33): the free value names the line that leaves a full
one. -/
def State.blkFill (s : State) (b line : Nat) : State :=
  let k := s.blk b
  let l := if k.icache.length < blkLines then k.icache else k.icache.eraseIdx (Config.cacheVictim s.free % blkLines)
  s.tickFree.updBlk b (fun x => { x with icache := l ++ [line] })

/-- The answer to a request that was sent to another device or a drive, by the number of its result; none while there is none. -/
def State.farAnswer (s : State) (n : Nat) : Option Nat × State :=
  let id := (n - farTag) / 2
  if n % 2 = 0 then match s.fabResult id with
    | some x => (some x.1, s.fabDrop id)
    | none => (none, s)
  else match s.nvmeResult id with
    | some x => (some x.1, s.nvmeDrop id)
    | none => (none, s)

/-- The fetch of the instruction at PC (R111): its status, or none while it waits. PC passes the bounds check with RD and ENGINE; a line
that the instruction cache does not hold is read by one request, which its Tenancy's memory shaper may hold (R298) and which may
go to another device or a drive. -/
def State.blkFetch (s : State) (b : Nat) : Option Nat × State :=
  let k := s.blk b
  let i := blkIssuer b (s.runnerOfBlock b)
  let line := k.pc / 128 * 128
  match k.fetching with
  | some (l, n) => match s.farAnswer n with
    | (none, s) => (none, s)
    | (some st, s) =>
      let s := s.updBlk b (fun x => { x with fetching := none })
      let s := if st = 0 then s.blkFill b l else s
      (if l = line then some st else none, s)
  | none => match s.check i .fetch k.pc with
    | (0, _, s) =>
      if k.icache.contains line then (some 0, s)
      else match s.issue i .fetch (2 ^ 53 + 1024 + b) line 128 [] false with
        | (none, s) => (none, s)
        | (some r, s) =>
          if r.1 < farTag then (some r.1, if r.1 = 0 then s.blkFill b line else s)
          else (none, s.updBlk b (fun x => { x with fetching := some (line, r.1) }))
    | (st, _, s) => (some st, s)

/-- Whether the Sequencer acts on a local interrupt at its next instruction boundary (R148). -/
def BlkSt.due (k : BlkSt) : Bool := k.ie && k.pend &&& k.en != 0

/-- One instruction of a Block: when its Sequencer issues and no local interrupt is due, its fetch, then what the instruction does.
While the fetch waits, the instruction is given again. -/
def State.blkInstr (s : State) (b : Nat) (act : BlkSt → State → State) : Host.Outcome State Fault Refusal :=
  if !s.blkReady b || (s.blk b).due then .next s
  else match s.blkFetch b with
    | (none, t) => .next t
    | (some st, t) =>
      if st != 0 then .next (t.blkFault b 0x68 (s.blk b).pc (st = St.dataError)) else .next (act (t.blk b) t)

/-- The instruction has issued and PC moves to `pc`. -/
def State.blkGoto (s : State) (b pc : Nat) : State := s.updBlk b (fun x => { x with lastPc := x.pc, pc := pc % 2 ^ 64 })

/-- The instruction has issued and the next one follows. -/
def State.blkNext (s : State) (b : Nat) : State := s.blkGoto b ((s.blk b).pc + 8)

/-- Writes a scalar register and goes on. -/
def State.blkSet (s : State) (b sd : Nat) (v : W64) : State := (s.updBlk b (fun x => x.setS sd v)).blkNext b

/-- An illegal instruction or operand combination (R118). -/
def State.blkIllegal (s : State) (b : Nat) : State := s.blkFault b 0x60 (s.blk b).pc

/-- A range, alignment or partition that is not legal (R118). -/
def State.blkRange (s : State) (b off : Nat) : State := s.blkFault b 0x61 off

/-- Whether an offset range lies in the scratchpad and accumulator (R114), aligned to `al`. -/
def offOk (off n al : Nat) : Bool := off + n ≤ 0x100000 && off % al = 0

/-- Whether a pass in flight writes a tile that an offset range touches (R112). -/
def State.tileBusy (s : State) (b off n : Nat) : Bool :=
  (s.blk b).passes.any fun p => p.tiles.any fun t => overlap off n (0xC0000 + t * 0x1000) 0x1000

/-- Reads the Block's own scratchpad or accumulator. -/
def State.spadRead (s : State) (b off n : Nat) : List Byte × State :=
  let r := s.tierRead (s.runnerOfBlock b) (.spad b) (spadBase b + off) n
  (r.2.1, r.2.2)

/-- Writes the Block's own scratchpad or accumulator. -/
def State.spadWrite (s : State) (b off : Nat) (l : List Byte) : State :=
  (s.chipWrite (s.runnerOfBlock b) (.spad b) (spadBase b + off) l).2

/-! ### Descriptors (R132, R134) -/

def DmaJob.w (j : DmaJob) (i : Nat) : Nat := (j.words[i]?).getD 0
def DmaJob.op (j : DmaJob) : Nat := bits (j.w 0) 63 60
def DmaJob.reduce (j : DmaJob) : Nat := bits (j.w 0) 59 58
def DmaJob.ring (j : DmaJob) : Bool := (j.w 0).testBit 57
def DmaJob.irq (j : DmaJob) : Bool := (j.w 0).testBit 56
def DmaJob.part (j : DmaJob) : Nat := bits (j.w 0) 55 52
def DmaJob.scatter (j : DmaJob) : Bool := (j.w 0).testBit 51
def DmaJob.esize (j : DmaJob) : Nat := bits (j.w 0) 47 40
def DmaJob.lanes (j : DmaJob) : Nat := bits (j.w 0) 39 32
def DmaJob.stepAxis (j : DmaJob) : Bool := (j.w 0).testBit 31
def DmaJob.src (j : DmaJob) : Nat := j.w 1
def DmaJob.dst (j : DmaJob) : Nat := j.w 2
def DmaJob.srcStride (j : DmaJob) : Nat := bits (j.w 3) 63 32
def DmaJob.dstStride (j : DmaJob) : Nat := bits (j.w 3) 31 0
def DmaJob.rows (j : DmaJob) : Nat := bits (j.w 4) 63 32
def DmaJob.rowBytes (j : DmaJob) : Nat := bits (j.w 4) 31 0
def DmaJob.indexAddr (j : DmaJob) : Nat := j.w 5
def DmaJob.indexFirst (j : DmaJob) : Nat := bits (j.w 6) 63 32
def DmaJob.indexCount (j : DmaJob) : Nat := bits (j.w 6) 31 0

/-- Rows that the descriptor moves. -/
def DmaJob.count (j : DmaJob) : Nat := if j.op = 3 || j.op = 4 then j.indexCount else j.rows

/-- The total of a descriptor in bytes (R133). -/
def DmaJob.total (j : DmaJob) : Nat := j.count * j.rowBytes

/-- Steps of a SKEW (R135). -/
def DmaJob.steps (j : DmaJob) : Nat := if j.stepAxis then j.rowBytes * 8 / j.esize else j.rows

/-- The lines of a SKEW. -/
def DmaJob.skewLines (j : DmaJob) : Nat := j.steps + j.lanes - 1

/-- Bytes that the destination receives. -/
def DmaJob.stream (j : DmaJob) : Nat := if j.op = 2 then j.skewLines * skewPitch j.lanes j.esize else j.total

/-- Whether indices choose the rows of the source, or with SCATTER of the destination (R133). -/
def DmaJob.indexed (j : DmaJob) : Bool := j.op = 3 || j.op = 4

/-- Bytes from the first to the end of the last of rows at a stride. -/
def DmaJob.span (j : DmaJob) (stride : Nat) : Nat := (j.count - 1) * stride + j.rowBytes

/-- Whether a range lies in the Block scratchpad windows. -/
def inSpads (a n : Nat) : Bool := spadBase 0 ≤ a && a + n ≤ spadBase 1024

/-- The physical Block behind the scratchpad window base that DST names. -/
def State.ringBlock (s : State) (j : DmaJob) : Option Nat :=
  match winOf j.dst with
  | .spad id off =>
    if off != 0 then none
    else if j.ten = 0 then (if s.fuseEnabled id then some id else none)
    else (s.ten j.ten).bind (fun v => v.phys id)
  | _ => none

/-- Whether a ring transfer uses a partition of a Block. -/
def State.ringUses (s : State) (b n : Nat) : Bool :=
  s.dma.any (fun j => j.ring && j.part == n && j.status.isNone && s.ringBlock j == some b)

/-- Whether the destination of a REDUCE is not legal, as far as the descriptor alone shows it (R134): each row lies on whole lines of
the Block scratchpad windows. Rows that indices choose are tested when the indices have been read. -/
def DmaJob.reduceBad (j : DmaJob) : Bool :=
  j.op = 2 || j.op = 5 || j.dst % 128 != 0 || j.rowBytes % 128 != 0 || !inSpads j.dst 1 ||
    (!j.ring && !(j.indexed && j.scatter) &&
      ((1 < j.count && j.dstStride % 128 != 0) || !inSpads j.dst (j.span j.dstStride)))

/-- Whether the issuer rejects a descriptor (R134). -/
def State.descBad (s : State) (j : DmaJob) : Bool :=
  !(1 ≤ j.op && j.op ≤ 5) || j.reduce = 3 || bits (j.w 0) 50 48 != 0 || bits (j.w 0) 30 0 != 0 || bits (j.w 7) 48 0 != 0 ||
    ((j.op = 3 || j.op = 4) && (j.rows != 0 || j.indexCount = 0)) || j.total = 0 || 0x4000000 < j.total ||
    (j.op = 2 && (!([4, 6, 8, 16, 32].contains j.esize) || j.lanes = 0 || 64 < j.lanes ||
      (j.stepAxis && j.rows != j.lanes))) ||
    (j.ring && match s.ringBlock j with
      | some b => ((s.blk b).part j.part).isNone
      | none => true) ||
    (j.reduce != 0 && j.reduceBad)

/-- The ranges that a descriptor reads and writes as rows: none for the pattern of a FILL, the skewed lines of a SKEW, and none for a
ring partition, which lies below the accumulator. DESIGN CHOICE (assumption 34): where indices choose the rows, the range is the rest
of the window. -/
def DmaJob.ranges (j : DmaJob) : List (Nat × Nat) :=
  let rest := fun (a : Nat) => (a, 0x100000 - a % 0x100000)
  (if j.op = 5 then [] else if j.indexed && !j.scatter then [rest j.src] else [(j.src, j.span j.srcStride)]) ++
    (if j.ring then [] else if j.indexed && j.scatter then [rest j.dst]
      else [(j.dst, if j.op = 2 then j.stream else j.span j.dstStride)])

/-- Whether a range of a descriptor reaches a tile of the Block's own accumulator that a pass in flight writes (R112). -/
def State.dmaTileBusy (s : State) (b : Nat) (j : DmaJob) : Bool :=
  j.ranges.any fun r => match winOf r.1 with
    | .spad id off =>
      (if j.ten = 0 then id == b else ((s.ten j.ten).bind (fun v => v.phys id)) == some b) && s.tileBusy b off r.2
    | _ => false

/-- Logs a rejected descriptor as 0x62 (R134). -/
def State.dmaReject (s : State) (j : DmaJob) : State :=
  match j.owner with
  | .blk b _ => s.blkCapture b 0x62 j.off
  | .ch d c => s.distEv 0x62 d c j.ten

/-- Accepts a descriptor: a rejected one ends at once with DESC_INVALID, as 0x62 (R134). -/
def State.dmaAccept (s : State) (j : DmaJob) : State :=
  let bad := s.descBad j
  let j := { j with id := s.nextJob, status := if bad then some St.descInvalid else none }
  let s := { s with dma := s.dma ++ [j], nextJob := s.nextJob + 1 }
  if bad then s.dmaReject j else s

end Sys2Proof.Machine
end

