-- ==== Sys2Proof/Machine/BlockCt.lean ====
section
/-! DEFINITION. The Block instructions of the classes DM (R131), SY (R144, R145) and CT (R113, R146), the arrival of posts, the
local timer and interrupts (R147, R148), and the dispatcher, inbox and program start (R99 to R102, R109). -/

namespace Sys2Proof.Machine

/-! ### DM -/

/-- A DM instruction: its must-be-zero bit. -/
def State.dmInstr (s : State) (b : Nat) (z : Bool) (act : BlkSt → State → State) : Host.Outcome State Fault Refusal :=
  s.blkInstr b fun k s => if z then s.blkIllegal b else act k s

/-- The offset s[SA] + IMM of DM.GO. -/
def dmAddr (k : BlkSt) (sa : Nat) (imm : BitVec 32) : Nat := (k.sreg sa + imm.setWidth 64).toNat

/-- DM.GO (R131, R134): the descriptor is read and accepted on its tag, once the tag is free and no pass in flight writes a
tile that it moves. -/
def execDmGo (b : BlockId) (sa : Fin 32) (n : Fin 16) (z : Bool) (imm : BitVec 32) (s : State) :
    Host.Outcome State Fault Refusal :=
  s.dmInstr b z fun k s =>
    let a := dmAddr k sa imm
    if 8 ≤ n.val then s.blkIllegal b
    else if !offOk a 64 64 then s.blkRange b a
    else
      let r := s.spadRead b a 64
      let j : DmaJob := { id := 0, owner := .blk b n, ten := s.runnerOfBlock b, off := a,
                          words := (List.range 8).map (fun i => leNat ((r.1.drop (8 * i)).take 8)) }
      if s.tagBusy b n || s.dmaTileBusy b j then s
      else (r.2.dmaAccept j).blkNext b

/-- DM.WAIT (R131). -/
def execDmWait (b : BlockId) (z : Bool) (imm : BitVec 32) (s : State) : Host.Outcome State Fault Refusal :=
  s.dmInstr b z fun _ s =>
    if (List.range 8).any (fun n => imm.getLsbD n && s.tagBusy b n) then s else s.blkNext b

/-- DM.STAT (R131, R137): BUSY while the descriptor runs. -/
def execDmStat (b : BlockId) (sd : Fin 32) (n : Fin 16) (z : Bool) (s : State) : Host.Outcome State Fault Refusal :=
  s.dmInstr b z fun k s =>
    if 8 ≤ n.val then s.blkIllegal b
    else match s.dma.find? (fun j => j.owner == .blk b n) with
      | some j => s.blkSet b sd (BitVec.ofNat 64 (j.bytes % 2 ^ 32 * 256 + 1))
      | none => s.blkSet b sd (BitVec.ofNat 64 (KMap.get 0 k.tagStat n))

/-- DM.PART (R117): it waits for a ring transfer that uses the partition. -/
def execDmPart (b : BlockId) (sa sb : Fin 32) (n : Fin 16) (z : Bool) (s : State) : Host.Outcome State Fault Refusal :=
  s.dmInstr b z fun k s =>
    let base := (k.sreg sa).toNat % 2 ^ 20
    let size := (k.sreg sb).toNat
    let meets := (List.range 16).any fun m => m != n.val && match k.part m with
      | some q => overlap base size q.base q.size
      | none => false
    if base % 4096 != 0 || size % 4096 != 0 || size = 0 || 0xC0000 < base + size || meets then s.blkRange b base
    else if s.ringUses b n then s
    else (s.updBlk b (fun x => x.setPart n ⟨base, size, 0, 0⟩)).blkNext b

/-- DM.RAVAIL (R131). DESIGN CHOICE (assumption 35): an undefined partition is 0x61, for REL too. -/
def execDmRavail (b : BlockId) (sd : Fin 32) (n : Fin 16) (z : Bool) (s : State) : Host.Outcome State Fault Refusal :=
  s.dmInstr b z fun k s => match k.part n with
    | some q => s.blkSet b sd (BitVec.ofNat 64 q.avail)
    | none => s.blkRange b 0

/-- DM.RWAIT (R131): it ends when AVAIL has reached IMM, or when no ring transfer to the partition is pending or running. -/
def execDmRwait (b : BlockId) (n : Fin 16) (z : Bool) (imm : BitVec 32) (s : State) : Host.Outcome State Fault Refusal :=
  s.dmInstr b z fun k s =>
    let enough := match k.part n with
      | some q => decide (imm.toNat ≤ q.avail)
      | none => false
    if enough || !s.ringUses b n then s.blkNext b else s

/-- DM.REL (R131, R141). -/
def execDmRel (b : BlockId) (n : Fin 16) (z : Bool) (imm : BitVec 32) (s : State) : Host.Outcome State Fault Refusal :=
  s.dmInstr b z fun k s => match k.part n with
    | some q =>
      if imm.toNat % 128 != 0 then s.blkRange b q.base
      else
        let s := if q.avail < imm.toNat then s.blkCapture b 0x65 q.base else s
        (s.updBlk b (fun x => x.setPart n { q with rd := q.rd + min imm.toNat q.avail })).blkNext b
    | none => s.blkRange b 0

/-! ### SY -/

/-- Puts a post on its way. -/
def State.sendPost (s : State) (src ten target ctr value : Nat) (after : List Nat) : State :=
  { s with posts := s.posts ++ [⟨src, ten, target, ctr, value, after⟩] }

/-- The target of SY.POST: BLOCK, or s[SB][9:0]. -/
def postTarget (k : BlkSt) (sb blk : Nat) (useReg : Bool) : Nat := if useReg then (k.sreg sb).toNat % 1024 else blk

/-- SY.POST (R144). -/
def execSyPost (b : BlockId) (sb : Fin 32) (blk : Fin 1024) (useReg : Bool) (ctr : Fin 16) (z : Fin 8) (value : BitVec 24)
    (s : State) : Host.Outcome State Fault Refusal :=
  s.blkInstr b fun k s =>
    if z != 0 then s.blkIllegal b
    else (s.sendPost b (s.runnerOfBlock b) (postTarget k sb blk useReg) ctr value.toNat []).blkNext b

/-- SY.POSTF (R144): the post leaves after every descriptor that the Block has issued. -/
def execSyPostf (b : BlockId) (sb : Fin 32) (blk : Fin 1024) (useReg : Bool) (ctr : Fin 16) (z : Fin 8) (value : BitVec 24)
    (s : State) : Host.Outcome State Fault Refusal :=
  s.blkInstr b fun k s =>
    if z != 0 then s.blkIllegal b
    else (s.sendPost b (s.runnerOfBlock b) (postTarget k sb blk useReg) ctr value.toNat
      ((s.dma.filter (fun j => j.ofBlk b)).map DmaJob.id)).blkNext b

/-- SY.WAIT (R144, R145). -/
def execSyWait (b : BlockId) (ctr : Fin 16) (z : Fin 8) (value : BitVec 24) (s : State) : Host.Outcome State Fault Refusal :=
  s.blkInstr b fun _ s =>
    if z != 0 then s.blkIllegal b
    else if s.fget F.BLK_POST_VALUE [b, ctr] < value.toNat then s
    else s.blkNext b

/-- SY.RDC (R144). -/
def execSyRdc (b : BlockId) (sd : Fin 32) (ctr : Fin 16) (z : Fin 8) (s : State) : Host.Outcome State Fault Refusal :=
  s.blkInstr b fun _ s =>
    if z != 0 then s.blkIllegal b else s.blkSet b sd (BitVec.ofNat 64 (s.fget F.BLK_POST_VALUE [b, ctr]))

/-- Whether post `n` may arrive: no earlier post of its source to its target waits, and the descriptors that it follows have
completed. -/
def State.postReady (s : State) (n : Nat) (p : Post) : Bool :=
  !(s.posts.take n).any (fun q => q.src == p.src && q.target == p.target && q.ten == p.ten) &&
    p.after.all (fun i => !s.dma.any (fun j => j.id == i))

/-- POST_ARRIVE (R145): a post raises a counter, which saturates, with source 3 pending when it changes, or is dropped with 0x64 when
the Tenancy's map does not assign its target. DESIGN CHOICE (assumption 36): 0x64 has the level Block alone (R149); that of a DMA
channel's post names the first Block of its District. -/
def execPostArrive (n : Nat) (s : State) : Host.Outcome State Fault Refusal :=
  match s.posts[n]? with
  | none => .next s
  | some p =>
    if !s.postReady n p then .next s
    else
      let s := { s with posts := s.posts.eraseIdx n }
      match (s.ten p.ten).bind (fun v => v.phys p.target) with
      | some b =>
        let t := s.fsat F.BLK_POST_VALUE [b, p.ctr] p.value
        .next (if t.fget F.BLK_POST_VALUE [b, p.ctr] = s.fget F.BLK_POST_VALUE [b, p.ctr] then t else t.blkPend b 3)
      | none =>
        if p.src < 1024 then .next (s.blkCapture p.src 0x64 p.target)
        else .next (s.blkEv 0x64 ((p.src - 1024) / 64 * 256) p.ten p.target)

/-! ### CT -/

/-- A CT instruction: bits [36:32] must be zero. -/
def State.ctInstr (s : State) (b : Nat) (z : Fin 32) (act : BlkSt → State → State) : Host.Outcome State Fault Refusal :=
  s.blkInstr b fun k s => if z != 0 then s.blkIllegal b else act k s

/-- ADD to MAX (R146), in the order of their opcodes; MIN and MAX compare signed values, as SLT does. -/
def ctOp (op : Nat) (a b : W64) : W64 :=
  let n := b.toNat % 64
  match op with
  | 0 => a + b
  | 1 => a - b
  | 2 => a &&& b
  | 3 => a ||| b
  | 4 => a ^^^ b
  | 5 => a <<< n
  | 6 => a >>> n
  | 7 => a.sshiftRight n
  | 8 => a * b
  | 9 => if a.slt b then 1 else 0
  | 10 => if a.ult b then 1 else 0
  | 11 => if a.slt b then a else b
  | _ => if a.slt b then b else a

/-- The opcodes of VX that R127 lists. -/
def vxOpcodes : List Nat :=
  List.range 8 ++ List.range' 0x10 11 ++ [0x20, 0x21, 0x28, 0x29, 0x2A, 0x2B, 0x2C, 0x30, 0x31, 0x33, 0x34, 0x35, 0x38, 0x39, 0x40, 0x41]

/-- The opcodes of CT that R146 lists. -/
def ctOpcodes : List Nat :=
  List.range' 1 13 ++ [0x10, 0x11, 0x12, 0x14, 0x15, 0x20, 0x21, 0x22, 0x23, 0x24, 0x25, 0x26, 0x27, 0x30, 0x31, 0x32, 0x33, 0x34,
    0x35, 0x36, 0x37]

/-- Whether the class of a word, or its opcode of VX, DM, SY or CT, is reserved (R118). -/
def blkReserved (cls op : Nat) : Bool :=
  match cls with
  | 1 => false
  | 2 => !vxOpcodes.contains op
  | 3 => op = 0 || 7 < op
  | 4 => op = 0 || 4 < op
  | 5 => !ctOpcodes.contains op
  | _ => true

/-- CT ADD to MAX (R146), and every word whose class or opcode is reserved: it is 0x60 (R118). A word of another instruction is that
instruction's own command; given here it does nothing. -/
def execCtAlu (b : BlockId) (w : Fin 16 × Fin 256) (sd sa sb : Fin 32) (z : Fin 32) (s : State) : Host.Outcome State Fault Refusal :=
  let op := w.2.val
  if w.1.val = 5 && 1 ≤ op && op ≤ 13 then s.ctInstr b z fun k s => s.blkSet b sd (ctOp (op - 1) (k.sreg sa) (k.sreg sb))
  else if blkReserved w.1 op then s.blkInstr b fun _ s => s.blkIllegal b
  else .next s

/-- CT ADDI (R146). -/
def execCtAddi (b : BlockId) (sd sa : Fin 32) (z : Fin 32) (imm : BitVec 32) (s : State) : Host.Outcome State Fault Refusal :=
  s.ctInstr b z fun k s => s.blkSet b sd (k.sreg sa + imm.signExtend 64)

/-- CT LI (R146). -/
def execCtLi (b : BlockId) (sd : Fin 32) (z : Fin 32) (imm : BitVec 32) (s : State) : Host.Outcome State Fault Refusal :=
  s.ctInstr b z fun _ s => s.blkSet b sd (imm.signExtend 64)

/-- CT LIH (R146). -/
def execCtLih (b : BlockId) (sd : Fin 32) (z : Fin 32) (imm : BitVec 32) (s : State) : Host.Outcome State Fault Refusal :=
  s.ctInstr b z fun k s => s.blkSet b sd ((k.sreg sd).extractLsb' 0 32 |>.setWidth 64 |>.or (imm.setWidth 64 <<< 32))

/-- The offset s[SA] + IMM of CT LD and ST. -/
def ctAddr (k : BlkSt) (sa : Nat) (imm : BitVec 32) : Nat := (k.sreg sa + imm.signExtend 64).toNat

/-- CT LD (R146). -/
def execCtLd (b : BlockId) (sd sa : Fin 32) (z : Fin 32) (imm : BitVec 32) (s : State) : Host.Outcome State Fault Refusal :=
  s.ctInstr b z fun k s =>
    let a := ctAddr k sa imm
    if !offOk a 8 8 then s.blkRange b a
    else if s.tileBusy b a 8 then s
    else
      let r := s.spadRead b a 8
      r.2.blkSet b sd (BitVec.ofNat 64 (leNat r.1))

/-- CT ST (R146). -/
def execCtSt (b : BlockId) (sa sb : Fin 32) (z : Fin 32) (imm : BitVec 32) (s : State) : Host.Outcome State Fault Refusal :=
  s.ctInstr b z fun k s =>
    let a := ctAddr k sa imm
    if !offOk a 8 8 then s.blkRange b a
    else if s.tileBusy b a 8 then s
    else (s.spadWrite b a (leBytes 8 (k.sreg sb).toNat)).blkNext b

/-- The conditions of CT BEQ to BGEU. -/
def ctTaken (cc : Nat) (a b : W64) : Bool :=
  match cc with
  | 0 => a == b
  | 1 => a != b
  | 2 => a.slt b
  | 3 => !a.slt b
  | 4 => a.ult b
  | _ => !a.ult b

/-- PC + IMM × 8. -/
def ctJump (k : BlkSt) (imm : BitVec 32) : Nat := (BitVec.ofNat 64 k.pc + imm.signExtend 64 * 8).toNat

/-- CT BEQ to BGEU (R146). -/
def execCtBranch (b : BlockId) (cc : Fin 6) (sa sb : Fin 32) (z : Fin 32) (imm : BitVec 32) (s : State) :
    Host.Outcome State Fault Refusal :=
  s.ctInstr b z fun k s => if ctTaken cc (k.sreg sa) (k.sreg sb) then s.blkGoto b (ctJump k imm) else s.blkNext b

/-- CT J (R146). -/
def execCtJ (b : BlockId) (z : Fin 32) (imm : BitVec 32) (s : State) : Host.Outcome State Fault Refusal :=
  s.ctInstr b z fun k s => s.blkGoto b (ctJump k imm)

/-- CT JR (R146): the target must be 8 B aligned. -/
def execCtJr (b : BlockId) (sa : Fin 32) (z : Fin 32) (imm : BitVec 32) (s : State) : Host.Outcome State Fault Refusal :=
  s.ctInstr b z fun k s =>
    let a := ctAddr k sa imm
    if a % 8 != 0 then s.blkRange b a else s.blkGoto b a

/-- CT.END (R113): once the passes have ended and the descriptors and posts of the Block are done, its entry completes. -/
def execCtEnd (b : BlockId) (z : Fin 32) (s : State) : Host.Outcome State Fault Refusal :=
  s.ctInstr b z fun k s =>
    if !k.passes.isEmpty || s.dma.any (fun j => j.ofBlk b) || s.posts.any (fun p => p.src == b.val) then s
    else (s.updBlk b (fun x => { x with lastPc := x.pc })).programDone b

/-- CT IRET (R146). -/
def execCtIret (b : BlockId) (z : Fin 32) (s : State) : Host.Outcome State Fault Refusal :=
  s.ctInstr b z fun k s => (s.updBlk b (fun x => { x with ie := true })).blkGoto b k.epc

/-- CT SETV (R146): the vector must be 8 B aligned. -/
def execCtSetv (b : BlockId) (sa : Fin 32) (z : Fin 32) (imm : BitVec 32) (s : State) : Host.Outcome State Fault Refusal :=
  s.ctInstr b z fun k s =>
    let v := (k.sreg sa).toNat
    if v % 8 != 0 then s.blkRange b v
    else (s.updBlk b (fun x => { x with vec := KMap.set 0 x.vec (imm.toNat % 16) v })).blkNext b

/-- The sources whose vector is not zero. -/
def BlkSt.vectored (k : BlkSt) : BitVec 16 :=
  (List.range 16).foldl (fun a i => if KMap.get 0 k.vec i = 0 then a else a ||| BitVec.ofNat 16 (2 ^ i)) 0

/-- CT IEN (R146). -/
def execCtIen (b : BlockId) (z : Fin 32) (imm : BitVec 32) (s : State) : Host.Outcome State Fault Refusal :=
  s.ctInstr b z fun k s => (s.updBlk b (fun x => { x with en := imm.setWidth 16 &&& k.vectored })).blkNext b

/-- CT ICLR (R130, R146). -/
def execCtIclr (b : BlockId) (z : Fin 32) (imm : BitVec 32) (s : State) : Host.Outcome State Fault Refusal :=
  s.ctInstr b z fun _ s => (s.updBlk b (fun x => { x with
    pend := x.pend &&& ~~~(imm.setWidth 16), sticky := if imm.getLsbD 31 then 0 else x.sticky })).blkNext b

/-- CT IE (R146). -/
def execCtIe (b : BlockId) (z : Fin 32) (imm : BitVec 32) (s : State) : Host.Outcome State Fault Refusal :=
  s.ctInstr b z fun _ s => (s.updBlk b (fun x => { x with ie := imm.getLsbD 0 })).blkNext b

/-- CT TSET (R146). -/
def execCtTset (b : BlockId) (z : Fin 32) (imm : BitVec 32) (s : State) : Host.Outcome State Fault Refusal :=
  s.ctInstr b z fun _ s => (s.updBlk b (fun x => { x with timer := imm.toNat })).blkNext b

/-- CT RDS (R146); an item that is not listed is illegal. -/
def execCtRds (b : BlockId) (sd : Fin 32) (z : Fin 32) (imm : BitVec 32) (s : State) : Host.Outcome State Fault Refusal :=
  s.ctInstr b z fun k s => match imm.toNat % 256 with
    | 0 => s.blkSet b sd (BitVec.ofNat 64 (s.cclkSince k.bornCycles))
    | 1 => s.blkSet b sd (BitVec.ofNat 64 k.issued)
    | 2 => s.blkSet b sd (k.sticky.setWidth 64)
    | 3 => s.blkSet b sd (k.pend.setWidth 64)
    | 4 => s.blkSet b sd (BitVec.ofNat 64 ((List.range 8).foldl (fun a n => if s.tagBusy b n then a else a + 2 ^ n) 0))
    | _ => s.blkIllegal b

/-- BLOCK_TIMER_ZERO (R147). -/
def execBlockTimerZero (b : BlockId) (s : State) : Host.Outcome State Fault Refusal :=
  if (s.blk b).timer = 0 then .next s else .next ((s.updBlk b (fun x => { x with timer := 0 })).blkPend b 8)

/-- LOCAL_INTERRUPT_ENTRY (R148): with IE set and an enabled source pending, EPC takes the next instruction's address, IE
becomes 0 and PC takes the vector of the lowest-numbered such source. -/
def execLocalInterruptEntry (b : BlockId) (s : State) : Host.Outcome State Fault Refusal :=
  let k := s.blk b
  match (List.range 16).find? (fun i => (k.pend &&& k.en).getLsbD i) with
  | some i =>
    if k.ie && s.blkReady b then
      .next (s.updBlk b (fun x => { x with epc := x.pc, ie := false, pc := KMap.get 0 x.vec i }))
    else .next s
  | none => .next s

/-! ### Dispatch -/

def CqEntry.kind (e : CqEntry) : Nat := bits e.w0 63 60
def CqEntry.block (e : CqEntry) : Nat := bits e.w0 57 48
def CqEntry.ten (e : CqEntry) : Nat := bits e.w0 47 42
def CqEntry.seq (e : CqEntry) : Nat := bits e.w0 31 0

/-- Whether an entry's wait is met (R98, R103). -/
def State.entryWaitMet (s : State) (e : CqEntry) : Bool :=
  !e.w1.testBit 63 || bits e.w1 31 0 ≤ s.fget F.EVC_VALUE [e.dist, bits e.w1 62 53]

/-- The physical Block that an entry names. -/
def State.entryBlock (s : State) (e : CqEntry) : Option Nat :=
  if e.ten = 0 then (if s.fuseEnabled e.block then some e.block else none)
  else (s.ten e.ten).bind (fun v => v.phys e.block)

/-- Why the dispatcher rejects an entry: REASON of CQ_ERR, or 0 (R100). -/
def State.entryReason (s : State) (e : CqEntry) : Nat :=
  let k := e.kind
  let work := k = 1 || k = 2
  if 3 < k then 1
  else if e.w0.testBit 58 || bits e.w0 41 32 != 0 || bits e.w1 41 32 != 0 || (!work && (e.w2 != 0 || e.w3 != 0)) ||
      (k = 2 && e.w3.testBit 32) then 2
  else if work && e.w2 % 8 != 0 then 3
  else if k = 2 && (bits e.w3 49 33 = 0 || 65536 < bits e.w3 49 33) then 4
  else if work && (s.entryBlock e).isNone then 5
  else 0

/-- Removes the head of a queue, as delivered, completed or rejected. -/
def State.cqPop (s : State) (d q : Nat) (e : CqEntry) : State :=
  (s.updDist d (fun x => { x with cq := KMap.set [] x.cq q ((KMap.get [] x.cq q).drop 1) })).fset F.CQ_STATE_LAST_SEQ [d, q] e.seq

/-- Rejects the head of a queue (R100): SIG_EN still takes effect. -/
def State.cqReject (s : State) (d q : Nat) (e : CqEntry) (reason : Nat) : State :=
  let s := s.updDist d (fun x => { x with cq := KMap.set [] x.cq q ((KMap.get [] x.cq q).drop 1) })
  let s := if e.w1.testBit 52 then s.evcAdd d (bits e.w1 51 42) 1 else s
  let s := s.fset F.CQ_STATE_ERR [d, q] 1
  let s := s.captureFirst F.CQ_ERR_VALID [d] [(F.CQ_ERR_REASON, reason), (F.CQ_ERR_QUEUE, q), (F.CQ_ERR_SEQ, e.seq)]
  (s.srcEvent (.priv d 7)).distEv 0x53 d 0 e.ten e.seq

/-- The order in which the dispatcher considers the queues: CQ3, then the others after the one served last (R101). -/
def cqOrder (rr : Nat) : List Nat := [3, (rr + 1) % 3, (rr + 2) % 3, rr % 3]

/-- The head of a queue. -/
def State.cqFront (s : State) (d q : Nat) : Option CqEntry := (KMap.get [] (s.dist d).cq q).head?

/-- Whether an entry takes no delivery: a NOP or a SIGNAL (R99, R100). -/
def CqEntry.free (e : CqEntry) : Bool := e.kind = 0 || e.kind = 3

/-- Whether the head of a queue is a NOP or SIGNAL whose wait is met: it completes, or is rejected, outside the delivery (R99, R100). -/
def State.cqFree (s : State) (d q : Nat) : Bool :=
  match s.cqFront d q with
  | some e => e.free && s.entryWaitMet e
  | none => false

/-- Whether the head of a queue can take the delivery: its wait is met, and it is rejected or its inbox has room (R100 to R102). -/
def State.cqEligible (s : State) (d q : Nat) : Bool :=
  match s.cqFront d q with
  | none => false
  | some e => !e.free && s.entryWaitMet e && (s.entryReason e != 0 || match s.entryBlock e with
      | some b => (s.blk b).inbox.length < 16
      | none => false)

/-- The round robin moves past a queue; CQ3 does not move it (R101). -/
def State.cqMove (s : State) (d q : Nat) : State := if q = 3 then s else s.updDist d (fun x => { x with rr := q })

/-- What becomes of a queue's head: it is rejected, completes in the dispatcher, or is delivered to its Block's inbox. -/
def State.cqTake (s : State) (d q : Nat) (e : CqEntry) (reason : Nat) : State :=
  if reason != 0 then if e.free then s.cqReject d q e reason else (s.cqReject d q e reason).cqMove d q
  else if e.free then (s.cqPop d q e).entryDone e
  else match s.entryBlock e with
    | some b => ((s.cqPop d q e).updBlk b (fun x => { x with inbox := x.inbox ++ [⟨e, false⟩] })).cqMove d q
    | none => s

/-- DISPATCH_ENTRY (R99 to R101, R105): one cclk of a dispatcher. Every NOP or SIGNAL at a head whose wait is met completes or is
rejected, and the first eligible queue's RUN, EXPERT or invalid entry is delivered or rejected. All waits are compared with the
counters that stand before (R103); of entries rejected together, that of the lowest-numbered queue comes first. -/
def execDispatchEntry (d : Dist) (s : State) : Host.Outcome State Fault Refusal :=
  if s.stopped then .next s
  else
    let pick := (cqOrder (s.dist d).rr).find? (s.cqEligible d)
    .next ([0, 1, 2, 3].foldl (fun u q => match s.cqFront d q with
      | some e => if s.cqFree d q || pick == some q then u.cqTake d q e (s.entryReason e) else u
      | none => u) s)

/-- INBOX_ARRIVE (R102): the oldest entry in transit reaches its Block's inbox. -/
def execInboxArrive (b : BlockId) (s : State) : Host.Outcome State Fault Refusal :=
  match (s.blk b).inbox.findIdx? (fun x => !x.arrived) with
  | some i => .next (s.updBlk b (fun x => { x with inbox := x.inbox.modify i (fun y => { y with arrived := true }) }))
  | none => .next s

/-- The start registers of a program (R109). -/
def BlkSt.start (k : BlkSt) (e : CqEntry) (logical batten step : Nat) : BlkSt :=
  let k := { k with running := some e, pc := e.w2, ie := false, en := 0, vec := [], timer := 0, parts := [], fetching := none }
  let w := fun k i v => BlkSt.setS k i (BitVec.ofNat 64 v)
  w (w (w (w (w (w k 1 e.w3) 2 logical) 3 e.seq) 4 batten) 5 step) 6 e.kind

/-- BLOCK_PROGRAM_START (R102, R109): an idle Sequencer starts the head of its inbox. -/
def execBlockProgramStart (b : BlockId) (s : State) : Host.Outcome State Fault Refusal :=
  let k := s.blk b
  match k.inbox with
  | x :: rest =>
    if k.running.isSome || !x.arrived || k.halted || s.tick.suspending.isSome then .next s
    else
      let t := s.runnerOfBlock b
      let logical := match s.ten t with | some v => (v.logical b).getD 0 | none => 0
      let p := match s.ten t, s.run t with
        | some v, some r => (v.battenAddr r.step, r.step)
        | _, _ => (0, 0)
      .next (s.updBlk b (fun y => ({ y with inbox := rest, bornCycles := s.ridge.cycles } : BlkSt).start x.entry logical p.1 p.2))
  | [] => .next s

end Sys2Proof.Machine
end

