-- ==== Sys2Proof/Machine/BlockMm.lean ====
section
/-! DEFINITION. Block array passes (R119 to R125, R152, R153, R172) and the vector instructions (R126 to R130). -/

namespace Sys2Proof.Machine

/-- Whether a combination of shape, formats and Shingle is legal on a Block (R122). -/
def mmLegal (shape fa fb : Nat) (shingle : Bool) : Bool :=
  if 3 < shape then false
  else if fa ≤ 6 && fb ≤ 6 then
    if fa = 6 && fb = 6 then !shingle
    else if shape = 1 then shingle && fb != 6 else !shingle
  else if (fa = 7 && fb = 7) || (fa = 8 && fb = 8) || (fa = 9 && fb = 9) then (shape = 1) == shingle
  else false

/-- The longest stream of a format: 1920 steps at rate 1, 960 at rate 2 (R120). -/
def mmMaxLen (fa : Nat) : Nat := if fa = 8 || fa = 9 then 960 else 1920

/-- The pass that an MM asks for (R119, R120). -/
def mmPass (shape fa fb acc : Nat) (accum shingle : Bool) (a b desc : Nat) : Pass :=
  { shape := shape, fmtA := fa, fmtB := fb, acc := acc, accum := accum, shingle := shingle, a := a, b := b,
    rows := bits desc 16 11 + 1, cols := bits desc 21 17 + 1, len := bits desc 10 0,
    scaleA := bits desc 42 23, scaleB := bits desc 62 43, snap := [] }

/-- cclk per step of a pass: the rate R of R122. -/
def Pass.rate (p : Pass) : Nat := if p.fmtA = 8 || p.fmtA = 9 then 2 else 1

/-- The cclk from issue in which the stream of a pass runs: LEN × R + 32 on a Block, LEN × R + 256 on a Great Array (R152, R156). -/
def Pass.streamCclk (p : Pass) : Nat := p.len * p.rate + if 16 ≤ p.shape then 256 else 32

/-- Whether the stream of a pass in flight has not ended. -/
def State.streams (s : State) (p : Pass) : Bool := s.cclkSince p.bornCycles < p.streamCclk

/-- MM (R119 to R125): an illegal combination ends the program with 0x60, a region or tile range with 0x61; otherwise the
pass issues once the array's stream is free, no pass in flight writes one of its tiles, and passes may start. -/
def execMm (b : BlockId) (shape fa fb : Fin 16) (acc : Fin 64) (accum shingle z : Bool) (sa sb sd : Fin 32)
    (ia ib : BitVec 12) (s : State) : Host.Outcome State Fault Refusal :=
  s.blkInstr b fun k s =>
    let desc := (k.sreg sd).toNat
    let a := ((k.sreg sa) + BitVec.ofNat 64 (ia.toNat * 32)).toNat
    let o := ((k.sreg sb) + BitVec.ofNat 64 (ib.toNat * 32)).toNat
    let p := mmPass shape fa fb acc accum shingle a o desc
    if z || desc.testBit 63 || desc.testBit 22 || !mmLegal shape fa fb shingle || p.len = 0 || mmMaxLen fa < p.len ||
        (shape.val != 1 && 32 < p.rows) then s.blkIllegal b
    else if p.regions.any (fun r => r.1 % 32 != 0 || 0xC0000 < r.1 + r.2) then
      s.blkRange b ((p.regions.find? (fun r => r.1 % 32 != 0 || 0xC0000 < r.1 + r.2)).map Prod.fst |>.getD 0)
    else if p.tiles.any (fun t => 63 < t) then s.blkRange b (0xC0000 + acc.val * 0x1000)
    else if !s.passAllowed || k.passes.any s.streams || p.tiles.any (fun t => s.tileBusy b (0xC0000 + t * 0x1000) 0x1000) then s
    else
      let p := { p with bad := s.regionBads (spadBase b) p, snap := KMap.slice s.mem (spadBase b) 0xC0000 0,
                        bornCycles := s.ridge.cycles }
      (s.updBlk b (fun x => { x with passes := x.passes ++ [p], issued := x.issued + 1 })).blkNext b

/-- Marks tiles of a Block poisoned; source 5 becomes pending when one was not (R147, R172). -/
def State.poisonTiles (s : State) (b : Nat) (l : List Nat) : State :=
  let new := l.any (fun t => !s.rtest .BLK_POISON [b] t)
  let s := l.foldl (fun s t => s.rbit .BLK_POISON [b] t true) s
  if new then s.blkPend b 5 else s

/-- A checksum mismatch of a Block pass (R172). `col` is the failing column when exactly one fails. -/
def State.blkMismatch (s : State) (b : Nat) (p : Pass) (col : Option Nat) : State :=
  let s := s.fsat F.BLK_CHK_COUNT [b] 1
  let s := s.capture F.BLK_CHK_VALID F.BLK_CHK_OVERFLOW [b]
    [(F.BLK_CHK_TILE, p.acc), (F.BLK_CHK_COL_VALID, col.isSome.toNat), (F.BLK_CHK_COL, col.getD 0)]
  (s.poisonTiles b p.tiles).blkEv 0x70 b (s.runnerOfBlock b)
    (p.acc * 2 ^ 26 + col.isSome.toNat * 2 ^ 25 + col.getD 0 * 2 ^ 16)

/-- PASS_END (R152, R153, R170, R172): the oldest pass of a Block gives its results and its verdict. `late` names the 128 B
lines that reached the pass with the contents they have now; `bad` is a mismatch of the checksums. -/
def execPassEnd (b : BlockId) (late : List Nat) (bad : Option (Option (Fin 32))) (s : State) :
    Host.Outcome State Fault Refusal :=
  match (s.blk b).passes with
  | [] => .next s
  | p :: rest =>
    let rd := fun off n => (List.range n).map fun i =>
      if late.contains ((off + i) / 128) then s.byte (spadBase b + off + i) else KMap.get 0 p.snap (off + i)
    let base := spadBase b + 0xC0000
    let out := p.results rd (fun off n => s.rawRead (base + off) n)
    let s1 := out.foldl (fun s r => (s.eccWrite 8 (base + r.1) r.2).2) s
    let s1 := match s.passBads (spadBase b) p late with
      | x :: _ => s1.chipMemError (s.runnerOfBlock b) (.spad b) x
      | [] => s1
    let s1 := match (s.oldBads base p out).head? with
      | some x => (s1.chipMemError (s.runnerOfBlock b) (.spad b) x).poisonTiles b p.tiles
      | none => s1
    let s1 := match bad with
      | some c => s1.blkMismatch b p (c.map Fin.val)
      | none => s1
    .next ((s1.updBlk b (fun x => { x with passes := rest })).blkPend b 4)

/-! ### Vector instructions -/

/-- A VX instruction: TYPE must be one that R126 lists. -/
def State.vxInstr (s : State) (b : Nat) (ty : Fin 8) (act : BlkSt → State → State) : Host.Outcome State Fault Refusal :=
  s.blkInstr b fun k s => if 3 < ty.val then s.blkIllegal b else act k s

/-- Writes lane results under the mask, sets their flags, and goes on. -/
def State.vxWrite (s : State) (b ty mask vd : Nat) (l : List LaneOut) : State :=
  let k := s.blk b
  let m := k.mask mask
  let fl := l.zipIdx.foldl (fun a p => if m.getLsbD p.2 then a ||| p.1.flags else a) 0
  ((s.updBlk b (fun x => x.setV vd ((x.vreg vd).write (tyBits ty) m (l.map LaneOut.code)))).addSticky b fl).blkNext b

/-- The lanes of a register under a TYPE. -/
def lanesOf (ty : Nat) (v : Vec) : List Nat := (List.range (tyLanes ty)).map (Vec.lane v (tyBits ty))

/-- ADD to NEG (R127), and every VX word whose OP is not listed, which is illegal. A word of another OP is that instruction's own
command; given here it does nothing. -/
def execVxArith (b : BlockId) (op : Fin 256) (ty mask : Fin 8) (vd va vb vc : Fin 32) (s : State) :
    Host.Outcome State Fault Refusal :=
  if 7 < op.val && vxOpcodes.contains op.val then .next s
  else s.vxInstr b ty fun k s =>
    if 7 < op.val then s.blkIllegal b
    else s.vxWrite b ty mask vd ((List.range (tyLanes ty)).map fun i =>
      laneArith op ty ((k.vreg va).lane (tyBits ty) i) ((k.vreg vb).lane (tyBits ty) i) ((k.vreg vc).lane (tyBits ty) i))

/-- EXP to COS (R127, R128), OP 0x10 and up. -/
def execVxFunction (b : BlockId) (op : Fin 11) (ty mask : Fin 8) (vd va : Fin 32) (s : State) :
    Host.Outcome State Fault Refusal :=
  s.vxInstr b ty fun k s =>
    s.vxWrite b ty mask vd ((lanesOf ty (k.vreg va)).map (laneFn (0x10 + op.val) ty))

/-- CMP (R127): the mask register takes the lanes' results under MASK; VD[4:3] must be zero. -/
def execVxCmp (b : BlockId) (ty mask : Fin 8) (vd va vb : Fin 32) (imm : BitVec 26) (s : State) :
    Host.Outcome State Fault Refusal :=
  s.vxInstr b ty fun k s =>
    if 8 ≤ vd.val then s.blkIllegal b
    else
      let m := k.mask mask
      let r := (List.range (tyLanes ty)).foldl (fun (acc : BitVec 128) i =>
        if m.getLsbD i then
          let t := laneCmp (imm.toNat % 4) ty ((k.vreg va).lane (tyBits ty) i) ((k.vreg vb).lane (tyBits ty) i)
          if t then acc ||| BitVec.ofNat 128 (2 ^ i) else acc &&& ~~~(BitVec.ofNat 128 (2 ^ i))
        else acc) (k.mask vd)
      (s.updBlk b (fun x => x.setM vd r)).blkNext b

/-- MOV (R127). -/
def execVxMov (b : BlockId) (ty mask : Fin 8) (vd va : Fin 32) (s : State) : Host.Outcome State Fault Refusal :=
  s.vxInstr b ty fun k s => s.vxWrite b ty mask vd ((lanesOf ty (k.vreg va)).map (⟨·, 0⟩))

/-- RSUM (R127, R128). -/
def execRsum (b : BlockId) (ty mask : Fin 8) (vd va : Fin 32) (s : State) : Host.Outcome State Fault Refusal :=
  s.vxInstr b ty fun k s =>
    let r := treeSum ty 7 ((lanesOf ty (k.vreg va)).map (⟨·, 0⟩))
    s.vxWrite b ty mask vd (List.replicate (tyLanes ty) r)

/-- RMAX, and RMIN with `least` (R127). -/
def execRmaxRmin (b : BlockId) (least : Bool) (ty mask : Fin 8) (vd va : Fin 32) (s : State) :
    Host.Outcome State Fault Refusal :=
  s.vxInstr b ty fun k s =>
    let l := lanesOf ty (k.vreg va)
    let r := (l.drop 1).foldl (fun a x => (laneArith (if least then 4 else 5) ty a x 0).code) (l.headD 0)
    s.vxWrite b ty mask vd (List.replicate (tyLanes ty) ⟨r, 0⟩)

/-- RARGMAX (R127): INT32 lanes take the index of the first maximal lane. Among NaNs the manual gives no order. -/
def execRargmax (b : BlockId) (ty mask : Fin 8) (vd va : Fin 32) (s : State) : Host.Outcome State Fault Refusal :=
  s.vxInstr b ty fun k s =>
    let l := lanesOf ty (k.vreg va)
    let best := l.zipIdx.foldl (fun (a : Nat × Nat) p =>
      if (laneNum ty a.1).lt (laneNum ty p.1) then p else a) (l.headD 0, 0)
    let r := if l.any (fun x => (laneNum ty x).isNan) then Config.vxOpen (0x2B :: ty.val :: l) % 2 ^ 32 else best.2
    s.vxWrite b 3 mask vd (List.replicate 64 ⟨r, 0⟩)

/-- SORT (R127): FP32 only, stable and descending; the original indices go to v[VC]. -/
def execSort (b : BlockId) (ty mask : Fin 8) (vd va vc : Fin 32) (s : State) : Host.Outcome State Fault Refusal :=
  s.vxInstr b ty fun k s =>
    if ty.val != 0 then s.blkIllegal b
    else
      let l := lanesOf 0 (k.vreg va)
      let open_ := l.any (fun x => (fp32.decode x).isNan)
      let sorted := sortDesc l
      let vals := if open_ then (List.range 64).map (fun i => Config.vxOpen (0x2C :: i :: l) % 2 ^ 32) else sorted.map Prod.fst
      let idx := if open_ then (List.range 64).map (fun i => Config.vxOpen (0x12C :: i :: l) % 64) else sorted.map Prod.snd
      let m := k.mask mask
      let s := s.updBlk b (fun x => x.setV vd ((x.vreg vd).write 32 m vals))
      (s.updBlk b (fun x => x.setV vc ((x.vreg vc).write 32 m idx))).blkNext b

/-- The address s[VC] + IMM of VX LD and ST. -/
def vxAddr (k : BlkSt) (vc : Nat) (imm : BitVec 26) : Nat := (k.sreg vc + imm.setWidth 64).toNat

/-- VX LD (R127). -/
def execVxLd (b : BlockId) (ty mask : Fin 8) (vd vc : Fin 32) (imm : BitVec 26) (s : State) :
    Host.Outcome State Fault Refusal :=
  s.vxInstr b ty fun k s =>
    let a := vxAddr k vc imm
    if !offOk a 256 128 then s.blkRange b a
    else if s.tileBusy b a 256 then s
    else
      let r := s.spadRead b a 128
      let q := r.2.spadRead b (a + 128) 128
      let v : Vec := BitVec.ofNat 2048 (leNat (r.1 ++ q.1))
      q.2.vxWrite b ty mask vd ((lanesOf ty v).map (⟨·, 0⟩))

/-- VX ST (R127): only the lanes of the mask are written. -/
def execVxSt (b : BlockId) (ty mask : Fin 8) (vd vc : Fin 32) (imm : BitVec 26) (s : State) :
    Host.Outcome State Fault Refusal :=
  s.vxInstr b ty fun k s =>
    let a := vxAddr k vc imm
    if !offOk a 256 128 then s.blkRange b a
    else if s.tileBusy b a 256 then s
    else
      let m := k.mask mask
      let n := tyBits ty / 8
      ((lanesOf ty (k.vreg vd)).zipIdx.foldl (fun s p =>
        if m.getLsbD p.2 then s.spadWrite b (a + p.2 * n) (leBytes n p.1) else s) s).blkNext b

/-- BCAST (R127). -/
def execBcast (b : BlockId) (ty mask : Fin 8) (vd vc : Fin 32) (s : State) : Host.Outcome State Fault Refusal :=
  s.vxInstr b ty fun k s =>
    s.vxWrite b ty mask vd (List.replicate (tyLanes ty) ⟨(k.sreg vc).toNat % 2 ^ tyBits ty, 0⟩)

/-- MOVS (R127): a lane that the TYPE does not have is a free value. -/
def execMovs (b : BlockId) (ty : Fin 8) (vd va : Fin 32) (imm : BitVec 26) (s : State) : Host.Outcome State Fault Refusal :=
  s.vxInstr b ty fun k s =>
    let i := imm.toNat % 128
    let v := if i < tyLanes ty then (k.vreg va).lane (tyBits ty) i else Config.vxOpen [0x34, ty, i] % 2 ^ tyBits ty
    s.blkSet b vd (BitVec.ofNat 64 v)

/-- PERM (R127): an index beyond the lanes gives a free value. -/
def execPerm (b : BlockId) (ty mask : Fin 8) (vd va vb : Fin 32) (s : State) : Host.Outcome State Fault Refusal :=
  s.vxInstr b ty fun k s =>
    s.vxWrite b ty mask vd ((lanesOf ty (k.vreg vb)).map fun i =>
      ⟨if i < tyLanes ty then (k.vreg va).lane (tyBits ty) i else Config.vxOpen [0x35, ty, i] % 2 ^ tyBits ty, 0⟩)

/-- CVT to a format code, with the flags of the rounding. DESIGN CHOICE (assumption 37): a value that saturates, an infinity among
them, overflows, and a NaN that becomes a whole number is invalid. -/
def cvtTo (c : Nat) (x : Num) : LaneOut :=
  match x with
  | .fin neg m e =>
    match fmtOf c with
    | some f => let r := f.round neg m e false true; ⟨r.code, (if r.ovf then 4 else 0) + (if r.udf then 8 else 0)⟩
    | none => ⟨encodeElem c x, if x.toInt < -128 || 127 < x.toInt then 4 else 0⟩
  | .inf _ => ⟨encodeElem c x, if (match fmtOf c with | some f => f.special != 2 || Config.infSaturates c | none => true) then 4 else 0⟩
  | .nan => ⟨encodeElem c x, if c = 7 then 1 else 0⟩

/-- CVT from a format code: to a floating-point TYPE it rounds with saturation, to INT32 it saturates. -/
def cvtFrom (ty : Nat) (x : Num) : LaneOut :=
  match x with
  | .fin neg m e =>
    if ty = 3 then
      let i := x.toInt
      if i < -(2 ^ 31 : Int) then ⟨2 ^ 31, 4⟩ else if (2 ^ 31 : Int) ≤ i then ⟨2 ^ 31 - 1, 4⟩ else ⟨(i % 2 ^ 32).toNat, 0⟩
    else
      let r := (tyFmt ty).round neg m e false true
      ⟨r.code, (if r.ovf then 4 else 0) + (if r.udf then 8 else 0)⟩
  | .inf neg =>
    if ty = 3 then ⟨if neg then 2 ^ 31 else 2 ^ 31 - 1, 4⟩
    else if Config.infSaturates (if ty = 1 then 8 else if ty = 2 then 9 else 16) then
      ⟨(tyFmt ty).sign neg + (tyFmt ty).maxCode, 4⟩
    else ⟨(tyFmt ty).infCode neg, 0⟩
  | .nan => if ty = 3 then ⟨Config.vxOpen [0x38, 3] % 2 ^ 32, 1⟩ else ⟨(tyFmt ty).nanCode (Config.nanBits [0x38, ty]), 0⟩

/-- CVT (R127): lanes to a format code, packed with the low lanes first, or packed elements to lanes with IMM[4]. -/
def execCvt (b : BlockId) (ty mask : Fin 8) (vd va : Fin 32) (imm : BitVec 26) (s : State) : Host.Outcome State Fault Refusal :=
  s.vxInstr b ty fun k s =>
    let c := imm.toNat % 16
    let w := fmtBits c
    if 9 < c then s.blkIllegal b
    else
      let m := k.mask mask
      let out := (List.range (tyLanes ty)).map fun i =>
        if imm.toNat.testBit 4 then cvtFrom ty (elemNum c ((k.vreg va).lane w i))
        else cvtTo c (laneNum ty ((k.vreg va).lane (tyBits ty) i))
      let fl := out.zipIdx.foldl (fun a p => if m.getLsbD p.2 then a ||| p.1.flags else a) 0
      let dw := if imm.toNat.testBit 4 then tyBits ty else w
      ((s.updBlk b (fun x => x.setV vd ((x.vreg vd).write dw m (out.map LaneOut.code)))).addSticky b fl).blkNext b

/-- An element of a group of MXQ: divided by its scale and rounded with saturation, with the flags of that rounding (R130). -/
def mxOut (c scale : Nat) (x : Num) : LaneOut := cvtTo c (x.scale (127 - (scale : Int)))

/-- MXQ (R127): packs each group of 32 lanes in an MX format, with its scale in byte g of v[VB]. -/
def execMxq (b : BlockId) (ty mask : Fin 8) (vd va vb : Fin 32) (imm : BitVec 26) (s : State) :
    Host.Outcome State Fault Refusal :=
  s.vxInstr b ty fun k s =>
    let c := imm.toNat % 16
    if !fmtMx c then s.blkIllegal b
    else
      let xs := (lanesOf ty (k.vreg va)).map (laneNum ty)
      let scales := (List.range (tyLanes ty / 32)).map fun g => mxGroupScale c ((xs.drop (32 * g)).take 32)
      let out := xs.zipIdx.map fun p => mxOut c ((scales[p.2 / 32]?).getD 0) p.1
      let m := k.mask mask
      let fl := out.zipIdx.foldl (fun a p => if m.getLsbD p.2 then a ||| p.1.flags else a) 0
      let s := s.updBlk b (fun x => x.setV vd ((x.vreg vd).write (fmtBits c) m (out.map LaneOut.code)))
      ((s.updBlk b (fun x => x.setV vb ((x.vreg vb).write 8 (BitVec.allOnes 128) scales))).addSticky b fl).blkNext b

/-- AXPY (R127): vd ← vd + va × s[VC], the scalar read as FP32. -/
def execAxpy (b : BlockId) (ty mask : Fin 8) (vd va vc : Fin 32) (s : State) : Host.Outcome State Fault Refusal :=
  s.vxInstr b ty fun k s =>
    let c := (k.sreg vc).toNat % 2 ^ 32
    let y := fp32.decode c
    s.vxWrite b ty mask vd ((List.range (tyLanes ty)).map fun i =>
      let a := (k.vreg va).lane (tyBits ty) i
      let d := (k.vreg vd).lane (tyBits ty) i
      let x := laneNum ty a
      let z := laneNum ty d
      if Config.axpyFused then laneExact ty ((x.mul y).add z) [x, y, z] [0x40, ty, a, c, d]
      else
        let p := laneExact ty (x.mul y) [x, y] [0x40, ty, a, c]
        let q := laneArith 0 ty d p.code 0
        { q with flags := q.flags ||| p.flags })

/-- RAND (R129): 64 FP32 values in [0, 1) that depend on the step seed, the logical ID, s[VC] and the lane alone. -/
def execRand (b : BlockId) (ty mask : Fin 8) (vd vc : Fin 32) (s : State) : Host.Outcome State Fault Refusal :=
  s.vxInstr b ty fun k s =>
    let t := s.runnerOfBlock b
    let seed := match s.run t with | some r => r.seed | none => 0
    let logical := match s.ten t with | some v => (v.logical b).getD 0 | none => 0
    s.vxWrite b 0 mask vd ((List.range 64).map fun i => ⟨Config.rand seed logical (k.sreg vc).toNat i % 0x3F800000, 0⟩)

end Sys2Proof.Machine
end

