-- ==== Sys2Proof/Machine/Frames.lean ====
section
/-! DEFINITION. A frame on its lanes (R304): frame control and body as message symbols of 10 bits, the parity of RS(544,514), the share
of each lane, and PAM4 levels. The manual names the code and gives neither the field polynomial nor the roots of the generator: they
are those of RS(544,514) in IEEE 802.3, x^10 + x^3 + 1 and α^0 to α^29 with α = 2 (PRESUMED, assumption 88). -/

namespace Sys2Proof.Machine

/-- The product in GF(2^10). -/
def gfMul (a b : Nat) : Nat :=
  (List.range 10).foldl (fun acc i =>
    let d := if 512 ≤ acc then (acc * 2) ^^^ 0x409 else acc * 2
    if b.testBit (9 - i) then d ^^^ a else d) 0

/-- The coefficients of the generator polynomial below its leading one, from degree 29 down. -/
def rsGen : List Nat :=
  (((List.range 30).foldl (fun (acc : List Nat × Nat) _ =>
    -- multiply by (x + root), coefficients from the highest degree down
    (List.zipWith (· ^^^ ·) (acc.1 ++ [0]) (0 :: acc.1.map (gfMul acc.2)), gfMul acc.2 2)) ([1], 1)).1).drop 1

/-- The 30 parity symbols of message symbols, the first sent being that of the highest degree. -/
def rsParity (msg : List Nat) : List Nat :=
  msg.foldl (fun r m =>
    let f := m ^^^ r.headD 0
    List.zipWith (· ^^^ ·) (r.drop 1 ++ [0]) (rsGen.map (gfMul f))) (List.replicate 30 0)

/-- `n` symbols of 10 bits from the bits of a number, least significant first. -/
def symbolsOf : Nat → Nat → List Nat
  | 0, _ => []
  | n + 1, v => v % 1024 :: symbolsOf n (v / 1024)

/-- The number that symbols of 10 bits make. -/
def symbolsNat : List Nat → Nat
  | [] => 0
  | a :: t => a % 1024 + 1024 * symbolsNat t

/-- The number that slots of 256 bits make. -/
def slotsNat : List (BitVec 256) → Nat
  | [] => 0
  | a :: t => a.toNat + 2 ^ 256 * slotsNat t

/-- `n` slots from the bits of a number. -/
def slotsOf : Nat → Nat → List (BitVec 256)
  | 0, _ => []
  | n + 1, v => BitVec.ofNat 256 v :: slotsOf n (v / 2 ^ 256)

/-- The 20 slots of a frame's body: those it carries, and empty ones. -/
def SentFrame.body (f : SentFrame) : List (BitVec 256) := (f.slots ++ List.replicate 20 0).take 20

/-- The 514 message symbols of a frame: frame control, and then the body. -/
def SentFrame.message (f : SentFrame) : List Nat := symbolsOf 514 (f.ctl % 2 ^ 20 + 2 ^ 20 * slotsNat f.body)

/-- The 544 symbols of a frame. -/
def SentFrame.symbols (f : SentFrame) : List Nat := f.message ++ rsParity f.message

/-- Frame control and body that message symbols hold. -/
def frameOf (msg : List Nat) : Nat × List (BitVec 256) :=
  let v := symbolsNat msg
  (v % 2 ^ 20, slotsOf 20 (v / 2 ^ 20))

/-- Lanes of a width code. -/
def widthLanes (code : Nat) : Nat := if code = 0 then 4 else if code = 1 then 2 else 1

/-- The PAM4 levels of a symbol: each pair of its bits, Gray-coded, with the first bit as the less significant. -/
def pam4 (sym : Nat) : List Nat := (List.range 5).map (fun i => let v := sym / 4 ^ i % 4; v ^^^ (v / 2))

/-- The levels that logical lane `l` carries: symbol i goes on lane i mod width. -/
def SentFrame.lane (f : SentFrame) (l : Nat) : List Nat :=
  (f.symbols.zipIdx.filter (fun x => x.2 % widthLanes f.width == l)).flatMap (fun x => pam4 x.1)

end Sys2Proof.Machine
end

