-- ==== Sys2Proof/Machine/Ports.lean ====
section
/-! DEFINITION. The link layer of Oplith: frames and hop retry (R304 to R307), ports going DOWN (R308, R340), training, retrain
and width (R309 to R316), version changes (R317), link packets (R322), credits (R327), and the retirement of lanes and ports
(R312). What arrives on the lanes comes in as what the receiver made of it: the contents of the codeword that was sent, and how many
of its symbols were wrong. -/

namespace Sys2Proof.Machine

/-! ### Frames -/

/-- Whether a port carries frames now. One whose versions do not fit first sends the answer that tells the other end (R317). -/
def State.portFrames (s : State) (p : Nat) : Bool :=
  let x := s.portState p
  x == Pst.active || x == Pst.width || (x == Pst.retraining && (s.port p).asked.isSome) ||
    (x == Pst.version && !(s.port p).links.isEmpty)

/-- A CREDIT link packet (R322) of the slots freed so far. -/
def creditSlot (x : PortSt) : BitVec 256 :=
  let c := fun v => KMap.get 0 x.freed v
  BitVec.ofNat 256 (0x13 + c 4 * 2 ^ 16 + (c 3 * 2 ^ 48 + c 2 * 2 ^ 32 + c 1 * 2 ^ 16 + c 0) * 2 ^ 64)

/-- Fills a frame: a packet begun goes on, link packets stand between packets, and then come further packets (R318), unless no packet
may begin. The packets whose last slot it took are listed. `stamp` writes what a packet takes when its first slot leaves (R323). -/
def fillFrame (begins : Bool) (stamp : SwPkt → SwPkt) :
    Nat → PortSt → List (BitVec 256) → List SwPkt → PortSt × List (BitVec 256) × List SwPkt
  | 0, x, acc, fin => (x, acc, fin)
  | k + 1, x, acc, fin =>
    let take := fun (q : SwPkt) (n : Nat) (ps : List (SwPkt × Nat)) (tx : List (BitVec 256)) => match tx with
      | t :: ts =>
        if n ≤ 1 then fillFrame begins stamp k { x with tx := ts, packets := ps } (acc ++ [t]) (fin ++ [q])
        else fillFrame begins stamp k { x with tx := ts, packets := (q, n - 1) :: ps } (acc ++ [t]) fin
      | [] => (x, acc, fin)
    match x.packets, x.links with
    | (q, n) :: ps, links =>
      if n != q.pkt.slots then take q n ps x.tx
      else match links with
        | l :: ls => fillFrame begins stamp k { x with links := ls } (acc ++ [l]) fin
        | [] =>
          if !begins then (x, acc, fin)
          else
            let r := stamp q
            take r n ps (if r.pkt = q.pkt then x.tx else r.pkt.toSlots ++ x.tx.drop n)
    | [], l :: ls => fillFrame begins stamp k { x with links := ls } (acc ++ [l]) fin
    | [], [] => (x, acc, fin)

/-- The width group of a code: the lanes it uses among good ones, if it can be formed (R312). -/
def laneGroup (code good : Nat) : Option Nat :=
  match code with
  | 0 => if good % 16 = 15 then some 15 else none
  | 1 => if good % 4 = 3 then some 3 else if good / 4 % 4 = 3 then some 12 else none
  | _ => ((List.range 4).find? (fun l => good.testBit l)).map (fun l => 2 ^ l)

/-- The largest width not above a limit whose group is good: its code and lanes (R312). -/
def widthOf (limit good : Nat) : Option (Nat × Nat) :=
  ([0, 1, 2].filter (limit ≤ ·)).findSome? (fun c => (laneGroup c good).map (fun g => (c, g)))

/-- The lanes of a port that are good and in service. -/
def State.goodLanes (s : State) (p : Nat) : Nat :=
  (List.range 4).foldl (fun a l =>
    if s.fget F.LANE_STATUS_GOOD [p, l] = 1 && s.fget F.LANE_STATUS_RETIRED [p, l] = 0 then a + 2 ^ l else a) 0

/-- A width comes into force on the lanes that are good at both ends (R312); the port carries packets again. -/
def State.applyWidth (s : State) (p code : Nat) : State :=
  let lanes := (laneGroup code (s.goodLanes p &&& (s.port p).theirGood)).getD (s.fget F.PORT_STATUS_LANES_ACTIVE [p])
  ((s.fset F.PORT_STATUS_WIDTH [p] code).fset F.PORT_STATUS_LANES_ACTIVE [p] lanes).setPortState p Pst.active

/-- A port whose ends run versions that do not fit carries no traffic (R310, R317). -/
def State.versionMismatch (s : State) (p : Nat) : State := (s.setPortState p Pst.version).portErr p 0xB8 0 0 p

/-- What takes effect at the boundary before the frame with sequence number `fseq`, sent or received. -/
def State.atBoundary (s : State) (p fseq : Nat) (tx : Bool) : State :=
  let x := s.port p
  let s := match if tx then x.widthTx else x.widthRx with
    | some (f, w) =>
      if f = fseq then (s.updPort p (fun x => { x with widthTx := none, widthRx := none })).applyWidth p w else s
    | none => s
  match if tx then x.versionTx else x.versionRx with
  | some (f, v) =>
    if f = fseq then (s.updPort p (fun x => { x with versionTx := none, versionRx := none })).fset F.PORT_STATUS_VERSION [p] v
    else s
  | none => s

/-- The CREDIT that is due goes first among the link packets, in the place of an older one that has not been sent (R327). -/
def PortSt.withCredit (x : PortSt) : PortSt :=
  if x.creditDue then { x with links := creditSlot x :: x.links.filter (fun l => l.toNat % 256 != 0x13), creditDue := false } else x

/-- Frame control (R306). -/
def PortSt.ctl (x : PortSt) (fseq : Nat) (idle : Bool) : Nat :=
  fseq % 256 * 2 ^ 12 + (x.rxNext + 255) % 256 * 2 ^ 4 + x.nak.toNat * 8 + idle.toNat * 4 + x.ackValid.toNat * 2

/-- A TIME_RESP of this device takes the time at which its first slot leaves (R323). -/
def State.stampTime (s : State) (q : SwPkt) : SwPkt :=
  if q.pkt.opcode = 0xF1 && q.inp.isNone then
    { q with pkt := ({ q.pkt with body := q.pkt.body.take 8 ++ leBytes 8 s.timeNow ++ q.pkt.body.drop 16 }).sealed }
  else q

/-- The exchange of R47 starts when the frame with its TIME_REQ leaves (R323). -/
def State.stampExchange (s : State) (sent : List SwPkt) : State :=
  if s.tick.exchange.isSome && sent.any (fun q => q.pkt.opcode == 0xF0 && q.inp.isNone) then
    { s with tick := { s.tick with exchange := some s.now } }
  else s

/-- Sends an idle frame. -/
def State.sendIdle (s : State) (p : Nat) (x : PortSt) (fseq : Nat) : State :=
  s.updPort p (fun _ => { x with nak := false, sinceIdle := 0, last := some ⟨x.ctl fseq true, [], s.fget F.PORT_STATUS_WIDTH [p]⟩ })

/-- Sends a new frame, when a link packet or a packet fills a slot of it, and otherwise an idle one. A port whose width is being changed,
or that is to retrain, begins no packet (R315). -/
def State.sendNew (s : State) (p : Nat) : State :=
  let s := s.atBoundary p (s.port p).txNext true
  let x := (s.port p).withCredit
  let r := fillFrame (s.portActive p) s.stampTime 20 x [] []
  if r.2.1.isEmpty then s.sendIdle p x x.txNext
  else
    let s := s.updPort p (fun _ => { r.1 with
      buffer := r.1.buffer ++ [{ fseq := x.txNext, slots := r.2.1 }], txNext := (x.txNext + 1) % 256, nak := false,
      sinceIdle := x.sinceIdle + 1, last := some ⟨x.ctl x.txNext false, r.2.1, s.fget F.PORT_STATUS_WIDTH [p]⟩ })
    (r.2.2.foldl State.freeSlots s).stampExchange r.2.2

/-- FRAME_SEND (R305 to R307): the next frame that waits to be resent, or a new one with credits, link packets and packets, or an idle
frame: at least one in 4,096, and with 128 frames unacknowledged nothing else. -/
def execFrameSend (p : PortId) (now : Nat) (s : State) : Host.Outcome State Fault Refusal :=
  let s := s.at now
  if !s.portFrames p || s.pins.silent then .next s
  else
    let x := s.port p
    match if 0 < x.resend then x.buffer[x.buffer.length - x.resend]? else none with
    | some f =>
      if 4095 ≤ x.sinceIdle then .next (s.sendIdle p x f.fseq)
      else
        .next (s.updPort p (fun _ => { x with
          resend := x.resend - 1, nak := false, sinceIdle := x.sinceIdle + 1,
          last := some ⟨x.ctl f.fseq false, f.slots, s.fget F.PORT_STATUS_WIDTH [p.val]⟩ }))
    | none =>
      if 4095 ≤ x.sinceIdle || 128 ≤ x.buffer.length then
        let s := s.atBoundary p x.txNext true
        .next (s.sendIdle p (s.port p) x.txNext)
      else .next (s.sendNew p)

/-- The slot stream without what means nothing at its head: empty slots, and link packets of an undefined TYPE (R322). -/
def trimSlots : List RxSlot → List RxSlot
  | [] => []
  | x :: t =>
    let v := x.bits.toNat
    if v % 16 = 0 || (v % 16 = 3 && !(1 ≤ v / 16 % 16 && v / 16 % 16 ≤ 5)) then trimSlots t else x :: t

/-- A frame that cannot be accepted: the next frame carries NAK, unless one is unanswered (R307). -/
def PortSt.reject (x : PortSt) (now : Nat) : PortSt :=
  if x.nakNs = 0 then { x with nak := true, nakNs := now + 1 } else x

/-- What the frame control of a good codeword says of this end's frames (R307): ACK frees the replay buffer, and NAK has the
rest resent. -/
def State.takeAck (s : State) (p ctl : Nat) : State :=
  let ack := ctl / 16 % 256
  let x := s.port p
  let n := match x.buffer.findIdx? (fun f => f.fseq == ack) with
    | some i => if ctl.testBit 1 then i + 1 else 0
    | none => 0
  let left := x.buffer.drop n
  let s := s.updPort p (fun x => { x with buffer := left, resend := min x.resend left.length })
  if ctl.testBit 3 && !left.isEmpty then
    let s := (s.updPort p (fun x => { x with
      buffer := left.map (fun f => { f with replays := f.replays + 1 }), resend := left.length })).fsat F.PORT_LINK_REPLAYS [p] 1
    if (s.port p).loggedMs = s.now / 1000000 + 1 then s
    else (s.updPort p (fun x => { x with loggedMs := s.now / 1000000 + 1 })).portErr p 0xB0 0 0 p
  else s

/-- FRAME_RECEIVE (R304 to R307): `err` symbols of the codeword are wrong, of which 15 can be corrected. -/
def execFrameReceive (p : PortId) (err : Fin 545) (ctl : BitVec 20) (slots : List (BitVec 256)) (now : Nat) (s : State) :
    Host.Outcome State Fault Refusal :=
  let s := s.at now
  if !s.portFrames p then .next s
  else
    let s := s.updPort p (fun x => { x with lastNs := s.now })
    if 15 < err.val then
      .next ((s.fsat F.PORT_FEC_UNCORRECTED [p.val] 1).updPort p (fun x => { x.reject s.now with badRun := x.badRun + 1 }))
    else
      let s := if err.val = 0 then s else s.fsat F.PORT_FEC_CORRECTED [p.val] 1
      let c := ctl.toNat
      let s := (s.updPort p (fun x => { x with badRun := 0 })).takeAck p c
      let fseq := c / 2 ^ 12
      let x := s.port p
      if fseq != x.rxNext then .next (s.updPort p (fun x => x.reject s.now))
      else if c.testBit 2 then .next ((s.updPort p (fun x => { x with nak := false, nakNs := 0 })).atBoundary p fseq false)
      else
        let s := s.atBoundary p fseq false
        .next (s.updPort p (fun x => { x with
          rx := x.rx ++ (slots.take 20).map (fun y => { bits := y, ns := s.now }), rxNext := (fseq + 1) % 256, ackValid := true,
          nak := false, nakNs := 0 }))

/-- NAK_REPEAT (R307). -/
def execNakRepeat (p : PortId) (now : Nat) (s : State) : Host.Outcome State Fault Refusal :=
  let s := s.at now
  let x := s.port p
  if s.portFrames p && x.nakNs != 0 && x.nakNs + 999 ≤ s.now then
    .next (s.updPort p (fun x => { x with nak := true, nakNs := s.now + 1 }))
  else .next s

/-- The whole packets of a slot stream, without its link packets, and whether a cut packet ends it. -/
def wholeSlots : Nat → List RxSlot → List RxSlot × Bool
  | 0, _ => ([], false)
  | k + 1, l => match trimSlots l with
    | [] => ([], false)
    | x :: t =>
      let n := headLen x.bits
      if (x :: t).length < n then ([], true)
      else
        let r := wholeSlots k ((x :: t).drop n)
        (if x.bits.toNat % 16 = 3 then r.1 else (x :: t).take n ++ r.1, r.2)

/-! ### Ports going down -/

/-- One packet whose output left service goes to the next ACTIVE port of its route (R332, R340), where its key is tested again (R339);
with none it is discarded and counted. A time packet has no other way (R323). -/
def State.reroute (s : State) (p : Nat) (q : SwPkt) : State :=
  match if q.pkt.opcode = 0xF0 || q.pkt.opcode = 0xF1 then none
    else s.route q.pkt.epoch q.pkt.src q.pkt.dst q.pkt.pathKey q.inp with
  | none => (s.swGone q).fsat F.PORT_DROPS_LINK_LOSS [p] 1
  | some o =>
    if s.keyAt q.pkt.pkey o then s.swAdd { q with out := some o }
    else match q.inp with
      | none =>
        let s := (s.swGone q).fabErr 0xB4 0x3F 0 q.pkt.src q.pkt.pkey
        (match q.req with | some r => s.fabFinish r St.pkeyDenied [] | none => s)
      | some _ => ((s.swGone q).fsat F.PORT_DROPS_PKEY [o] 1).fabErr 0xB4 o 0 q.pkt.src q.pkt.pkey

/-- The packets that wait for an output that left service, or that it cut off, are routed again or discarded (R340). -/
def State.rerouteFrom (s : State) (p : Nat) : State :=
  let cut := (s.port p).packets.map Prod.fst
  let s := s.updPort p (fun x => { x with tx := [], packets := [], links := [] })
  let waiting := s.fab.sw.filter (fun q => q.out == some p)
  let s := s.updFab (fun f => { f with sw := f.sw.filter (fun q => q.out != some p) })
  (cut ++ waiting).foldl (fun s q => s.reroute p q) s

/-- A port event, with the capture of the retirement that it may decide. -/
def State.portEvent (s : State) (p code lanes reason unit : Nat) : State :=
  let was := s.portState p
  let s := s.portErr p code lanes reason unit
  if s.portState p = Pst.retired && was != Pst.retired && code != 0xB3 then
    s.portCapture p 0xB3 0 0
  else s

/-- What a link that is lost takes with it: the replay buffer, and every request that its ends were making. -/
def PortSt.linkLost (x : PortSt) : PortSt :=
  { x with buffer := [], resend := 0, asked := none, wantFull := false, widthAsk := none, widthTx := none, widthRx := none,
           versionAsk := false, versionTx := none, versionRx := none, nak := false, nakNs := 0, badRun := 0 }

/-- Whether a port has a link that can go down. -/
def State.portLinked (s : State) (p : Nat) : Bool :=
  let st := s.portState p
  st == Pst.active || st == Pst.width || st == Pst.retraining

/-- A port goes DOWN (R308, R340): it keeps the whole packets that it received, and what waits for it goes elsewhere. -/
def State.portFalls (s : State) (p : Nat) : State :=
  let x := s.port p
  let w := wholeSlots x.rx.length x.rx
  let s := (s.setPortState p Pst.down).fsat F.PORT_LINK_LINK_DOWNS [p] 1
  let s := s.updPort p (fun x => { x.linkLost with rx := w.1, downNs := s.now })
  let s := if w.2 then (s.fsat F.PORT_DROPS_ROUTE [p] 1).fabErr 0xB5 p 5 0 0 else s
  s.rerouteFrom p

/-- PORT_DOWN (R308, R340): for one of its causes, 1 lock lost, 2 no frames for 1 µs, 3 a frame replayed 8 times, 4 a run of 32
uncorrectable codewords. -/
def execPortDown (p : PortId) (reason : Fin 5) (now : Nat) (s : State) : Host.Outcome State Fault Refusal :=
  let s := s.at now
  let x := s.port p
  let cause := match reason.val with
    | 1 => true
    | 2 => decide (x.lastNs + 1000 ≤ s.now)
    | 3 => x.buffer.any (fun f => 8 ≤ f.replays)
    | 4 => decide (32 ≤ x.badRun)
    | _ => false
  if !(cause && s.portLinked p) then .next s else .next ((s.portFalls p).portEvent p 0xB1 0 reason p)

/-- PORT_RETIRE (R312): a port that cannot train even at width 1. -/
def execPortRetire (p : PortId) (s : State) : Host.Outcome State Fault Refusal :=
  let st := s.portState p
  if st == Pst.down || st == Pst.training || st == Pst.retraining then
    .next ((s.portErr p 0xB3 0 0 p).rerouteFrom p)
  else .next s

/-- A port asks its neighbour to run at the width that its good lanes allow (R315). -/
def State.narrowPort (s : State) (p : Nat) : State :=
  match widthOf (s.fget F.PORT_STATUS_WIDTH [p]) (s.goodLanes p &&& (s.port p).theirGood) with
  | some (w, _) =>
    s.updPort p (fun x => { x with widthAsk := some w, links := x.links ++ [BitVec.ofNat 256
      (0x33 + w * 2 ^ 8 + s.goodLanes p * 2 ^ 12 + s.linkToken * 2 ^ 64)] })
  | none => s

/-- LANE_NOT_GOOD (R312): a lane whose error ratio is too high over 1 s is marked; at LANE_N it is retired; the port asks to
narrow (R315). -/
def execLaneNotGood (p : PortId) (lane : Fin 4) (s : State) : Host.Outcome State Fault Refusal :=
  if !s.portActive p || !(s.fget F.PORT_STATUS_LANES_ACTIVE [p.val]).testBit lane then .next s
  else
    let was := s.fget F.LANE_STATUS_RETIRED [p.val, lane.val]
    let s := s.fset F.LANE_STATUS_GOOD [p.val, lane.val] 0
    let s := s.countEvent { code := 0xB2, unit := p * 4 + lane } (unitKey 7 (p * 4 + lane)) F.RET_LIMITS_LANE_N
    let s := if was = 0 && s.fget F.LANE_STATUS_RETIRED [p.val, lane.val] = 1 then
        s.portCapture p 0xB2 (2 ^ lane.val) 0
      else s
    .next (s.narrowPort p)

/-! ### Training -/

/-- Whether a quick retrain is allowed (R311, R353). -/
def State.quickAllowed (s : State) (p : Nat) : Bool :=
  s.fget F.PORT_CTRL_QUICK [p] == 1 && (s.port p).trained && s.fuses.stepping != 0xA0

/-- Lanes are numbered anew (R310): what is kept of a lane follows it. `new` gives the number of each lane in the order of this end's
balls. -/
def State.numberLanes (s : State) (p : Nat) (new : List Nat) : State :=
  let old := (s.port p).lanes
  if old = new then s
  else
    let move := fun l => (new[old.idxOf l]?).getD l
    let rows := [0, 1, 2, 3].map (fun l => (move l, s.rget .LANE_STATUS [p, l]))
    let key := fun k => if k / 4 = unitKey 7 (p * 4) / 4 then unitKey 7 (p * 4 + move (k % 4)) else k
    let s := rows.foldl (fun s x => s.rset .LANE_STATUS [p, x.1] x.2) s
    { s with ridge := { s.ridge with
        decided := s.ridge.decided.map key,
        counts := s.ridge.counts.foldl (fun m (x : Nat × Nat) => KMap.set 0 m (key x.1) x.2) [] } }.updPort p (fun x => { x with lanes := new })

/-- The numbering that an end takes: its own as the leader, and otherwise the one that the other end's lanes identify themselves with,
two bits for each lane in the order of this end's balls. -/
def laneOrder (leader : Bool) (order : Nat) : List Nat :=
  let l := (List.range 4).map (fun k => order / 4 ^ k % 4)
  if leader || l.eraseDups.length != 4 then [0, 1, 2, 3] else l

/-- The packets of a port that the device holds are not reported to it any more: it has been trained (R327). -/
def State.unhold (s : State) (p : Nat) : State :=
  let f := fun (q : SwPkt) => if q.inp == some p then { q with holds := false } else q
  let s := s.updFab (fun x => { x with sw := x.sw.map f })
  let s := (List.range 36).foldl (fun s o =>
    if (s.port o).packets.any (fun y => y.1.inp == some p) then
      s.updPort o (fun x => { x with packets := x.packets.map (fun y => (f y.1, y.2)) })
    else s) s
  s.updPort p (fun x => { x with rx := x.rx.map (fun y => { y with holds := false }) })

/-- A retrain takes the place of a width change under way or asked for (R316): the narrowest width asked for is kept. -/
def PortSt.foldWidth (x : PortSt) : PortSt :=
  let w := fun (o : Option (Nat × Nat)) => match o with | some y => y.2 | none => 0
  { x with widthCap := max x.widthCap (max (x.widthAsk.getD 0) (max (w x.widthTx) (w x.widthRx))), widthAsk := none, widthTx := none,
           widthRx := none }

/-- A port begins to retrain: RETRAIN_REQ is its next link packet (R311). -/
def State.retrainWith (s : State) (p : Nat) (full : Bool) (reason : Nat) : State :=
  let s := s.updPort p (fun x => { x.foldWidth with asked := some (full, s.now), full := full, links := x.links ++
    [BitVec.ofNat 256 (0x23 + full.toNat * 2 ^ 8 + reason * 2 ^ 16 + s.linkToken * 2 ^ 64)] })
  (s.fsat F.PORT_LINK_RETRAINS [p] 1).setPortState p Pst.retraining

def State.startRetrain (s : State) (p reason : Nat) : State := s.retrainWith p (!s.quickAllowed p) reason

/-- A port trains (R309): a DOWN one again, with a quick retrain where one is allowed (R308), or one whose request has left. -/
def State.beginTraining (s : State) (p : Nat) : State :=
  if s.portState p = Pst.down then (s.updPort p (fun x => { x with full := !s.quickAllowed p })).setPortState p Pst.training
  else s.updPort p (fun x => { x with asked := none })

/-- Step 5 of R309: what this end sends (R310), and what it learns of the other end. A lane that is not good, or retired, carries
nothing; PORT_VC_CFG comes into force (R350). -/
def State.exchangeParams (s : State) (p nbrId nbrPort token good theirGood : Nat) (order : Nat) : State :=
  let own := s.linkToken
  let s := s.numberLanes p (laneOrder (own < token) order)
  let x := s.port p
  let s := x.lanes.zipIdx.foldl (fun s k => s.fset F.LANE_STATUS_GOOD [p, k.1]
    (good.testBit k.2 && s.fget F.LANE_STATUS_RETIRED [p, k.1] == 0).toNat) s
  let cfg := (s.rget .PORT_VC_CFG [p]).toNat
  let sent : LinkParams := ⟨s.fabId, p, own, s.fab.version, s.goodLanes p, s.fget F.PORT_CTRL_MAX_WIDTH [p], cfg⟩
  let s := s.updPort p (fun x => { x with trained := x.trained || x.full, asked := none, theirGood := theirGood, params := some sent,
                                          vc := cfg, links := [] })
  s.fsets [p] [(F.PORT_STATUS_NBR_ID, nbrId), (F.PORT_STATUS_NBR_PORT, nbrPort), (F.PORT_STATUS_NBR_VALID, 1),
    (F.PORT_STATUS_LEADER, (decide (own < token)).toNat)]

/-- Step 6 of R309 at a width on its lanes: the port is ACTIVE with the credits that the other end's PORT_VC_CFG gives (R327), and both
ends' frames and counts of freed slots start afresh. A port that was not retraining numbers its frames from 0. -/
def State.trainingDone (s : State) (p w g ver theirVc : Nat) : State :=
  let s := s.fsets [p] [(F.PORT_STATUS_WIDTH, w), (F.PORT_STATUS_LANES_ACTIVE, g), (F.PORT_STATUS_VERSION, min s.fab.version ver)]
  let s := s.fsets [p] [(F.PORT_CREDIT_SHARED, bits theirVc 63 48), (F.PORT_CREDIT_VC3, bits theirVc 47 36),
    (F.PORT_CREDIT_VC2, bits theirVc 35 24), (F.PORT_CREDIT_VC1, bits theirVc 23 12), (F.PORT_CREDIT_VC0, bits theirVc 11 0)]
  let fresh := s.portState p != Pst.retraining
  let full := (s.port p).wantFull && !(s.port p).full
  let s := (s.unhold p).updPort p (fun x =>
    let x := if fresh then { x with rxNext := 0, ackValid := false, txNext := 0, buffer := [], resend := 0, tx := [], packets := [] } else x
    { x with freed := [], seen := [], creditDue := false, nak := false, nakNs := 0, badRun := 0, sinceIdle := 0,
             lastNs := s.now, widthCap := 0, widthAsk := none, widthTx := none, widthRx := none, versionAsk := false,
             versionTx := none, versionRx := none, wantFull := false, full := false })
  let s := s.setPortState p Pst.active
  if full then s.retrainWith p true 0 else s

/-- Training ends (R309, R310, R312, R313): with the own token, or versions that do not fit, the port carries no traffic; one that
cannot train even at width 1 is retired. -/
def State.portTrain (s : State) (p nbrId nbrPort token ver order good theirGood theirMax theirVc : Nat) : State :=
  let s := s.exchangeParams p nbrId nbrPort token good theirGood order
  if s.linkToken = token then (s.setPortState p Pst.selfLoop).portErr p 0xB8 0 0 p
  else if s.fab.version + 1 < ver || ver + 1 < s.fab.version then s.versionMismatch p
  else
    let limit := max (max (s.fget F.PORT_CTRL_MAX_WIDTH [p]) theirMax) (s.port p).widthCap
    match widthOf limit (s.goodLanes p &&& theirGood) with
    | none => (s.portErr p 0xB3 0 0 p).rerouteFrom p
    | some (w, g) => s.trainingDone p w g ver theirVc

/-- PORT_TRAIN (R309): the next stage of training. A port that is DOWN, 1 µs after its cause, begins to train, and so does one whose
RETRAIN_REQ has left; one that trains ends it. `quickOk` tells whether the stored settings of a quick retrain passed: a quick retrain
that fails goes on as a full training. `lanes` holds how the other end's lanes identify themselves and which lanes of this
end's balls passed, and `theirGood` those the other end reports. -/
def execPortTrain (p : PortId) (quickOk : Bool) (nbrId : BitVec 16) (nbrPort : PortId) (token : W64) (ver : Byte)
    (lanes : Byte × BitVec 4) (theirGood : BitVec 4) (theirMax : Fin 3) (theirVc : W64) (now : Nat) (s : State) : Host.Outcome State Fault Refusal :=
  let s := s.at now
  let st := s.portState p
  let x := s.port p
  if s.fget F.PORT_CTRL_EN [p.val] = 0 || s.fget F.PORT_CTRL_TEST_LOOP [p.val] != 0 then .next s
  else if st = Pst.down || (st = Pst.retraining && x.asked.isSome) then
    if st = Pst.down && s.now < x.downNs + 1000 then .next s
    else if x.links.any (fun l => l.toNat % 256 == 0x23) then .next s
    else .next (s.beginTraining p)
  else if st = Pst.training || st = Pst.retraining then
    .next ((s.updPort p (fun x => { x with full := x.full || !quickOk })).portTrain p nbrId.toNat nbrPort token.toNat ver.toNat
      lanes.1.toNat lanes.2.toNat theirGood.toNat theirMax theirVc.toNat)
  else .next s

/-- The link packet of a TYPE at the head of a port's slot stream. -/
def State.linkHead (s : State) (p type : Nat) : Option Nat :=
  match trimSlots (s.port p).rx with
  | x :: _ => if x.bits.toNat % 256 = type * 16 + 3 then some x.bits.toNat else none
  | [] => none

/-- The head of a port's slot stream has been taken. -/
def State.takeHead (s : State) (p : Nat) : State :=
  s.updPort p (fun x => match trimSlots x.rx with
    | y :: t => { x with rx := (y :: t).drop (headLen y.bits) }
    | [] => { x with rx := [] })

/-- RETRAIN_REQ (R311, R314, R316): training begins in the mode asked for, or in full where this end cannot train quickly. Of two
overlapping requests the leader's mode applies; the follower withdraws its own, and asks for a full training again when it had. -/
def execRetrainReq (p : PortId) (now : Nat) (s : State) : Host.Outcome State Fault Refusal :=
  let s := s.at now
  match s.linkHead p 2 with
  | none => .next s
  | some v =>
    let s := s.takeHead p
    if !s.portFrames p then .next s
    else
      let full := v.testBit 8
      let s := s.updPort p PortSt.foldWidth
      match (s.port p).asked with
      | some (mine, t) =>
        if s.now ≤ t + 1000 && s.fget F.PORT_STATUS_LEADER [p.val] = 0 then
          .next (s.updPort p (fun x => { x with
            asked := none, full := full, wantFull := mine && !full, links := x.links.filter (fun y => y.toNat % 256 != 0x23) }))
        else .next (s.updPort p (fun x => { x with asked := none }))
      | none =>
        .next (((s.updPort p (fun x => { x with full := full || !s.quickAllowed p })).fsat F.PORT_LINK_RETRAINS [p.val] 1).setPortState p
          Pst.retraining)

/-- WIDTH_REQ (R315, R316): answered with the narrower of the asked width and the widest that this end can use on lanes good at both
ends; of two overlapping requests the leader answers. While the port retrains, the width only limits the next one. -/
def execWidthReq (p : PortId) (s : State) : Host.Outcome State Fault Refusal :=
  match s.linkHead p 3 with
  | none => .next s
  | some v =>
    let s := (s.takeHead p).updPort p (fun x => { x with theirGood := bits v 15 12 })
    let x := s.port p
    let asked := bits v 9 8
    if s.portState p = Pst.retraining then .next (s.updPort p (fun x => { x with widthCap := max x.widthCap asked }))
    else if x.widthAsk.isSome && s.fget F.PORT_STATUS_LEADER [p.val] = 0 then .next s
    else
      let own := match widthOf (s.fget F.PORT_STATUS_WIDTH [p.val]) (s.goodLanes p &&& x.theirGood) with | some (w, _) => w | none => 2
      let w := max (max asked own) (x.widthAsk.getD 0)
      let f := (x.txNext + 1) % 256
      let slot := BitVec.ofNat 256 (0x43 + w * 2 ^ 8 + f * 2 ^ 16)
      .next ((s.updPort p (fun x => { x with widthAsk := none, widthTx := some (f, w), links := slot :: x.links })).setPortState p
        Pst.width)

/-- WIDTH_ACK (R315); one that a retrain has overtaken has no effect (R316). -/
def execWidthAck (p : PortId) (s : State) : Host.Outcome State Fault Refusal :=
  match s.linkHead p 4 with
  | none => .next s
  | some v =>
    let s := s.takeHead p
    if (s.port p).widthAsk.isNone || !s.portActive p then .next s
    else
      .next ((s.updPort p (fun x => { x with widthAsk := none, widthRx := some (bits v 23 16, bits v 9 8) })).setPortState p
        Pst.width)

/-- The device announces its version on a port (R317). -/
def State.announceVersion (s : State) (p : Nat) : State :=
  if s.portActive p then s.updPort p (fun x => { x with versionAsk := true, links := x.links ++
    [BitVec.ofNat 256 (0x53 + s.fab.version * 2 ^ 24 + s.linkToken * 2 ^ 64)] })
  else s

/-- VERSION (R317): a request is answered, by the leader when two overlap; both ends run the lower version from SWITCH_FSEQ. With
versions that differ by more than one both ports enter VERSION_MISMATCH, the one asked once it has answered. -/
def execVersion (p : PortId) (s : State) : Host.Outcome State Fault Refusal :=
  match s.linkHead p 5 with
  | none => .next s
  | some v =>
    let s := s.takeHead p
    let x := s.port p
    let ver := bits v 31 24
    let fits := ver ≤ s.fab.version + 1 && s.fab.version ≤ ver + 1
    if !s.portFrames p then .next s
    else if v.testBit 8 then
      let s := s.updPort p (fun x => { x with versionAsk := false })
      .next (if fits then s.updPort p (fun x => { x with versionRx := some (bits v 23 16, min ver s.fab.version) }) else s.versionMismatch p)
    else if x.versionAsk && s.fget F.PORT_STATUS_LEADER [p.val] = 0 then .next (if fits then s else s.versionMismatch p)
    else
      let f := (x.txNext + 1) % 256
      let slot := BitVec.ofNat 256 (0x153 + f * 2 ^ 16 + s.fab.version * 2 ^ 24 + s.linkToken * 2 ^ 64)
      let s := s.updPort p (fun x => { x with versionAsk := false, links := slot :: x.links })
      .next (if fits then s.updPort p (fun x => { x with versionTx := some (f, min ver s.fab.version) }) else s.versionMismatch p)

/-- CREDIT (R322, R327): the counts are cumulative modulo 65,536. -/
def execCredit (p : PortId) (s : State) : Host.Outcome State Fault Refusal :=
  match s.linkHead p 1 with
  | none => .next s
  | some v =>
    let s := s.takeHead p
    let w1 := v / 2 ^ 64
    let cum := fun k => match k with
      | 0 => bits w1 15 0
      | 1 => bits w1 31 16
      | 2 => bits w1 47 32
      | 3 => bits w1 63 48
      | _ => bits v 31 16
    let fld := fun k => match k with
      | 0 => F.PORT_CREDIT_VC0
      | 1 => F.PORT_CREDIT_VC1
      | 2 => F.PORT_CREDIT_VC2
      | 3 => F.PORT_CREDIT_VC3
      | _ => F.PORT_CREDIT_SHARED
    .next ((List.range 5).foldl (fun s k =>
      let n := (cum k + 65536 - KMap.get 0 (s.port p).seen k) % 65536
      (s.fadd (fld k) [p.val] n).updPort p (fun x => { x with seen := KMap.set 0 x.seen k (cum k) })) s)

end Sys2Proof.Machine
end

