-- ==== Sys2Proof/Machine/Switch.lean ====
section
/-! DEFINITION. The switch and the transaction layer at work: packets arriving (R321, R324, R331 to R339, R344), their grant
(R327 to R329, R370, R374, R378), time limits (R334, R336, R341, R342), requests at their target with completion records and
combining (R358, R359, R365 to R368), and responses at their source (R361). -/

namespace Sys2Proof.Machine

/-! ### Arrival -/

/-- Answers a READ with its data, 512 B to a packet, or with its status (R355). -/
def State.answerRead (s : State) (src tag pathKey pkey addr status : Nat) (data : List Byte) (comb : Option Nat) : State :=
  let base : Packet := { cls := 1, opcode := 0x21, pkey := pkey, src := s.fabId, dst := src, epoch := 0, vc := 2,
                         pathKey := pathKey, tag := tag, status := status, hops := 0, bytes := 0 }
  if status != 0 then s.emit base s.now comb
  else
    (List.range ((data.length + 511) / 512)).foldl (fun s i =>
      let part := (data.drop (512 * i)).take 512
      s.emit { base with cls := 2, opcode := 0x20, bytes := part.length, addr := addr, aux := 512 * i, body := part } s.now comb) s

/-- Delivers a packet addressed to this device (R321, R339, R344, R371). -/
def State.deliver (s : State) (q : SwPkt) : State :=
  let p := q.pkt
  if !s.keyLocal p.pkey then ((s.freeSlots q).countDrop q.inp F.PORT_DROPS_PKEY).fabErr 0xB4 0x3F 0 p.src p.pkey
  else if !p.checkOk then (s.freeSlots q).fabErr 0xB6 0x3F 0 p.src p.pkey
  else if s.inTransit && (p.vc = 2 || p.vc = 3) then s.freeSlots q
  else if s.inTransit && p.vc = 1 then (s.freeSlots q).answer p St.unavailable none
  else if p.void && p.opcode != 0x40 then s.freeSlots q
  else s.swAdd q

/-- PACKET_ARRIVE (R324, R331 to R339): the next packet of the port's slot stream is discarded, delivered, or queued for an output. It
has been here since its first slot crossed the ball. `shared` tells whether the sender took shared credits for it. -/
def execPacketArrive (p : PortId) (shared : Bool) (now : Nat) (s : State) : Host.Outcome State Fault Refusal :=
  let s := s.at now
  match trimSlots (s.port p).rx with
  | [] => .next s
  | x :: t =>
    let n := headLen x.bits
    if x.bits.toNat % 16 = 3 || (x :: t).length < n then .next s
    else
      let k := Packet.parse (((x :: t).take n).map RxSlot.bits)
      let e := (s.takeHead p).freeEarly { pkt := k, inp := some p.val, shared := shared, holds := x.holds, out := none, sinceNs := x.ns }
      let q := e.1
      let s := e.2
      let discard := fun (s : State) (reason : Nat) =>
        ((s.freeSlots q).fsat F.PORT_DROPS_ROUTE [p.val] 1).fabErr 0xB5 p reason k.src k.pkey
      if !(k.cls = 1 || k.cls = 2) || !opcodeDefined k.cls k.opcode || (k.cls = 2 && k.vc = 0) ||
          (k.cls = 2 && (k.bytes = 0 || 512 < k.bytes)) then .next (discard s 5)
      else if !s.keyAt k.pkey p then
        .next (((s.freeSlots q).fsat F.PORT_DROPS_PKEY [p.val] 1).fabErr 0xB4 p 0 k.src k.pkey)
      else if k.hops = 0 then .next (discard s 2)
      else if k.opcode = 0xF0 || k.opcode = 0xF1 then .next (s.deliver q)
      else if !s.epochReady k.epoch then .next (discard s 4)
      else if k.dst = s.fabId then .next (s.deliver q)
      else match s.route k.epoch k.src k.dst k.pathKey (some p.val) with
        | none => .next (discard s 3)
        | some o =>
          if s.keyAt k.pkey o then .next (s.swAdd { q with pkt := { k with hops := k.hops - 1 }, out := some o })
          else .next (((s.freeSlots q).fsat F.PORT_DROPS_PKEY [o] 1).fabErr 0xB4 o 0 k.src k.pkey)

/-! ### Grant -/

/-- The credit field of a VC. -/
def creditFld : Nat → Fld
  | 0 => F.PORT_CREDIT_VC0
  | 1 => F.PORT_CREDIT_VC1
  | 2 => F.PORT_CREDIT_VC2
  | _ => F.PORT_CREDIT_VC3

/-- The input of a packet: its port, or 36 for this device's agents. -/
def SwPkt.input (q : SwPkt) : Nat := q.inp.getD 36

/-- Whether packet `n` may be granted, but for the order among VCs and inputs (R327 to R329, R374, R378). -/
def State.grantable (s : State) (p n : Nat) (q : SwPkt) : Bool :=
  q.out == some p && s.portActive p && (s.port p).tx.length < 20 &&
    !(s.fab.sw.take n).any (fun r => r.out == some p && r.input == q.input && r.pkt.vc == q.pkt.vc) &&
    (q.pkt.credits ≤ s.fget (creditFld q.pkt.vc) [p] || q.pkt.credits ≤ s.fget F.PORT_CREDIT_SHARED [p]) &&
    (q.pkt.vc == 0 || s.bucketOpen (.port p q.pkt.vc)) &&
    (q.pkt.vc != 0 || q.inp.isSome || ((s.port p).vc0.filter (fun t => s.now < t + 1000)).length < 2)

/-- The inputs of a VC that have a packet to grant. -/
def State.readyInputs (s : State) (p vc : Nat) : List Nat :=
  (s.fab.sw.zipIdx.filter (fun x => x.1.pkt.vc == vc && s.grantable p x.2 x.1)).map (fun x => x.1.input)

/-- The input that round robin serves next. -/
def nextInput (last : Nat) (l : List Nat) : Option Nat :=
  ((List.range 37).map (fun i => (last + 1 + i) % 37)).find? (fun i => l.contains i)

/-- The slots that a VC may be granted in one turn. R329 names slot-weighted round robin and no unit: DESIGN CHOICE (assumption 91), a
weight stands for so many packets of 17 slots. -/
def State.vcQuantum (s : State) (p v : Nat) : Nat :=
  17 * s.fget (match v with | 1 => F.PORT_ARB_W1 | 2 => F.PORT_ARB_W2 | _ => F.PORT_ARB_W3) [p]

/-- The VC among 1 to 3 that the arbiter of an output serves next (R329): the one whose turn it is until its weight is used, and then
the next in order that has a packet. -/
def State.turnVc (s : State) (p : Nat) : Option Nat :=
  let x := s.port p
  let ready := fun v => !(s.readyInputs p v).isEmpty
  if ready x.turn && x.spent < s.vcQuantum p x.turn then some x.turn
  else ((List.range 3).map (fun i => (x.turn + i) % 3 + 1)).find? ready

/-- A packet of `n` slots on VC `v` counts towards its turn. -/
def State.takeTurn (s : State) (p v n : Nat) : State :=
  if v = 0 then s
  else s.updPort p (fun x =>
    if v = x.turn && x.spent < s.vcQuantum p v then { x with spent := x.spent + n } else { x with turn := v, spent := n })

/-- Packet `n` is granted on output `p`: it takes its credits, its shaper is charged, and its slots follow in the link. A request or a
collective whose message it is counts it once, however often it is sent. -/
def State.grant (s : State) (p n : Nat) : State :=
  match s.fab.sw[n]? with
  | none => s
  | some q =>
    let v := q.pkt.vc
    let k := q.pkt.credits
    let s := if k ≤ s.fget (creditFld v) [p] then s.fset (creditFld v) [p] (s.fget (creditFld v) [p] - k)
      else s.fset F.PORT_CREDIT_SHARED [p] (s.fget F.PORT_CREDIT_SHARED [p] - k)
    let s := if v = 0 then s else (s.bucketCharge (.port p v) ((q.pkt.slots + 1) / 2)).bucketDelay (.port p v) (s.now - q.sinceNs)
    let s := s.takeTurn p v q.pkt.slots
    let sent := { q with grantNs := some s.now, past := false }
    let s := s.updFab (fun f => { f with sw := f.sw.eraseIdx n })
    let s := s.updPort p (fun x => { x with
      tx := x.tx ++ sent.pkt.toSlots, packets := x.packets ++ [(sent, sent.pkt.slots)], rr := KMap.set 0 x.rr v q.input,
      vc0 := if v = 0 && q.inp.isNone then s.now :: x.vc0.filter (fun t => s.now < t + 1000) else x.vc0 })
    let s := match q.req with | some r => s.updReq r (fun x => { x with granted := true }) | none => s
    let s := match q.coll with
      | some (c, _) =>
        let up := fun (r : CollRun) => { r with granted := r.granted + 1, sent := r.sent + q.pkt.gutter }
        if q.grantNs.isSome then s
        else s.updFab (fun f => { f with colls := KMap.upd {} f.colls c (fun x => { x with running := x.running.map up }) })
      | none => s
    match q.comb with | some e => s.freeComb e | none => s

/-- PACKET_GRANT (R329): the arbiter of output `p` grants packet `n`. VC0 goes first, and VC1 to VC3 take turns by their weights; within
a VC the inputs are served round robin, and the packets of one input in order of arrival. -/
def execPacketGrant (p : PortId) (n : Nat) (now : Nat) (s : State) : Host.Outcome State Fault Refusal :=
  let s := s.at now
  match s.fab.sw[n]? with
  | none => .next s
  | some q =>
    let v := q.pkt.vc
    if s.grantable p n q && (v = 0 || ((s.readyInputs p 0).isEmpty && s.turnVc p == some v)) &&
        nextInput (KMap.get 0 (s.port p).rr v) (s.readyInputs p v) == some q.input then
      .next (s.grant p n).fabPump
    else .next s

/-- Cancels the requests that satisfy a test, and lets go what their lines held (R370). -/
def State.cancelWith (s : State) (t : FabReq → Bool) (fence : Bool) : State := (s.cancelReqs t fence).fabPump

/-! ### Time limits -/

/-- RESIDENCE_TIMEOUT (R334): the limit is the one that stood when the packet entered (R348). -/
def execResidenceTimeout (n : Nat) (now : Nat) (s : State) : Host.Outcome State Fault Refusal :=
  let s := s.at now
  match s.fab.sw[n]? with
  | some q => if q.sinceNs + q.residUs * 1000 < s.now then .next (s.swDiscard n 1) else .next s
  | none => .next s

/-- E2E_RETRY (R341): request `n` is sent again, or ends as FABRIC_TIMEOUT, by the timers of its last attempt (R348). A resend passes the
source bucket as a first attempt does (R375). -/
def execE2eRetry (n : Nat) (now : Nat) (s : State) : Host.Outcome State Fault Refusal :=
  let s := s.at now
  match s.fab.reqs[n]? with
  | none => .next s
  | some r =>
    if r.attempts = 0 || r.result.isSome || s.now < r.sentNs + timerOf F.FAB_TIMERS_RETRY_US r.timers * 1000 then .next s
    else if timerOf F.FAB_TIMERS_RETRY_MAX r.timers < r.attempts then
      let s := (s.fsat F.FAB_E2E_TIMEOUTS [] 1).fabErr 0xB7 0x3F 0 s.fabId r.pkey r.ten
      .next (s.fabEnd r.id St.fabricTimeout [])
    else match s.srcGate r.ten 0 with
      | .goes => .next (s.injectReq r)
      | .waits => .next s
      | .policed => .next (s.fabPoliced r)

/-- RECORD_EXPIRY (R342). -/
def execRecordExpiry (n : Nat) (now : Nat) (s : State) : Host.Outcome State Fault Refusal :=
  let s := s.at now
  match s.fab.records[n]? with
  | some r => if r.untilNs ≤ s.now then .next (s.updFab (fun f => { f with records := f.records.eraseIdx n })) else .next s
  | none => .next s

/-- EPOCH_LIVE_CLEAR (R336). -/
def execEpochLiveClear (e : Fin 2) (now : Nat) (s : State) : Host.Outcome State Fault Refusal :=
  let s := s.at now
  if s.fget F.EPOCH_CTRL_SRC_EPOCH [] = e.val || s.now < s.fab.epochNs + s.fget F.FAB_TIMERS_EPOCH_HOLD_US [] * 1000 ||
      s.inflight e != 0 then .next s
  else .next (s.fset (if e.val = 0 then F.EPOCH_STATUS_LIVE0 else F.EPOCH_STATUS_LIVE1) [] 0)

/-! ### Requests -/

/-- The slots that a value of PORT_VC_CFG reserves. -/
def vcSlots (v : Nat) : Nat := bits v 63 48 + bits v 47 36 + bits v 35 24 + bits v 23 12 + bits v 11 0

/-- Slots of the replication store: those that no port reserves by its configuration in force (R350, R366). -/
def State.storeSize (s : State) : Nat := 393216 - ((List.range 36).map (fun p => vcSlots (s.port p).vc)).sum

/-- Slots of the replication store in use. -/
def State.storeUsed (s : State) : Nat := ((s.fab.comb.filter (fun e => e.data.isSome)).map (fun e => (e.len + 31) / 32)).sum

/-- Changes a combining entry. -/
def State.updComb (s : State) (id : Nat) (g : CombEntry → CombEntry) : State :=
  s.updFab (fun f => { f with comb := f.comb.map (fun e => if e.id = id then g e else e) })

/-- Sends the members of a combining entry that wait the copies of its data (R366). -/
def State.combReply (s : State) (id : Nat) : State :=
  match s.fab.comb.find? (fun e => e.id == id) with
  | some e =>
    match e.data with
    | some (st, d) =>
      let s := (e.members.filter (fun m => !m.replied)).foldl (fun s m =>
        s.answerRead m.src m.tag m.pathKey e.pkey e.addr st d (some id)) s
      (s.updComb id (fun e => { e with members := e.members.map (fun m => { m with replied := true }) })).freeComb id
    | none => s
  | none => s

/-- READ (R358, R365 to R367): checked, and then served alone, or through a combining entry. While T1 and T2 are closed by a power
failure it waits (R290), and in Transit it is answered so (R344). -/
def execRead (n : Nat) (now : Nat) (s : State) : Host.Outcome State Fault Refusal :=
  let s := s.at now
  match s.delivered n [0x01] with
  | none => .next s
  | some q =>
    let p := q.pkt
    if s.inTransit then .next ((s.swDrop n).answer p St.unavailable none)
    else if s.ridge.powerFail then .next s
    else
      let s := s.swDrop n
      let addr := bodyWord p.body 0
      let ward := bodyWord p.body 1 / 2 ^ 32
      let len := bodyWord p.body 1 % 2 ^ 13
      let c := if len = 0 || 4096 < addr % 4096 + len then (St.unmapped, 0, s) else s.targetCheck addr len p.pkey ward p.src
      let s := c.2.2
      let st := if c.1 != 0 then c.1 else s.readGone c.2.1 len
      if st != 0 then .next (s.answer p st none)
      else
        let alone := fun (s : State) =>
          let r := s.serveRead q.portNo c.2.1 len
          r.2.2.answerRead p.src p.tag p.pathKey p.pkey addr r.1 r.2.1 none
        let me : CombMember := ⟨p.src, p.tag, p.pathKey, false⟩
        if !p.comb || s.fget F.OPM_CTRL_COMBINE_EN [] = 0 then .next (alone s)
        else
          match s.fab.comb.find? (fun e => !e.closed && e.addr == addr && e.len == len && e.pkey == p.pkey && e.ward == ward) with
          | some e =>
            if p.retry && e.members.any (fun m => m.src == p.src && m.tag == p.tag) then .next s
            else
              let s := (s.updComb e.id (fun e => { e with members := e.members ++ [me] })).fsat F.OPM_COUNTS_JOINED_READS [] 1
              .next (if e.data.isSome then s.combReply e.id else s)
          | none =>
            if 1024 ≤ s.fab.comb.length then .next (alone s)
            else
              .next (s.updFab (fun f => { f with
                nextComb := f.nextComb + 1, comb := f.comb ++ [{ id := f.nextComb, addr := addr, len := len, pkey := p.pkey,
                                                                 ward := ward, phys := c.2.1, openNs := s.now, members := [me] }] }))

/-- COMBINE_HOLD_END (R366): entry `id` makes its one memory read. -/
def execCombineHoldEnd (id : Nat) (now : Nat) (s : State) : Host.Outcome State Fault Refusal :=
  let s := s.at now
  match s.fab.comb.find? (fun e => e.id == id) with
  | some e =>
    if s.ridge.powerFail || e.data.isSome || s.now < e.openNs + s.fget F.OPM_CTRL_HOLD_NS [] ||
        s.storeSize < s.storeUsed + (e.len + 31) / 32 then .next s
    else
      let r := s.serveRead 0 e.phys e.len
      .next (r.2.2.updComb id (fun e => { e with data := some (r.1, r.2.1) }))
  | none => .next s

/-- COMBINE_REPLY (R366). -/
def execCombineReply (id : Nat) (s : State) : Host.Outcome State Fault Refusal := .next (s.combReply id)

/-- WRITE (R358, R342). -/
def execWrite (n : Nat) (now : Nat) (s : State) : Host.Outcome State Fault Refusal :=
  let s := s.at now
  match s.delivered n [0x02] with
  | none => .next s
  | some q =>
    let p := q.pkt
    if s.inTransit then .next ((s.swDrop n).answer p St.unavailable none)
    else if s.ridge.powerFail then .next s
    else
      .next (s.once n q (fun s =>
        let c := if 4096 < p.addr % 4096 + p.bytes then (St.unmapped, 0, s) else s.targetCheck p.addr p.bytes p.pkey p.aux p.src
        if c.1 != 0 then (c.1, none, c.2.2)
        else let r := c.2.2.serveWrite q.portNo c.2.1 p.body; (r.1, none, r.2)))

/-- ATOMIC (R359, R368): atomic `n` executes at its line, with those that wait there and combine with it. -/
def execAtomic (n : Nat) (now : Nat) (s : State) : Host.Outcome State Fault Refusal :=
  let s := s.at now
  match s.delivered n atomicOps with
  | none => .next s
  | some q =>
    if s.inTransit then .next ((s.swDrop n).answer q.pkt St.unavailable none)
    else if s.ridge.powerFail then .next s
    else .next (s.atomicGroup n q)

/-! ### Responses -/

/-- The request that a response answers (R341). -/
def State.answers (s : State) (p : Packet) : Option FabReq :=
  s.fab.reqs.find? (fun r => r.tag == some p.tag && r.dst == p.src && r.result.isNone && r.attempts != 0)

/-- READ_DATA (R361): the payload goes to its offset; the READ completes when every byte has arrived. -/
def execReadData (n : Nat) (now : Nat) (s : State) : Host.Outcome State Fault Refusal :=
  let s := s.at now
  match s.delivered n [0x20] with
  | none => .next s
  | some q =>
    let s := s.swDrop n
    match s.answers q.pkt with
    | none => .next s
    | some r =>
      if r.kind != .read then .next s
      else if q.pkt.status != 0 then .next (s.fabEnd r.id q.pkt.status [])
      else
        let got := KMap.set [] r.got (q.pkt.aux % 8192) q.pkt.body
        let parts := (List.range ((r.len + 511) / 512)).map (fun i => KMap.get [] got (512 * i))
        if parts.all (fun x => !x.isEmpty) then .next (s.fabEnd r.id 0 (parts.flatten.take r.len))
        else .next (s.updReq r.id (fun x => { x with got := got }))

/-- COMPLETE (R361). -/
def execComplete (n : Nat) (now : Nat) (s : State) : Host.Outcome State Fault Refusal :=
  let s := s.at now
  match s.delivered n [0x21] with
  | none => .next s
  | some q =>
    let s := s.swDrop n
    match s.answers q.pkt with
    | none => .next s
    | some r => if r.kind = .write || q.pkt.status != 0 then .next (s.fabEnd r.id q.pkt.status []) else .next s

/-- ATOMIC_DATA (R361). -/
def execAtomicData (n : Nat) (now : Nat) (s : State) : Host.Outcome State Fault Refusal :=
  let s := s.at now
  match s.delivered n [0x22] with
  | none => .next s
  | some q =>
    let s := s.swDrop n
    match s.answers q.pkt with
    | none => .next s
    | some r => match r.kind with
      | .atomic _ => .next (s.fabEnd r.id q.pkt.status (q.pkt.body.take 8))
      | _ => .next s

end Sys2Proof.Machine
end

