-- ==== Sys2Proof/Machine/FabCmds.lean ====
section
/-! DEFINITION. Commands over VC0 and the Alley (R378 to R385), Wards and leases (R386 to R391), and the writes of shaper
configurations (R376). -/

namespace Sys2Proof.Machine

/-! ### Cancelling collectives, fencing -/

/-- A cancel or a fence meets the running collectives of a Tenancy (R369, R372, R388). -/
def State.cancelColls (s : State) (t : Nat) (fence : Bool) : State :=
  s.fab.colls.foldl (fun s p => match p.2.running with
    | some r =>
      if r.job.ten = t && r.status = 0 then
        let q := s.cancelColl p.1
        let st := r.cancelled fence q.1 q.2.1
        q.2.2.updFab (fun f => { f with colls := KMap.upd {} f.colls p.1 (fun x => { x with
          running := x.running.map (fun y => { y with status := st }) }) })
      else s
    | none => s) s

/-- A Tenancy fences (R388): at its own epoch, or at a newer one that a command carries. -/
def State.wardFence (s : State) (t cmd : Nat) : State :=
  let own := s.fget F.WARD_STATE_EPOCH [t]
  let at0 := if newer cmd own then cmd else own
  let was := s.fget F.WARD_STATE_STATE [t]
  let at1 := if was = 2 && newer (s.fget F.WARD_STATE_FENCE_EPOCH [t]) at0 then s.fget F.WARD_STATE_FENCE_EPOCH [t] else at0
  let s := (s.fset F.WARD_STATE_STATE [t] 2).fset F.WARD_STATE_FENCE_EPOCH [t] at1
  let s := if was = 2 then s else ((s.opmErr 0xC0 0 t 0 (s.wardId t))).srcEvent (.shared 77)
  (s.cancelColls t true).cancelWith (fun r => r.ten == t) true

/-! ### Accepting a command -/

/-- Whether the body of a command is in range (R380, R381). -/
def cmdOk (w0 w1 w2 : Nat) : Bool :=
  let cmd := bits w0 63 56
  let scope := bits w0 55 48
  let key := bits w0 31 16
  let epoch := bits w0 15 0
  match cmd with
  | 1 => 1 ≤ scope && scope ≤ 4 && (scope ≤ 2 || key == 0) && epoch == 0 && w1 == 0
  | 2 => 1 ≤ scope && scope ≤ 4 && (scope ≤ 2 || key == 0) && epoch == 0 && w1 == 0
  | 3 => scope == 0 && w1 == 0
  | 4 =>
    let i := bits w1 61 56
    let q := bits w1 55 54
    scope == 0 && key == 0 && epoch == 0 && bits w1 53 0 == 0 && w2 < 2 ^ 64 &&
      ((bits w1 63 62 == 1 && i ≤ 35 && 1 ≤ q) || (bits w1 63 62 == 2 && 1 ≤ i && q ≤ 1))
  | _ => false

/-- The CMD_ACK word of a command: SEQ and result. -/
def ackWord (w0 result : Nat) : Nat := bits w0 47 32 * 2 ^ 48 + result

/-- An Alley frame (R384): TYPE, the sender's fabric ID, 32 B of payload, and CRC-32C. -/
def alleyFrame (type id : Nat) (payload : List Byte) : List Byte :=
  let b := leBytes 2 type ++ leBytes 2 id ++ (payload ++ List.replicate 32 0).take 32
  b ++ leBytes 4 (crc32c b)

def State.alleySt (s : State) (a : Nat) : AlleySt := KMap.get {} s.alley a

def State.updAlley (s : State) (a : Nat) (f : AlleySt → AlleySt) : State := { s with alley := KMap.upd {} s.alley a f }

/-- Sends a frame on an enabled Alley port whose transmitter is not silenced. -/
def State.alleySend (s : State) (a type : Nat) (payload : List Byte) : State :=
  if (s.fget F.ALLEY_CTRL_EN []).testBit a && !s.pins.silent then
    s.updAlley a (fun x => { x with txNs := s.now, last := alleyFrame type s.fabId payload })
  else s

/-- Sends a control packet on VC0 with the management key. -/
def State.sendVc0 (s : State) (opcode dst body : Nat) (words : List Nat) : State :=
  (s.emit { cls := 1, opcode := opcode, pkey := 0xFFFF, src := s.fabId, dst := dst, epoch := 0, vc := 0, pathKey := (Config.pathKey s.free).toNat,
            tag := 0, hops := 0, bytes := body, body := (words.flatMap (leBytes 8) ++ List.replicate 48 0).take (16 * body) } s.now).tickFree

/-- Acknowledges a command by the path it came. -/
def State.ackCmd (s : State) (c : AccCmd) (result : Nat) : State :=
  if !c.reply then s
  else match c.alley with
    | some a => s.alleySend a 3 (leBytes 8 (ackWord c.w0 result))
    | none => s.sendVc0 0xC1 c.src 1 [ackWord c.w0 result]

/-- Captures an event of an Alley port in ALLEY_ERR. -/
def State.alleyCapture (s : State) (code a : Nat) : State :=
  s.fabCapture 2 F.ALLEY_ERR_VALID F.ALLEY_ERR_OVERFLOW F.ALLEY_ERR_CODE code [(F.ALLEY_ERR_PORT, a)]

/-- A refused command (R381), which came under key `key`: 0xC3; it is acknowledged on VC0 only. -/
def State.refuseCmd (s : State) (c : AccCmd) (key : Nat) : State :=
  match c.alley with
  | some a => (s.alleyCapture 0xC3 a).chipEv 0xC3
  | none => (s.opmErr 0xC3 0 0 c.src key).ackCmd c 2

/-- Records SEQ as the last that a source executed: 64 sources are kept, those that sent a command most recently (R381). -/
def State.noteSeq (s : State) (src seq : Nat) : State :=
  s.updFab (fun f => { f with seqs := ((src, seq) :: f.seqs.filter (fun x => x.1 != src)).take 64 })

/-- A command that arrived: refused, executed once by its SEQ, or stale (R381). With no room in the journal it is refused
(R479). -/
def State.acceptCmd (s : State) (c : AccCmd) (admitted : Bool) (key : Nat := 0) : State :=
  if !admitted || !cmdOk c.w0 c.w1 c.w2 then s.refuseCmd c key
  else if !s.journalRoom then s.ackCmd c 2
  else
    let seq := bits c.w0 47 32
    let s := match c.alley with | some a => s.fsat F.ALLEY_STATUS_COMMANDS [a] 1 | none => s
    match s.fab.seqs.find? (fun x => x.1 == c.src) with
    | some (_, old) =>
      if seq = old then (s.noteSeq c.src old).ackCmd c 0
      else if newer seq old then (s.noteSeq c.src seq).updFab (fun f => { f with cmds := f.cmds ++ [c] })
      else (s.noteSeq c.src old).ackCmd c 1
    | none => (s.noteSeq c.src seq).updFab (fun f => { f with cmds := f.cmds ++ [c] })

/-- CMD (R381): from a sender that a CMD_ALLOW entry admits, under the management key. -/
def execCmd (n : Nat) (now : Nat) (s : State) : Host.Outcome State Fault Refusal :=
  let s := s.at now
  match s.delivered n [0xC0] with
  | none => .next s
  | some q =>
    let p := q.pkt
    let ok := p.pkey == 0xFFFF && p.vc == 0 && p.bytes == 3 && (List.range 8).any (fun i =>
      s.fget F.CMD_ALLOW_VALID [i] == 1 && s.fget F.CMD_ALLOW_FAB_ID [i] == p.src)
    .next ((s.swDrop n).acceptCmd ⟨bodyWord p.body 0, bodyWord p.body 1, bodyWord p.body 2, p.src, none, true⟩ ok p.pkey)

/-! ### Executing a command (R383) -/

/-- The command that is next to execute, when it is a `kind`. -/
def State.nextCmd (s : State) (kind : Nat) : Option AccCmd :=
  match s.fab.cmds with
  | c :: _ => if bits c.w0 63 56 = kind then some c else none
  | [] => none

/-- Ends the command that CMD_TX_CTL holds (R382). -/
def State.txDone (s : State) (result : Nat) : State :=
  ((s.updFab (fun f => { f with tx := none })).fset F.CMD_TX_CTL_RESULT [] result).fset F.CMD_TX_CTL_BUSY [] 0 |>.srcEvent (.shared 79)

/-- The next command has executed: it is journaled (STOP, START and FENCE), acknowledged, and counted as an event. -/
def State.cmdDone (s : State) (c : AccCmd) : State :=
  let s := s.updFab (fun f => { f with cmds := f.cmds.drop 1 })
  if c.reply then (s.ackCmd c 0).srcEvent (.shared 78) else s.txDone 0

/-- The journal entry of a command (R475, R476). -/
def State.journalCmd (s : State) (c : AccCmd) (object old new : Nat) : State :=
  s.journal 3 0 1 0xFF (bits c.w0 63 48) c.src object old new

/-- The Tenancies that a STOP or START names. -/
def State.cmdTens (s : State) (c : AccCmd) : List Nat :=
  s.tenIds.filter (fun t => 3 ≤ bits c.w0 55 48 || KMap.get 0 s.fab.pkeys t == bits c.w0 31 16)

/-- STOP on one Tenancy (R383), at traffic or at step scope. -/
def State.stopTen (s : State) (t src : Nat) (step : Bool) : State :=
  let s := (s.rbit .STOP_TRAFFIC [] t true).opmErr 0xC4 0 t src (KMap.get 0 s.fab.pkeys t)
  let s := (s.cancelColls t false).cancelWith (fun r => r.ten == t) false
  if step then
    let s := s.rbit .STOP_STEP [] t true
    if s.tick.cur = t then s.endStep t (.abandon 4) else s
  else s

/-- Whether a STOP or START is of a step scope. -/
def AccCmd.stepScope (c : AccCmd) : Bool := bits c.w0 55 48 == 2 || bits c.w0 55 48 == 4

/-- STOP (R383). -/
def execStop (past : List (PortId × Nat)) (now : Nat) (s : State) : Host.Outcome State Fault Refusal :=
  let s := s.at now
  match s.nextCmd 1 with
  | none => .next s
  | some c =>
    let s := (s.grantedBefore past).journalCmd c 0 0 0
    .next (((s.cmdTens c).foldl (fun s t => s.stopTen t c.src c.stepScope) s).cmdDone c)

/-- START (R383). A Tenancy that stays stopped at step scope keeps its bit in STOP_TRAFFIC. -/
def execStart (now : Nat) (s : State) : Host.Outcome State Fault Refusal :=
  let s := s.at now
  match s.nextCmd 2 with
  | none => .next s
  | some c =>
    let s := s.journalCmd c 0 0 0
    let s := (s.cmdTens c).foldl (fun s t =>
      let s := if c.stepScope then s.rbit .STOP_STEP [] t false else s
      if s.rtest .STOP_STEP [] t then s else s.rbit .STOP_TRAFFIC [] t false) s
    .next (s.cmdDone c)

/-- FENCE (R383, R388). -/
def execFenceCommand (past : List (PortId × Nat)) (now : Nat) (s : State) : Host.Outcome State Fault Refusal :=
  let s := s.at now
  match s.nextCmd 3 with
  | none => .next s
  | some c =>
    let id := bits c.w0 31 16
    let s := (s.grantedBefore past).journalCmd c 0 0 0
    let s := (s.tenIds.filter (fun t => id != 0 && s.wardId t == id)).foldl (fun s t => s.wardFence t (bits c.w0 15 0)) s
    .next (s.cmdDone c)

/-- A shaper configuration (R376): EN = 1 with RATE = 0 is not accepted. -/
def shaperOk (v : Nat) : Bool := !(v.testBit 44 && bits v 43 20 == 0)

/-- The bucket that a SHAPE command names. -/
def shapeBucket (c : AccCmd) : Bucket :=
  if bits c.w1 63 62 = 1 then .port (bits c.w1 61 56) (bits c.w1 55 54) else .src (bits c.w1 61 56) (bits c.w1 55 54)

/-- The bits of a shaper configuration that exist. -/
def Bucket.mask : Bucket → Nat → Nat
  | .src _ _, v => v % 2 ^ 47
  | _, v => v % 2 ^ 46

/-- SHAPE (R383). -/
def execShape (now : Nat) (s : State) : Host.Outcome State Fault Refusal :=
  let s := s.at now
  match s.nextCmd 4 with
  | none => .next s
  | some c =>
    let b := shapeBucket c
    let v := b.mask c.w2
    let s := if shaperOk v then
        ((s.journalCmd c (regDevAddr b.cfg b.ix) (s.rget b.cfg b.ix).toNat v).bucketConfig b v).fabPump
      else s.opmErr 0xC8 0 0 c.src (if c.reply && c.alley.isNone then 0xFFFF else 0)
    .next (s.cmdDone c)

/-! ### Sending commands (R382) -/

/-- Sends the command that CMD_TX_CTL holds on VC0. -/
def State.txVc0 (s : State) (x : TxCmd) : State := s.sendVc0 0xC0 (s.fget F.CMD_TX_CTL_DST_ID []) 3 x.words

/-- GO in CMD_TX_CTL: the held command takes the next SEQ and leaves on its paths; one to the device's own fabric ID is applied
here. While BUSY it is ignored, with 0xC8. -/
def State.cmdTxGo (s : State) : State :=
  if s.fget F.CMD_TX_CTL_BUSY [] = 1 then s.opmErr 0xC8 0 0 0 0
  else
    let seq := s.fab.txSeq
    let s := s.updFab (fun f => { f with txSeq := (seq + 1) % 65536 })
    let s := s.fset ⟨.CMD_TX_BODY, 47, 32⟩ [0] seq
    let w := [0, 1, 2].map (fun i => (s.rget .CMD_TX_BODY [i]).toNat)
    let path := s.fget F.CMD_TX_CTL_PATH []
    let x : TxCmd := { seq := seq, words := w, attempts := 1, sentNs := s.now, timers := (s.rget .FAB_TIMERS []).toNat, vc0 := path.testBit 0 }
    let s := (s.updFab (fun f => { f with tx := some x })).fset F.CMD_TX_CTL_BUSY [] 1
    if s.fget F.CMD_TX_CTL_DST_ID [] = s.fabId then
      let c : AccCmd := ⟨wordOf w 0, wordOf w 1, wordOf w 2, s.fabId, none, false⟩
      if cmdOk c.w0 c.w1 c.w2 then s.updFab (fun f => { f with cmds := f.cmds ++ [c] })
      else (s.opmErr 0xC3 0 0 s.fabId 0).txDone 2
    else
      let s := if x.vc0 then s.txVc0 x else s
      if path.testBit 1 then s.alleySend (s.fget F.CMD_TX_CTL_ALLEY_PORT []) 2 (w.flatMap (leBytes 8)) else s
where
  /-- Word `i` of a list. -/
  wordOf (l : List Nat) (i : Nat) : Nat := (l[i]?).getD 0

/-- An acknowledgement of the command being sent. -/
def State.cmdAcked (s : State) (word : Nat) : State :=
  match s.fab.tx with
  | some x => if x.seq = bits word 63 48 then s.txDone (bits word 7 0) else s
  | none => s

/-- CMD_ACK (R382). -/
def execCmdAck (n : Nat) (now : Nat) (s : State) : Host.Outcome State Fault Refusal :=
  let s := s.at now
  match s.delivered n [0xC1] with
  | none => .next s
  | some q => .next ((s.swDrop n).cmdAcked (bodyWord q.pkt.body 0))

/-- CMD_RETRY (R382): a VC0 command without acknowledgement is sent again, or completes with FABRIC_TIMEOUT, by the timers of its last
attempt (R348). -/
def execCmdRetry (now : Nat) (s : State) : Host.Outcome State Fault Refusal :=
  let s := s.at now
  match s.fab.tx with
  | none => .next s
  | some x =>
    if !x.vc0 || s.fget F.CMD_TX_CTL_DST_ID [] = s.fabId || now < x.sentNs + timerOf F.FAB_TIMERS_RETRY_US x.timers * 1000 then .next s
    else if timerOf F.FAB_TIMERS_RETRY_MAX x.timers < x.attempts then .next (s.txDone 0xFF)
    else
      let again := { x with attempts := x.attempts + 1, sentNs := now, timers := (s.rget .FAB_TIMERS []).toNat }
      .next ((s.updFab (fun f => { f with tx := some again })).txVc0 x)

/-! ### The Alley (R384, R385) -/

/-- A valid frame has arrived on an Alley port. -/
def State.alleyHeard (s : State) (a : Nat) : State := s.updAlley a (fun x => { x with rxNs := s.now })

/-- Whether an Alley port runs. -/
def State.alleyOn (s : State) (a : Nat) : Bool := (s.fget F.ALLEY_CTRL_EN []).testBit a

/-- ALLEY_HELLO (R385): the port is UP, and its neighbour is compared with that of the Oplith port. -/
def execAlleyHello (a : Fin 31) (id : BitVec 16) (port : Byte) (token : W64) (now : Nat) (s : State) :
    Host.Outcome State Fault Refusal :=
  let s := s.at now
  if !s.alleyOn a then .next s
  else
    let up := s.fget F.ALLEY_STATUS_UP [a.val]
    let s := (s.alleyHeard a).fsets [a.val] [(F.ALLEY_STATUS_UP, 1), (F.ALLEY_STATUS_NBR_ID, id.toNat),
      (F.ALLEY_STATUS_MISMATCH, (s.fget F.PORT_STATUS_NBR_ID [a.val] != id.toNat).toNat)]
    let s := { s with out := { s.out with value := token.toNat * 256 + port.toNat } }
    .next (if up = 0 then s.srcEvent (.shared (132 + a)) else s)

/-- ALLEY_CMD (R381): a frame whose CRC holds, from fabric ID `src`. -/
def execAlleyCmd (a : Fin 31) (src : BitVec 16) (w0 w1 w2 : W64) (now : Nat) (s : State) : Host.Outcome State Fault Refusal :=
  let s := s.at now
  if !s.alleyOn a then .next s
  else
    .next ((s.alleyHeard a).acceptCmd ⟨w0.toNat, w1.toNat, w2.toNat, src.toNat, some a.val, true⟩
      ((s.fget F.ALLEY_CMD_EN_PORT []).testBit a))

/-- ALLEY_ACK (R382). -/
def execAlleyAck (a : Fin 31) (word : W64) (now : Nat) (s : State) : Host.Outcome State Fault Refusal :=
  let s := s.at now
  if !s.alleyOn a then .next s else .next ((s.alleyHeard a).cmdAcked word.toNat)

/-- ALLEY_FRAME_CRC_FAIL (R384): the frame is discarded. -/
def execAlleyFrameCrcFail (a : Fin 31) (s : State) : Host.Outcome State Fault Refusal :=
  if s.alleyOn a then .next (s.fsat F.ALLEY_STATUS_CRC_ERRORS [a.val] 1) else .next s

/-- ALLEY_HELLO_SEND (R384): an enabled port that has been idle for 10 µs. -/
def execAlleyHelloSend (a : Fin 31) (now : Nat) (s : State) : Host.Outcome State Fault Refusal :=
  let s := s.at now
  if (s.alleySt a).txNs + 10000 ≤ now then
    .next (s.alleySend a 1 (leBytes 4 a.val ++ leBytes 8 s.linkToken))
  else .next s

/-- ALLEY_DOWN (R385): 30 µs without a valid frame. -/
def execAlleyDown (a : Fin 31) (now : Nat) (s : State) : Host.Outcome State Fault Refusal :=
  let s := s.at now
  if s.fget F.ALLEY_STATUS_UP [a.val] = 1 && (s.alleySt a).rxNs + 30000 ≤ now then
    let s := (s.fset F.ALLEY_STATUS_UP [a.val] 0).alleyCapture 0xC9 a
    .next ((s.chipEv 0xC9 a).srcEvent (.shared (132 + a)))
  else .next s

/-! ### Leases -/

/-- A LEASE applied to one Tenancy (R387). -/
def State.applyLease (s : State) (t epoch : Nat) : State :=
  let st := s.fget F.WARD_STATE_STATE [t]
  let own := s.fget F.WARD_STATE_EPOCH [t]
  let renew := fun (s : State) => (s.updFab (fun f => { f with leaseNs := KMap.set 0 f.leaseNs t s.now })).fset F.WARD_STATE_STATE [t] 1
  if st = 0 then (if epoch = 0 then s else renew (s.fset F.WARD_STATE_EPOCH [t] epoch))
  else if st = 1 && epoch = own then renew s
  else if newer epoch own && newer epoch (s.fget F.WARD_STATE_FENCE_EPOCH [t]) then
    renew (s.fset F.WARD_STATE_EPOCH [t] epoch)
  else s

/-- The rank of a state among several: FENCED is the least advanced, then NONE. -/
def leaseRank (st : Nat) : Nat := if st = 2 then 0 else if st = 0 then 1 else 2

/-- LEASE (R387). -/
def execLease (n : Nat) (now : Nat) (s : State) : Host.Outcome State Fault Refusal :=
  let s := s.at now
  match s.delivered n [0xC4] with
  | none => .next s
  | some q =>
    let s := s.swDrop n
    let w := bodyWord q.pkt.body 0
    let id := bits w 63 48
    let l := s.tenIds.filter (fun t => match (s.ten t).bind Ten.fab with
      | some f => f.wardId == id && id != 0 && f.authId == q.pkt.src
      | none => false)
    let s := l.foldl (fun s t => s.applyLease t (bits w 47 32)) s
    match l.argmin (fun t => leaseRank (s.fget F.WARD_STATE_STATE [t])) with
    | none => .next s
    | some t =>
      .next (s.sendVc0 0xC5 q.pkt.src 1 [id * 2 ^ 48 + s.fget F.WARD_STATE_EPOCH [t] * 2 ^ 32 +
        s.fget F.WARD_STATE_FENCE_EPOCH [t] * 2 ^ 16 + s.fget F.WARD_STATE_STATE [t] * 2 ^ 14])

def State.authSt (s : State) (a : Nat) : AuthSt := KMap.get {} s.fab.auth a

def State.updAuth (s : State) (a : Nat) (g : AuthSt → AuthSt) : State :=
  s.updFab (fun f => { f with auth := KMap.upd {} f.auth a g })

/-- LEASE_ACK (R390). -/
def execLeaseAck (n : Nat) (now : Nat) (s : State) : Host.Outcome State Fault Refusal :=
  let s := s.at now
  match s.delivered n [0xC5] with
  | none => .next s
  | some q =>
    let s := s.swDrop n
    let w := bodyWord q.pkt.body 0
    .next ((List.range 16).foldl (fun s a =>
      if s.fget F.AUTH_CTL_VALID [a] = 1 && s.fget F.AUTH_CTL_WARD_ID [a] = bits w 63 48 then
        if bits w 15 14 = 2 then s.updAuth a (fun x => { x with fenced := min 4096 (x.fenced + 1) })
        else if bits w 15 14 = 1 && bits w 47 32 = s.fget F.AUTH_CTL_EPOCH [a] then
          s.updAuth a (fun x => { x with acked := min 4096 (x.acked + 1) })
        else s
      else s) s)

/-- LEASE_SEND (R390): authority `a` sends the LEASE that is next, at its place in the period; a period that has passed leaves its
counts. -/
def execLeaseSend (a : Fin 16) (now : Nat) (s : State) : Host.Outcome State Fault Refusal :=
  let s := s.at now
  if s.fget F.AUTH_CTL_VALID [a.val] = 0 then .next s
  else
    let period := s.fget F.AUTH_CTL_PERIOD_MS [a.val] * 1000000
    let n := s.fget F.AUTH_LIST_COUNT_M1 [a.val] + 1
    let x := s.authSt a
    let s := if now < x.startNs + period then s else
      (s.updAuth a (fun x => { startNs := x.startNs + period, next := 0, acked := 0, fenced := 0 })).fsets [a.val]
        [(F.AUTH_COUNTS_ACKED, x.acked), (F.AUTH_COUNTS_FENCED, x.fenced), (F.AUTH_CTL_ACKED, min 4095 x.acked),
          (F.AUTH_CTL_FENCED, min 4095 x.fenced)]
    let x := s.authSt a
    if n ≤ x.next || now < x.startNs + x.next * period / n then .next s
    else
      let r := s.busRead deviceIssuer .rd (s.fget F.AUTH_LIST_ADDR [a.val] + 2 * x.next) 2
      let s := r.2.2.updAuth a (fun x => { x with next := x.next + 1 })
      if r.1 != 0 then .next s
      else
        .next (s.sendVc0 0xC4 (leNat r.2.1) 1 [s.fget F.AUTH_CTL_WARD_ID [a.val] * 2 ^ 48 + s.fget F.AUTH_CTL_EPOCH [a.val] * 2 ^ 32])

/-- LEASE_TTL_EXPIRY (R388). -/
def execLeaseTtlExpiry (t : TenId) (past : List (PortId × Nat)) (now : Nat) (s : State) : Host.Outcome State Fault Refusal :=
  let s := s.at now
  if s.fget F.WARD_STATE_STATE [t.val] = 1 && (s.ten t).isSome &&
      KMap.get 0 s.fab.leaseNs t + s.fget F.LEASE_CFG_LEASE_TTL_MS [] * 1000000 ≤ now then
    .next ((s.grantedBefore past).wardFence t (s.fget F.WARD_STATE_EPOCH [t.val]))
  else .next s

end Sys2Proof.Machine
end

