-- ==== Sys2Proof/Machine/Coll.lean ====
section
/-! DEFINITION. The collective engine (R392 to R402): descriptors and their checks, the stages of each operation under FLAT and
HIER (R394 to R396), the streams that carry them (R397, R398), failures (R399, R400) and the result record (R401). -/

namespace Sys2Proof.Machine

/-! ### Descriptors -/

def CollJob.dtype (j : CollJob) : Nat := bits (j.w 0) 57 56
def CollJob.redop (j : CollJob) : Nat := bits (j.w 0) 55 54
def CollJob.var (j : CollJob) : Bool := (j.w 0).testBit 53
def CollJob.group (j : CollJob) : Nat := bits (j.w 0) 47 32
def CollJob.gen (j : CollJob) : Nat := bits (j.w 0) 31 24
def CollJob.me (j : CollJob) : Nat := bits (j.w 2) 63 48
def CollJob.root (j : CollJob) : Nat := bits (j.w 2) 47 32
def CollJob.timeoutNs (j : CollJob) : Nat := (if bits (j.w 2) 31 0 = 0 then 10000 else bits (j.w 2) 31 0) * 1000
def CollJob.src (j : CollJob) : Nat := j.w 3
def CollJob.dst (j : CollJob) : Nat := j.w 4
def CollJob.stage (j : CollJob) : Nat := j.w 5
def CollJob.bytes (j : CollJob) : Nat := bits (j.w 6) 63 32
def CollJob.chunk (j : CollJob) : Nat := bits (j.w 6) 31 0

/-- Bytes of an element of DTYPE. -/
def CollJob.eb (j : CollJob) : Nat := if j.dtype = 1 || j.dtype = 2 then 2 else 4

/-- A descriptor that moves data. -/
def CollJob.moves (j : CollJob) : Bool := 1 ≤ j.op && j.op ≤ 5

/-- The size of the shards that `b` bytes are cut into for `n` members (S of R394). -/
def shard (b n : Nat) : Nat := 128 * ((b + 128 * n - 1) / (128 * n))

/-- Bytes of shard `k` of `b` bytes cut into shards of `s`. -/
def shardLen (b s k : Nat) : Nat := min s (b - k * s)

/-- The extents of an operation (R394): offset and bytes. -/
def CollJob.extents (j : CollJob) : List (Nat × Nat) :=
  let n := j.size
  let b := j.bytes
  match j.op with
  | 1 => [(j.src, n * b), (j.dst, n * b)]
  | 2 => [(j.src, b), (j.dst, n * b)]
  | 3 => [(j.src, n * b), (j.dst, b), (j.stage, n * b)]
  | 4 => [(j.src, b), (j.dst, b), (j.stage, 2 * b + 128 * n)]
  | 5 => if j.me = j.root then [(j.src, b), (j.dst, b)] else [(j.dst, b)]
  | _ => []

/-- Whether a list of racks is regular (R395): runs of equal length, each rack once. Its M, or none. -/
def regularM (racks : List Nat) : Option Nat :=
  let m := (racks.takeWhile (fun r => r == racks.headD 0)).length
  if m = 0 || racks.length % m != 0 then none
  else
    let blocks := (List.range (racks.length / m)).map (fun b => (racks.drop (b * m)).take m)
    let heads := blocks.map (fun l => l.headD 0)
    if blocks.all (fun l => l.all (fun r => r == l.headD 0)) && heads.eraseDups.length == heads.length then some m else none

/-- The rack of a fabric ID. -/
def rackOf (id : Nat) : Nat := id / 32

/-- The members of a group in each rack when HIER can run for it: the group is regular and spans more than one rack. -/
def hierM (ranks : List (Nat × Nat)) : Option Nat :=
  match regularM (ranks.map (fun r => rackOf r.2)) with
  | some m => if m < ranks.length then some m else none
  | none => none

/-- The algorithm that R395 resolves: 1 FLAT, 2 HIER. -/
def CollJob.resolve (j : CollJob) (ranks : List (Nat × Nat)) : Nat :=
  let hier := j.op = 2 || j.op = 4 || j.op = 5
  if bits (j.w 0) 59 58 = 2 || (bits (j.w 0) 59 58 = 0 && hier && (hierM ranks).isSome) then 2 else 1

/-- Why the engine rejects a descriptor: REASON of R402, or 0. `table` is the group table and `ranks` its translations. -/
def State.collReason (s : State) (j : CollJob) (table : List Nat) (ranks : List (Nat × Nat)) : Nat :=
  let w0 := j.w 0
  let grouped := j.op ≠ 0 && j.op ≠ 8
  if 8 < j.op || bits w0 59 58 = 3 || j.redop = 3 then 1
  else if bits w0 52 48 != 0 || bits w0 23 16 != 0 || (List.range' 9 5).any (fun i => j.w i != 0) ||
      (grouped && table.any (fun e => bits e 31 20 != 0)) then 2
  else if (j.moves && (j.src % 128 != 0 || j.dst % 128 != 0 || j.stage % 128 != 0 || j.bytes % 128 != 0 ||
      !((List.range 9).any (fun n => j.chunk == 4096 * 2 ^ n)))) || j.w 14 % 64 != 0 then 3
  else
    match (s.ten j.ten).bind Ten.fab with
    | none => if grouped then 7 else 0
    | some f =>
      if grouped && (j.group = 0 || f.ranksM1 + 1 < j.size || j.size ≤ j.me || (j.op = 5 && j.size ≤ j.root) ||
          (table[j.me]?) != some f.ownRank) then 4
      else if j.moves && j.extents.any (fun e => f.exportPages * 4096 < e.1 + e.2) then 5
      else if grouped && bits w0 59 58 = 2 && (!(j.op = 2 || j.op = 4 || j.op = 5) ||
          (regularM (ranks.map (fun r => rackOf r.2))).isNone) then 6
      else if j.op = 7 && (KMap.get (0, 0) s.fab.gens (j.ten * 65536 + j.group)).1 = j.gen + 1 then 9
      else 0

/-! ### Memory -/

/-- Reads of the engine for a descriptor's Tenancy, at an offset in its export region. -/
def State.collRead (s : State) (c : Nat) (j : CollJob) (off n : Nat) : Nat × List Byte × State :=
  match (s.ten j.ten).bind Ten.fab with
  | some f => s.busRead (collIssuer c j.ten) .rd (f.exportBase + off) n
  | none => (St.unmapped, [], s)

/-- Writes of the engine, as `collRead`. -/
def State.collWrite (s : State) (c : Nat) (j : CollJob) (off : Nat) (l : List Byte) : Nat × State :=
  match (s.ten j.ten).bind Ten.fab with
  | some f => s.busWrite (collIssuer c j.ten) .wr (f.exportBase + off) l
  | none => (St.unmapped, s)

def State.coll (s : State) (c : Nat) : CollCtx := KMap.get {} s.fab.colls c

def State.updColl (s : State) (c : Nat) (g : CollCtx → CollCtx) : State :=
  s.updFab (fun f => { f with colls := KMap.upd {} f.colls c g })

def State.updCollRun (s : State) (c : Nat) (g : CollRun → CollRun) : State :=
  s.updColl c (fun x => { x with running := x.running.map g })

/-- The running descriptor keeps its first failing status. -/
def State.collStatus (s : State) (c st : Nat) : State :=
  s.updCollRun c (fun r => if r.status = 0 then { r with status := st } else r)

/-! ### Reduction (R396) -/

/-- An element of DTYPE widened to what is summed: FP32 bits, or an INT32. -/
def widen (dt v : Nat) : Nat :=
  if dt = 1 || dt = 2 then (laneExact 0 (laneNum dt v) [laneNum dt v] [dt, v]).code else v

/-- A sum rounded to DTYPE. -/
def narrow (dt v : Nat) : Nat :=
  if dt = 1 || dt = 2 then (laneExact dt (laneNum 0 v) [laneNum 0 v] [dt, v]).code else v

/-- One step of a reduction on widened elements. -/
def reduceStep (redop dt a b : Nat) : Nat :=
  if dt = 3 then
    match redop with
    | 0 => (a + b) % 2 ^ 32
    | 1 => if toSigned 32 a < toSigned 32 b then b else a
    | _ => if toSigned 32 b < toSigned 32 a then b else a
  else match redop with
    | 0 => (laneArith 0 0 a b 0).code
    | 1 => (laneArith 5 0 a b 0).code
    | _ => (laneArith 4 0 a b 0).code

/-- The widened elements reduced in order. -/
def reduceLists (redop dt : Nat) : List (List Nat) → List Nat
  | [] => []
  | a :: t => t.foldl (fun x y => List.zipWith (reduceStep redop dt) x y) a

/-! ### Streams -/

/-- The identity of a stream without ATTEMPT: GROUP_ID, GEN and the sequence number (R397). -/
def CollRun.ident (r : CollRun) : Nat := r.job.group * 2 ^ 12 + r.job.gen * 2 ^ 4 + r.seq % 16

/-- The place of a member that has not failed: its Tenancy and fabric ID. -/
def CollRun.place (r : CollRun) (peer : Nat) : Option (Nat × Nat) := if r.failed.contains peer then none else r.ranks[peer]?

/-- The path selector of a stream: every packet of it carries the same one. Its value is the source's choice, which the spec leaves open. -/
def CollRun.pathKey (r : CollRun) (peer : Nat) : Nat := (Config.pathKey (r.ident * 65536 + peer)).toNat

/-- Queues the pieces of one part of a stream as PUTs (R356, R357). -/
def State.sendPut (s : State) (c : Nat) (r : CollRun) (peer attempt off : Nat) (data : List Byte) : State :=
  match r.place peer with
  | none => s
  | some (ten, id) =>
    let n := (data.length + 511) / 512
    let s := (List.range n).foldl (fun s i =>
      let part := (data.drop (512 * i)).take 512
      let p : Packet := { cls := 2, opcode := 0x40, pkey := KMap.get 0 s.fab.pkeys r.job.ten, src := s.fabId, dst := id,
                          epoch := 0, vc := 3, pathKey := r.pathKey peer, tag := r.job.me, hops := 0,
                          bytes := part.length, addr := ten * 2 ^ 58 + 2 ^ 57 + (off + 512 * i),
                          aux := r.ident * 16 + attempt % 16, body := part }
      s.updFab (fun f => { f with puts := f.puts ++ [⟨c, peer, r.job.ten, p, s.now⟩] })) s
    s.putPump

/-- A control packet of a collective on VC3. -/
def State.packet3 (s : State) (r : CollRun) (peer id opcode body : Nat) (words : List Nat) : Packet :=
  { cls := 1, opcode := opcode, pkey := KMap.get 0 s.fab.pkeys r.job.ten, src := s.fabId, dst := id, epoch := 0, vc := 3,
    pathKey := r.pathKey peer, tag := r.job.me, hops := 0, bytes := body,
    body := (words.flatMap (leBytes 8) ++ List.replicate 48 0).take (16 * body) }

/-- The bytes of a stream. -/
def OutStream.total (o : OutStream) : Nat := (o.parts.map (fun p => p.2.length)).sum

/-- PUT_END of a stream (R356), behind its PUTs. -/
def State.sendEnd (s : State) (c : Nat) (r : CollRun) (o : OutStream) : State :=
  let s := s.updCollRun c (fun x => { x with outs := x.outs.map (fun y => if y.peer = o.peer then { y with ended := true } else y) })
  match r.place o.peer with
  | none => s
  | some (_, id) =>
    let p := s.packet3 r o.peer id 0x41 2 [o.total, (r.ident * 16 + o.attempt % 16) * 2 ^ 32 + r.job.me]
    (s.updFab (fun f => { f with puts := f.puts ++ [⟨c, o.peer, r.job.ten, p, s.now⟩] })).putPump

/-- What a stage of an operation sends: peer, offset in its export region, data (R394, R395). Stages are counted from 0; what the
engine reads comes from memory as it stands when the stage starts. -/
structure Send where
  peer : Nat
  off : Nat
  data : List Byte
  deriving DecidableEq, Repr

/-- Reads a block to send to a peer. -/
def State.block (s : State) (c : Nat) (j : CollJob) (peer dest off n : Nat) : List Send × State :=
  if n = 0 then ([⟨peer, dest, []⟩], s)
  else
    let r := s.collRead c j off n
    if r.1 != 0 then ([], r.2.2.collStatus c r.1) else ([⟨peer, dest, r.2.1⟩], r.2.2)

/-- Reads blocks to send: peer, destination offset, source offset, bytes. -/
def State.blocks (s : State) (c : Nat) (j : CollJob) (l : List (Nat × Nat × Nat × Nat)) : List Send × State :=
  l.foldl (fun acc x => let r := acc.2.block c j x.1 x.2.1 x.2.2.1 x.2.2.2; (acc.1 ++ r.1, r.2)) ([], s)

/-- The local index and rack block of a member under HIER. -/
def CollRun.m (r : CollRun) : Nat := (hierM r.ranks).getD r.ranks.length

/-- The send counts of an ALL_TO_ALL with VAR. -/
def State.sendCounts (s : State) (c : Nat) (j : CollJob) : List Nat × State :=
  if !j.var then (List.replicate j.size j.bytes, s)
  else
    let r := s.busRead (collIssuer c j.ten) .rd (j.w 7) (4 * j.size)
    (((List.range j.size).map (fun i => min j.bytes (leNat ((r.2.1.drop (4 * i)).take 4)))), if r.1 != 0 then r.2.2.collStatus c r.1 else r.2.2)

/-- The FP32 or INT32 partial of this member's rack shard under HIER ALL_REDUCE, in ascending local index. -/
def State.rackPartial (s : State) (c : Nat) (r : CollRun) : List Nat × State :=
  let j := r.job
  let m := r.m
  let l := j.me % m
  let s1 := shard j.bytes m
  let n := shardLen j.bytes s1 l
  let q := (List.range m).foldl (fun (acc : List (List Nat) × State) k =>
    let x := if k = l then acc.2.collRead c j (j.src + l * s1) n else acc.2.collRead c j (j.stage + k * s1) n
    (acc.1 ++ [(elems j.eb x.2.1).map (widen j.dtype)], if x.1 != 0 then x.2.2.collStatus c x.1 else x.2.2)) ([], s)
  (reduceLists j.redop j.dtype q.1, q.2)

/-- The sends of a stage. -/
def State.stageSends (s : State) (c : Nat) (r : CollRun) (k : Nat) : List Send × State :=
  let j := r.job
  let n := j.size
  let i := j.me
  let b := j.bytes
  let others := (List.range n).filter (· != i)
  let m := r.m
  let l := i % m
  let blk := i / m
  let rack := ((List.range m).map (fun x => blk * m + x)).filter (· != i)
  let cross := ((List.range (n / m)).map (fun x => x * m + l)).filter (· != i)
  match j.op, r.algo, k with
  | 1, _, 0 =>
    let q := s.sendCounts c j
    q.2.blocks c j (others.map (fun p => (p, j.dst + i * b, j.src + p * b, (q.1[p]?).getD 0)))
  | 2, 1, 0 => s.blocks c j (others.map (fun p => (p, j.dst + i * b, j.src, b)))
  | 3, _, 0 => s.blocks c j (others.map (fun p => (p, j.stage + i * b, j.src + p * b, b)))
  | 4, 1, 0 => s.blocks c j (others.map (fun p => (p, j.stage + i * shard b n, j.src + p * shard b n, shardLen b (shard b n) p)))
  | 4, 1, 1 => s.blocks c j (others.map (fun p => (p, j.dst + i * shard b n, j.dst + i * shard b n, shardLen b (shard b n) i)))
  | 5, 1, 0 => if i = j.root then s.blocks c j (others.map (fun p => (p, j.dst, j.src, b))) else ([], s)
  | 2, _, 0 => s.blocks c j (cross.map (fun p => (p, j.dst + i * b, j.src, b)))
  | 2, _, 1 => s.blocks c j (rack.flatMap (fun p => (List.range (n / m)).map (fun x =>
      (p, j.dst + (x * m + l) * b, j.dst + (x * m + l) * b, b))))
  | 5, _, 0 => if i = j.root then s.blocks c j (cross.map (fun p => (p, j.dst, j.src, b))) else ([], s)
  | 5, _, 1 => if l = j.root % m then
      s.blocks c j (rack.map (fun p => (p, j.dst, if i = j.root then j.src else j.dst, b)))
    else ([], s)
  | 4, _, 0 => s.blocks c j (rack.map (fun p => (p, j.stage + l * shard b m, j.src + p % m * shard b m, shardLen b (shard b m) (p % m))))
  | 4, _, 1 =>
    let q := s.rackPartial c r
    let bytes := q.1.flatMap (leBytes 4)
    let s2 := shard bytes.length (n / m)
    (cross.map (fun p => ⟨p, j.stage + m * shard b m + blk * s2, (bytes.drop (p / m * s2)).take s2⟩), q.2)
  | 4, _, 2 =>
    let len := shardLen b (shard b m) l
    let s2 := shard (len / j.eb * 4) (n / m) / 4 * j.eb
    s.blocks c j (cross.map (fun p => (p, j.dst + l * shard b m + blk * s2, j.dst + l * shard b m + blk * s2, shardLen len s2 blk)))
  | 4, _, 3 => s.blocks c j (rack.map (fun p => (p, j.dst + l * shard b m, j.dst + l * shard b m, shardLen b (shard b m) l)))
  | _, _, _ => ([], s)

/-- Bytes that a member expects from a peer in a stage; none where only PUT_END tells (VAR). -/
def CollRun.expects (r : CollRun) (k peer : Nat) : Option Nat :=
  let j := r.job
  let n := j.size
  let b := j.bytes
  let m := r.m
  let i := j.me
  let l := i % m
  let inRack := peer / m == i / m
  let inCross := peer % m == l
  if peer = i then some 0
  else match j.op, r.algo, k with
    | 1, _, _ => if j.var then none else some b
    | 2, 1, _ => some b
    | 3, _, _ => some b
    | 4, 1, 0 => some (shardLen b (shard b n) i)
    | 4, 1, _ => some (shardLen b (shard b n) peer)
    | 5, 1, _ => some (if peer = j.root then b else 0)
    | 2, _, 0 => some (if inCross then b else 0)
    | 2, _, _ => some (if inRack then n / m * b else 0)
    | 5, _, 0 => some (if peer = j.root && inCross then b else 0)
    | 5, _, _ => some (if inRack && peer % m = j.root % m && l ≠ j.root % m then b else 0)
    | 4, _, 0 => some (if inRack then shardLen b (shard b m) l else 0)
    | 4, _, 1 =>
      let f := shardLen b (shard b m) l / j.eb * 4
      some (if inCross then shardLen f (shard f (n / m)) (i / m) else 0)
    | 4, _, 2 =>
      let len := shardLen b (shard b m) l
      some (if inCross then shardLen len (shard (len / j.eb * 4) (n / m) / 4 * j.eb) (peer / m) else 0)
    | 4, _, _ => some (if inRack then shardLen b (shard b m) (peer % m) else 0)
    | _, _, _ => some 0

/-- Bytes that a member expects from a peer up to and including a stage. -/
def CollRun.expectsBy (r : CollRun) (k peer : Nat) : Option Nat :=
  (List.range (k + 1)).foldl (fun acc i => match acc, r.expects i peer with
    | some a, some b => some (a + b)
    | _, _ => none) (some 0)

/-- The stream that a running collective receives from a peer. -/
def State.rxFrom (s : State) (r : CollRun) (peer : Nat) : Option RxStream :=
  match r.ranks[peer]? with
  | some (_, id) => s.fab.streams.find? (fun x => x.ten == r.job.ten && x.src == id && x.idx == peer && x.ident == r.ident)
  | none => none

/-- Whether a stage has received all that it waits for, from every peer that has not failed. -/
def State.stageArrived (s : State) (r : CollRun) (k : Nat) : Bool :=
  (List.range r.job.size).all fun p =>
    r.failed.contains p || match r.expectsBy k p with
      | some n => n = 0 || (match s.rxFrom r p with | some x => n ≤ x.count | none => false)
      | none => (match s.rxFrom r p with | some x => x.total == some x.count | none => false)

/-- A write of the engine; a failing one ends the collective with its status. -/
def State.collStore (s : State) (c : Nat) (j : CollJob) (off : Nat) (l : List Byte) : State :=
  if l.isEmpty then s
  else let q := s.collWrite c j off l; if q.1 != 0 then q.2.collStatus c q.1 else q.2

/-- Copies a block of this member's own. -/
def State.collCopy (s : State) (c : Nat) (j : CollJob) (dest off n : Nat) : State :=
  if n = 0 then s
  else let q := s.collRead c j off n; if q.1 != 0 then q.2.2.collStatus c q.1 else q.2.2.collStore c j dest q.2.1

/-- Reduces contributions read from memory, in order, into DTYPE bytes. -/
def State.reduceFrom (s : State) (c : Nat) (j : CollJob) (offs : List Nat) (n : Nat) : List Byte × State :=
  let q := offs.foldl (fun (acc : List (List Nat) × State) o =>
    let x := acc.2.collRead c j o n
    (acc.1 ++ [(elems j.eb x.2.1).map (widen j.dtype)], if x.1 != 0 then x.2.2.collStatus c x.1 else x.2.2)) ([], s)
  (((reduceLists j.redop j.dtype q.1).map (narrow j.dtype)).flatMap (leBytes j.eb), q.2)

/-- What is done here when a stage has arrived: local blocks at its start are in place, and reductions are written (R396). -/
def State.stageDone (s : State) (c : Nat) (r : CollRun) (k : Nat) : State :=
  let j := r.job
  let n := j.size
  let i := j.me
  let b := j.bytes
  let m := r.m
  let l := i % m
  match j.op, r.algo, k with
  | 3, _, 0 =>
    let q := s.reduceFrom c j ((List.range n).map (fun x => if x = i then j.src + i * b else j.stage + x * b)) b
    q.2.collStore c j j.dst q.1
  | 4, 1, 0 =>
    let sh := shard b n
    let q := s.reduceFrom c j ((List.range n).map (fun x => if x = i then j.src + i * sh else j.stage + x * sh)) (shardLen b sh i)
    q.2.collStore c j (j.dst + i * sh) q.1
  | 4, 2, 1 =>
    let q := s.rackPartial c r
    let own := q.1.flatMap (leBytes 4)
    let s2 := shard own.length (n / m)
    let len := shardLen own.length s2 (i / m)
    let x := (List.range (n / m)).foldl (fun (acc : List (List Nat) × State) y =>
      if y = i / m then (acc.1 ++ [elems 4 ((own.drop (i / m * s2)).take len)], acc.2)
      else
        let z := acc.2.collRead c j (j.stage + m * shard b m + y * s2) len
        (acc.1 ++ [elems 4 z.2.1], if z.1 != 0 then z.2.2.collStatus c z.1 else z.2.2)) ([], q.2)
    let out := ((reduceLists j.redop j.dtype x.1).map (narrow j.dtype)).flatMap (leBytes j.eb)
    x.2.collStore c j (j.dst + l * shard b m + i / m * (s2 / 4 * j.eb)) out
  | _, _, _ => s

/-- Queues what a stage sends, and PUT_END after the last part of a stream. -/
def State.stageSend (s : State) (c : Nat) (r : CollRun) (k : Nat) : State :=
  let q := s.stageSends c r k
  let later := fun (s : State) => ((List.range r.stages).filter (fun x => k < x)).flatMap (fun x => ((s.stageSends c r x).1).map Send.peer)
  let s := q.1.foldl (fun s x =>
    let s := s.updCollRun c (fun y =>
      if y.outs.any (fun o => o.peer == x.peer) then
        { y with outs := y.outs.map (fun o => if o.peer = x.peer then { o with parts := o.parts ++ [(x.off, x.data)] } else o) }
      else { y with outs := y.outs ++ [{ peer := x.peer, parts := [(x.off, x.data)] }] })
    s.sendPut c r x.peer 0 x.off x.data) q.2
  let rest := later s
  match (s.coll c).running with
  | some y => (y.outs.filter (fun o => !o.ended && !rest.contains o.peer)).foldl (fun s o => s.sendEnd c r o) s
  | none => s

/-- Local blocks that an operation copies for this member itself. -/
def State.selfBlocks (s : State) (c : Nat) (j : CollJob) : State :=
  let i := j.me
  let b := j.bytes
  match j.op with
  | 1 => let q := s.sendCounts c j; q.2.collCopy c j (j.dst + i * b) (j.src + i * b) ((q.1[i]?).getD 0)
  | 2 => s.collCopy c j (j.dst + i * b) j.src b
  | 5 => if i = j.root then s.collCopy c j j.dst j.src b else s
  | _ => s

/-! ### Barriers -/

/-- Sends BARRIER of a round. -/
def State.sendBarrier (s : State) (c : Nat) (r : CollRun) (k : Nat) : State :=
  let peer := (r.job.me + 2 ^ k) % r.job.size
  match r.place peer with
  | none => s
  | some (_, id) => s.emit (s.packet3 r peer id 0x44 1 [r.ident * 16 * 2 ^ 32 + k]) s.now none (some (c, peer))

/-- The member that a round waits for. -/
def CollRun.before (r : CollRun) (k : Nat) : Nat := (r.job.me + r.job.size - 2 ^ k % r.job.size) % r.job.size

def State.barrierSeen (s : State) (r : CollRun) (k : Nat) : Bool :=
  r.failed.contains (r.before k) || match r.ranks[r.before k]? with
    | some (_, id) => s.fab.barriers.any (fun x => x.ten == r.job.ten && x.src == id && x.ident == r.ident && x.round == k)
    | none => false

/-! ### Progress -/

/-- One move of the running collective of a context, if it can make one: a stage that has arrived is closed and the next one
starts; a barrier goes to its next round. -/
def State.collMove (s : State) (c : Nat) : State :=
  match (s.coll c).running with
  | none => s
  | some r =>
    if r.status != 0 || s.ridge.powerFail then s
    else if r.job.op = 6 || r.job.op = 7 then
      if r.round < barrierRounds r.job.size && s.barrierSeen r r.round then
        let s := s.updCollRun c (fun x => { x with round := x.round + 1 })
        if r.round + 1 < barrierRounds r.job.size then s.sendBarrier c r (r.round + 1) else s
      else s
    else if r.done < r.stages && s.stageArrived r r.done then
      let s := (if r.failed.isEmpty then s.stageDone c r r.done else s).updCollRun c (fun x => { x with done := x.done + 1 })
      if r.done + 1 < r.stages then
        match (s.coll c).running with
        | some r => s.stageSend c r r.done
        | none => s
      else s
    else s

/-- Every move that the running collective can make now. -/
def State.collAdvance (s : State) (c : Nat) : State := Nat.repeat (fun s => State.collMove s c) 20 s

/-- Every context of a Tenancy advances. -/
def State.collsAdvance (s : State) (t : Nat) : State :=
  (List.range 16).foldl (fun s c => match (s.coll c).running with
    | some r => if r.job.ten = t then s.collAdvance c else s
    | none => s) s

/-- Whether a running collective has ended: a failing status, or every stage or round done and every stream acknowledged. -/
def CollRun.ended (r : CollRun) : Bool :=
  r.status != 0 ||
    (if r.job.op = 6 || r.job.op = 7 then barrierRounds r.job.size ≤ r.round
     else r.stages ≤ r.done && r.outs.all (fun o => o.acked || r.failed.contains o.peer))

/-- Writes the record of a job, if it has one, and applies JOB_SIG_EN and IRQ (R182). -/
def State.jobDone (s : State) (i : Issuer) (d src w14 w15 : Nat) (rec_ : Option (List Nat)) : Nat × State :=
  let q := match rec_ with
    | some l => s.busWrite i .wr w14 (l.flatMap (leBytes 8))
    | none => (0, s)
  let s := if w15.testBit 13 then q.2.evcAdd d (bits w15 23 14) 1 else q.2
  (q.1, if w15.testBit 12 then s.srcEvent (.priv d src) else s)

/-- The result record of a collective (R401). -/
def State.collRecord (s : State) (r : CollRun) (st : Nat) : List Nat :=
  let got := ((s.fab.streams.filter (fun x => x.ten == r.job.ten && x.ident == r.ident)).map RxStream.count).sum
  let f := fun k => (r.failed[k]?).getD 0xFFFF
  [st * 2 ^ 56 + r.algo * 2 ^ 54 + r.reason * 2 ^ 32 + r.failed.length, r.sent, got,
    f 0 * 2 ^ 48 + f 1 * 2 ^ 32 + f 2 * 2 ^ 16 + f 3, r.resends % 2 ^ 32 * 2 ^ 32 + (s.now - r.startNs) % 2 ^ 32, 0, 0, 0]

/-- Ends a descriptor with a status: its record, its counter and its interrupt. -/
def State.collFinish (s : State) (c : Nat) (r : CollRun) (st : Nat) : State :=
  (s.jobDone (collIssuer c r.job.ten) r.job.dist 6 (r.job.w 14) (r.job.w 15)
    (if r.job.op = 0 then none else some (s.collRecord r st))).2

/-- Fills with free bytes what lost peers leave undefined: the parts of DST that they feed, and every reduced value (R399). -/
def State.collUndefined (s : State) (c : Nat) (r : CollRun) : State :=
  let j := r.job
  let m := r.m
  let fed := fun (p : Nat) => r.failed.contains p
  let lost := fun x =>
    let b := x / j.bytes
    match j.op with
    | 1 => b ≠ j.me && fed b
    | 2 => b ≠ j.me && (fed b || (r.algo = 2 && b % m ≠ j.me % m && fed (j.me / m * m + b % m)))
    | 5 => fed (if r.algo = 2 && j.me % m ≠ j.root % m then j.me / m * m + j.root % m else j.root)
    | _ => true
  let n := match j.op with
    | 1 => j.size * j.bytes
    | 2 => j.size * j.bytes
    | 3 => j.bytes
    | 4 => j.bytes
    | 5 => if j.me = j.root then 0 else j.bytes
    | _ => 0
  (List.range ((n + 127) / 128)).foldl (fun s k =>
    if lost (128 * k) then
      s.collStore c j (j.dst + 128 * k) ((List.range 128).map (fun b => Config.collByte s.free (128 * k + b)))
    else s) s |>.tickFree

/-- A rejected descriptor (R402). -/
def State.collReject (s : State) (c : Nat) (j : CollJob) (reason : Nat) : State :=
  let r : CollRun := { job := j, startNs := s.now, algo := 0, reason := reason, status := St.descInvalid }
  ((s.collFinish c r St.descInvalid).opmErr 0xC6 reason j.ten 0 j.group).askDiscard j.ten j.dist 0xFBC6

/-! ### Starting -/

/-- Whether the next descriptor of a context may start: none runs, its Tenancy's step runs and is not being suspended, and local memory
answers (R290). -/
def State.collReady (s : State) (c : Nat) : Option CollJob :=
  match (s.coll c).running, (s.coll c).queue with
  | none, j :: _ => if s.tick.cur = j.ten && s.tick.suspending.isNone && !s.ridge.powerFail then some j else none
  | _, _ => none

/-- The group table and its translations (R393, R364): a member whose translation fails has failed, and an entry whose read ends with
DATA_ERROR ends the descriptor so. -/
def State.readGroup (s : State) (c : Nat) (j : CollJob) : Nat × List Nat × List (Nat × Nat) × List Nat × State :=
  let q := s.busRead (collIssuer c j.ten) .rd (j.w 1) (4 * j.size)
  if q.1 != 0 then (q.1, [], [], [], q.2.2)
  else
    let table := elems 4 q.2.1
    let r := table.zipIdx.foldl (fun (acc : Nat × List (Nat × Nat) × List Nat × State) x =>
      let s := acc.2.2.2
      if x.2 = j.me then (acc.1, acc.2.1 ++ [(j.ten, s.fabId)], acc.2.2.1, s)
      else
        let e := s.rankEntry j.ten (x.1 % 2 ^ 20)
        if e.1 != 0 then (if e.1 = St.dataError then e.1 else acc.1, acc.2.1 ++ [(0, 0)], acc.2.2.1 ++ [x.2], e.2.2)
        else (acc.1, acc.2.1 ++ [(bits e.2.1 61 56, e.2.1 % 65536)], acc.2.2.1, e.2.2)) (0, [], [], q.2.2)
    (r.1, table, r.2.1, r.2.2.1, r.2.2.2)

/-- Whether generation `a` is newer than `b`. Generations have 8 bits and wrap, and are compared as SEQ is in R381. -/
def genNewer (a b : Nat) : Bool := let d := (a % 256 + 256 - b % 256) % 256; 1 ≤ d && d ≤ 127

/-- The generation and sequence number that a descriptor of a group takes (R397, R398). -/
def State.takeSeq (s : State) (j : CollJob) : Nat × State :=
  let k := j.ten * 65536 + j.group
  let g := KMap.get (0, 0) s.fab.gens k
  let newerGen := g.1 = 0 || genNewer j.gen (g.1 - 1)
  let base := if newerGen then (j.gen + 1, 0) else g
  (base.2 % 16, s.updFab (fun f => { f with
    gens := KMap.set (0, 0) f.gens k (base.1, (base.2 + 1) % 16),
    streams := f.streams.filter (fun x => !(x.ten == j.ten && x.ident == j.group * 2 ^ 12 + j.gen * 2 ^ 4 + (base.2 + 8) % 16)),
    barriers := f.barriers.filter (fun x => !(x.ten == j.ten && x.ident == j.group * 2 ^ 12 + j.gen * 2 ^ 4 + (base.2 + 8) % 16)) }))

/-- Starts the next descriptor of a context when it is one of these operations: it is cancelled by a STOP, fenced without a held
Ward, rejected, or it runs. -/
def State.collStart (s : State) (c : Nat) (op : Nat → Bool) : State :=
  match s.collReady c with
  | none => s
  | some j =>
    if !op j.op then s
    else
      let s := s.updColl c (fun x => { x with queue := x.queue.drop 1 })
      let r0 : CollRun := { job := j, startNs := s.now }
      if s.rtest .STOP_TRAFFIC [] j.ten then s.collFinish c r0 St.cancelled
      else
        let early := s.collReason j [] []
        let stop := fun (x : Nat) => x = 1 || x = 2 || x = 3 || x = 7
        if stop early then s.collReject c j early
        else if j.op = 0 then s.collFinish c r0 0
        else if !s.wardOk j.ten then s.collFinish c r0 St.fenced
        else
          let (st, table, ranks, failed, s) := s.readGroup c j
          if st != 0 then s.collFinish c r0 st
          else
            let reason := s.collReason j table ranks
            if reason != 0 then s.collReject c j reason
            else
              let q := if j.op = 7 then (0, s) else s.takeSeq j
              let r : CollRun := { job := j, startNs := s.now, algo := j.resolve ranks, ranks := ranks, seq := q.1, failed := failed }
              let s := q.2.updColl c (fun x => { x with running := some r })
              if j.op = 6 || j.op = 7 then
                (if 0 < barrierRounds j.size then s.sendBarrier c r 0 else s).collAdvance c
              else ((s.selfBlocks c j).stageSend c r 0).collAdvance c

/-- ALL_TO_ALL (R394). -/
def execAllToAll (c : Fin 16) (now : Nat) (s : State) : Host.Outcome State Fault Refusal := .next ((s.at now).collStart c (· == 1))

/-- ALL_GATHER (R394, R395). -/
def execAllGather (c : Fin 16) (now : Nat) (s : State) : Host.Outcome State Fault Refusal := .next ((s.at now).collStart c (· == 2))

/-- REDUCE_SCATTER (R394, R396). -/
def execReduceScatter (c : Fin 16) (now : Nat) (s : State) : Host.Outcome State Fault Refusal :=
  .next ((s.at now).collStart c (· == 3))

/-- ALL_REDUCE (R394 to R396). -/
def execAllReduce (c : Fin 16) (now : Nat) (s : State) : Host.Outcome State Fault Refusal := .next ((s.at now).collStart c (· == 4))

/-- BROADCAST (R394, R395). -/
def execBroadcast (c : Fin 16) (now : Nat) (s : State) : Host.Outcome State Fault Refusal := .next ((s.at now).collStart c (· == 5))

/-- BARRIER as a collective (R394). -/
def execCollBarrier (c : Fin 16) (now : Nat) (s : State) : Host.Outcome State Fault Refusal := .next ((s.at now).collStart c (· == 6))

/-- REFORM (R400). -/
def execReform (c : Fin 16) (now : Nat) (s : State) : Host.Outcome State Fault Refusal := .next ((s.at now).collStart c (· == 7))

/-- NOP (R393); a descriptor whose OP is not defined is rejected here (R402). -/
def execCollNop (c : Fin 16) (now : Nat) (s : State) : Host.Outcome State Fault Refusal :=
  .next ((s.at now).collStart c (fun x => x == 0 || 8 < x))

/-- CANCEL (R394): every queued and running descriptor of its Tenancy in the named context is cancelled, when it is accepted and
not in queue order. -/
def execCancel (c : Fin 16) (past : List (PortId × Nat)) (now : Nat) (s : State) : Host.Outcome State Fault Refusal :=
  let s := s.at now
  match (s.coll c).queue.find? (fun j => j.op == 8) with
  | none => .next s
  | some j =>
    let s := (s.grantedBefore past).updColl c (fun x => { x with queue := x.queue.erase j })
    let r0 : CollRun := { job := j, startNs := now }
    let reason := s.collReason j [] []
    if reason != 0 then .next (s.collReject c j reason)
    else
      let x := j.root % 16
      let gone := (s.coll x).queue.filter (fun k => k.ten == j.ten)
      let s := s.updColl x (fun y => { y with queue := y.queue.filter (fun k => k.ten != j.ten) })
      let s := gone.foldl (fun s k => s.collFinish x { job := k, startNs := now } St.cancelled) s
      let s := match (s.coll x).running with
        | some r =>
          if r.job.ten = j.ten && r.status = 0 then
            let q := s.cancelColl x
            q.2.2.collStatus x (r.cancelled false q.1 q.2.1)
          else s
        | none => s
      .next (s.collFinish c r0 0)

/-! ### Packets of streams -/

/-- Whether a generation is older than the current one of a group, and whether it is newer (R398). -/
def State.genOlder (s : State) (ten ident : Nat) : Bool :=
  let g := (KMap.get (0, 0) s.fab.gens (ten * 65536 + ident / 2 ^ 12)).1
  g != 0 && genNewer (g - 1) (ident / 16)

/-- A packet of a newer generation makes it current. -/
def State.noteGen (s : State) (ten ident : Nat) : State :=
  let k := ten * 65536 + ident / 2 ^ 12
  let g := (KMap.get (0, 0) s.fab.gens k).1
  if g = 0 || genNewer (ident / 16) (g - 1) then s.updFab (fun f => { f with gens := KMap.set (0, 0) f.gens k (ident / 16 % 256 + 1, 0) }) else s

/-- Changes a receive stream, which is entered first if it is new. -/
def State.updStream (s : State) (ten src idx ident : Nat) (g : RxStream → RxStream) : State :=
  let mine := fun (x : RxStream) => x.ten == ten && x.src == src && x.idx == idx && x.ident == ident
  let fresh : RxStream := { ten := ten, src := src, idx := idx, ident := ident }
  let l := if s.fab.streams.any mine then s.fab.streams.map (fun x => if mine x then g x else x) else s.fab.streams ++ [g fresh]
  s.updFab (fun f => { f with streams := l })

/-- A stream sees an attempt: a higher one counts from the start. -/
def RxStream.see (x : RxStream) (attempt : Nat) : RxStream :=
  if x.attempt < attempt then { x with attempt := attempt, count := 0, cancelled := 0, total := none } else x

/-- PUT (R358, R397, R398): with no room in the receive table it waits, and so it does while local memory is closed (R290). -/
def execPut (n : Nat) (now : Nat) (s : State) : Host.Outcome State Fault Refusal :=
  let s := s.at now
  match s.delivered n [0x40] with
  | none => .next s
  | some q =>
    let p := q.pkt
    let ten := bits p.addr 63 58
    let ident := p.aux / 16
    let attempt := p.aux % 16
    let known := s.fab.streams.find? (fun x => x.ten == ten && x.src == p.src && x.idx == p.tag && x.ident == ident)
    if s.ridge.powerFail || (known.isNone && 4096 ≤ s.fab.streams.length) then .next s
    else
      let s := s.swDrop n
      if s.genOlder ten ident || (match known with | some x => attempt < x.attempt | none => false) then .next s
      else
        let c := if p.addr.testBit 57 then s.targetCheck p.addr p.bytes p.pkey 0 p.src else (St.unmapped, 0, s)
        if c.1 != 0 then .next c.2.2
        else
          let s := c.2.2.noteGen ten ident
          if p.void then .next (s.updStream ten p.src p.tag ident (fun x => let x := x.see attempt; { x with cancelled := x.cancelled + p.bytes }))
          else
            let w := s.serveWrite q.portNo c.2.1 p.body
            let s := w.2.updStream ten p.src p.tag ident (fun x => let x := x.see attempt; { x with count := x.count + (if w.1 = 0 then p.bytes else 0) })
            .next (s.collsAdvance ten)

/-- The Tenancy that a control packet of a stream concerns: one with its key that has the stream, or the first with its key. -/
def State.streamTen (s : State) (key src idx ident : Nat) : Option Nat :=
  let l := s.tenIds.filter (fun t => KMap.get 0 s.fab.pkeys t == key && ((s.ten t).bind Ten.fab).isSome)
  (l.find? (fun t => s.fab.streams.any (fun x => x.ten == t && x.src == src && x.idx == idx && x.ident == ident))).or l.head?

/-- PUT_END (R397): answered with END_ACK, which carries the bytes counted for the highest attempt seen. A stream that it opens needs
room in the receive table, as a PUT's does. -/
def execPutEnd (n : Nat) (now : Nat) (s : State) : Host.Outcome State Fault Refusal :=
  let s := s.at now
  match s.delivered n [0x41] with
  | none => .next s
  | some q =>
    let p := q.pkt
    let w1 := bodyWord p.body 1
    let ident := w1 / 2 ^ 36
    let attempt := w1 / 2 ^ 32 % 16
    let idx := w1 % 2 ^ 32
    match s.streamTen p.pkey p.src idx ident with
    | none => .next (s.swDrop n)
    | some t =>
      if s.genOlder t ident then .next (s.swDrop n)
      else if 4096 ≤ s.fab.streams.length && !s.fab.streams.any (fun x => x.ten == t && x.src == p.src && x.idx == idx && x.ident == ident) then
        .next s
      else
        let s := ((s.swDrop n).noteGen t ident).updStream t p.src idx ident (fun x => let x := x.see attempt; if x.attempt = attempt then { x with total := some (bodyWord p.body 0) } else x)
        let count := match s.fab.streams.find? (fun x => x.ten == t && x.src == p.src && x.idx == idx && x.ident == ident) with
          | some x => x.count
          | none => 0
        let s := s.emit { cls := 1, opcode := 0x42, pkey := p.pkey, src := s.fabId, dst := p.src, epoch := 0, vc := 3,
                          pathKey := p.pathKey, tag := p.tag, hops := 0, bytes := 2, body := leBytes 8 count ++ leBytes 24 w1 } now
        .next (s.collsAdvance t)

/-- A peer has failed (R397, R399). -/
def State.peerFailed (s : State) (c peer : Nat) : State :=
  (s.updCollRun c (fun r => if r.failed.contains peer then r else { r with failed := r.failed ++ [peer] })).collAdvance c

/-- Sends a whole stream again with ATTEMPT raised, or fails the peer after RETRY_MAX resends (R397), by the timers that stood when its
PUT_END was sent (R348). -/
def State.resendStream (s : State) (c peer : Nat) : State :=
  match (s.coll c).running with
  | none => s
  | some r => match r.outs.find? (fun o => o.peer == peer) with
    | none => s
    | some o =>
      if timerOf F.FAB_TIMERS_RETRY_MAX o.timers ≤ o.attempt then s.peerFailed c peer
      else
        let o := { o with attempt := o.attempt + 1, endNs := none }
        let s := s.updCollRun c (fun x => { x with resends := x.resends + 1, outs := x.outs.map (fun y => if y.peer = peer then o else y) })
        let s := o.parts.foldl (fun s p => s.sendPut c r peer o.attempt p.1 p.2) s
        s.sendEnd c r o

/-- END_ACK (R397). -/
def execEndAck (n : Nat) (now : Nat) (s : State) : Host.Outcome State Fault Refusal :=
  let s := s.at now
  match s.delivered n [0x42] with
  | none => .next s
  | some q =>
    let p := q.pkt
    let s := s.swDrop n
    let w1 := bodyWord p.body 1
    let hit := (List.range 16).findSome? fun c => match (s.coll c).running with
      | some r =>
        if r.ident = w1 / 2 ^ 36 && r.job.me = w1 % 2 ^ 32 then
          (r.outs.find? (fun o => o.ended && !o.acked && o.attempt % 16 == w1 / 2 ^ 32 % 16 &&
            (r.ranks[o.peer]?).map Prod.snd == some p.src)).map (fun o => (c, o))
        else none
      | none => none
    match hit with
    | none => .next s
    | some (c, o) =>
      if p.status = St.unavailable then .next (s.peerFailed c o.peer)
      else if bodyWord p.body 0 = o.total then
        .next (s.updCollRun c (fun r => { r with outs := r.outs.map (fun y => if y.peer = o.peer then { y with acked := true } else y) }))
      else .next (s.resendStream c o.peer)

/-- BARRIER as a packet (R394, R398): it counts towards its round. -/
def execBarrier (n : Nat) (now : Nat) (s : State) : Host.Outcome State Fault Refusal :=
  let s := s.at now
  match s.delivered n [0x44] with
  | none => .next s
  | some q =>
    let p := q.pkt
    let s := s.swDrop n
    let w := bodyWord p.body 0
    match s.streamTen p.pkey p.src p.tag (w / 2 ^ 36) with
    | none => .next s
    | some t =>
      if s.genOlder t (w / 2 ^ 36) then .next s
      else .next ((s.updFab (fun f => { f with barriers := f.barriers ++ [⟨t, p.src, w / 2 ^ 36, w % 256⟩] })).collsAdvance t)

/-- STREAM_RESEND (R397): END_ACK is missing RETRY_US after PUT_END. -/
def execStreamResend (c : Fin 16) (peer : Nat) (now : Nat) (s : State) : Host.Outcome State Fault Refusal :=
  let s := s.at now
  match (s.coll c).running with
  | none => .next s
  | some r => match r.outs.find? (fun o => o.peer == peer) with
    | some o =>
      if r.status = 0 && o.ended && !o.acked && !r.failed.contains peer &&
          (match o.endNs with | some t => t + timerOf F.FAB_TIMERS_RETRY_US o.timers * 1000 ≤ now | none => false) then
        .next (s.resendStream c peer)
      else .next s
    | none => .next s

/-- COLL_TIMEOUT (R397): peers whose stream, or whose BARRIER, has not arrived within TIMEOUT_US have failed. -/
def execCollTimeout (c : Fin 16) (now : Nat) (s : State) : Host.Outcome State Fault Refusal :=
  let s := s.at now
  match (s.coll c).running with
  | none => .next s
  | some r =>
    if now < r.startNs + r.job.timeoutNs || r.ended then .next s
    else
      let late := if r.job.op = 6 || r.job.op = 7 then [r.before r.round]
        else (List.range r.job.size).filter (fun p => p != r.job.me &&
          (match r.expectsBy (r.stages - 1) p with
          | some n => n != 0 && (match s.rxFrom r p with | some x => x.count < n | none => true)
          | none => (match s.rxFrom r p with | some x => x.total != some x.count | none => true)))
      .next (late.foldl (fun s p => s.peerFailed c p) s)

/-- COLL_COMPLETE (R399 to R401): a collective that has ended writes its record. -/
def execCollComplete (c : Fin 16) (now : Nat) (s : State) : Host.Outcome State Fault Refusal :=
  let s := s.at now
  match (s.coll c).running with
  | none => .next s
  | some r =>
    if !r.ended || s.ridge.powerFail then .next s
    else
      let st := if r.status != 0 then r.status else if r.failed.isEmpty then 0 else St.groupFailed
      let s := if st = St.groupFailed then
          (s.collUndefined c r).opmErr 0xC5 0 r.job.ten 0 r.job.group
        else s
      let s := if r.job.op = 7 && st = 0 then s.updFab (fun f => { f with
          gens := KMap.set (0, 0) f.gens (r.job.ten * 65536 + r.job.group) (r.job.gen + 1, 0),
          streams := f.streams.filter (fun x => !(x.ten == r.job.ten && x.ident / 2 ^ 12 == r.job.group &&
            genNewer r.job.gen (x.ident / 16 % 256))) })
        else s
      let s := if r.job.op = 1 && r.job.var && st = 0 then
          let q := s.sendCounts c r.job
          let counts := (List.range r.job.size).map (fun p =>
            if p = r.job.me then (q.1[p]?).getD 0 else match s.rxFrom r p with | some x => x.count | none => 0)
          (q.2.busWrite (collIssuer c r.job.ten) .wr (r.job.w 8) (counts.flatMap (leBytes 4))).2
        else s
      let s := s.collFinish c r st
      .next (s.updColl c (fun x => { x with running := none }))

end Sys2Proof.Machine
end

