-- ==== Sys2Proof/Machine/Dma.lean ====
section
/-! DEFINITION. DMA descriptors (R132 to R143): what each operation moves, ring mode, the channels' buffer pool, and completion.
A descriptor moves in chunks of its stream of bytes that end at a row or at a multiple of 4 KiB. -/

namespace Sys2Proof.Machine

def State.job (s : State) (id : Nat) : Option DmaJob := s.dma.find? (fun j => j.id == id)

def State.updJob (s : State) (id : Nat) (f : DmaJob → DmaJob) : State :=
  { s with dma := s.dma.map (fun j => if j.id = id then f j else j) }

/-- Who issues the requests of a descriptor. -/
def DmaJob.issuer (j : DmaJob) : Issuer :=
  match j.owner with
  | .blk b _ => blkIssuer b j.ten
  | .ch d c => dmaIssuer d c j.ten

/-- The name of its requests in a memory shaper. -/
def DmaJob.key (j : DmaJob) : Nat := 2 ^ 50 + j.id

/-- A descriptor ends with a failing status at an address (R136, R372). -/
def State.dmaFail (s : State) (id st addr : Nat) : State :=
  match s.job id with
  | none => s
  | some j =>
    let st := if st = St.cancelled && 0 < j.far then 0x1D else if st = 0x1E && j.bytes < j.stream then 0x1D else st
    let s := s.updJob id (fun j => { j with status := some st, ringUnit := none, reserved := 0, held := 0, errAddr := addr })
    match j.owner with
    | .blk b _ => s.blkCapture b 0x63 j.off
    | .ch d c => s.distEv 0x63 d c j.ten (addr % 2 ^ 32)

/-- Notes a fabric request that has completed. -/
def Eng.noteFar (id a : Nat) : Eng Unit :=
  if farAddr a then Eng.act (fun s => s.updJob id (fun j => { j with far := j.far + 1 })) else pure ()

/-- A channel's read issues when pool space is reserved for its whole response, and holds that space from then on (R143). -/
def Eng.pool (j : DmaJob) (n : Nat) : Eng Unit :=
  match j.owner with
  | .blk _ _ => pure ()
  | .ch _ _ => do
    Eng.wait (fun s => match s.job j.id with | some x => n ≤ x.reserved | none => false)
    Eng.act (fun s => s.updJob j.id (fun x => { x with reserved := x.reserved - n, held := x.held + n }))

/-- What a channel's read held leaves the pool. -/
def Eng.unpool (j : DmaJob) (n : Nat) : Eng Unit :=
  match j.owner with
  | .blk _ _ => pure ()
  | .ch _ _ => Eng.act (fun s => s.updJob j.id (fun x => { x with held := x.held - n }))

/-- Reads for a descriptor; none when it has failed. With `keep` what a channel has read stays in the pool until it is written; indices
and the source of a SKEW leave it when they have arrived. -/
def Eng.dmaRead (j : DmaJob) (keep : Bool) (a n : Nat) : Eng (Option (List Byte)) :=
  (requests false a n).foldlM (fun (acc : Option (List Byte)) p => do
    match acc with
    | none => pure none
    | some l => do
      Eng.pool j p.2
      let r ← Eng.request j.issuer .dmaRd j.key p.1 p.2 [] false
      Eng.noteFar j.id p.1
      if r.1 != 0 then do
        Eng.act (fun s => s.dmaFail j.id r.1 p.1)
        pure none
      else do
        if keep then pure () else Eng.unpool j p.2
        pure (some (l ++ r.2))) (some [])

/-- The sum of two lines (R139): FP32 or BF16 elements, each rounded to nearest even. -/
def addLine (reduce : Nat) (a b : List Byte) : List Byte :=
  let n := if reduce = 1 then 4 else 2
  (List.zipWith (fun x y => (laneArith 0 (if reduce = 1 then 0 else 1) x y 0).code) (elems n a) (elems n b)).flatMap (leBytes n)

/-- Adds to a line at its place in a Block, indivisibly (R139). -/
def State.reduceLine (s : State) (i : Issuer) (reduce a : Nat) (l : List Byte) : Nat × State :=
  match s.check i .dmaWr a with
  | (0, some (.mem (.spad b) ph), s) =>
    let r := s.tierRead i.ten (.spad b) ph l.length
    if r.1 != 0 then (r.1, r.2.2) else r.2.2.tierWrite i (.spad b) ph (addLine reduce r.2.1 l)
  | (0, _, s) => (St.unmapped, s)
  | (st, _, s) => (st, s)

/-- Writes for a descriptor, counting the bytes that have completed; false when it has failed. -/
def Eng.dmaWrite (j : DmaJob) (a : Nat) (l : List Byte) : Eng Bool :=
  (requests true a l.length).foldlM (fun (ok : Bool) p => do
    if !ok then pure false
    else
      let part := (l.drop (p.1 - a)).take p.2
      let r ← if j.reduce = 0 then Eng.request j.issuer .dmaWr j.key p.1 p.2 part false
        else Eng.op (fun s => let q := s.reduceLine j.issuer j.reduce p.1 part; (some (q.1, []), q.2))
      Eng.noteFar j.id p.1
      if r.1 != 0 then do
        Eng.act (fun s => s.dmaFail j.id r.1 p.1)
        pure false
      else do
        Eng.act (fun s => s.updJob j.id (fun x => { x with bytes := x.bytes + p.2, held := x.held - p.2 }))
        pure true) true

/-- What an index or a dispatch entry adds to a base address (R133, R201). -/
def DmaJob.indexOff (j : DmaJob) (w stride : Nat) : Nat :=
  if j.op = 3 then w * stride else bits w 43 34 * 0x100000 + bits w 33 20 * stride

/-- The addresses of row `r` at the source and at the destination; none when the read of its index has failed. -/
def Eng.dmaRow (j : DmaJob) (r : Nat) : Eng (Option (Nat × Nat)) := do
  let plain := ((j.src + r * j.srcStride) % 2 ^ 64, (j.dst + r * j.dstStride) % 2 ^ 64)
  if j.op = 3 || j.op = 4 then do
    let n := if j.op = 3 then 4 else 16
    let e ← Eng.dmaRead j false ((j.indexAddr + n * (j.indexFirst + r)) % 2 ^ 64) n
    match e with
    | none => pure none
    | some l =>
      let w := leNat (l.take (min n 8))
      pure (some (if j.scatter then (plain.1, (j.dst + j.indexOff w j.dstStride) % 2 ^ 64)
        else ((j.src + j.indexOff w j.srcStride) % 2 ^ 64, plain.2)))
  else pure (some plain)

/-- Bytes of the pattern of a FILL from byte `c` of a row. -/
def DmaJob.fillBytes (j : DmaJob) (c n : Nat) : List Byte :=
  (List.range n).map (fun i => BitVec.ofNat 8 (j.src / 2 ^ (8 * ((c + i) % 8))))

/-- Bytes of the stream at a position, within one row, and where they go. -/
def Eng.dmaPiece (j : DmaJob) (p n : Nat) : Eng (Option (Nat × List Byte)) := do
  let c := p % j.rowBytes
  let row ← Eng.dmaRow j (p / j.rowBytes)
  match row with
  | none => pure none
  | some (src, dst) =>
    if j.op = 5 then pure (some (dst + c, j.fillBytes c n))
    else do
      let l ← Eng.dmaRead j true (src + c) n
      match l with
      | none => pure none
      | some l => pure (some (dst + c, l))

/-- The skewed lines of a source (R135). -/
def DmaJob.skewAll (j : DmaJob) (rows : List (List Byte)) : List Byte :=
  let s := j.steps
  let w := j.esize
  (List.range j.skewLines).flatMap fun line =>
    let codes := (List.range j.lanes).map fun l =>
      if l ≤ line && line - l < s then
        let step := line - l
        let r := if j.stepAxis then l else step
        let e := if j.stepAxis then step else l
        if (e + 1) * w ≤ j.rowBytes * 8 then bitField ((rows[r]?).getD []) (e * w) w else 0
      else 0
    let b := packBits w codes
    b ++ List.replicate (skewPitch j.lanes w - b.length) 0

/-- Reads the whole source of a SKEW. -/
def Eng.dmaSkew (j : DmaJob) : Eng Unit := do
  let rows ← (List.range j.rows).foldlM (fun (acc : Option (List (List Byte))) r => do
    match acc with
    | none => pure none
    | some l => do
      let x ← Eng.dmaRead j false ((j.src + r * j.srcStride) % 2 ^ 64) j.rowBytes
      match x with
      | none => pure none
      | some b => pure (some (l ++ [b]))) (some [])
  match rows with
  | none => pure ()
  | some l => Eng.act (fun s => s.updJob j.id (fun x => { x with skewed := some (j.skewAll l) }))

/-- Whether the indices of a descriptor still have to be read before it moves anything: they choose the destinations of a REDUCE
(R134). -/
def DmaJob.unchecked (j : DmaJob) : Bool := j.reduce != 0 && j.indexed && j.scatter && !j.ring && !j.checked

/-- Reads the indices of a scattering REDUCE: it is rejected, with nothing moved, when one of them takes a row out of the Block
scratchpad windows or off a line (R134). -/
def Eng.dmaCheck (j : DmaJob) : Eng Unit := do
  let ok ← (List.range j.count).foldlM (fun (acc : Option Bool) r => do
    match acc with
    | none => pure none
    | some ok => do
      let x ← Eng.dmaRow j r
      match x with
      | none => pure none
      | some p => pure (some (ok && inSpads p.2 j.rowBytes && p.2 % 128 == 0))) (some true)
  match ok with
  | none => pure ()
  | some true => Eng.act (fun s => s.updJob j.id (fun x => { x with checked := true }))
  | some false => Eng.act (fun s => (s.updJob j.id (fun x => { x with status := some St.descInvalid, reserved := 0, held := 0 })).dmaReject j)

/-- The next unit of a ring transfer: up to 128 bytes of the stream. -/
def Eng.dmaUnit (j : DmaJob) : Eng Unit := do
  let n := min 128 (j.stream - j.bytes)
  let data ← match j.skewed with
    | some l => pure (some ((l.drop j.bytes).take n))
    | none => (List.range n).foldlM (fun (acc : Option (List Byte)) _ => do
        match acc with
        | none => pure none
        | some l =>
          if n ≤ l.length then pure (some l)
          else do
            let p := j.bytes + l.length
            let x ← Eng.dmaPiece j p (min (j.rowBytes - p % j.rowBytes) (n - l.length))
            match x with
            | none => pure none
            | some y => pure (some (l ++ y.2))) (some [])
  match data with
  | none => pure ()
  | some l => Eng.act (fun s => s.updJob j.id (fun x => { x with ringUnit := some l }))

/-- Moves one chunk of a descriptor. -/
def Eng.dmaChunk (j : DmaJob) : Eng Unit := do
  if j.op = 2 && j.skewed.isNone then Eng.dmaSkew j
  else if j.unchecked then Eng.dmaCheck j
  else if j.ring then Eng.dmaUnit j
  else do
    let p ← Eng.num (fun s => match s.job j.id with | some x => x.bytes | none => 0)
    let n := min (j.stream - p) (4096 - p % 4096)
    match j.skewed with
    | some l => do
      let _ ← Eng.dmaWrite j (j.dst + p) ((l.drop p).take n)
    | none => do
      let x ← Eng.dmaPiece j p (min n (j.rowBytes - p % j.rowBytes))
      match x with
      | none => pure ()
      | some y => do
        let _ ← Eng.dmaWrite j y.1 y.2

/-- Whether a descriptor may move: it has not ended, it is the first of its channel, and its step runs; at a suspend it stops at
the next 4 KiB boundary (R65, R142). -/
def State.dmaRuns (s : State) (j : DmaJob) : Bool :=
  j.status.isNone && s.stepRuns j.ten && (j.ten = 0 || s.tick.suspending.isNone || j.bytes % 4096 != 0 || !j.log.isEmpty) &&
    match j.owner with
    | .blk _ _ => true
    | .ch d c => (s.dma.find? (fun x => x.owner == .ch d c)).map DmaJob.id == some j.id

/-- One chunk of a descriptor, as far as it goes now. -/
def State.dmaMove (s : State) (id : Nat) : State :=
  match s.job id with
  | none => s
  | some j =>
    if !s.dmaRuns j || j.ringUnit.isSome || j.stream ≤ j.bytes then s
    else
      let r := (Eng.dmaChunk j).go j.log s
      r.2.2.updJob id (fun x => { x with log := r.2.1 })

/-- Pool bytes that a channel has reserved: for reads to come, for reads under way, and for data not yet written. -/
def State.poolUse (s : State) (d c : Nat) : Nat :=
  ((s.dma.filter (fun j => j.owner == .ch d c)).map (fun j => j.reserved + j.held)).sum

/-- MIN_KIB in force, in bytes (R143). -/
def State.poolFloor (s : State) (d : Nat) : Nat := KMap.get 16 s.poolMin d * 1024

/-- Whether a channel may reserve `n` more bytes: the shared part of the pool has room for what it holds beyond its reserve. -/
def State.poolRoom (s : State) (d c n : Nat) : Bool :=
  let lo := s.poolFloor d
  let extra := fun k => s.poolUse d k + (if k = c then n else 0) - lo
  ((List.range 64).map extra).sum ≤ 0x400000 - 64 * lo

/-- DMA_READ_ISSUE (R143): the running descriptor of a channel reserves pool space for the response of a read. -/
def execDmaReadIssue (d : Dist) (c : Fin 64) (n : Nat) (now : Nat) (s : State) : Host.Outcome State Fault Refusal :=
  let s := s.at now
  match s.dma.find? (fun x => x.owner == .ch d c) with
  | none => .next s
  | some j =>
    if j.status.isSome || n = 0 || 4096 < n || !s.poolRoom d c n then .next s
    else
      let s := s.updJob j.id (fun x => { x with reserved := x.reserved + n })
      let use := (((List.range 64).map (fun k => s.poolUse d k)).sum + 1023) / 1024
      .next (s.fset F.DMA_POOL_STATUS_PEAK_KIB [d] (max use (s.fget F.DMA_POOL_STATUS_PEAK_KIB [d])))

/-- Whether a ring transfer is the one that its partition takes now (R140): the one that has begun, else the first accepted. -/
def State.ringTurn (s : State) (b : Nat) (j : DmaJob) : Bool :=
  let l := s.dma.filter (fun x => x.ring && x.part == j.part && s.dmaRuns x && s.ringBlock x == some b)
  ((l.find? (fun x => x.bytes != 0)).or l.head?).map DmaJob.id == some j.id

/-- RING_UNIT_WRITE (R140): one unit of 128 bytes, the last one padded with zeros, when the partition has room. -/
def execRingUnitWrite (id now : Nat) (s : State) : Host.Outcome State Fault Refusal :=
  let s := s.at now
  match s.job id with
  | none => .next s
  | some j => match j.ringUnit, s.ringBlock j with
    | some l, some b => match (s.blk b).part j.part with
      | none => .next s
      | some p =>
        if p.size < p.avail + 128 || !s.ringTurn b j then .next s
        else
          let a := j.dst + p.base + p.wr % p.size
          let unit := l ++ List.replicate (128 - l.length) 0
          let r := if j.reduce = 0 then
              match s.issue j.issuer .dmaWr j.key a 128 unit false with
              | (some x, s) => (x.1, s)
              | (none, s) => (0, s)
            else s.reduceLine j.issuer j.reduce a unit
          if r.1 != 0 then .next (r.2.dmaFail id r.1 a)
          else
            let s := r.2.updBlk b (fun x => x.setPart j.part { p with wr := p.wr + 128 })
            let s := if p.avail = 0 then s.blkPend b 2 else s
            .next (s.updJob id (fun x => { x with ringUnit := none, bytes := x.bytes + l.length, held := x.held - l.length }))
    | _, _ => .next s

/-- DMA_DESCRIPTOR_COMPLETE (R134, R137, R138, R142, R147, R151): a descriptor that has ended reports its status, sends its post, and
raises its interrupts; DMA_CH_ERR captures the address of a channel's first that failed. DESIGN CHOICE (assumption 38): a rejected
descriptor has no failing address and is not captured. -/
def execDmaDescriptorComplete (id now : Nat) (s : State) : Host.Outcome State Fault Refusal :=
  let s := s.at now
  match s.job id with
  | none => .next s
  | some j =>
    let first := match j.owner with
      | .blk _ _ => true
      | .ch d c => (s.dma.find? (fun x => x.owner == .ch d c)).map DmaJob.id == some j.id
    if !first || (j.status.isNone && (j.bytes < j.stream || j.ringUnit.isSome || !j.log.isEmpty)) then .next s
    else
      let st := j.status.getD 0
      let s := { s with dma := s.dma.filter (fun x => x.id != id) }
      let src := match j.owner with | .blk b _ => b | .ch d c => 1024 + d * 64 + c
      let s := if (j.w 7).testBit 63 then s.sendPost src j.ten (bits (j.w 7) 62 53) (bits (j.w 7) 52 49) 1 [] else s
      match j.owner with
      | .blk b n =>
        let s := s.updBlk b (fun x => { x with tagStat := KMap.set 0 x.tagStat n (j.bytes % 2 ^ 32 * 256 + st) })
        let s := if j.irq then s.blkPend b 0 else s
        .next (if st != 0 then s.blkPend b 1 else s)
      | .ch d c =>
        let s := s.fsets [d, c] [(F.DMA_CH_STATUS_LAST_STATUS, st), (F.DMA_CH_STATUS_BYTES_DONE, j.bytes)]
        let s := if st = 0 || st = St.descInvalid then s
          else s.captureFirst F.DMA_CH_ERR_VALID [d, c] [(F.DMA_CH_ERR_ADDR, j.errAddr)]
        .next (if j.irq then s.srcEvent (.priv d 2) else s)

end Sys2Proof.Machine
end

