-- ==== Sys2Proof/Machine/P384.lean ====
section
/-! DEFINITION. Verification of ECDSA P-384 signatures over SHA-384 (R472, R495), as FIPS 186-5 and SP 800-186 define it, which
the manual only names (PRESUMED, assumption 161). Points are in projective coordinates of Jacobi, so that one inversion serves a whole product. -/

namespace Sys2Proof.Machine

def p384 : Nat := 2 ^ 384 - 2 ^ 128 - 2 ^ 96 + 2 ^ 32 - 1
def p384N : Nat :=
  0xFFFFFFFFFFFFFFFFFFFFFFFFFFFFFFFFFFFFFFFFFFFFFFFFC7634D81F4372DDF581A0DB248B0A77AECEC196ACCC52973
def p384B : Nat :=
  0xB3312FA7E23EE7E4988E056BE3F82D19181D9C6EFE8141120314088F5013875AC656398D8A2ED19D2A85C8EDD3EC2AEF
def p384X : Nat :=
  0xAA87CA22BE8B05378EB1C71EF320AD746E1D3B628BA79B9859F741E082542A385502F25DBF55296C3A545E3872760AB7
def p384Y : Nat :=
  0x3617DE4A96262C6F5D9E98BF9292DC29F8F41DBD289A147CE9DA3113B5F0B8C00A60B1CE1D7E819D7A431D7C90EA0E5F

/-- A power modulo `m`, with `k` bits of the exponent. -/
def powMod (m : Nat) : Nat → Nat → Nat → Nat
  | 0, _, _ => 1 % m
  | k + 1, b, e =>
    let r := powMod m k (b * b % m) (e / 2)
    if e % 2 = 1 then r * b % m else r

/-- The inverse modulo a prime of 384 bits. -/
def invMod (m a : Nat) : Nat := powMod m 384 (a % m) (m - 2)

/-- A point: X, Y and Z; Z = 0 is the point at infinity. -/
abbrev EcPoint := Nat × Nat × Nat

def p384Sub (a b : Nat) : Nat := (a + p384 - b % p384) % p384

/-- Twice a point. -/
def ecDouble (q : EcPoint) : EcPoint :=
  let (x, y, z) := q
  if z = 0 || y = 0 then (1, 1, 0)
  else
    let z2 := z * z % p384
    let m := 3 * (p384Sub x z2 * ((x + z2) % p384) % p384) % p384
    let y2 := y * y % p384
    let s := 4 * x * y2 % p384
    let x' := p384Sub (m * m % p384) (2 * s)
    (x', p384Sub (m * p384Sub s x' % p384) (8 * (y2 * y2 % p384)), 2 * y * z % p384)

/-- The sum of two points. -/
def ecAdd (a b : EcPoint) : EcPoint :=
  let (x1, y1, z1) := a
  let (x2, y2, z2) := b
  if z1 = 0 then b
  else if z2 = 0 then a
  else
    let z1s := z1 * z1 % p384
    let z2s := z2 * z2 % p384
    let u1 := x1 * z2s % p384
    let u2 := x2 * z1s % p384
    let s1 := y1 * (z2 * z2s % p384) % p384
    let s2 := y2 * (z1 * z1s % p384) % p384
    if u1 = u2 then (if s1 = s2 then ecDouble a else (1, 1, 0))
    else
      let h := p384Sub u2 u1
      let r := p384Sub s2 s1
      let h2 := h * h % p384
      let h3 := h * h2 % p384
      let v := u1 * h2 % p384
      let x3 := p384Sub (p384Sub (r * r % p384) h3) (2 * v)
      (x3, p384Sub (r * p384Sub v x3 % p384) (s1 * h3), h * z1 % p384 * z2 % p384)

/-- A multiple of a point, with `k` bits of the factor. -/
def ecMul : Nat → Nat → EcPoint → EcPoint
  | 0, _, _ => (1, 1, 0)
  | k + 1, n, q =>
    let r := ecDouble (ecMul k (n / 2) q)
    if n % 2 = 1 then ecAdd r q else r

/-- Whether a public key is a point of the curve. -/
def p384Key (x y : Nat) : Bool :=
  x < p384 && y < p384 && y * y % p384 == (x * x % p384 * x + (p384 - 3) * x + p384B) % p384

/-- Whether `r`, `s` is a signature of a message under a public key. -/
def ecdsaValid (x y r s : Nat) (msg : List Byte) : Bool :=
  p384Key x y && 1 ≤ r && r < p384N && 1 ≤ s && s < p384N &&
    (let e := beNat (sha384 msg)
     let w := invMod p384N s
     let q := ecAdd (ecMul 384 (e * w % p384N) (p384X, p384Y, 1)) (ecMul 384 (r * w % p384N) (x, y, 1))
     let zi := invMod p384 q.2.2
     q.2.2 != 0 && q.1 * (zi * zi % p384) % p384 % p384N == r)

end Sys2Proof.Machine
end

