-- ==== Sys2Proof/Machine/GreatArray.lean ====
section
/-! DEFINITION. The Great Arrays (R154 to R166, R172, R173, R176): their lists, passes, conversions, rejections, and the emulation
of a retired one. -/

namespace Sys2Proof.Machine


/-- A Great Array reads its list under the Tenancy's ENGINE rights (R158, R159). SOURCE_TYPE has no code for a Great Array. DESIGN
CHOICE (assumption 8): a decode failure of a list read names the DCC of its District. -/
def gaIssuer (d ten : Nat) : Issuer := ⟨1, d, ten, true, 1, d * 2 ^ 14⟩

/-- The control record of the running Tenancy for a District, when its step is under way. -/
def State.gaCtl (s : State) (d : Nat) : Option (Nat × GaCtl) :=
  let t := s.tick.cur
  if t = 0 || !s.stepRuns t || s.tick.suspending.isSome then none
  else ((s.ten t).bind (fun v => (v.gaCtl[d]?).join)).map (fun c => (t, c))

def GaEntry.w (e : GaEntry) (i : Nat) : Nat := (e.words[i]?).getD 0
def GaEntry.kind (e : GaEntry) : Nat := bits (e.w 0) 63 60
def GaEntry.seq (e : GaEntry) : Nat := bits (e.w 0) 31 0

/-- Whether the wait of an entry is met (R159). -/
def State.gaWaitMet (s : State) (d : Nat) (e : GaEntry) : Bool :=
  !(e.w 1).testBit 63 || bits (e.w 1) 31 0 ≤ s.fget F.EVC_VALUE [d, bits (e.w 1) 62 53]

/-- The head entry leaves the list. -/
def State.gaPop (s : State) (d : Nat) : State := s.updGa d (fun g => { g with index := g.index + 1, ahead := g.ahead.drop 1 })

/-- The pass that an entry asks for. -/
def gaPassOf (e : GaEntry) : Pass :=
  { shape := 16 + bits (e.w 0) 59 56, fmtA := bits (e.w 0) 55 52, fmtB := bits (e.w 0) 51 48, acc := bits (e.w 0) 47 44,
    accum := (e.w 0).testBit 43, shingle := false, a := bits (e.w 2) 63 40, b := bits (e.w 2) 39 16,
    gstride := bits (e.w 2) 15 4, rows := bits (e.w 4) 63 55 + 1, cols := bits (e.w 4) 54 47 + 1, len := bits (e.w 4) 12 0,
    scaleA := bits (e.w 3) 63 40, scaleB := bits (e.w 3) 39 16, snap := [], w0 := e.w 0, w1 := e.w 1 }

/-- The conversion that an entry asks for. -/
def gaConvOf (e : GaEntry) : GaConv :=
  { index := 0, w0 := e.w 0, w1 := e.w 1, fmt := bits (e.w 0) 55 52, acc := bits (e.w 0) 47 44, out := bits (e.w 2) 63 40,
    scale := bits (e.w 3) 63 40, cols := bits (e.w 4) 54 47 + 1, len := bits (e.w 4) 12 0 }

/-- Bytes of an output row of a conversion (R162). -/
def GaConv.pitch (c : GaConv) : Nat := 32 * cdiv (c.cols * fmtBits c.fmt) 256

/-- Scale groups of a row. -/
def GaConv.groups (c : GaConv) : Nat := cdiv c.cols 32

/-- The tiles that a conversion reads. -/
def GaConv.tiles (c : GaConv) : List Nat := (List.range (cdiv c.len 256)).map (· + c.acc)

/-- Whether the formats of a Great Array pass are legal with its shape (R155, R178), and its longest stream. -/
def State.gaFormats (s : State) (p : Pass) : Bool :=
  let mixed := p.fmtA ≤ 6 && p.fmtB ≤ 6
  let four := p.fmtA = 6 && p.fmtB = 6
  let same := p.fmtA = p.fmtB && (p.fmtA = 7 || p.fmtA = 8 || p.fmtA = 9)
  (p.shape = 16 && (mixed || same) && p.rows ≤ 256) || (p.shape = 17 && four && s.fuses.stepping != 0xA0)

def gaMaxLen (p : Pass) : Nat := if p.fmtA = 8 || p.fmtA = 9 then 2048 else 4096

/-- Whether a must-be-zero field of an entry is not zero (R160). -/
def GaEntry.mbz (e : GaEntry) : Bool :=
  let k := e.kind
  bits (e.w 0) 42 32 != 0 || bits (e.w 1) 41 32 != 0 || e.w 5 != 0 || e.w 6 != 0 || e.w 7 != 0 ||
    bits (e.w 2) 3 0 != 0 || bits (e.w 3) 15 0 != 0 || bits (e.w 4) 46 13 != 0 ||
    (k = 2 && (bits (e.w 0) 59 56 != 0 || bits (e.w 0) 51 48 != 0 || (e.w 0).testBit 43 || bits (e.w 2) 39 4 != 0 ||
      bits (e.w 4) 63 55 != 0))

/-- Why an entry is rejected: REASON of GA_ERR, or 0 (R163). -/
def State.gaReason (s : State) (e : GaEntry) : Nat :=
  let k := e.kind
  let p := gaPassOf e
  let c := gaConvOf e
  if 2 < k then 1
  else if e.mbz then 2
  else if k = 0 then 0
  else if k = 1 then
    if !s.gaFormats p then 3
    else if p.len = 0 || gaMaxLen p < p.len then 4
    else if 16 < p.acc + cdiv p.len 256 then 5
    else if p.regions.any (fun r => r.1 % 32 != 0 || 0x1000000 < r.1 + r.2) || (p.gstride = 0 && 64 < p.rows) then 6
    else 0
  else if 9 < c.fmt then 3
  else if c.len = 0 || 4096 < c.len then 4
  else if 16 < c.acc + cdiv c.len 256 then 5
  else if 0x1000000 < c.out + c.len * c.pitch || (fmtMx c.fmt && 0x1000000 < c.scale + c.len * c.groups) then 6
  else 0

/-- Rejects the head entry (R163). -/
def State.gaReject (s : State) (d ten : Nat) (e : GaEntry) (reason : Nat) : State :=
  let i := (s.ga d).index
  ((s.gaPop d).gaSignal d (e.w 1)).gaErr d 0x74 reason i ten

/-- The head entry of a Great Array whose step runs: an entry whose read failed is passed over. -/
def State.gaHead (s : State) (d : Nat) : Option (Nat × GaEntry) × State :=
  match s.gaCtl d with
  | none => (none, s)
  | some (t, _) =>
    let bad := (s.ga d).ahead.takeWhile (fun e => e.status != 0)
    let s := bad.foldl (fun s _ => s.gaPop d) s
    ((s.ga d).ahead.head?.map (fun e => (t, e)), s)

/-- An entry whose wait is met is rejected, or issues when it is of kind `k` and its condition holds. A rejection for an invalid
KIND is made with the passes. -/
def State.gaIssue (s : State) (d k : Nat) (act : Nat → GaEntry → State → State) : State :=
  match s.gaHead d with
  | (none, s) => s
  | (some (t, e), s) =>
    if (if 2 < e.kind then 1 else e.kind) != k || !s.gaWaitMet d e || (s.ga d).halted || s.fget F.GA_STATUS_EMULATED [d] = 1 then s
    else
      let r := s.gaReason e
      if r != 0 then s.gaReject d t e r else act t e s

/-- The RUN entries that emulate a list entry on Blocks of the District (R176): one for each logical Block, each with the entry's
wait. Its signal is made when the last of them has completed. -/
def State.emuEntries (s : State) (d t : Nat) (e : GaEntry) (index : Nat) : List CqEntry :=
  match s.ten t with
  | none => []
  | some v =>
    let l := v.blocks.filter (fun p => p.2 / 256 == d)
    l.map fun p =>
      { dist := d, w0 := 2 ^ 60 + p.1 * 2 ^ 48 + t * 2 ^ 42 + e.seq, w1 := bits (e.w 1) 63 53 * 2 ^ 53 + bits (e.w 1) 31 0,
        w2 := Config.emuKernel.toNat * 8, w3 := (Config.emuArg d index p.1).toNat, emu := some index }

/-- The L1 runtime issues the head entry of a retired Great Array to CQ1 (R176). -/
def State.gaEmulate (s : State) (d : Nat) : State :=
  match s.gaHead d with
  | (none, s) => s
  | (some (t, e), s) =>
    if s.gaReason e != 0 then s.gaReject d t e (s.gaReason e)
    else
      let l := s.emuEntries d t e (s.ga d).index
      let q := KMap.get [] (s.dist d).cq 1
      if l.isEmpty then (s.gaPop d).gaErr d 0x76 0 (s.ga d).index t
      else if 1024 < q.length + l.length then s
      else
        let i := (s.ga d).index
        let s := (s.gaPop d).updDist d (fun x => { x with
          cq := KMap.set [] x.cq 1 (KMap.get [] x.cq 1 ++ l), ga := { x.ga with emu := KMap.set none x.ga.emu i (some (e.w 0, e.w 1)) } })
        s.updRun t (fun r => { r with emulated := true })

/-- The name of a Great Array's list reads in a memory shaper. -/
def gaKey (d : Nat) : Nat := 2 ^ 53 + 64 + d

/-- GA_LIST_FETCH (R159, R163, R176): reads the next published list entry ahead of issue, as far as the read goes now; a retired Great
Array's head entry is issued to Blocks. DESIGN CHOICE (assumption 49): a list read that ends with another status than DATA_ERROR is
0x74 with reason 0x7 too, and discards the step. -/
def execGaListFetch (d : Dist) (now : Nat) (s : State) : Host.Outcome State Fault Refusal :=
  let s := s.at now
  match s.gaCtl d with
  | none => .next s
  | some (t, c) =>
    let g := s.ga d
    let i := g.index + g.ahead.length
    let s :=
      if i < c.entries && i < s.fget F.EVC_VALUE [d, c.feed] && g.ahead.length < 16 then
        match (Eng.read (gaIssuer d t) .rd (gaKey d) (c.list + 64 * i) 64).go g.log s with
        | (none, log, s) => s.updGa d (fun g => { g with log := log })
        | (some r, _, s) =>
          let s := if r.1 = 0 then s else s.gaErr d 0x74 7 i t (r.1 = St.dataError)
          s.updGa d (fun g => { g with log := [], ahead := g.ahead ++ [⟨elems 8 r.2, r.1⟩] })
      else s
    .next (if s.fget F.GA_STATUS_EMULATED [d] = 1 then s.gaEmulate d else s)

/-- The tiles that a conversion in flight reads. -/
def GaSt.convTiles (g : GaSt) : List Nat := match g.conv with | some c => c.tiles | none => []

/-- Whether two lists of tiles meet. -/
def tilesMeet (a b : List Nat) : Bool := a.any (fun x => b.contains x)

/-- GA_PASS (R156, R163): the pass issues once passes may start, no stream runs, and no pass or conversion in flight uses its tiles. -/
def execGaPass (d : Dist) (now : Nat) (s : State) : Host.Outcome State Fault Refusal :=
  .next ((s.at now).gaIssue d 1 fun _ e s =>
    let p := gaPassOf e
    let g := s.ga d
    if !s.passAllowed || g.passes.any s.streams || tilesMeet p.tiles (g.convTiles ++ g.passes.flatMap Pass.tiles) then s
    else
      let p := { p with bad := s.regionBads (gaBase d) p, index := g.index, snap := KMap.slice s.mem (gaBase d) 0x1000000 0,
                        bornCycles := s.ridge.cycles }
      (s.gaPop d).updGa d (fun g => { g with passes := g.passes ++ [p] }))

/-- GA_CONVERT (R162, R163). -/
def execGaConvert (d : Dist) (now : Nat) (s : State) : Host.Outcome State Fault Refusal :=
  .next ((s.at now).gaIssue d 2 fun _ e s =>
    let c := gaConvOf e
    let g := s.ga d
    if g.conv.isSome || tilesMeet c.tiles (g.passes.flatMap Pass.tiles) then s
    else (s.gaPop d).updGa d (fun x => { x with conv := some { c with index := g.index } }))

/-- NOP of a list (R160). -/
def execGaNop (d : Dist) (now : Nat) (s : State) : Host.Outcome State Fault Refusal :=
  .next ((s.at now).gaIssue d 0 fun _ e s => (s.gaPop d).gaComplete d (e.w 0) (e.w 1))

/-- Marks tiles of a Great Array poisoned. -/
def State.gaPoison (s : State) (d : Nat) (l : List Nat) : State := l.foldl (fun s t => s.rbit .GA_POISON [d] t true) s

/-- Parity errors of accumulator tiles that a pass or a conversion reads: each such tile is poisoned, and 0x73 is logged (R173). -/
def State.gaParity (s : State) (d ten index : Nat) (words : List Nat) : State :=
  (words.map (fun x => (x - gaBase d - 0x1000000) / 0x40000)).dedup.foldl (fun s t =>
    (s.rbit .GA_POISON [d] t true).gaErr d 0x73 0 index ten) s

/-- A checksum mismatch of a Great Array pass (R172). -/
def State.gaMismatch (s : State) (d ten : Nat) (p : Pass) (col : Option Nat) : State :=
  let s := s.fsat F.GA_CHK_COUNT [d] 1
  let s := s.capture F.GA_CHK_VALID F.GA_CHK_OVERFLOW [d]
    [(F.GA_CHK_TILE, p.acc), (F.GA_CHK_COL_VALID, col.isSome.toNat), (F.GA_CHK_COL, col.getD 0)]
  let s := (s.gaPoison d p.tiles).capture F.GA_ERR_VALID F.GA_ERR_OVERFLOW [d] [(F.GA_ERR_CODE, 0x71), (F.GA_ERR_REASON, 0),
    (F.GA_ERR_INDEX, p.index)]
  s.distEv 0x71 d 0 ten (p.acc * 2 ^ 28 + col.isSome.toNat * 2 ^ 27 + col.getD 0 * 2 ^ 16)

/-- GA_PASS_END (R156, R170, R172, R173): the oldest pass of a Great Array gives its results and its verdict. `late` names the
128 B lines that reached it with the contents they have now (R153, R165); `bad` is a mismatch of the checksums. An uncorrectable line
that it read poisons its tiles, as 0x72, and a corrected one is counted. -/
def execGaPassEnd (d : Dist) (late : List Nat) (bad : Option (Option (Fin 256))) (now : Nat) (s : State) :
    Host.Outcome State Fault Refusal :=
  let s := s.at now
  match (s.ga d).passes with
  | [] => .next s
  | p :: rest =>
    let rd := fun off n => (List.range n).map fun i =>
      if late.contains ((off + i) / 128) then s.byte (gaBase d + off + i) else KMap.get 0 p.snap (off + i)
    let base := gaBase d + 0x1000000
    let out := p.results rd (fun off n => s.rawRead (base + off) n)
    let weak := (p.regions.flatMap (fun r => s.weakIn 8 (gaBase d + r.1) r.2)).dedup
    let s1 := out.foldl (fun s r => (s.eccWrite 8 (base + r.1) r.2).2) s
    let s1 := (s1.mend weak).eccCount (.ga d) weak.length
    let s1 := if (s.passBads (gaBase d) p late).isEmpty then s1
      else (s1.gaPoison d p.tiles).gaErr d 0x72 0 p.index s.tick.cur
    let s1 := s1.gaParity d s.tick.cur p.index (s.oldBads base p out)
    let s1 := match bad with
      | some c => s1.gaMismatch d s.tick.cur p (c.map Fin.val)
      | none => s1
    let s1 := s1.fadd F.GA_ACTIVE_CCLK_COUNT [d] p.streamCclk
    .next ((s1.updGa d (fun g => { g with passes := rest })).gaComplete d p.w0 p.w1)

/-- The converted row of a CONVERT, with its scales. -/
def GaConv.row (c : GaConv) (vals : List Num) : List Byte × List Byte :=
  if fmtMx c.fmt then
    let scales := (List.range c.groups).map fun g => mxGroupScale c.fmt ((vals.drop (32 * g)).take 32)
    (packBits (fmtBits c.fmt) (vals.zipIdx.map fun p => mxElem c.fmt ((scales[p.2 / 32]?).getD 0) p.1),
      scales.map (BitVec.ofNat 8))
  else (packBits (fmtBits c.fmt) (vals.map (encodeElem c.fmt)), [])

/-- GA_CONVERT_END (R162, R173): the rows of the conversion are written. -/
def execGaConvertEnd (d : Dist) (now : Nat) (s : State) : Host.Outcome State Fault Refusal :=
  let s := s.at now
  match (s.ga d).conv with
  | none => .next s
  | some c =>
    let at_ := fun r => gaBase d + 0x1000000 + (c.acc + r / 256) * 0x40000 + r % 256 * 1024
    let s1 := (List.range c.len).foldl (fun s r =>
      let o := c.row ((elems 4 (s.rawRead (at_ r) (4 * c.cols))).map fp32.decode)
      let s := (s.chipWrite s.tick.cur (.ga d) (gaBase d + c.out + r * c.pitch) o.1).2
      if o.2.isEmpty then s else (s.chipWrite s.tick.cur (.ga d) (gaBase d + c.scale + r * c.groups) o.2).2) s
    let s1 := s1.gaParity d s.tick.cur c.index ((List.range c.len).flatMap (fun r => s.badIn 8 (at_ r) (4 * c.cols)))
    .next ((s1.updGa d (fun g => { g with conv := none })).gaComplete d c.w0 c.w1)

end Sys2Proof.Machine
end

