-- ==== Sys2Proof/Machine/MemCmds.lean ====
section
/-! DEFINITION. The memory tiers' commands (R256 to R301): requests of the tier controllers, scrubbing, temperature, row repair,
slot migration, mirrored ranges, the flash port's completions, and the memory shapers. -/

namespace Sys2Proof.Machine

/-- Whether the tier controllers serve requests: the power-fail sequence has not stopped them (R290). -/
def State.tiersRun (s : State) : Bool := !s.stopped

/-- An agent working for a Tenancy, or outside any, whose request a tier controller serves. -/
def tierIssuer (ten : Nat) : Issuer := ⟨2, 0, ten, true, 2, 0⟩

/-- Marks the ECC word of an address as holding a correctable or an uncorrectable error. -/
def State.cellError (s : State) (w a : Nat) (bad : Bool) : State :=
  let x := a / w * w
  if bad then { s with badWords := KMap.set false s.badWords x true } else { s with weakWords := KMap.set false s.weakWords x true }

/-- What a request answers outside. -/
def State.reportAccess (s : State) (r : Nat × List Byte × State) : State := { r.2.2 with out := { s.out with status := r.1, data := r.2.1 } }

/-- T1_REQUEST (R258, R260, R519): a request of one line to an HBM4 controller. `err` is the state of the first word's cells: 1
holds a correctable error, 2 an uncorrectable one. -/
def execT1Request (t : TenId) (wr : Bool) (a n : Nat) (data : List (BitVec 8)) (err : Fin 3) (now : Nat) (s : State) :
    Host.Outcome State Fault Refusal :=
  let s := s.at now
  let n := if wr then data.length else n
  if !s.tiersRun || n = 0 || !inT1 a n || a / 128 != (a + n - 1) / 128 then .next s
  else
    let p := if wr then s.writeTarget (tierIssuer t) a n else s.redirectRead t a
    let s := if err = 0 then s else s.cellError 32 p (err = 2)
    let r := if wr then let q := s.tierWrite (tierIssuer t) .t1 a data; (q.1, [], q.2) else s.tierRead t .t1 a n
    .next (s.reportAccess r)

/-- T2_REQUEST (R258, R268 to R272): a request of one line to a T2 controller. `err` tells what the read of the request, or the read
that a write of a part of a word makes first, meets: 1 a corrected on-die word, 2 an uncorrectable one, 3 a link error that a retry
corrects, 4 a link that fails three times. -/
def execT2Request (t : TenId) (wr : Bool) (a n : Nat) (data : List (BitVec 8)) (err : Fin 5) (now : Nat) (s : State) :
    Host.Outcome State Fault Refusal :=
  let s := s.at now
  let n := if wr then data.length else n
  if !s.tiersRun || n = 0 || !inT2 a n || a / 128 != (a + n - 1) / 128 then .next s
  else
    let p := if wr then s.writeTarget (tierIssuer t) a n else s.redirectRead t a
    let reads := !wr || (wordsOf 32 p n).any (partWord 32 p n)
    let s := if err = 1 then s.cellError 32 p false else if err = 2 then s.cellError 32 p true
      else if err = 3 && reads then s.fsat F.T2_ECC_CORRECTED [] 1 else s
    let r := if wr then let q := s.tierWrite (tierIssuer t) .t2 a data (err = 4); (q.1, [], q.2)
      else if err = 4 then s.t2Read t p n true
      else s.tierRead t .t2 a n
    .next (s.reportAccess r)

/-- IDLE_SCRUB (R258): a controller reads a line of its tier, rewrites corrected words, and counts an uncorrectable line without
changing it. -/
def execIdleScrub (a : Nat) (err : Fin 3) (now : Nat) (s : State) : Host.Outcome State Fault Refusal :=
  let s := s.at now
  let a := a / 128 * 128
  if !s.tiersRun || !(inT1 a 128 || inT2 a 128 && !s.t2Gone a) then .next s
  else
    let s := if err = 0 then s else s.cellError 32 a (err = 2)
    let weak := s.weakIn 32 a 128
    let bad := !(s.badIn 32 a 128).isEmpty
    let sl := s.t1SlotNow a
    .next (if inT1 a 128 then (s.t1Corrected weak).fsat F.HBM_ECC_UNCORRECTED [sl / 64, sl / 32 % 2] bad.toNat
      else (s.t2Corrected weak).fsat F.T2_ECC_UNCORRECTED [] bad.toNat)

/-- HBM_TEMP_READ (R261): the 1 ms reading of a stack's temperature and of its on-die error count. -/
def execHbmTempRead (k : Fin 8) (temp corrected now : Nat) (s : State) : Host.Outcome State Fault Refusal :=
  let s := s.at now
  let ix := [k.val / 2, k.val % 2]
  let was := s.fget F.HBM_STATUS_CRIT ix
  let s := s.fsets ix [(F.HBM_STATUS_TEMP_C, min temp 255), (F.HBM_STATUS_HOT, (85 < temp : Bool).toNat),
    (F.HBM_STATUS_CRIT, (95 < temp : Bool).toNat)]
  let s := s.fsat F.HBM_ECC_CORRECTED ix corrected
  if 95 < temp && was = 0 then
    let s := s.tierCapture (k.val / 2) F.HBM_ERR_VALID F.HBM_ERR_OVERFLOW F.HBM_ERR_CODE [k.val / 2] 0xA3
      [(F.HBM_ERR_SLOT, k.val * 32), (F.HBM_ERR_ADDR, 0)]
    .next (s.distEv 0xA3 (k.val / 2) (k.val % 2))
  else .next s

/-- The uncorrectable lines of T1 that a transfer of the device moves are logged (R522). -/
def State.t1Moved (s : State) (moves : Nat → Bool) : State :=
  (((s.badWords.filter (fun p => p.1 < t2Base && p.2 && moves p.1)).map (fun p => p.1 / 128 * 128)).dedup).foldl
    (fun s x => s.t1Error 0 x) s

/-- The name of a row in the counts of R418: pseudo-channel `pc` of stack `k`. -/
def rowKey (k pc row : Nat) : Nat := (k * 64 + pc) + 512 * row

/-- ROW_REPAIR (R262, R418): a row whose corrected errors in the window have reached ROW_CE takes a spare row, with its words as they
stand, and its count starts again (assumption 78); without one its slot is retired. -/
def execRowRepair (k : Fin 8) (pc : Fin 64) (row : Nat) (spare : Bool) (now : Nat) (s : State) : Host.Outcome State Fault Refusal :=
  let s := s.at now
  let r := rowKey k pc row
  if s.stopped || KMap.get 0 s.t1.rows r < s.fget F.RET_LIMITS_ROW_CE [] then .next s
  else if spare then
    let s := s.t1Moved (fun a => t1RowOf (s.t1Home a) == r)
    let s := { s with t1 := { s.t1 with repairs := s.t1.repairs ++ [(k.val, pc.val, row)], rows := KMap.set 0 s.t1.rows r 0 } }
    .next (s.fadd F.HBM_STATUS_REPAIRS [k.val / 2, k.val % 2] 1)
  else
    let key := unitKey 4 (k.val * 32 + pc.val / 2)
    .next (if s.ridge.decided.contains key then s else s.decideRetire key)

/-! ### Slot migration (R264) -/

/-- The pages of T1 outside the reserve. -/
def State.t1Pages (s : State) : Nat := s.t1Top / 4096

/-- The pages whose data lies on a slot now: outside the reserve those not moved, and the moved ones whose copy lies there. -/
def State.livePages (s : State) (slot : Nat) : List Nat :=
  (List.range s.t1Pages).filter (fun p => s.t1SlotNow (p * 4096) == slot)

/-- The free reserve pages on slots in service, ascending. -/
def State.freeReserve (s : State) : List Nat :=
  let used := s.t1.moved.map Prod.snd
  let out := fun x => s.t1.retired.contains x || s.t1.lost.contains x || s.t1.migrating == some x
  (List.range' s.t1Pages (0x6000000 - s.t1Pages)).filter (fun p => !used.contains (p + 1) && !out (t1Slot (p * 4096)))

/-- The first waiting slot begins its migration: it leaves service and takes a reserve unit. -/
def State.migrateNext (s : State) : State :=
  match s.t1.migrating, s.t1.waiting with
  | none, sl :: rest =>
    let s := { s with t1 := { s.t1 with migrating := some sl, waiting := rest, retired := s.t1.retired ++ [sl] } }
    let s := (s.rbit .HBM_RETIRED [sl / 64, sl / 32 % 2] (2 * (sl % 32)) true).rbit .HBM_RETIRED [sl / 64, sl / 32 % 2] (2 * (sl % 32) + 1) true
    s.fsets [] [(F.T1_RESERVE_MIGRATING, 1), (F.T1_RESERVE_SLOT, sl), (F.T1_RESERVE_PAGES_LEFT, (s.livePages sl).length),
      (F.T1_RESERVE_USED, s.fget F.T1_RESERVE_USED [] + 1)]
  | _, _ => s

/-- SLOT_MIGRATION_END (R264): every live page of the slot has been copied to the reserve, stored errors with it (R522), and the next
slot begins. -/
def execSlotMigrationEnd (now : Nat) (s : State) : Host.Outcome State Fault Refusal :=
  let s := s.at now
  match s.stopped, s.t1.migrating with
  | true, _ => .next s
  | _, none => .next s
  | _, some sl =>
    let moves := (s.livePages sl).zip s.freeReserve
    let s := s.t1Moved (fun a => s.t1SlotNow a == sl)
    let s := { s with t1 := { s.t1 with
      migrating := none, moved := moves.foldl (fun (m : KMap Nat) (p : Nat × Nat) => KMap.set 0 m p.1 (p.2 + 1)) s.t1.moved } }
    let s := (s.fsets [] [(F.T1_RESERVE_MIGRATING, 0), (F.T1_RESERVE_PAGES_LEFT, 0)]).srcEvent (.shared 73)
    .next s.migrateNext

/-- At a tick start the retired slots without a reserve unit leave service, and the first waiting slot begins its migration. -/
def State.slotsAtTick (s : State) : State :=
  let s := s.t1.losing.foldl (fun s sl => (s.rbit .HBM_RETIRED [sl / 64, sl / 32 % 2] (2 * (sl % 32)) true).rbit .HBM_RETIRED
    [sl / 64, sl / 32 % 2] (2 * (sl % 32) + 1) true) s
  let s := { s with t1 := { s.t1 with lost := s.t1.lost ++ s.t1.losing, losing := [] } }
  s.migrateNext

/-! ### T2 ranges (R269 to R272) -/

/-- The span of a range in 4 KiB units. -/
def t2Span (len : Nat) (mirror : Bool) : Nat := if mirror then 2 * len else len

/-- Whether a value of T2_RANGE_BASE is accepted with a length (R269). -/
def State.t2RangeOk (s : State) (r v len : Nat) : Bool :=
  let base := bits v 40 12
  let span := t2Span len (v.testBit 2)
  !v.testBit 0 ||
    (len != 0 && base + span ≤ 0x18000000 && (!v.testBit 2 || (2 ^ Nat.log2 len == len && base % (2 * len) == 0)) &&
      (List.range 16).all (fun q => q == r || s.fget F.T2_RANGE_BASE_EN [q] == 0 ||
        !overlap base span (s.fget F.T2_RANGE_BASE_BASE [q])
          (t2Span (KMap.get 0 s.t2Len q) (s.fget F.T2_RANGE_BASE_MIRROR [q] == 1))))

/-- An accepted write of T2_RANGE_BASE: the length takes effect with it, and a range that is newly mirrored fills its copy. -/
def State.setT2Range (s : State) (r v : Nat) : State :=
  let len := s.fget F.T2_RANGE_LEN_LEN [r]
  let on := v.testBit 0 && v.testBit 2
  let was := s.fget F.T2_RANGE_BASE_EN [r] = 1 && s.fget F.T2_RANGE_BASE_MIRROR [r] = 1 &&
    s.fget F.T2_RANGE_BASE_BASE [r] = bits v 40 12 && KMap.get 0 s.t2Len r = len
  let resync := if on && !was then 1 else if on then s.fget F.T2_RANGE_BASE_RESYNC [r] else 0
  let s := { s with t2Len := KMap.set 0 s.t2Len r len }
  s.fsets [r] [(F.T2_RANGE_BASE_BASE, bits v 40 12), (F.T2_RANGE_BASE_MIRROR, bit v 2), (F.T2_RANGE_BASE_RETAINED, bit v 1),
    (F.T2_RANGE_BASE_EN, bit v 0), (F.T2_RANGE_BASE_RESYNC, resync),
    (F.T2_RANGE_BASE_DEGRADED, 0)] |>.degradeRanges

/-- RESYNC_END (R271): the copy half has been filled from the data half; stored errors go with the data (R522). -/
def execResyncEnd (r : Fin 16) (now : Nat) (s : State) : Host.Outcome State Fault Refusal :=
  let s := s.at now
  if s.stopped || s.fget F.T2_RANGE_BASE_RESYNC [r] = 0 then .next s
  else
    let a := t2Base + s.fget F.T2_RANGE_BASE_BASE [r] * 4096
    let n := KMap.get 0 s.t2Len r * 4096
    let in_ := fun (p : Nat × Bool) => a ≤ p.1 && p.1 < a + n && p.2
    let s := s.t2Corrected ((s.weakWords.filter in_).map Prod.fst)
    let s := (((s.badWords.filter in_).map (fun p => p.1 / 128 * 128)).dedup).foldl (fun s x => s.t2Error 0 x false) s
    let s := s.rawCopy a (a + n) n
    .next ((s.fset F.T2_RANGE_BASE_RESYNC [r] 0).srcEvent (.shared 74))

/-! ### The flash port -/

/-- T3_REQUEST (R294, R295): a request within one logical block; a read or write that may be sent becomes an NVMe command. -/
def execT3Request (t : TenId) (wr : Bool) (a n : Nat) (data : List (BitVec 8)) (now : Nat) (s : State) :
    Host.Outcome State Fault Refusal :=
  let s := s.at now
  let n := if wr then data.length else n
  if !s.tiersRun || n = 0 || !inT3 a n || a / 4096 != (a + n - 1) / 4096 then .next s
  else if !s.t3Mapped (a - t3Base) then .next (s.reportAccess (St.unmapped, [], s))
  else match s.t3Access (tierIssuer t) wr a n data false with
    | (.inl x, s') => .next (s.reportAccess (x.1, x.2, s'))
    | (.inr id, s') => .next { s' with out := { s.out with value := id } }

/-- Whether a command has its turn at its drive: it has not ended, and no earlier write of its issuer to the block is still to end. -/
def State.waited (s : State) (c : NvmeCmd) : Bool :=
  c.result.isNone && !(s.fl.cmds.takeWhile (fun x => x.id != c.id)).any (fun x => x.op == .write && x.result.isNone &&
    x.issuer == c.issuer && x.drive == c.drive && x.lba == c.lba)

/-- Whether a drive may end a command: the command has its turn (R295), and the port runs, with queues to the drive. -/
def State.nvmeReady (s : State) (c : NvmeCmd) : Bool :=
  s.fget F.FL_CFG_EN [] == 1 && s.fget F.FL_DRIVE_QUEUES [c.drive] != 0 && s.waited c

/-- A Flush that has ended: the step's flush is complete when none of its Flush commands is left (R286, R295). -/
def State.flushEnd (s : State) (ten : Nat) : State :=
  if s.fl.cmds.any (fun c => c.op == .flush && c.ten == ten) then s else s.updRun ten (fun r => { r with flushed := true })

/-- A command that has ended with a status of the drive; `landed` tells whether a failed Write reached the medium. -/
def State.nvmeFinish (s : State) (c : NvmeCmd) (st nvme : Nat) (landed : Bool) : State :=
  let s := if st = 0 then s else s.flError 0xA8 c.drive nvme c.lba c.ten
  match c.op with
  | .flush => (s.nvmeDrop c.id).flushEnd c.ten
  | .read => s.nvmeEnd c st (if st = 0 then s.rawRead c.addr c.len else [])
  | .write => (if st = 0 || landed then s.rawWrite c.addr c.data else s).nvmeEnd c st []

/-- A drive that answers has its link and its controller. -/
def State.driveAnswers (s : State) (d : Nat) : State :=
  let s := s.updFl (fun f => { f with linkDrop := KMap.set none f.linkDrop d none, resets := f.resets.filter (· != d) })
  s.driveUp d

/-- The status field of an unrecovered read error. -/
abbrev mediaError : Nat := 0x281

/-- NVME_COMPLETION (R296): a drive posts the completion of a command, with its 15-bit status field. -/
def execNvmeCompletion (id : Nat) (nvme : Fin 32768) (landed : Bool) (now : Nat) (s : State) : Host.Outcome State Fault Refusal :=
  let s := s.at now
  match s.nvmeCmd id with
  | none => .next s
  | some c =>
    if !s.nvmeReady c || s.fget F.FL_DRIVE_FAILED [c.drive] = 1 then .next s
    else
      let st := if nvme.val = 0 then 0 else if c.op = .read && nvme.val % 2048 = mediaError then St.dataError else St.ioError
      .next ((s.driveAnswers c.drive).nvmeFinish c st nvme landed)

/-- NVME_TIMEOUT (R296): a command has not been completed within TIMEOUT_MS of being sent; a third timeout within 1 s resets the drive's
controller and creates its queues again. A controller that fails this reset is the subject of DRIVE_FAILED. -/
def execNvmeTimeout (id : Nat) (landed : Bool) (now : Nat) (s : State) : Host.Outcome State Fault Refusal :=
  let s := s.at now
  match s.nvmeCmd id with
  | none => .next s
  | some c =>
    if !s.waited c || s.now < c.issueNs + s.fget F.FL_TIMEOUT_TIMEOUT_MS [] * 1000000 then .next s
    else
      let recent := s.now :: (KMap.get [] s.fl.timeouts c.drive).filter (fun t => s.now ≤ t + 1000000000)
      let three : Bool := 3 ≤ recent.length
      let s := s.updFl (fun f => { f with
        timeouts := KMap.set [] f.timeouts c.drive (if three then [] else recent),
        resets := if three then c.drive :: f.resets.filter (· != c.drive) else f.resets })
      let s := if three then s.driveUp c.drive else s
      .next (s.nvmeFinish c St.ioError 0x7FFF landed)

/-- DRIVE_LINK_DROP (R296). -/
def execDriveLinkDrop (d : Fin 8) (now : Nat) (s : State) : Host.Outcome State Fault Refusal :=
  let s := s.at now
  if s.fget F.FL_DRIVE_PRESENT [d] = 0 || s.fget F.FL_DRIVE_FAILED [d] = 1 then .next s
  else
    let s := s.updFl (fun f => { f with linkDrop := KMap.set none f.linkDrop d (some s.now) })
    .next (s.fset F.FL_DRIVE_READY [d] 0)

/-- A drive that has failed takes no more commands, and those it holds end with TARGET_RETIRED (R296). -/
def State.driveGone (s : State) (d : Nat) : State :=
  let s := (s.fsets [d] [(F.FL_DRIVE_FAILED, 1), (F.FL_DRIVE_READY, 0)]).srcEvent (.shared 76)
  (s.fl.cmds.filter (fun c => c.drive == d && c.result.isNone)).foldl (fun s c =>
    match c.op with
    | .flush => (s.nvmeDrop c.id).flushEnd c.ten
    | _ => s.nvmeEnd c St.targetRetired []) s

/-- DRIVE_FAILED (R296): a drive that failed its controller reset, or whose link has stayed down for 1 s. -/
def execDriveFailed (d : Fin 8) (now : Nat) (s : State) : Host.Outcome State Fault Refusal :=
  let s := s.at now
  let down := match KMap.get none s.fl.linkDrop d with | some t => t + 1000000000 ≤ s.now | none => false
  if s.fget F.FL_DRIVE_FAILED [d] = 1 || !(down || s.fl.resets.contains d) then .next s
  else .next ((s.flError 0xA9 d 0 0 0).driveGone d)

/-- NVME_FLUSH (R295): once the writes of an ended step have completed, Flush goes to each drive that it wrote without FUA. -/
def execNvmeFlush (t : TenId) (now : Nat) (s : State) : Host.Outcome State Fault Refusal :=
  let s := s.at now
  match s.run t with
  | none => .next s
  | some r =>
    if s.stopped then .next s else
    let busy := s.fl.cmds.any (fun c => c.ten == t.val && c.op != .read && c.result.isNone)
    if !r.stepEnded || r.flushed || busy || s.fget F.FL_TEN_FLUSH_AT_COMMIT [t] = 0 then .next s
    else if r.drives.isEmpty then .next (s.updRun t (fun r => { r with flushed := true }))
    else .next (r.drives.foldl (fun s d => s.updFl (fun f => { f with
      cmds := f.cmds ++ [{ id := f.nextId, op := .flush, drive := d, lba := 0, addr := 0, len := 0, data := [], issueNs := s.now,
                           issuer := 0, ten := t.val, fua := false, waits := false }],
      nextId := f.nextId + 1 })) s)

/-- Starts a deallocation (R297): a nonzero count of pages from FL_TRIM_ADDR. -/
def State.trimStart (s : State) (pages : Nat) : State :=
  let s := s.fset F.FL_TRIM_CTL_PAGES [] pages
  if pages = 0 then s
  else (s.fset F.FL_TRIM_CTL_BUSY [] 1).updFl (fun f => { f with trim := some ((s.rget .FL_TRIM_ADDR []).toNat, pages) })

/-- Whether the place of a T3 byte lies in one of `n` logical blocks from an address (R292). -/
def State.t3Holds (s : State) (a n x : Nat) : Bool := (List.range n).any (fun i => s.t3Phys (a + 4096 * i) / 4096 == x / 4096)

/-- The first logical block of a range that lies on a drive, if one does. -/
def State.trimLba (s : State) (a n d : Nat) : Option Nat :=
  ((List.range n).find? (fun i => (s.t3Map (a + 4096 * i - t3Base)).1 == d)).map (fun i => (s.t3Map (a + 4096 * i - t3Base)).2 / 4096)

/-- TRIM_DONE (R297): deallocation ends; `cpl` is a drive and a status, and one other than 0 is that of a command of a drive that holds a part of the range, which
logs 0xA8. What a deallocated block reads as is not stated: its old contents or zeros, block by block. -/
def execTrimDone (cpl : Fin 8 × Fin 32768) (now : Nat) (s : State) : Host.Outcome State Fault Refusal :=
  let s := s.at now
  match s.fl.trim with
  | none => .next s
  | some (a, n) =>
    let fail := if cpl.2.val = 0 then none else s.trimLba a n cpl.1
    let gone := fun (x : Nat) => s.t3Holds a n x && !Config.trimKeeps s.free (x / 4096)
    let s := match fail with | some lba => s.flError 0xA8 cpl.1 cpl.2.val lba 0 | none => s
    let s := { s with mem := s.mem.filter (fun c => c.1 < t3Base || !gone c.1) }
    let s := (s.fsets [] [(F.FL_TRIM_CTL_BUSY, 0), (F.FL_TRIM_CTL_ERR, fail.isSome.toNat)]).srcEvent (.shared 75)
    .next ((s.updFl (fun f => { f with trim := none })).tickFree)

/-! ### Memory shapers (R298 to R301) -/

/-- SHAPER_ISSUE (R299): the head of a queue issues when its bucket's count is zero or more. -/
def execShaperIssue (set : Fin 64) (q : Fin 3) (now : Nat) (s : State) : Host.Outcome State Fault Refusal :=
  let s := s.at now
  let b := Bucket.mem set q
  match s.shapeQueue set q with
  | [] => .next s
  | r :: _ =>
    if !s.bucketOpen b then .next s
    else
      let s := s.bucketCharge b ((r.bytes + 63) / 64)
      let s := { s with shp := { s.shp with
        waiting := s.shp.waiting.erase r, issued := s.shp.issued ++ [(r.key, r.ten)] } }
      .next (s.bucketDelay b (s.now - r.enterNs))

/-- SHAPER_REFILL (R299): one 62.5 ns edge of every bucket. -/
def execShaperRefill (now : Nat) (s : State) : Host.Outcome State Fault Refusal :=
  .next ((allBuckets.foldl (fun s b => s.bucketRefill b) (s.at now)).fabPump)

/-- The depth of a bucket's queue: what waits there now. -/
def State.bucketWaiting (s : State) : Bucket → Nat
  | .mem set q => (s.shapeQueue set q).length
  | .port p v => s.portWaiting p v
  | .src set q => if q = 0 then s.srcWaiting set else s.putWaiting set

/-- SHAPER_SAMPLE (R301, R377): a sample point of the memory request shapers, or of the port and source queues. -/
def execShaperSample (opm : Bool) (now : Nat) (s : State) : Host.Outcome State Fault Refusal :=
  let isMem := fun (b : Bucket) => match b with | .mem _ _ => true | _ => false
  .next ((allBuckets.filter (fun b => isMem b != opm)).foldl (fun s b => s.bucketSample b (s.bucketWaiting b)) (s.at now))

end Sys2Proof.Machine
end

