-- ==== Sys2Proof/Machine/CoreBase.lean ====
section
/-! DEFINITION. What every instruction of a control core uses: its registers, the condition under which it issues, exceptions
(R75 to R77), instruction fetch (R81), the caches (R71, R72, R88 to R90, R523), and retirement. -/

namespace Sys2Proof.Machine

/-- Exception causes (R87). -/
inductive Exc where
  | illegal | privilege | misaligned | bounds | access | syscall | brk | interrupt
  deriving DecidableEq, Repr

/-- CAUSE of an exception. -/
def Exc.num : Exc → Nat
  | .illegal => 1
  | .privilege => 2
  | .misaligned => 3
  | .bounds => 4
  | .access => 5
  | .syscall => 6
  | .brk => 7
  | .interrupt => 0x10

/-- A general register; g0 reads zero. -/
def CoreSt.reg (c : CoreSt) (i : Nat) : W64 := if i = 0 then 0 else KMap.get 0 c.g i

/-- Writes a general register; a write to g0 is discarded. -/
def CoreSt.setReg (c : CoreSt) (i : Nat) (v : W64) : CoreSt := if i = 0 then c else { c with g := KMap.set 0 c.g i v }

/-- Whether a core executes instructions: it is out of reset, not halted and not waiting, a DCC at L0 is in the running step, and
there is no power failure (R290). A core of any level stops at its next instruction boundary while a step is being suspended (R65). -/
def State.canIssue (s : State) (c : Nat) : Bool :=
  let k := s.core c
  s.fget F.CORE_CTRL_RUN [c] == 1 && !s.stopped && !k.halted && k.wait == .none && s.tick.suspending.isNone &&
    (k.level != 0 || (k.inStep && k.ten == s.tick.cur &&
      (match s.run k.ten with | some r => r.entered && r.ended.isNone | none => false)))

/-- Whether the running step has been entered on a core: the core is a DCC of its Districts. -/
def State.runsOn (s : State) (c : Nat) : Bool :=
  match s.ten s.tick.cur, s.run s.tick.cur with
  | some v, some r => c < 4 && v.districts.contains c && r.entered && r.ended.isNone
  | _, _ => false

/-- TENANCY: the running Tenancy, or 0 where no step runs on the core (R75). -/
def State.coreTen (s : State) (c : Nat) : Nat := if s.runsOn c then s.tick.cur else 0

/-- The discard code asked for by the DCC of a District, or its request to commit, and the retirement of STEPEND (R91, R92). -/
def State.coreStepEnd (s : State) (c : Nat) (code : Option Nat) : State :=
  let t := (s.core c).ten
  let s := match code with | some x => s.askDiscard t c x | none => s
  let s := s.updRun t (fun r => { r with stepends := if r.stepends.contains c then r.stepends else c :: r.stepends })
  s.updCore c (fun k => { k with wait := .wfi, inStep := false })

/-- What a core had obtained for an instruction that does not retire is gone: one fetched over the fabric, and the part of its source
that an ENQ had read, whose misses do not count (R75). -/
def CoreSt.abort (k : CoreSt) : CoreSt :=
  match k.enq with
  | some e => { k with enq := none, dmiss := e.miss, fetched := none }
  | none => { k with fetched := none }

/-- Enters L1 at TVEC (R76). A CCC, which has one level, stays at L2. -/
def State.enterTrap (s : State) (c : Nat) (e : Exc) (epc : Nat) (bad : W64) : State :=
  s.updCore c (fun k => { k.abort with
    prevLevel := k.level, prevIe := k.ie || k.level == 0, level := if c < 4 then 1 else 2, ie := false,
    epc := BitVec.ofNat 64 epc, cause := BitVec.ofNat 64 e.num, badaddr := bad, pc := k.tvec.toNat, wait := .none })

/-- An exception at L1, on a CCC, or at a trap entry that is itself misaligned: a District or chip control fault (R77). -/
def State.controlFault (s : State) (c : Nat) : State :=
  if c < 4 then s.chipEv 0x55 c (s.core c).ten else s.chipEv 0x56 (c - 4)

/-- An exception of a core (R76, R77). At L0 of a DCC it enters L1, where the service runtime ends the step as a discard
with the cause code and logs 0x52. At L1 or on a CCC it is a control fault. -/
def State.trap (s : State) (c : Nat) (e : Exc) (epc : Nat) (bad : W64) : State :=
  let k := s.core c
  if c < 4 && k.level == 0 then
    let s := s.enterTrap c e epc bad
    if k.tvec.toNat % 4 != 0 then s.controlFault c
    else (s.distEv 0x52 c 0 k.ten 0 false e.num).coreStepEnd c none
  else s.controlFault c

/-! ### Caches -/

/-- The line of an address. -/
def lineOf (a : Nat) : Nat := a / 128 * 128

/-- Whether a core caches an address for data or, with `ex`, for fetching (R71, R78, R89). -/
def State.cacheable (s : State) (c a : Nat) : Bool :=
  (match winOf a with | .t1 => true | .t2 => true | _ => false) &&
    ((s.core c).level != 0 || match s.ten (s.core c).ten with | some v => v.tableCaches a | none => false)

/-- A failed posted store, or a fenced load or atomic, in ERRSTAT (R87). -/
def State.recordErr (s : State) (c st a : Nat) : State :=
  s.updCore c (fun k => { k with
    errCode := if k.errCount = 0 then st else k.errCode,
    errAddr := if k.errCount = 0 then a % 2 ^ 40 else k.errAddr,
    errCount := satAdd 0xFFFF k.errCount 1 })

/-- Writes one dirty line of a core back (R523): below the cache the write goes to the copy that R283 selects. Its failure is that of
a posted store. -/
def State.writeBack (s : State) (c : Nat) (l : CacheLine) : State :=
  if !l.dirty then s
  else
    let r := s.tierWrite { s.coreIssuer c with ten := (s.core c).ten } (if l.line < t2Base then .t1 else .t2) l.line l.data
    if r.1 = 0 then r.2 else r.2.recordErr c r.1 l.line

/-- A posted access of a core to a local place: it joins the core's outstanding accesses and, where its Tenancy is shaped, asks its
memory shaper in that order (R86, R298). -/
def State.post (s : State) (c : Nat) (acc : CoreAcc) (ten : Nat) (t : Tier) (ph n : Nat) : State :=
  let key := 2 ^ 54 + s.nextJob
  let q := s.shaped (s.coreIssuer c) t ph n true key
  let s : State := { q.2 with nextJob := q.2.nextJob + 1 }
  s.updCore c (fun k => { k with reqs := k.reqs ++ [{ acc := acc, ten := ten, tag := none, key := if q.1 then 0 else key }] })

/-- A line that leaves the data cache, or is cleaned there, goes back to memory when it is dirty. The write is posted, and later
accesses of the core to the line wait for it. -/
def State.postBack (s : State) (c : Nat) (l : CacheLine) : State :=
  if l.dirty then s.post c (.back l.line l.data) (s.core c).ten (if l.line < t2Base then .t1 else .t2) l.line 128 else s

/-- Whether an earlier access of the core that has not completed meets a 128 B line of a range: requests of one source to one line
complete in the order in which they were issued (R19, R28, R360). -/
def reqMeets (l : List CoreReq) (a n : Nat) : Bool :=
  let lines := fun b m => overlap (lineOf a) (lineOf (a + n - 1) + 128 - lineOf a) (lineOf b) (lineOf (b + m - 1) + 128 - lineOf b)
  l.any fun r => match r.acc with
    | .store b m _ => lines b m
    | .amo _ b m => lines b m
    | .back b _ => lines b 128
    | _ => false

/-- A core sends a request over the fabric and, where it stalls, waits. -/
def State.coreSend (s : State) (c : Nat) (pl : Place) (kind : FabKind) (len : Nat) (data : List Byte) (acc : CoreAcc)
    (stall : Bool) : State :=
  let i := s.coreIssuer c
  let r := s.fabSend i pl kind len data (match kind with | .atomic op => 1 ≤ op && op ≤ 8 | _ => false)
  r.2.updCore c (fun k => { k with
    reqs := k.reqs ++ [{ acc := acc, ten := i.ten, tag := some r.1 }], wait := if stall then .access else k.wait })

/-- A core's read of T3, past its memory shaper: a result at once, or the NVMe command that the core waits for (R294, R296). -/
def State.coreFlash (s : State) (c ph n : Nat) (acc : CoreAcc) : Option (Nat × List Byte) × State :=
  let i := s.coreIssuer c
  match s.t3Access i false ph n [] true with
  | (.inl x, s) => (some x, s)
  | (.inr id, s) => (none, s.updCore c (fun k => { k with
      reqs := k.reqs ++ [{ acc := acc, ten := i.ten, tag := none, nvme := some id }], wait := .access }))

/-- An access of a core that the core waits for asks its memory shaper (R298); a core has one such access at a time. -/
def State.coreShaped (s : State) (c : Nat) (t : Tier) (a n : Nat) (wr : Bool) : Bool × State :=
  s.shaped (s.coreIssuer c) t a n wr (2 ^ 53 + c)

/-- The set of a line: 64 sets of four ways. -/
def setOf (line : Nat) : Nat := line / 128 % 64

/-- Puts a line in the data cache. When its set is full, the way that the free value names leaves it, and goes back to memory
when dirty. -/
def State.fillLine (s : State) (c : Nat) (l : CacheLine) : State :=
  let k := s.core c
  let mates := k.dcache.filter (fun x => setOf x.line == setOf l.line)
  let s := if mates.length < 4 then s
    else match mates[Config.cacheVictim s.free % 4]? with
      | some x => (s.postBack c x).updCore c (fun k => { k with dcache := k.dcache.filter (fun y => y.line != x.line) })
      | none => s
  s.tickFree.updCore c (fun k => { k with dcache := k.dcache ++ [l] })

def State.findLine (s : State) (c a : Nat) : Option CacheLine := (s.core c).dcache.find? (fun x => x.line == lineOf a)

/-- Drops a line of the data cache. -/
def State.dropLine (s : State) (c a : Nat) : State :=
  s.updCore c (fun k => { k with dcache := k.dcache.filter (fun x => x.line != lineOf a) })

/-- Reads a line for the caches, past the bounds check: redirection and the tier's own errors apply. -/
def State.readLine (s : State) (c a : Nat) : Nat × List Byte × State :=
  s.tierRead (s.coreIssuer c).ten (if a < t2Base then .t1 else .t2) (lineOf a) 128

/-- The line of an address in a core's data cache, filled when absent (R71). `ecc` is the error that the lookup meets
(R106): 1 is corrected, 2 on a clean line refetches it as 0x54, 2 on a dirty line is 0x57. A fill that fails gives no line, and counts
no miss here (R75): what waits for it does not retire. -/
def State.dataLine (s : State) (c a ecc : Nat) : Nat × Option CacheLine × State :=
  let fill := fun (s : State) =>
    let r := s.readLine c a
    if r.1 != 0 then (r.1, none, r.2.2)
    else
      let l : CacheLine := ⟨lineOf a, r.2.1, false⟩
      (0, some l, (r.2.2.updCore c (fun k => { k with dmiss := k.dmiss + 1 })).fillLine c l)
  match s.findLine c a with
  | none => fill s
  | some l =>
    if ecc = 2 then
      if l.dirty then (0, some l, s.chipEv 0x57 (c % 4) (s.core c).ten)
      else fill ((s.dropLine c a).distEv 0x54 (c % 4) 0 (s.core c).ten)
    else (0, some l, s)

/-- Bytes of a cached line. -/
def CacheLine.bytes (l : CacheLine) (a n : Nat) : List Byte := (l.data.drop (a - l.line)).take n

/-- Bytes of a cached line replaced; the line is dirty. -/
def CacheLine.put (l : CacheLine) (a : Nat) (v : List Byte) : CacheLine :=
  { l with data := l.data.take (a - l.line) ++ v ++ l.data.drop (a - l.line + v.length), dirty := true }

/-- The data cache of a core writes back every dirty line when its step ends (R523); the lines stay, clean. -/
def State.cleanAll (s : State) (c : Nat) : State :=
  ((s.core c).dcache.foldl (fun s l => s.postBack c l) s).updCore c
    (fun k => { k with dcache := k.dcache.map (fun l => { l with dirty := false }) })

/-- A line on its way back reaches memory; its failure is recorded in ERRSTAT (R87, R523). -/
def State.performBack (s : State) (c : Nat) (r : CoreReq) : State :=
  match r.acc with
  | .back l data =>
    let q := s.tierWrite { s.coreIssuer c with ten := r.ten } (if l < t2Base then .t1 else .t2) l data
    if q.1 = 0 then q.2 else q.2.recordErr c q.1 l
  | _ => s

/-- Whether an outstanding access is a line on its way back. -/
def CoreReq.isBack (r : CoreReq) : Bool := match r.acc with | .back _ _ => true | _ => false

/-- Every line of a core that is on its way back reaches memory, past its memory shaper. -/
def State.drainBacks (s : State) (c : Nat) : State :=
  (((s.core c).reqs.filter CoreReq.isBack).foldl (fun s r => (s.shapeGone r.key).performBack c r) s).updCore c
    (fun k => { k with reqs := k.reqs.filter (fun r => !r.isBack) })

/-- Cleans and invalidates both caches of a core, and clears its predictor, target buffer and return stack (R90). The device
itself makes these writes. -/
def State.flushCaches (s : State) (c : Nat) : State :=
  ((s.core c).dcache.foldl (fun s l => s.writeBack c l) s).updCore c (fun k => { k with dcache := [], icache := [], branches := [] })

/-! ### Issue -/

/-- Puts the line of an address in the instruction cache; the free value names the way that leaves a full set. -/
def State.fillCode (s : State) (c a : Nat) : State :=
  let k := s.core c
  let mates := k.icache.filter (fun x => setOf x == setOf a)
  let gone := if mates.length < 4 then none else mates[Config.cacheVictim s.free % 4]?
  s.tickFree.updCore c (fun k => { k with
    icache := (match gone with | some x => k.icache.filter (· != x) | none => k.icache) ++ [lineOf a] })

/-- What a fetch gives: the instruction, an exception, or nothing yet while the line waits in the memory shaper (R298) or comes from
another device or a drive. -/
inductive Fetched where
  | ok
  | trap (e : Exc) (bad : W64)
  | waits
  deriving DecidableEq, Repr

/-- The fetch of the instruction at PC: the bounds check at L0, and the line from the instruction cache or memory. A failed
check is the exception BOUNDS, another status ACCESS_ERROR. An instruction of another device comes over the fabric, and one in T3 by
an NVMe command. -/
def State.fetch (s : State) (c : Nat) : Fetched × State :=
  let k := s.core c
  match s.check (s.coreIssuer c) .fetch k.pc with
  | (0, some (.mem .t3 ph), s) =>
    if k.fetched = some k.pc then (.ok, s.updCore c (fun k => { k with fetched := none }))
    else match s.shaped (s.coreIssuer c) .t3 ph 4 false (2 ^ 53 + 16 + c) with
      | (false, s) => (.waits, s)
      | (true, s) => match s.coreFlash c ph 4 (.fetch k.pc) with
        | (some r, s) => (if r.1 = 0 then .ok else .trap .access (BitVec.ofNat 64 r.1), s)
        | (none, s) => (.waits, s)
  | (0, some (.mem t ph), s) =>
    let cached := s.cacheable c k.pc
    let a := if cached then lineOf ph else ph
    let n := if cached then 128 else 4
    if cached && k.icache.contains (lineOf k.pc) then (.ok, s)
    else match s.shaped (s.coreIssuer c) t a n false (2 ^ 53 + 16 + c) with
      | (false, s) => (.waits, s)
      | (true, s) =>
        let r := s.tierRead (s.coreIssuer c).ten t a n
        let s := r.2.2
        if r.1 != 0 then (.trap .access (BitVec.ofNat 64 r.1), s)
        else if cached then (.ok, (s.fillCode c k.pc).updCore c (fun k => { k with imiss := k.imiss + 1 }))
        else (.ok, s)
  | (0, some (.ctl _), s) => (.trap .access (BitVec.ofNat 64 St.unmapped), s)
  | (0, some pl, s) =>
    if k.fetched = some k.pc then (.ok, s.updCore c (fun k => { k with fetched := none }))
    else (.waits, s.coreSend c pl .read 4 [] (.fetch k.pc) true)
  | (0, none, s) => (.ok, s)
  | (st, _, s) => (.trap (if st = St.bounds then .bounds else .access)
      (if st = St.bounds then BitVec.ofNat 64 k.pc else BitVec.ofNat 64 st), s)

/-- Retires an instruction: PC moves to `pc`. -/
def State.retire (s : State) (c pc : Nat) : State :=
  s.updCore c (fun k => { k with lastPc := k.pc, pc := pc % 2 ^ 64, retired := k.retired + 1 })

/-- PC of the instruction after the present one. -/
def CoreSt.next (k : CoreSt) : Nat := (k.pc + 4) % 2 ^ 64

/-- One instruction of a core: when the core issues, its fetch, then what the instruction does. While the fetch waits, the instruction
is given again. -/
def State.instr (s : State) (c : Nat) (act : CoreSt → State → State) : Host.Outcome State Fault Refusal :=
  if !s.canIssue c then .next s
  else match s.fetch c with
    | (.trap e bad, s') => .next (s'.trap c e (s.core c).pc bad)
    | (.waits, s') => .next s'
    | (.ok, s') => .next (act (s'.core c) s')

/-- The exception ILLEGAL_INSTR. -/
def State.illegal (s : State) (c : Nat) : State := s.trap c .illegal (s.core c).pc 0

/-- An instruction that writes a register and goes on. -/
def State.retireReg (s : State) (c rd : Nat) (v : W64) : State :=
  (s.updCore c (fun k => k.setReg rd v)).retire c (s.core c).next

end Sys2Proof.Machine
end

