-- ==== Sys2Proof/Machine/Thatch.lean ====
section
/-! DEFINITION. The Thatch decoder (R274 to R279). -/

namespace Sys2Proof.Machine

/-- `n` rounded up to a multiple of 16. -/
def ceil16 (n : Nat) : Nat := (n + 15) / 16 * 16

/-- The bits of a body, from bit 7 of its first byte downwards (R278). -/
def bodyBits (l : List Byte) : List Bool := l.flatMap (fun b => (List.range 8).map (fun i => b.getLsbD (7 - i)))

/-- The number that bits spell, most significant first. -/
def msbNat (l : List Bool) : Nat := l.foldl (fun a b => 2 * a + b.toNat) 0

/-- The codes of a codebook, as (length, code, entry); none when a code value does not fit its length (R277). -/
def codesOf (counts : List Nat) (entries : List Nat) : Option (List (Nat × Nat × Nat)) :=
  let r := counts.zipIdx.foldl (fun (acc : Option (Nat × Nat × List (Nat × Nat × Nat))) p =>
    match acc with
    | none => none
    | some (code, n, l) =>
      let len := p.2 + 1
      if p.1 != 0 && 2 ^ len < code + p.1 then none
      else
        let new := (List.range p.1).map (fun i => (len, code + i, (entries[n + i]?).getD 0))
        some ((code + p.1) * 2, n + p.1, l ++ new)) (some (0, 0, []))
  r.map (fun x => x.2.2)

/-- The codebook of a segment with `nsym` entries of `c` bits, or none when it breaks R277 or its padding is not zero. -/
def codebook (l : List Byte) (nsym c : Nat) : Option (List (Nat × Nat × Nat)) :=
  let counts := (l.take 12).map BitVec.toNat
  let entries := ((l.drop 12).take nsym).map BitVec.toNat
  if nsym = 0 || 2 ^ c < nsym || counts.sum != nsym || entries.any (fun e => 2 ^ c ≤ e) || !entries.Nodup ||
      (l.drop (12 + nsym)).any (fun b => b != 0) then none
  else codesOf counts entries

/-- The entry whose code starts the bits, with the bits after it. -/
def takeCode (codes : List (Nat × Nat × Nat)) (l : List Bool) : Option (Nat × List Bool) :=
  (codes.find? (fun x => x.1 ≤ l.length && msbNat (l.take x.1) == x.2.1)).map (fun x => (x.2.2, l.drop x.1))

/-- `n` symbols of a code followed by `low` raw bits, with the bits after them. -/
def takeSymbols (codes : List (Nat × Nat × Nat)) (low : Nat) : Nat → List Bool → Option (List Nat × List Bool)
  | 0, l => some ([], l)
  | n + 1, l =>
    match takeCode codes l with
    | none => none
    | some (v, l) =>
      if l.length < low then none
      else (takeSymbols codes low n (l.drop low)).map (fun r => ((v * 2 ^ low + msbNat (l.take low)) :: r.1, r.2))

/-- Decodes the segment at the start of the bytes: its decoded bytes and its length at rest, or none when it fails (R279). A
number of codebook entries other than 0 in a mode without a codebook counts as a failure. -/
def thatchSegment (fmt : Nat) (l : List Byte) : Option (List Byte × Nat) :=
  let w0 := leNat (l.take 8)
  let w1 := leNat ((l.drop 8).take 8)
  let mode := bits w0 51 48
  let lines := bits w0 43 39 + 1
  let w := match bits w0 38 37 with | 0 => 4 | 1 => 6 | 2 => 8 | _ => 16
  let high := bits w0 36 33
  let rest := 16 * bits w0 32 20
  let nsym := bits w1 31 16
  let c := if mode = 2 then high else w
  if l.length < 16 || bits w0 63 56 != 0xC7 || bits w0 55 52 != 1 || 3 < mode || bits w0 47 44 != fmt ||
      (mode = 2 && (high = 0 || 8 < high || w ≤ high)) || (mode != 2 && high != 0) || (mode = 1 && 8 < w) ||
      ((mode = 0 || mode = 3) && nsym != 0) || lines * 1024 % w != 0 || l.length < rest then none
  else
    let dec :=
      if mode = 3 then (if rest = 16 then some (List.replicate (128 * lines) 0) else none)
      else if mode = 0 then (if rest = 16 + 128 * lines then some ((l.drop 16).take (128 * lines)) else none)
      else
        let cb := ceil16 (12 + nsym)
        match codebook ((l.drop 16).take cb) nsym c with
        | none => none
        | some codes =>
          let body := bodyBits ((l.take rest).drop (16 + cb))
          match takeSymbols codes (w - c) (lines * 1024 / w) body with
          | none => none
          | some (syms, left) =>
            let used := body.length - left.length
            if left.any id || rest != 16 + cb + ceil16 ((used + 7) / 8) then none else some (packBits w syms)
    match dec with
    | none => none
    | some d => if crc32c d = bits w1 63 32 then some (d, rest) else none

/-- Decodes a stream, segment by segment, until `size` bytes have been decoded; `exact` asks that nothing be left over. -/
def thatchStream (fmt size : Nat) (exact_ : Bool) : Nat → List Byte → Option (List Byte)
  | 0, _ => none
  | fuel + 1, l =>
    match thatchSegment fmt l with
    | none => none
    | some (d, n) =>
      if size < d.length then none
      else if size = d.length then (if exact_ && l.length != n then none else some d)
      else (thatchStream fmt (size - d.length) exact_ fuel (l.drop n)).map (d ++ ·)

/-- Decodes a range at rest into exactly `size` bytes. -/
def thatchDecode (fmt size : Nat) (exact_ : Bool) (l : List Byte) : Option (List Byte) := thatchStream fmt size exact_ (size / 128 + 1) l

end Sys2Proof.Machine
end

