-- ==== Sys2Proof/Machine/SquarePool.lean ====
section
/-! DEFINITION. The capacity pool of Square (R242 to R247), expert copies and their placement in the lot map (R219 to R221, R231). -/

namespace Sys2Proof.Machine

/-- P_t: the PRIV lots of a Tenancy in a District. -/
def State.privLots (s : State) (t d : Nat) : Nat := match s.ten t with | some v => 32 * (v.desc.priv[d]?).getD 0 | none => 0

/-- Q_t: its entitlement for copies. -/
def State.quotaLots (s : State) (t d : Nat) : Nat := match s.ten t with | some v => 32 * (v.desc.cache[d]?).getD 0 | none => 0

/-- U_t: the lots that its copies hold. -/
def State.usedLots (s : State) (t d : Nat) : Nat := (((s.sq d).copies.filter (fun c => c.ten == t)).map Copy.lots).sum

/-- K_t: the lots that its kept copies hold. -/
def State.keptLots (s : State) (t d : Nat) : Nat :=
  (((s.sq d).copies.filter (fun c => c.ten == t && c.kept)).map Copy.lots).sum

/-- The physical lots that no map names and that are in service, ascending. -/
def SquareSt.freeLots (q : SquareSt) : List Nat :=
  (List.range 4096).filter (fun p => !q.retired.contains p && !q.map.any (fun x => x.2 == p + 1))

/-- The resident Tenancies' unused entitlements, but for one Tenancy. -/
def State.othersUnused (s : State) (t d : Nat) : Nat :=
  ((s.tick.resident.filter (· != t)).map (fun u => s.quotaLots u d - s.usedLots u d)).sum

/-- Whether a copy may be evicted (R243). -/
def Copy.evictable (c : Copy) : Bool := !c.held && !c.kept && !c.dropping

/-- The first physical lot of a copy. -/
def SquareSt.firstLot (q : SquareSt) (c : Copy) : Nat := KMap.get 0 q.map (c.ten * 4096 + c.first) - 1

/-- The oldest evictable copy among those that satisfy a condition (R243). -/
def SquareSt.oldest (q : SquareSt) (p : Copy → Bool) : Option Copy :=
  (q.copies.filter (fun c => c.evictable && p c)).foldl (fun best c =>
    match best with
    | none => some c
    | some b => if c.lastTick < b.lastTick || (c.lastTick = b.lastTick && q.firstLot c < q.firstLot b) then some c else best) none

/-- The highest range of `n` free logical lots of a Tenancy above its PRIV lots. -/
def State.lotRange (s : State) (t d n : Nat) : Option Nat :=
  let m := (s.sq d).map
  let lo := s.privLots t d
  ((List.range (4096 - n + 1)).reverse.find? (fun f => lo ≤ f &&
    (List.range n).all (fun i => KMap.get 0 m (t * 4096 + f + i) == 0)))

/-- Maps logical lots to the lowest free physical lots, in ascending order. -/
def SquareSt.mapLots (q : SquareSt) (t first n : Nat) : SquareSt :=
  { q with map := ((List.range n).zip q.freeLots).foldl (fun m p => KMap.set 0 m (t * 4096 + first + p.1) (p.2 + 1)) q.map }

/-- Allocates lots for a copy (R244), evicting as it must: the first logical lot, or none for NO_ROOM. -/
def State.allocate (s : State) (t d n : Nat) : Nat → Option Nat × State
  | 0 => (none, s)
  | fuel + 1 =>
    let q := s.sq d
    let free := q.freeLots.length
    let fits := n + s.othersUnused t d ≤ free && s.usedLots t d + n ≤ s.quotaLots t d + q.borrow
    match (if fits then s.lotRange t d n else none) with
    | some f => (some f, s.updSq d (fun q => q.mapLots t f n))
    | none =>
      let other := if !fits && s.usedLots t d + n ≤ s.quotaLots t d then
          q.oldest (fun c => c.ten != t && s.quotaLots c.ten d < s.usedLots c.ten d) else none
      match other.or (q.oldest (fun c => c.ten == t)) with
      | some v => (s.updSq d (fun q => q.freeCopy v)).allocate t d n fuel
      | none => (none, s)

def State.updCopy (s : State) (d t key : Nat) (f : Copy → Copy) : State :=
  s.updSq d (fun q => { q with copies := q.copies.map (fun c => if c.ten = t && c.key = key && !c.dropping then f c else c) })

/-- A copy is used in the step (R243). -/
def State.useCopy (s : State) (d t key : Nat) : State :=
  s.updCopy d t key (fun c => { c with held := true, lastTick := s.fget F.TICK_COUNT_COUNT [] })

/-- Makes a copy of `n` lots with no cluster present; false for NO_ROOM. -/
def State.makeCopy (s : State) (d t key gen n size : Nat) : Bool × State :=
  match s.allocate t d n ((s.sq d).copies.length + 1) with
  | (none, s) => (false, s)
  | (some f, s) =>
    let c : Copy := { ten := t, key := key, gen := gen, first := f, lots := n, size := size, lastTick := s.fget F.TICK_COUNT_COUNT [] }
    (true, s.updSq d (fun q => { q with copies := q.copies ++ [c] }))

/-- Writes bytes of a copy, from byte `off` of it. -/
def State.putCopy (s : State) (d : Nat) (c : Copy) (off : Nat) (l : List Byte) : State :=
  (cutAt 65536 off l.length).foldl (fun s p =>
    let lot := KMap.get 0 (s.sq d).map (c.ten * 4096 + c.first + p.1 / 65536) - 1
    (s.eccWrite 8 (squareBase d + lot * 65536 + p.1 % 65536) ((l.drop (p.1 - off)).take p.2)).2) s

/-- Reads bytes of a copy. -/
def State.getCopy (s : State) (d : Nat) (c : Copy) (off n : Nat) : Nat × List Byte × State :=
  (cutAt 65536 off n).foldl (fun (acc : Nat × List Byte × State) p =>
    let lot := KMap.get 0 (acc.2.2.sq d).map (c.ten * 4096 + c.first + p.1 / 65536) - 1
    let r := acc.2.2.localRead (rmIssuer d c.ten) (.square d) (squareBase d + lot * 65536 + p.1 % 65536) p.2
    (if acc.1 != 0 then acc.1 else r.1, acc.2.1 ++ r.2.1, r.2.2)) (0, [], s)

end Sys2Proof.Machine
end

