-- ==== Sys2Proof/Machine/Image.lean ====
section
/-! DEFINITION. Residency and the images of Tenancies (R61, R62, R525): which Tenancies can be resident together, which are
saved, what a save, a restore and a zeroing move, and how long a switch takes. -/

namespace Sys2Proof.Machine

/-! ### Residency -/

/-- Whether two Tenancies share a Block of their masks, a Great Array or a Routing Engine. -/
def Ten.conflicts (v w : Ten) : Bool :=
  v.mask.any (fun b => w.mask.contains b) || v.desc.gaMask &&& w.desc.gaMask != 0 || v.desc.reMask &&& w.desc.reMask != 0

/-- The Square lots that the quotas of a Tenancy claim in a District. -/
def Ten.squareLots (v : Ten) (d : Nat) : Nat := 32 * ((v.desc.priv[d]?).getD 0 + (v.desc.cache[d]?).getD 0)

/-- Whether the Square quotas of a set of Tenancies fit in every District. -/
def State.quotasFit (s : State) (l : List Nat) : Bool :=
  [0, 1, 2, 3].all fun d =>
    (l.map (fun t => match s.ten t with | some v => v.squareLots d | none => 0)).sum + (s.sq d).retired.length ≤ 4096

/-- Tenancies in the order in which they are saved: least recently run first, then by ID. -/
def State.saveOrder (s : State) (l : List Nat) : List Nat :=
  l.mergeSort (fun t u =>
    let a := match s.ten t with | some v => v.lastRun | none => 0
    let b := match s.ten u with | some v => v.lastRun | none => 0
    a < b || (a == b && t ≤ u))

/-- Takes from a list until the quotas of what remains fit. -/
def State.takeUntilFit (s : State) (keep : List Nat) : List Nat → List Nat
  | [] => []
  | t :: l => if s.quotasFit (keep ++ t :: l) then [] else t :: s.takeUntilFit keep l

/-- The Tenancies that are saved before a Tenancy is restored, in order (R61). -/
def State.savesFor (s : State) (t : Nat) : List Nat :=
  match s.ten t with
  | none => []
  | some v =>
    let res := s.tick.resident.filter (· != t)
    let hit := res.filter (fun u => match s.ten u with | some w => v.conflicts w | none => false)
    s.saveOrder hit ++ s.takeUntilFit [t] (s.saveOrder (res.filter (fun u => !hit.contains u)))

/-! ### The image -/

/-- Bytes of image(n) for District `d` under a Block map (R50). -/
def Ten.imageLen (v : Ten) (map : List (Option Nat)) (d : Nat) : Nat :=
  0x100000 * (map.filter (fun e => match e with | some b => b / 256 == d | none => false)).length +
    0x200000 * (v.desc.priv[d]?).getD 0 + (if v.desc.gaMask.testBit d then 0x400000 else 0) +
    (if v.desc.reMask.testBit d then 0x800000 else 0)

/-- A part of an image: the resource and its place on the chip, or none where the resource is not the Tenancy's any more, and its
length. -/
abbrev ImagePart := Option (Tier × Nat) × Nat

/-- The parts of image(n) in their order (R525), laid out by one Block map and placed by another. -/
def State.imageParts (s : State) (t : Nat) (v : Ten) (layout : List (Option Nat)) (d : Nat) : List ImagePart :=
  let blocks := layout.zipIdx.filterMap (fun p => match p.1 with
    | some b =>
      if b / 256 = d then some ((if v.phys p.2 = some b then some (Tier.spad b, spadBase b) else none, 0x100000) : ImagePart)
      else none
    | none => none)
  let lots := (List.range (32 * (v.desc.priv[d]?).getD 0)).map (fun l =>
    (((s.lot t d l).map (fun p => (Tier.square d, squareBase d + p.1 * 65536)), 65536) : ImagePart))
  let ga := if v.desc.gaMask.testBit d then [((some (Tier.ga d, gaBase d + 0x1000000), 0x400000) : ImagePart)] else []
  let re := if v.desc.reMask.testBit d then [((some (Tier.resram d, reBase d), 0x800000) : ImagePart)] else []
  blocks ++ lots ++ ga ++ re

/-- The parts of the whole image with their places in the context area. -/
def State.imagePlaces (s : State) (t : Nat) (v : Ten) (layout : List (Option Nat)) : List (Nat × ImagePart) :=
  ([0, 1, 2, 3].flatMap (s.imageParts t v layout)).foldl
    (fun (acc : List (Nat × ImagePart) × Nat) p => (acc.1 ++ [(acc.2, p)], acc.2 + p.2)) ([], v.desc.ctx + 0x2000) |>.1

/-! ### Transfers (R522) -/

/-- Corrects and counts the correctable words that a transfer reads. -/
def State.transferWeak (s : State) (t : Tier) (a n : Nat) : State :=
  let weak := (s.weakWords.filter (fun p => a ≤ p.1 && p.1 < a + n)).map Prod.fst
  match t with
  | .t1 => s.t1Corrected weak
  | _ => (s.mend weak).eccCount t weak.length

/-- The lines of a range that hold an uncorrectable word. -/
def State.badLines (s : State) (a n : Nat) : List Nat :=
  ((s.badWords.filter (fun p => a ≤ p.1 && p.1 < a + n && p.2)).map (fun p => p.1 / 128 * 128)).dedup

/-- Logs each uncorrectable line that a transfer reads, outside any step. -/
def State.transferBad (s : State) (t : Tier) (a n : Nat) : State :=
  (s.badLines a n).foldl (fun s x => match t with
    | .t1 => s.t1Error 0 x
    | _ => s.chipMemError 0 t x) s

/-- Moves `n` bytes as they stand: the errors of the source stay with their words. `out` tells a move from the chip, whose words
have 8 B, to T1, whose words have 32 B. -/
def State.transfer (s : State) (out : Bool) (t : Tier) (chip t1 n : Nat) : State :=
  let src := if out then chip else t1
  let dst := if out then t1 else chip
  let from_ := if out then t else .t1
  let bad := (s.badWords.filter (fun p => src ≤ p.1 && p.1 < src + n && p.2)).map (fun p => p.1 - src + dst)
  let words := bad.flatMap (fun x => if out then [x / 32 * 32] else [x, x + 8, x + 16, x + 24])
  let s := (s.transferWeak from_ src n).transferBad from_ src n
  { s with mem := KMap.splice s.mem dst n (KMap.slice s.mem src n dst),
           badWords := words.foldl (fun m x => KMap.set false m x true) (KMap.clear s.badWords dst n),
           weakWords := KMap.clear s.weakWords dst n }

/-- Frees a Tenancy's lots in every District: its PRIV lots and its copies (R61, R246). -/
def State.freeLots (s : State) (t : Nat) : State :=
  [0, 1, 2, 3].foldl (fun s d => s.updSq d (fun q =>
    { q with map := KMap.clear q.map (t * 4096) 4096, copies := q.copies.filter (fun c => c.ten != t) })) s

/-- The saved core context, in a layout private to the device (R525). -/
def State.saveContext (s : State) (v : Ten) : State :=
  (s.rawWrite (v.desc.ctx + 0x1000) ((List.range 0x1000).map (Config.contextByte s.free))).tickFree

/-- Saves a Tenancy (R61): its image goes to the context area, its Square is freed, and it is no longer resident. -/
def State.saveTen (s : State) (t : Nat) : State :=
  match s.ten t with
  | none => s
  | some v =>
    let places := s.imagePlaces t v v.bmap
    let bad := places.any (fun p => match p.2.1 with | some (_, a) => s.anyBad a p.2.2 | none => false)
    let s := places.foldl (fun s p => match p.2.1 with
      | some (tier, a) => s.transfer true tier a p.1 p.2.2
      | none => s) s
    let s := (s.saveContext v).freeLots t
    let held := s.tst t = TSt.suspended.num
    let s := s.updTen t (fun v => { v with
      imgMap := v.bmap, imageBad := v.imageBad || (held && bad),
      run := v.run.map (fun r => if held && v.desc.gaMask != 0 then { r with rerun := true } else r) })
    let s := { s with tick := { s.tick with resident := s.tick.resident.filter (· != t) } }
    let s := s.fset F.TEN_STATE_SAVED [t] 1
    if s.tst t = TSt.resident.num then s.setTst t .defined else s

/-- Maps the PRIV lots of a Tenancy, in ascending order, to the lowest free lots. -/
def State.mapPriv (s : State) (t : Nat) : State :=
  [0, 1, 2, 3].foldl (fun s d => s.updSq d (fun q => q.mapLots t 0 (s.privLots t d))) s

/-- Zeroes a Block: its scratchpad and accumulator. -/
def State.zeroBlock (s : State) (b : Nat) : State := s.rawZero (spadBase b) 0x100000

/-- Zeroes the PRIV Square of a Tenancy in every District. -/
def State.zeroPriv (s : State) (t : Nat) : State :=
  [0, 1, 2, 3].foldl (fun s d => (List.range (s.privLots t d)).foldl (fun s l => match s.lot t d l with
    | some (p, _) => s.rawZero (squareBase d + p * 65536) 65536
    | none => s) s) s

/-- The Great Arrays that a Tenancy owns. -/
def Ten.gas (v : Ten) : List Nat := [0, 1, 2, 3].filter (fun d => v.desc.gaMask.testBit d)

/-- Zeroes the operand buffers of the Great Arrays that a Tenancy takes over (R166). -/
def State.zeroOperands (s : State) (v : Ten) : State := v.gas.foldl (fun s d => s.rawZero (gaBase d) 0x1000000) s

/-- A Tenancy becomes resident in its resources. -/
def State.nowResident (s : State) (t : Nat) : State :=
  let s := { s with tick := { s.tick with resident := s.tick.resident ++ [t] } }
  let s := s.fset F.TEN_STATE_SAVED [t] 0
  if s.tst t = TSt.defined.num then s.setTst t .resident else s

/-- Restores a saved Tenancy (R61). A Block that has taken a logical ID since the save starts with zeros (R53). -/
def State.restoreTen (s : State) (t : Nat) : State :=
  match s.ten t with
  | none => s
  | some v =>
    let s := s.mapPriv t
    let places := s.imagePlaces t v v.imgMap
    let bad := places.any (fun p => s.anyBad p.1 p.2.2)
    let s := places.foldl (fun s p => match p.2.1 with
      | some (tier, a) => s.transfer false tier a p.1 p.2.2
      | none => s) s
    let s := (v.bmap.zipIdx.filter (fun p => (v.imgMap[p.2]?).join != p.1)).foldl (fun s p => match p.1 with
      | some b => s.zeroBlock b
      | none => s) s
    let held := s.tst t = TSt.suspended.num || v.stash.isSome
    let s := (s.zeroOperands v).updTen t (fun v => { v with imageBad := v.imageBad || (held && bad) })
    s.nowResident t

/-- A Tenancy that has never run starts with zeros (R61). -/
def State.freshTen (s : State) (t : Nat) : State :=
  match s.ten t with
  | none => s
  | some v =>
    let s := v.bmap.foldl (fun s e => match e with | some b => s.zeroBlock b | none => s) s
    let s := v.gas.foldl (fun s d => s.rawZero (gaBase d + 0x1000000) 0x400000) s
    (((s.zeroOperands v).mapPriv t).zeroPriv t).nowResident t

/-! ### The switch -/

/-- The shortest time of a switch at full clock, in ns (R62): 4 µs for the saves and 4 µs for a restore or 6 µs for a zeroing, and
the transfers at 3150 B/ns in the District that moves most. -/
def State.switchNs (s : State) (w : Switch) : Nat :=
  let saved := fun d => (w.saves.map (fun t => match s.ten t with | some v => v.imageLen v.bmap d | none => 0)).sum
  let restored := fun d => if w.fresh then 0 else match s.ten w.incoming with | some v => v.imageLen v.imgMap d | none => 0
  let most := ([0, 1, 2, 3].map (fun d => saved d + restored d)).foldl max 0
  (if w.saves.isEmpty then 0 else 4000) + (if w.fresh then 6000 else 4000) + (most + 3149) / 3150

/-- The switch that makes a Tenancy resident. -/
def State.switchTo (s : State) (t : Nat) : State :=
  let fresh := match s.ten t with | some v => !v.ran | none => true
  { s with tick := { s.tick with switch := some ⟨t, s.savesFor t, fresh, s.now⟩ } }

/-- What a switch has done when it ends. DESIGN CHOICE (assumption 14): the order in which bytes move is not defined (R525); they all
move when the switch ends. -/
def State.switchDone (s : State) (w : Switch) : State :=
  let s := w.saves.foldl State.saveTen s
  let s := { s with tick := { s.tick with switch := none } }
  if w.fresh then s.freshTen w.incoming else s.restoreTen w.incoming

end Sys2Proof.Machine
end

