-- ==== Sys2Proof/Machine/Loads.lean ====
section
/-! DEFINITION. What the device loads from a Tenancy's context area at the tick starts at which its step starts, resumes or is
replayed, in order: the bounds table (R79), the Great Array control words (R158), the state region records (R282), the fabric
record (R363) and the digest table (R464). -/

namespace Sys2Proof.Machine

/-- Reads consecutive 64-bit words from a device address, outside any Tenancy; the first failing status is kept. -/
def State.devWords (s : State) (a n : Nat) : Nat × List Nat × State :=
  (List.range n).foldl (fun (acc : Nat × List Nat × State) i =>
    let r := acc.2.2.busWord deviceIssuer .rd (a + 8 * i)
    (if acc.1 != 0 then acc.1 else r.1, acc.2.1 ++ [r.2.1], r.2.2)) (0, [], s)

/-- Word `i` of a list read from memory. -/
def wordAt (l : List Nat) (i : Nat) : Nat := (l[i]?).getD 0

/-- Whether a range lies wholly within the data half of one enabled mirrored range. -/
def State.inDataHalf (s : State) (a n : Nat) : Bool :=
  (List.range 16).any fun r =>
    s.fget F.T2_RANGE_BASE_EN [r] == 1 && s.fget F.T2_RANGE_BASE_MIRROR [r] == 1 &&
      within (a - t2Base) n (s.fget F.T2_RANGE_BASE_BASE [r] * 4096)
        (s.fget F.T2_RANGE_BASE_BASE [r] * 4096 + KMap.get 0 s.t2Len r * 4096)

/-- One bounds entry from its two words: whether it breaks a rule of R79 or R273, given the pages that the valid entries
before it hold in T1, T2 and T3. -/
def State.boundBad (s : State) (d : Desc) (w0 w1 : Nat) (p1 p2 p3 : Nat) : Bool :=
  let n := bits w1 63 32
  let len := n * 4096
  let t1 := inT1 w0 len
  let t2 := inT2 w0 len
  let t3 := inT3 w0 len
  w0 % 4096 != 0 || n == 0 || bits w1 31 8 != 0 || bits w1 1 0 != 0 ||
    !(t1 || t2 || t3 || within w0 len rackBase beyondBase || within w0 len beyondBase (2 ^ 56)) ||
    (t1 && d.t1Quota * 256 < p1 + n) || (t2 && d.t2Quota * 256 < p2 + n) || (t3 && d.t3Quota * 262144 < p3 + n) ||
    (d.replT2 && t2 && w1.testBit 5 && !s.inDataHalf w0 len)

/-- Loads the bounds table (R79). -/
def State.loadBounds (s : State) (t : Nat) : State :=
  match s.ten t with
  | none => s
  | some v =>
    let d := v.desc
    let r := (List.range 16).foldl (fun (acc : List (Option Bound) × (Nat × Nat × Nat) × State) i =>
      let (tab, (p1, p2, p3), s) := acc
      let q := s.devWords (d.ctx + 0x800 + 16 * i) 2
      let w0 := wordAt q.2.1 0
      let w1 := wordAt q.2.1 1
      let s := q.2.2
      if q.1 != 0 then (tab ++ [none], (p1, p2, p3), s.chipEv 0x51 0 t)
      else if !w1.testBit 7 then (tab ++ [none], (p1, p2, p3), s)
      else if s.boundBad d w0 w1 p1 p2 p3 then (tab ++ [none], (p1, p2, p3), s.chipEv 0x51 0 t)
      else
        let n := bits w1 63 32
        (tab ++ [some ⟨w0, n, w1.testBit 6, w1.testBit 5, w1.testBit 4, w1.testBit 3, w1.testBit 2⟩],
          (if inT1 w0 (n * 4096) then p1 + n else p1, if inT2 w0 (n * 4096) then p2 + n else p2,
            if inT3 w0 (n * 4096) then p3 + n else p3), s)) ([], (0, 0, 0), s)
    r.2.2.updTen t (fun v => { v with bounds := r.1 })

/-- Whether one single bounds entry with the flags covers a range. -/
def Ten.oneEntry (v : Ten) (a n : Nat) (rd wr engine : Bool) : Bool :=
  v.bounds.any fun e => match e with
    | some b => within a n b.base (b.base + b.pages * 4096) && (!rd || b.rd) && (!wr || b.wr) && (!engine || b.engine)
    | none => false

/-- Loads the Great Array control words (R158). -/
def State.loadGa (s : State) (t : Nat) : State :=
  match s.ten t with
  | none => s
  | some v =>
    let r := (List.range 4).foldl (fun (acc : List (Option GaCtl) × State) n =>
      let q := acc.2.devWords (v.desc.ctx + 0x900 + 16 * n) 2
      let w0 := wordAt q.2.1 0
      let w1 := wordAt q.2.1 1
      let s := q.2.2
      if q.1 = 0 && !w1.testBit 33 then (acc.1 ++ [none], s)
      else if q.1 != 0 || !v.desc.gaMask.testBit n || w0 % 64 != 0 || bits w1 63 44 == 0 || bits w1 32 0 != 0 ||
          !v.oneEntry w0 (bits w1 63 44 * 64) true false true then
        (acc.1 ++ [none], s.gaErr n 0x75 8 0 t)
      else (acc.1 ++ [some ⟨w0, bits w1 63 44, bits w1 43 34⟩], s.fset F.GA_STATUS_CTRL_VALID [n] 1)) ([], s)
    r.2.updTen t (fun v => { v with gaCtl := r.1 })

/-- The three ranges of a state region record: copy 0, copy 1, table. -/
def StateRegion.ranges (r : StateRegion) : List (Nat × Nat) :=
  [(r.vbase, r.pages * 4096), (r.shadow, r.pages * 4096), (r.table, 8 + 8 * r.pages)]

/-- Whether two lists of ranges meet. -/
def rangesMeet (a b : List (Nat × Nat)) : Bool := a.any (fun x => b.any (fun y => overlap x.1 x.2 y.1 y.2))

/-- Whether a state region record with VALID = 1 breaks R282. -/
def State.regionBad (s : State) (t : Nat) (v : Ten) (before : List StateRegion) (w0 w1 w2 w3 : Nat) : Bool :=
  let n := bits w1 63 32
  let r : StateRegion := ⟨w0, n, w2, w3⟩
  let others := before ++ (s.tenIds.filter (· != t)).flatMap (fun u => match s.ten u with
    | some x => x.regions
    | none => [])
  let same := (inT1 w0 (n * 4096) && inT1 w2 (n * 4096)) || (inT2 w0 (n * 4096) && inT2 w2 (n * 4096))
  n == 0 || 2 ^ 28 < n || bits w1 30 0 != 0 || w0 % 4096 != 0 || w2 % 4096 != 0 || w3 % 8 != 0 || !same ||
    !(inT1 w3 (8 + 8 * n) || inT2 w3 (8 + 8 * n)) ||
    !(r.ranges.all (fun x => v.oneEntry x.1 x.2 true true false)) ||
    overlap w0 (n * 4096) w2 (n * 4096) || overlap w0 (n * 4096) w3 (8 + 8 * n) || overlap w2 (n * 4096) w3 (8 + 8 * n) ||
    others.any (fun o => rangesMeet r.ranges o.ranges)

/-- Loads the state region records (R282). -/
def State.loadRegions (s : State) (t : Nat) : State :=
  match s.ten t with
  | none => s
  | some v =>
    let r := (List.range 4).foldl (fun (acc : List StateRegion × State) n =>
      let q := acc.2.devWords (v.desc.ctx + 0xA00 + 32 * n) 4
      let s := q.2.2
      let w := wordAt q.2.1
      if q.1 = 0 && !(w 1).testBit 31 then (acc.1, s)
      else if q.1 != 0 || s.regionBad t v acc.1 (w 0) (w 1) (w 2) (w 3) then (acc.1, s.chipEv 0xA6 0 t)
      else (acc.1 ++ [⟨w 0, bits (w 1) 63 32, w 2, w 3⟩], s)) ([], s)
    r.2.updTen t (fun v => { v with regions := r.1 })

/-- Loads the fabric record (R363), and drops the Tenancy's cached translations (R364). -/
def State.loadFab (s : State) (t : Nat) : State :=
  match s.ten t with
  | none => s
  | some v =>
    let q := s.devWords (v.desc.ctx + 0xB00) 4
    let s := q.2.2.updFab (fun f => { f with xlat := f.xlat.filter (fun x => x.1 != t) })
    let w := wordAt q.2.1
    let n := bits (w 3) 31 0 * 4096
    if q.1 = 0 && !(w 1).testBit 0 then s.updTen t (fun v => { v with fab := none })
    else if q.1 != 0 || bits (w 1) 7 1 != 0 || bits (w 3) 47 32 != 0 || (w 0) % 8 != 0 || (w 2) % 4096 != 0 ||
        !v.oneEntry (w 0) (8 * (bits (w 1) 63 44 + 1)) true true true || !v.oneEntry (w 2) n true true true ||
        8388608 < bits (w 3) 31 0 || !inT1 (w 0) (8 * (bits (w 1) 63 44 + 1)) || !(inT1 (w 2) n || inT2 (w 2) n) ||
        (bits (w 1) 23 8 == 0 && v.desc.wardRequired) then
      (s.opmErr 0xCA 0 t 0 (KMap.get 0 s.fab.pkeys t)).updTen t (fun v => { v with fab := none })
    else
      s.updTen t (fun v => { v with fab := some ⟨w 0, bits (w 1) 63 44, bits (w 1) 43 24, bits (w 1) 23 8, w 2,
        bits (w 3) 31 0, bits (w 3) 63 48⟩ })

/-- Drops the sealing of a digest entry (R465). -/
def State.unsealEntry (s : State) (k : Nat) : State :=
  { s with sec := { s.sec with seals := KMap.set none s.sec.seals k none, sealed := KMap.set none s.sec.sealed k none } }

/-- Loads the digest table, and unseals entries that changed (R464, R465). -/
def State.loadDigests (s : State) (t : Nat) : State :=
  match s.ten t with
  | none => s
  | some v =>
    let r := (List.range 16).foldl (fun (acc : List (Option DigestEntry) × State) n =>
      let q := acc.2.devWords (v.desc.ctx + 0xE00 + 16 * n) 2
      let s := q.2.2
      let w0 := wordAt q.2.1 0
      let w1 := wordAt q.2.1 1
      let len := bits w1 63 32 * 4096
      let e : Option DigestEntry :=
        if q.1 = 0 && !w1.testBit 29 then none
        else some ⟨w0, w1, q.1 != 0 || bits w1 31 30 == 0 || bits w1 28 0 != 0 || bits w1 63 32 == 0 || w0 % 4096 != 0 ||
          !(inT1 w0 len || inT2 w0 len) ||
          s.tenIds.any (fun u => match s.ten u with
            | some x => x.regions.any (fun g => rangesMeet [(w0, len)] g.ranges)
            | none => false)⟩
      let old := (v.digTab[n]?).join
      (acc.1 ++ [e], if v.digTab.isEmpty || old = e then s else s.unsealEntry (t * 16 + n))) ([], s)
    r.2.updTen t (fun v => { v with digTab := r.1 })

/-- Everything that a tick start loads for a Tenancy's step, in order. -/
def State.loadContext (s : State) (t : Nat) : State :=
  ((((s.loadBounds t).loadGa t).loadRegions t).loadFab t).loadDigests t

end Sys2Proof.Machine
end

