-- ==== Sys2Proof/Machine/Route.lean ====
section
/-! DEFINITION. What a ROUTE job computes (R187 to R203): the selection and the gate weights of a token, capacity and overflow,
the Blocks of each expert, deferral for time, and the entries that it writes. All arithmetic is FP32 (R187). -/

namespace Sys2Proof.Machine

/-! ### FP32 -/

def f32add (a b : Nat) : Nat := (laneArith 0 0 a b 0).code
def f32sub (a b : Nat) : Nat := (laneArith 1 0 a b 0).code
def f32mul (a b : Nat) : Nat := (laneArith 2 0 a b 0).code
def f32exp (a : Nat) : Nat := (laneFn 0x10 0 a).code
def f32sigmoid (a : Nat) : Nat := (laneFn 0x16 0 a).code

/-- A quotient, rounded once. -/
def f32div (a b : Nat) : Nat :=
  let seed := [0xD1, a, b]
  match fp32.decode a, fp32.decode b with
  | .fin n m e, .fin k p q =>
    if p = 0 then (if m = 0 then (laneRound 0 .nan false seed).code else (laneRound 0 (.inf (n != k)) false seed).code)
    else match divRes (n != k) m p (e - q) with
      | .exact s x y => (laneRound 0 (.fin s x y) false seed).code
      | .approx s x y => (laneRound 0 (.fin s x y) true seed).code
      | _ => 0
  | .inf n, .fin k _ _ => (laneRound 0 (.inf (n != k)) false seed).code
  | .fin n _ _, .inf k => (laneRound 0 (.fin (n != k) 0 0) false seed).code
  | _, _ => (laneRound 0 .nan false seed).code

/-- FP32 of a whole number. -/
def f32nat (n : Nat) : Nat := (laneRound 0 (.fin false n 0) false [n]).code

/-- Whether an FP32 code is finite. -/
def f32finite (a : Nat) : Bool := a / 2 ^ 23 % 256 != 255

/-- The place of an FP32 code in ascending order; a NaN, whose place is not stated, has a free one. -/
def f32ord (a : Nat) : Int :=
  let m : Int := ((a % 2 ^ 31 : Nat) : Int)
  if (fp32.decode a).isNan then ((Config.vxOpen [0x187, a] % 2 ^ 33 : Nat) : Int) - 2 ^ 32
  else if a.testBit 31 then -m else m

/-! ### The descriptor (R185) -/

def EngJob.w (j : EngJob) (i : Nat) : Nat := (j.words[i]?).getD 0
def EngJob.op (j : EngJob) : Nat := bits (j.w 0) 63 60

namespace RouteJob
def act (j : EngJob) : Nat := bits (j.w 0) 59 58
def norm (j : EngJob) : Nat := bits (j.w 0) 57 56
def policy (j : EngJob) : Nat := bits (j.w 0) 55 54
def biasEn (j : EngJob) : Bool := (j.w 0).testBit 53
def maskEn (j : EngJob) : Bool := (j.w 0).testBit 52
def order (j : EngJob) : Bool := (j.w 0).testBit 51
def publish (j : EngJob) : Bool := (j.w 0).testBit 50
def warnEn (j : EngJob) : Bool := (j.w 0).testBit 49
def half (j : EngJob) : Bool := (j.w 0).testBit 48
def esz (j : EngJob) : Nat := if half j then 2 else 4
def k (j : EngJob) : Nat := bits (j.w 0) 47 44 + 1
def experts (j : EngJob) : Nat := bits (j.w 0) 43 30 + 1
def groups (j : EngJob) : Nat := bits (j.w 0) 23 16 + 1
def topg (j : EngJob) : Nat := bits (j.w 0) 15 8 + 1
def tokens (j : EngJob) : Nat := bits (j.w 1) 63 48 + 1
def first (j : EngJob) : Nat := bits (j.w 1) 47 32
def cf (j : EngJob) : Nat := bits (j.w 1) 31 16
def layer (j : EngJob) : Nat := bits (j.w 1) 15 0
def stride (j : EngJob) : Nat := bits (j.w 3) 63 32
def wrap (j : EngJob) : Nat := bits (j.w 3) 31 16
def chunk (j : EngJob) : Nat := bits (j.w 3) 15 0 + 1
def tokFirst (j : EngJob) : Nat := bits (j.w 7) 63 54
def tokPer (j : EngJob) : Nat := bits (j.w 7) 53 40
def expFirst (j : EngJob) : Nat := bits (j.w 7) 39 30
def expCount (j : EngJob) : Nat := bits (j.w 7) 29 19
def minTokens (j : EngJob) : Nat := bits (j.w 7) 18 8
def dispBase (j : EngJob) : Nat := bits (j.w 10) 63 32
def seqBase (j : EngJob) : Nat := bits (j.w 10) 31 0
def evcBase (j : EngJob) : Nat := bits (j.w 11) 63 54
def evcSpan (j : EngJob) : Nat := bits (j.w 11) 53 43
def doneEvc (j : EngJob) : Nat := bits (j.w 11) 42 33
def freeEvc (j : EngJob) : Nat := bits (j.w 11) 32 23
def freeEn (j : EngJob) : Bool := (j.w 11).testBit 22
def readyEvc (j : EngJob) : Nat := bits (j.w 15) 11 2
def readyEn (j : EngJob) : Bool := (j.w 15).testBit 1
def jobEvc (j : EngJob) : Nat := bits (j.w 15) 23 14

/-- The address of the score row of a job token (R186). -/
def rowAddr (j : EngJob) (i : Nat) : Nat := (j.w 2 + (if wrap j = 0 then i else i % wrap j) * stride j) % 2 ^ 64

/-- The holding Block and row of a job token (R200). -/
def holder (j : EngJob) (i : Nat) : Nat × Nat := (tokFirst j + i / tokPer j, i % tokPer j)
end RouteJob

/-! ### Selection (R187 to R190) -/

/-- The scores of a row, as FP32. -/
def scoresOf (j : EngJob) (l : List Byte) : List Nat :=
  (elems (RouteJob.esz j) l).map (fun v => if RouteJob.half j then v * 2 ^ 16 else v)

/-- Sorts by descending key, equal keys by ascending index: an insertion before the first smaller key. -/
def insertKey (x : Int × Nat) : List (Int × Nat) → List (Int × Nat)
  | [] => [x]
  | y :: t => if y.1 < x.1 then x :: y :: t else y :: insertKey x t

/-- The `n` largest of keys given in index order. -/
def topKeys (n : Nat) (l : List (Int × Nat)) : List Nat :=
  (l.foldl (fun acc x => (insertKey x acc).take n) []).map Prod.snd

/-- The kept groups (R188). -/
def keptGroups (j : EngJob) (keys : List (Int × Nat)) : List Nat :=
  let g := RouteJob.groups j
  let best := (List.range g).filterMap fun i =>
    let l := (keys.filter (fun x => x.2 * g / RouteJob.experts j == i)).map Prod.fst
    match l with
    | [] => none
    | a :: t => some (t.foldl max a, i)
  topKeys (RouteJob.topg j) best

/-- The weights of the selected experts before GATE_SCALE (R190). `sel` lists the scores in rank order, `elig` those of every
eligible expert of a kept group in index order. -/
def gateWeights (j : EngJob) (sel elig : List Nat) : List Nat :=
  let expSum := fun (m : Nat) (l : List Nat) => l.foldl (fun a x => f32add a (f32exp (f32sub x m))) 0
  let top := fun (l : List Nat) => (l.drop 1).foldl (fun a x => if f32ord a < f32ord x then x else a) (l.headD 0)
  let basis := fun (x : Nat) => if RouteJob.act j = 2 then f32sigmoid x else x
  let raw := if RouteJob.act j = 1 then
      let m := top elig
      let s := expSum m elig
      sel.map (fun x => f32div (f32exp (f32sub x m)) s)
    else sel.map basis
  match RouteJob.norm j with
  | 1 =>
    let d := raw.foldl f32add 0
    if d % 2 ^ 31 = 0 || !f32finite d then raw.map (fun _ => f32div (f32nat 1) (f32nat raw.length))
    else raw.map (fun w => f32div w d)
  | 2 =>
    let s0 := sel.headD 0
    let d := expSum s0 sel
    sel.map (fun x => f32div (f32exp (f32sub x s0)) d)
  | _ => raw

/-- The assignments of a token in rank order, and how many of its scores are not finite. -/
def selectToken (j : EngJob) (scores bias : List Nat) (excluded : Nat → Bool) : List Asg × Nat :=
  let bad := (scores.filter (fun x => !f32finite x)).length
  let elig := scores.zipIdx.filter (fun p => f32finite p.1 && !excluded p.2)
  let key := fun (p : Nat × Nat) =>
    let b := if RouteJob.act j = 2 then f32sigmoid p.1 else p.1
    (f32ord (f32add b (if RouteJob.biasEn j then (bias[p.2]?).getD 0 else 0)), p.2)
  let keys := elig.map key
  let keys := if RouteJob.groups j = 1 then keys
    else
      let g := keptGroups j keys
      keys.filter (fun x => g.contains (x.2 * RouteJob.groups j / RouteJob.experts j))
  let sel := topKeys (RouteJob.k j) keys
  let w := gateWeights j (sel.map (fun e => (scores[e]?).getD 0)) (keys.map (fun x => (scores[x.2]?).getD 0))
  (sel.zipIdx.map (fun p => { expert := p.1, rank := p.2, gate := f32mul ((w[p.2]?).getD 0) (bits (j.w 4) 31 0) }), bad)

/-! ### Capacity and overflow (R191, R192) -/

/-- C, or none without a limit. -/
def RouteJob.capacity (j : EngJob) : Option Nat :=
  if RouteJob.cf j = 0 then none
  else some (max 1 (cdiv (RouteJob.cf j * RouteJob.tokens j * RouteJob.k j) (256 * RouteJob.experts j)))

/-- What capacity and overflow give: the tokens' assignments, the tokens deferred, and the counts of removed assignments and of
weight moves. -/
structure Settled where
  toks : List (List Asg)
  deferred : List (Nat × Nat) := []
  dropped : Nat := 0
  moved : Nat := 0
  deriving DecidableEq, Repr

/-- Rank-major order of the assignments: token and rank. -/
def rankMajor (toks : List (List Asg)) : List (Nat × Nat) :=
  (List.range 16).flatMap fun r => (toks.zipIdx.filter (fun p => r < p.1.length)).map (fun p => (p.2, r))

def asgAt (toks : List (List Asg)) (i r : Nat) : Option Asg := (toks[i]?).bind (fun l => l[r]?)

/-- Changes a token's assignments. -/
def modTok (toks : List (List Asg)) (i : Nat) (f : List Asg → List Asg) : List (List Asg) := toks.modify i f

/-- The overflow of an assignment under NEXT_CHOICE: its weight goes to the next kept assignment after it, else to the nearest
before it. -/
def nextChoice (l : List Asg) (r : Nat) : Option (List Asg) :=
  let w := match l[r]? with | some a => a.gate | none => 0
  let t := (l.find? (fun a => a.kept && r < a.rank)).or (l.reverse.find? (fun a => a.kept && a.rank < r))
  t.map fun t => l.map fun a => if a.rank = t.rank then { a with gate := f32add a.gate w, moved := true } else a

/-- Capacity in rank-major order, then the overflow in the same order. -/
def settle (j : EngJob) (toks : List (List Asg)) : Settled :=
  match RouteJob.capacity j with
  | none => { toks := toks }
  | some c =>
    let pass := (rankMajor toks).foldl (fun (acc : KMap Nat × List (Nat × Nat)) p =>
      match asgAt toks p.1 p.2 with
      | some a =>
        let n := KMap.get 0 acc.1 a.expert
        if n < c then (KMap.set 0 acc.1 a.expert (n + 1), acc.2) else (acc.1, acc.2 ++ [p])
      | none => acc) ([], [])
    let toks := pass.2.foldl (fun t p => modTok t p.1 (fun l => l.map (fun a => if a.rank = p.2 then { a with kept := false } else a)))
      toks
    pass.2.foldl (fun (x : Settled) p =>
      let x := { x with dropped := x.dropped + 1 }
      match RouteJob.policy j with
      | 0 => match (x.toks[p.1]?).bind (fun l => nextChoice l p.2) with
        | some l => { x with toks := x.toks.set p.1 l, moved := x.moved + 1 }
        | none => x
      | 2 =>
        if x.deferred.any (fun d => d.1 == p.1) then x
        else
          { x with
            toks := modTok x.toks p.1 (fun l => l.map (fun a => { a with kept := false })),
            deferred := x.deferred ++ [(p.1, 1)] }
      | _ => x) { toks := toks }

/-! ### Blocks (R194, R195) -/

/-- Kept assignments by expert. -/
def keptCounts (toks : List (List Asg)) : KMap Nat :=
  toks.foldl (fun m l => l.foldl (fun m a => if a.kept then KMap.upd 0 m a.expert (· + 1) else m) m) []

/-- Expert Demand order (ORDER of R185). -/
def demandOrder (j : EngJob) (counts : KMap Nat) : List (Nat × Nat) :=
  if RouteJob.order j then
    (counts.foldl (fun acc x => insertKey (((x.2 : Nat) : Int), x.1) acc) []).map (fun x => (x.2, x.1.toNat))
  else counts

/-- The Blocks of an expert with `n` kept assignments. -/
def RouteJob.shares (j : EngJob) (bpe n : Nat) : Nat :=
  min (min bpe (RouteJob.expCount j)) (cdiv n (RouteJob.minTokens j))

/-- The placement: for each expert in demand order its count and its shares, as (Block, tokens). -/
def placement (j : EngJob) (bpe : Nat) (order : List (Nat × Nat)) : List (Nat × Nat × List (Nat × Nat)) :=
  (order.foldl (fun (acc : Nat × List (Nat × Nat × List (Nat × Nat))) p =>
    let g := RouteJob.shares j bpe p.2
    let l := (List.range g).map fun i =>
      (RouteJob.expFirst j + (acc.1 + i) % RouteJob.expCount j, if i < p.2 % g then p.2 / g + 1 else p.2 / g)
    ((acc.1 + g) % RouteJob.expCount j, acc.2 ++ [(p.1, p.2, l)])) (0, [])).2

/-- Token counts by Block. -/
def blockLoads (pl : List (Nat × Nat × List (Nat × Nat))) : KMap Nat :=
  pl.foldl (fun m p => p.2.2.foldl (fun m q => KMap.upd 0 m q.1 (· + q.2)) m) []

/-- The kept assignments of an expert in job-token order: token and assignment. -/
def tokensOf (toks : List (List Asg)) (e : Nat) : List (Nat × Asg) :=
  toks.zipIdx.flatMap (fun p => (p.1.filter (fun a => a.kept && a.expert == e)).map (fun a => (p.2, a)))

/-- The Block that each kept assignment is placed on, by token × 16 + rank. -/
def blockMap (toks : List (List Asg)) (pl : List (Nat × Nat × List (Nat × Nat))) : KMap Nat :=
  pl.foldl (fun m p =>
    let blks := p.2.2.flatMap (fun q => List.replicate q.2 q.1)
    ((tokensOf toks p.1).zip blks).foldl (fun m x => KMap.set 0 m (x.1.1 * 16 + x.1.2.rank) (x.2 + 1)) m) []

/-! ### Deferral for time (R203) -/

/-- Withdraws tokens in descending (rank, token) order until no Block of an assignment met holds more than the limit. -/
def deferForTime (j : EngJob) (bpe limit : Nat) (x : Settled) : Settled :=
  let pl := placement j bpe (demandOrder j (keptCounts x.toks))
  let bm := blockMap x.toks pl
  let r := ((rankMajor x.toks).reverse).foldl (fun (acc : Settled × KMap Nat) p =>
    match asgAt acc.1.toks p.1 p.2 with
    | some a =>
      if a.kept && limit < KMap.get 0 acc.2 (KMap.get 0 bm (p.1 * 16 + p.2) - 1) then
        let l := (acc.1.toks[p.1]?).getD []
        let loads := (l.filter Asg.kept).foldl (fun m b => KMap.upd 0 m (KMap.get 0 bm (p.1 * 16 + b.rank) - 1) (· - 1)) acc.2
        ({ acc.1 with
            toks := modTok acc.1.toks p.1 (fun l => l.map (fun a => { a with kept := false })),
            deferred := if acc.1.deferred.any (fun d => d.1 == p.1) then acc.1.deferred else acc.1.deferred ++ [(p.1, 2)] }, loads)
      else acc
    | none => acc) (x, blockLoads pl)
  r.1

/-- LIMIT, when the time needed exceeds the time remaining (R203); cclk counts. The value that means no limit is kept apart. -/
def predictLimit (j : EngJob) (maxLoad : Nat) (remaining : Int) : Option Nat :=
  let a : Int := ((RouteJob.tokens j * RouteJob.k j + 7) / 8 : Nat)
  let per := bits (j.w 15) 39 24
  let tail : Int := (bits (j.w 15) 63 40 : Nat)
  let needed := a + 1200 + (maxLoad * per : Nat) + tail
  if needed ≤ remaining then none
  else if per = 0 then some 0
  else some (min 0xFFFFFFFE ((remaining - a - 1200 - tail) / (per : Int)).toNat)

/-! ### Entries (R196, R197, R200) -/

/-- The words of demand entry `d`. -/
def demandEntry (j : EngJob) (d e n g disp seq : Nat) : List Nat :=
  [e * 2 ^ 50 + n * 2 ^ 33 + (RouteJob.evcBase j + d % RouteJob.evcSpan j) * 2 ^ 23 + g * 2 ^ 12,
   disp % 2 ^ 32 * 2 ^ 32 + (bits (j.w 12) 63 32 + d / RouteJob.evcSpan j + 1) % 2 ^ 32, 0,
   RouteJob.layer j * 2 ^ 48 + seq % 2 ^ 32]

/-- The words of a dispatch entry. -/
def dispatchEntry (j : EngJob) (i : Nat) (a : Asg) (slot : Nat) : List Nat :=
  let h := RouteJob.holder j i
  [a.expert * 2 ^ 50 + a.rank * 2 ^ 46 + a.moved.toNat * 2 ^ 45 + h.1 % 1024 * 2 ^ 34 + h.2 % 2 ^ 14 * 2 ^ 20 +
     (RouteJob.first j + i) % 65536,
   a.gate * 2 ^ 32 + slot % 65536 * 2 ^ 16]

/-- The EXPERT entry of a share. -/
def expertEntry (j : EngJob) (d dist e blk n disp seq : Nat) : CqEntry :=
  { dist := dist, w0 := 2 * 2 ^ 60 + blk % 1024 * 2 ^ 48 + j.ten * 2 ^ 42 + seq % 2 ^ 32,
    w1 := 2 ^ 63 + (RouteJob.evcBase j + d % RouteJob.evcSpan j) * 2 ^ 53 + 2 ^ 52 + RouteJob.doneEvc j * 2 ^ 42 +
      (bits (j.w 12) 63 32 + d / RouteJob.evcSpan j + 1) % 2 ^ 32,
    w2 := j.w 13, w3 := e * 2 ^ 50 + n * 2 ^ 33 + disp % 2 ^ 32 }

end Sys2Proof.Machine
end

