-- ==== Sys2Proof/Machine/StepDone.lean ====
section
/-! DEFINITION. When everything of a step has finished (R91, R164, R254, R392). -/

namespace Sys2Proof.Machine

/-- Whether every published entry of a Great Array of a Tenancy has completed (R164). -/
def State.gaDone (s : State) (v : Ten) (d : Nat) : Bool :=
  let g := s.ga d
  g.passes.isEmpty && g.conv.isNone && g.emu.isEmpty && match (v.gaCtl[d]?).join with
    | some c => c.entries ≤ g.index || s.fget F.EVC_VALUE [d, c.feed] ≤ g.index
    | none => true

/-- Whether a Residency Manager has nothing left but PREFETCH reads (R254). -/
def RmSt.prefetchOnly (r : RmSt) : Bool :=
  r.items.isEmpty && r.serves.all (fun x => match x.kind with | .prefetch _ => true | _ => x.raised) && r.fetches.all (fun f => f.prefetch)

/-- Whether it has nothing left, and no PREFETCH read already issued is outstanding. -/
def RmSt.done (r : RmSt) : Bool := r.prefetchOnly && r.fetches.all (fun f => f.reqs.isEmpty)

/-- Whether requests of a Tenancy are still out: fabric messages, drive commands, collectives. With `but`, those of the Residency
Managers do not count. -/
def State.requestsOut (s : State) (t : Nat) (but : Bool := false) : Bool :=
  s.fab.reqs.any (fun r => r.ten == t && !r.orphan && r.result.isNone && !(but && r.srcType == 4)) ||
    s.fl.cmds.any (fun c => c.ten == t && c.op != .flush && c.result.isNone && !(but && c.issuer / 2 ^ 32 == 4)) ||
    s.fab.colls.any (fun p => match p.2.running with | some r => r.job.ten == t | none => false)

/-- Whether everything of a step has finished but for its Residency Managers. -/
def State.workDone (s : State) (t : Nat) (v : Ten) (r : Run) (but : Bool) : Bool :=
  v.districts.all (fun d => r.stepends.contains d && (s.core d).reqs.isEmpty &&
      [0, 1, 2, 3].all (fun q => (KMap.get [] (s.dist d).cq q).isEmpty)) &&
    [0, 1, 2, 3].all (fun d =>
      s.gaDone v d && (s.dist d).re.queue.isEmpty && (s.dist d).re.running.isNone && (s.dist d).re.held.isEmpty) &&
    v.blocks.all (fun p => let k := s.blk p.2; k.inbox.isEmpty && k.running.isNone && k.passes.isEmpty) &&
    !s.dma.any (fun j => j.ofTen t) && !s.posts.any (fun p => p.ten == t) && !s.requestsOut t but &&
    !s.fab.colls.any (fun p => p.2.queue.any (fun j => j.ten == t))

/-- Whether everything of a step has finished (R91, R164, R392). -/
def State.stepDone (s : State) (t : Nat) (v : Ten) (r : Run) : Bool :=
  s.workDone t v r false && [0, 1, 2, 3].all (fun d => (s.rm d).done)

/-- Whether nothing but PREFETCH reads keeps the step of a Tenancy from its end (R254). -/
def State.onlyPrefetch (s : State) (t : Nat) : Bool :=
  match s.ten t, s.run t with
  | some v, some r => s.workDone t v r true && [0, 1, 2, 3].all (fun d => (s.rm d).prefetchOnly)
  | _, _ => false

end Sys2Proof.Machine
end

