-- ==== Sys2Proof/Machine/Residency.lean ====
section
/-! DEFINITION. The Residency Managers (R223 to R241, R248 to R254): jobs, demand entries, fetches, placement and arrival. -/

namespace Sys2Proof.Machine

/-! ### Base -/

/-- Whether a Residency Manager may work for a Tenancy. -/
def State.rmWorks (s : State) (ten : Nat) : Bool := s.stepRuns ten && s.tick.suspending.isNone

/-- SIG_EN and IRQ of a job (R227). -/
def State.rmSignal (s : State) (d w0 : Nat) : State :=
  let s := if w0.testBit 57 then s.evcAdd d (bits w0 56 47) 1 else s
  if w0.testBit 46 then s.srcEvent (.priv d 5) else s

/-- The head item leaves the stream. -/
def State.rmPop (s : State) (d : Nat) : State := s.updRm d (fun x => { x with items := x.items.drop 1, log := [] })

/-- The name of a Residency Manager's lookups in a memory shaper, and that of a fetch. -/
def rmKey (d : Nat) : Nat := 2 ^ 52 + d
def fetchKey (d key : Nat) : Nat := 2 ^ 64 * (d + 1) + key

/-- The binding of a layer in this step (R228, R229). -/
def State.binding (s : State) (d layer : Nat) : Option Binding := (s.rm d).binds.find? (fun b => b.layer == layer)

/-! ### The expert directory (R223 to R225) -/

/-- A directory entry by its words. -/
structure DirEntry where
  w0 : Nat
  w1 : Nat
  w2 : Nat
  w3 : Nat
  deriving DecidableEq, Repr

namespace DirEntry
def ofBytes (l : List Byte) : DirEntry :=
  let w := elems 8 l
  ⟨(w[0]?).getD 0, (w[1]?).getD 0, (w[2]?).getD 0, (w[3]?).getD 0⟩
def home (e : DirEntry) : Nat := e.w0
def decK (e : DirEntry) : Nat := bits e.w1 63 48
def restK (e : DirEntry) : Nat := bits e.w1 47 32
def format (e : DirEntry) : Nat := bits e.w1 31 28
def decFmt (e : DirEntry) : Nat := bits e.w1 27 24
def clusters (e : DirEntry) : Nat := bits e.w1 23 16 + 1
def neuron (e : DirEntry) : Bool := e.w1.testBit 15
def table (e : DirEntry) : Nat := e.w2
def gen (e : DirEntry) : Nat := bits e.w3 63 32
/-- S: the bytes of a cluster (R224). -/
def size (e : DirEntry) : Nat := e.decK * 4096 / e.clusters
def hasTable (e : DirEntry) : Bool := e.format == 1 && e.neuron

/-- Whether the entry is invalid without its cluster table (R225). -/
def invalid (e : DirEntry) : Bool :=
  1 < e.format || bits e.w1 14 0 != 0 || bits e.w3 31 0 != 0 || (e.format = 0 && e.decFmt != 0) || e.decK = 0 || 16384 < e.decK ||
    e.decK * 4096 % e.clusters != 0 || e.size % 128 != 0 || (!e.neuron && e.clusters != 1) ||
    (e.format = 0 && (e.restK != e.decK || e.table != 0)) || (e.format = 1 && inT1 e.home 1) || (e.hasTable && e.table = 0) ||
    (e.format = 1 && !e.neuron && e.table != 0)

/-- Whether a cluster table is invalid (R225). -/
def tableInvalid (e : DirEntry) (t : List Nat) : Bool :=
  t.headD 1 != 0 || e.restK * 4096 < t.getLastD 0 || (t.zip (t.drop 1)).any (fun p => p.2 < p.1)

/-- The range at rest of a cluster (R224). -/
def rest (e : DirEntry) (t : List Nat) (c : Nat) : RestRange :=
  if e.hasTable then
    let lo := (t[c]?).getD 0
    ⟨c, e.home + lo, (t[c + 1]?).getD 0 - lo⟩
  else if e.format = 1 then ⟨c, e.home, e.restK * 4096⟩
  else ⟨c, e.home + c * e.size, e.size⟩

/-- SOURCE of a cluster that comes from the HOME (R238). -/
def source (e : DirEntry) : Nat := if inT1 e.home 1 then 2 else if inT2 e.home 1 then 3 else if inT3 e.home 1 then 4
  else if e.home < beyondBase then 5 else 6
end DirEntry

/-- SOURCE by a home address (R238). -/
def homeSource (home : Nat) : Nat := (DirEntry.mk home 0 0 0).source

/-! ### Delivery -/

/-- Whether a serve waits for a cluster, in a copy (state 1) or for the operand buffer (state 2). -/
def Serve.waitsFor (y : Serve) (state ten key c : Nat) : Bool :=
  y.ten == ten && y.key == key && !y.placed && y.state == state && y.wanted.contains c && !y.got.contains c

/-- Adds a cluster that an entry waits for to its District's copy (R231). -/
def State.landCluster (s : State) (d ten key c size src : Nat) (l : List Byte) : State :=
  match s.copyOf d ten key with
  | none => s
  | some cp =>
    if cp.present.contains c || !(s.rm d).serves.any (fun y => y.waitsFor 1 ten key c) then s
    else ((s.putCopy d cp (c * size) l).updCopy d ten key (fun x => { x with present := x.present ++ [c] })).fadd
      F.RM_BYTES_BYTES [d, src] size

/-- Writes a cluster to the places in the operand buffer that wait for it (R241). -/
def State.landGa (s : State) (d ten key c size : Nat) (l : List Byte) : State :=
  ((s.rm d).serves.filter (fun y => y.waitsFor 2 ten key c)).foldl (fun (s : State) y => match y.kind with
    | .toGa _ off => (s.chipWrite ten (.ga d) (gaBase d + off + c * size) l).2
    | _ => s) s

/-- A cluster reaches a District: its copy, and the operand buffer of its Great Array, where entries wait for it; they take its source
(R238). -/
def State.takeCluster (s : State) (d ten key c size src : Nat) (l : List Byte) : State :=
  let s := (s.landCluster d ten key c size src l).landGa d ten key c size l
  s.updRm d (fun x => { x with serves := x.serves.map (fun y =>
    if y.waitsFor 1 ten key c then { y with source := src }
    else if y.waitsFor 2 ten key c then { y with source := src, got := y.got ++ [c] }
    else y) })

/-- A cluster that a fetch has read and decoded goes to its District and to the joiners (R234). The rules do not say under which source
a joiner shows a cluster that reaches it with the leader. DESIGN CHOICE (assumption 65): as one of another District. -/
def State.deliverCluster (s : State) (d : Nat) (f : Fetch) (c : Nat) (l : List Byte) : State :=
  let s := s.takeCluster d f.ten f.key c f.size (homeSource f.home) l
  if !f.leads then s
  else
    let joined := (s.merge.find? (fun m => m.ten == f.ten && m.key == f.key)).map MergeEntry.joined
    let s := { s with merge := s.merge.map (fun m =>
      if m.ten = f.ten && m.key = f.key then { m with landed := m.landed ++ [c] } else m) }
    (joined.getD []).foldl (fun s e => if e = d then s else s.takeCluster e f.ten f.key c f.size 1 l) s

/-! ### Looking up an expert (R230) -/

/-- What a lookup asks for: the kind of the entry, and the address of its cluster mask or 0. -/
structure Ask where
  kind : ServeKind
  ten : Nat
  item : List Nat
  layer : Nat
  expert : Nat
  mask : Nat := 0
  keep : Bool := false
  deriving DecidableEq, Repr

def Ask.isDemand (a : Ask) : Bool := match a.kind with | .demand _ => true | _ => false
def Ask.isPrefetch (a : Ask) : Bool := match a.kind with | .prefetch _ => true | _ => false

/-- The serve of an ask before it is served: DEC_4K and S of a placement entry are free without a directory entry. A PREFETCH has no
placement entry (R228). -/
def Ask.blank (a : Ask) (b : Option Binding) (n : Nat) (e : Option DirEntry := none) : Serve :=
  { kind := a.kind, ten := a.ten, item := a.item, layer := a.layer, expert := a.expert,
    place := if a.isPrefetch then none else b.map (fun b => b.place + 64 * a.expert),
    key := match b with | some b => b.dir + 32 * a.expert | none => 0,
    decK := match e with | some e => e.decK | none => Config.placeOpen n 0 % 2 ^ 16,
    size := match e with | some e => e.size | none => Config.placeOpen n 1 % 2 ^ 64,
    wanted := [], state := 5 }

/-- Adds a serve. -/
def State.addServe (s : State) (d : Nat) (x : Serve) : State := s.updRm d (fun r => { r with serves := r.serves ++ [x] })

/-- An entry that fails in its lookup is served as FAILED (R248). -/
def State.serveFailed (s : State) (d : Nat) (a : Ask) (code reason : Nat) (key : Option Nat) (dataErr : Bool)
    (e : Option DirEntry := none) : State :=
  let s := (s.rmFail d a.ten code reason a.layer a.expert key dataErr)
  if a.isPrefetch then s else (s.addServe d (a.blank (s.binding d a.layer) s.free e)).tickFree

/-- The clusters that a District's fetches of a key are still to bring. -/
def State.underWay (s : State) (d ten key : Nat) : List Nat :=
  (((s.rm d).fetches.filter (fun f => f.ten == ten && f.key == key)).flatMap
      (fun f => f.ranges.map RestRange.cluster ++ f.parts.map (fun p => p.1.cluster))) ++
    (s.merge.filter (fun m => m.ten == ten && m.key == key && !m.ended && m.joined.contains d)).flatMap
      (fun m => m.clusters.filter (fun c => !m.landed.contains c))

/-- Starts a fetch of clusters, or adds them to the fetch under way of the same key. -/
def State.startFetch (s : State) (d : Nat) (a : Ask) (e : DirEntry) (t : List Nat) (key : Nat) (cs : List Nat) (leads : Bool) : State :=
  let new := cs.map (e.rest t)
  if (s.rm d).fetches.any (fun f => f.ten == a.ten && f.key == key) then
    s.updRm d (fun x => { x with fetches := x.fetches.map (fun f =>
      if f.ten = a.ten && f.key = key then { f with ranges := f.ranges ++ new, prefetch := f.prefetch && a.isPrefetch } else f) })
  else
    let f : Fetch := { ten := a.ten, key := key, home := e.home, thatch := if e.format = 1 then some (e.decFmt, e.neuron) else none,
                       size := e.size, ranges := new, prefetch := a.isPrefetch, leads := leads }
    s.updRm d (fun x => { x with
      fetches := x.fetches ++ [f], activeCyc := if x.fetches.isEmpty then s.ridge.cycles else x.activeCyc })

/-- Copies clusters that another District's copy holds (R234). A read of it that fails stops this District's manager too: the event is
that District's (R251). -/
def State.copyClusters (s : State) (d from_ ten key size : Nat) (cs : List Nat) : State :=
  cs.foldl (fun s x => match s.copyOf from_ ten key with
    | none => s
    | some c =>
      let r := s.getCopy from_ c (x * size) size
      if r.1 = 0 then r.2.2.takeCluster d ten key x size 1 r.2.1 else r.2.2.rmStop d (some key)) s

/-- Registers a fetch of clusters in the merge table, and starts what this District must read itself (R234). Of a leader that makes no
copy nothing can be copied: what it has read before is read again. -/
def State.register (s : State) (d : Nat) (a : Ask) (e : DirEntry) (t : List Nat) (key : Nat) (cs : List Nat) : State :=
  match s.merge.find? (fun m => m.ten == a.ten && m.key == key) with
  | none =>
    if 1024 ≤ s.merge.length then
      (s.fsat F.RM_MERGE_MERGE_FULL [d] 1).startFetch d a e t key cs false
    else
      let m : MergeEntry := { ten := a.ten, key := key, leader := d, clusters := cs }
      ({ s with merge := s.merge ++ [m] }).startFetch d a e t key cs true
  | some m =>
    let s := if d = m.leader then s else s.fsat F.RM_MERGE_JOINS [d] 1
    let have_ := if d = m.leader then [] else match s.copyOf m.leader a.ten key with | some c => c.present | none => []
    let asked := if m.ended then [] else cs.filter (fun c => !m.landed.contains c)
    let joins := !m.ended && d != m.leader && !m.joined.contains d
    let new := asked.filter (fun c => !m.clusters.contains c)
    let s := { s with merge := s.merge.map (fun (x : MergeEntry) => if x.ten = a.ten && x.key = key then
      { x with clusters := x.clusters ++ new, joined := if joins then x.joined ++ [d] else x.joined } else x) }
    let s := if new.isEmpty then s else s.startFetch m.leader a e t key new true
    let rest := cs.filter (fun c => !asked.contains c)
    let own := rest.filter (fun c => !have_.contains c)
    let s := s.copyClusters d m.leader a.ten key e.size (rest.filter (have_.contains ·))
    if own.isEmpty || (s.rm d).failed then s else s.startFetch d a e t key own false

/-- The outcome of a lookup whose directory entry and cluster table are known: none while eight fetches are in progress. -/
def State.serve (s : State) (d : Nat) (a : Ask) (b : Binding) (e : DirEntry) (t : List Nat) (w : List Nat) : Option State :=
  let key := b.dir + 32 * a.expert
  let x : Serve := { a.blank (some b) s.free (some e) with wanted := w, state := 1 }
  let stale := match s.copyOf d a.ten key with | some c => c.gen != e.gen && !c.held | none => false
  let s := match s.copyOf d a.ten key with
    | some c => if stale then s.updSq d (fun q => q.freeCopy c) else s
    | none => s
  let present := match s.copyOf d a.ten key with | some c => c.present | none => []
  let missing := w.filter (fun c => !present.contains c)
  let todo := missing.filter (fun c => !(s.underWay d a.ten key).contains c)
  match a.kind with
  | .toGa _ off =>
    if 8 ≤ (s.rm d).fetches.length && !todo.isEmpty then none
    else
      let r := (w.filter (present.contains ·)).foldl (fun (acc : Bool × State) k => match acc.2.copyOf d a.ten key with
        | some c =>
          let r := acc.2.getCopy d c (k * e.size) e.size
          if r.1 = 0 then (acc.1, (r.2.2.chipWrite a.ten (.ga d) (gaBase d + off + k * e.size) r.2.1).2) else (false, r.2.2)
        | none => (false, acc.2)) (true, s.useCopy d a.ten key)
      if !r.1 then some (r.2.addServe d { x with state := 5 })
      else
        let s := r.2.addServe d { x with state := 2, got := w.filter (present.contains ·) }
        some (if todo.isEmpty then s else s.register d a e t key todo)
  | _ =>
    let n := (e.decK + 15) / 16
    let kept := match s.copyOf d a.ten key with | some c => c.kept | none => false
    if w.isEmpty then some ((s.useCopy d a.ten key).addServe d { x with state := 4 })
    else if a.keep && !kept && s.quotaLots a.ten d < s.keptLots a.ten d + n then
      some ((s.rmFail d a.ten 0x97 0 a.layer a.expert none).addServe d { x with state := 3 })
    else if missing.isEmpty then
      let s := (s.useCopy d a.ten key).updCopy d a.ten key (fun c => { c with kept := c.kept || a.keep })
      let s := if a.isDemand then s.fsat F.RM_HITS_HITS [d] 1 else s
      some (if a.isPrefetch then s else s.addServe d x)
    else if 8 ≤ (s.rm d).fetches.length && !todo.isEmpty then none
    else
      let made := if (s.copyOf d a.ten key).isSome then (true, s) else s.makeCopy d a.ten key e.gen n e.size
      let s := made.2
      if !made.1 then
        if a.isPrefetch then some s
        else if a.isDemand then some (s.serveFailed d a 0x96 0 (some key) false (some e))
        else some ((s.rmFail d a.ten 0x97 0 a.layer a.expert none).addServe d { x with state := 3 })
      else
        let s := (s.useCopy d a.ten key).updCopy d a.ten key (fun c => { c with kept := c.kept || a.keep })
        let s := (if a.isDemand then s.fsat F.RM_HITS_MISSES [d] 1 else s).addServe d x
        some (if todo.isEmpty then s else s.register d a e t key todo)

/-- Reads for a lookup; a failing read is a failure of the entry. -/
def Eng.rmRead (d : Nat) (a : Ask) (key : Option Nat) (addr n : Nat) (e : Option DirEntry := none) : Eng (Option (List Byte)) := do
  let x ← Eng.read (rmIssuer d a.ten) .rd (rmKey d) addr n
  if x.1 = 0 then pure (some x.2)
  else do
    Eng.act (fun s => s.serveFailed d a (if x.1 = St.dataError then 0x92 else 0x93) 0 key (x.1 = St.dataError) e)
    pure none

/-- Looks up an expert (R230): its directory entry, its wanted clusters, its copy, and what must be fetched. -/
def Eng.rmLookup (d : Nat) (a : Ask) (b : Binding) : Eng Unit := do
  let key := b.dir + 32 * a.expert
  let l ← Eng.rmRead d a (some key) key 32
  match l with
  | none => pure ()
  | some l => do
    let e := DirEntry.ofBytes l
    let tooLong : Bool := match a.kind with | .toGa _ off => 0x1000000 < off + e.decK * 4096 | _ => false
    if e.invalid then Eng.act (fun s => s.serveFailed d a 0x91 0 (some key) false (some e))
    else if tooLong then Eng.act (fun s => s.serveFailed d a 0x90 6 (some key) false (some e))
    else do
      let m ← if a.mask = 0 || !e.neuron then pure (some []) else Eng.rmRead d a (some key) a.mask 32 (some e)
      match m with
      | none => pure ()
      | some m => do
        let all := List.range e.clusters
        let w := if a.mask = 0 || !e.neuron then all else all.filter (fun c => ((m[c / 8]?).getD 0).getLsbD (c % 8))
        let t ← if e.hasTable then Eng.rmRead d a (some key) e.table (4 * (e.clusters + 1)) (some e) else pure (some [])
        match t with
        | none => pure ()
        | some t => do
          let t := elems 4 t
          if e.hasTable && e.tableInvalid t then Eng.act (fun s => s.serveFailed d a 0x91 0 (some key) false (some e))
          else do
            let _ ← Eng.op (fun s => match s.serve d a b e t w with
              | some s => (some (0, []), s)
              | none => (none, s))
            pure ()

/-! ### Jobs (R226 to R229, R249) -/

def rmOp (j : EngJob) : Nat := j.op
def rmLayer (j : EngJob) : Nat := bits (j.w 0) 45 30
def rmExpert (j : EngJob) : Nat := bits (j.w 0) 29 16

/-- Whether a job holds a field that must be zero. -/
def rmMbz (j : EngJob) : Bool :=
  let op := j.op
  let w := j.w
  bits (w 0) 15 0 != 0 || (op != 2 && bits (w 0) 59 58 != 0) || (op = 0 && bits (w 0) 45 16 != 0) ||
    ((op = 1 || op = 3) && bits (w 0) 29 16 != 0) || ((op = 0 || op = 4) && w 1 != 0) ||
    (op = 2 && (if (w 0).testBit 58 then 2 ^ 24 ≤ w 1 else w 1 != 0)) || (op != 1 && op != 3 && w 2 != 0) ||
    (op = 3 && bits (w 2) 49 0 != 0) || (if op = 1 then bits (w 3) 49 0 != 0 else w 3 != 0) ||
    [4, 5, 6, 7].any (fun i => w i != 0)

/-- REASON of a rejected job, or 0 (R249). -/
def State.rmReason (s : State) (d : Nat) (j : EngJob) : Nat :=
  let op := j.op
  let b := s.binding d (rmLayer j)
  let toGa := op = 2 && (j.w 0).testBit 58
  let owns := match s.ten j.ten with | some v => v.desc.gaMask.testBit d | none => false
  if 4 < op then 1
  else if rmMbz j then 2
  else if (op = 1 && (j.w 1 % 32 != 0 || j.w 2 % 64 != 0)) || (toGa && j.w 1 % 128 != 0) || (op = 3 && j.w 1 % 2 != 0) then 3
  else if op = 1 && b.isSome then 4
  else if op = 1 && 64 ≤ (s.rm d).binds.length then 5
  else if toGa && !owns then 6
  else if toGa && (j.w 0).testBit 59 then 7
  else if 2 ≤ op && (match b with
      | none => true
      | some b => op != 3 && b.experts ≤ rmExpert j) then 8
  else 0

/-- Rejects a job (R248, R249): it still takes SIG_EN and IRQ. -/
def State.rmReject (s : State) (d : Nat) (j : EngJob) (why : Nat) : State :=
  (s.rmFail d j.ten 0x90 why (rmLayer j) (rmExpert j) none).rmSignal d (j.w 0)

/-- The head job of a manager, when it is of the kind and may run; an undefined OP goes with the BINDs. A job that is rejected
leaves the stream. -/
def State.rmJob (s : State) (d op : Nat) (act : EngJob → State → State) : State :=
  match (s.rm d).items with
  | .job j :: _ =>
    if !s.rmWorks j.ten || (if 4 < j.op then 1 else j.op) != op then s
    else
      let why := s.rmReason d j
      if why != 0 then (s.rmPop d).rmReject d j why else act j s
  | _ => s

/-- BIND (R228). -/
def execBind (d : Dist) (now : Nat) (s : State) : Host.Outcome State Fault Refusal :=
  .next ((s.at now).rmJob d 1 fun j s =>
    let b : Binding := ⟨rmLayer j, j.w 1, j.w 2, bits (j.w 3) 63 50 + 1⟩
    ((s.rmPop d).updRm d (fun x => { x with binds := x.binds ++ [b] })).rmSignal d (j.w 0))

/-- RELEASE (R228). -/
def execReleaseKeep (d : Dist) (now : Nat) (s : State) : Host.Outcome State Fault Refusal :=
  .next ((s.at now).rmJob d 4 fun j s =>
    let s := match s.binding d (rmLayer j) with
      | some b => s.updCopy d j.ten (b.dir + 32 * rmExpert j) (fun c => { c with kept := false })
      | none => s
    (s.rmPop d).rmSignal d (j.w 0))

/-- NOP (R228). -/
def execRmNop (d : Dist) (now : Nat) (s : State) : Host.Outcome State Fault Refusal :=
  .next ((s.at now).rmJob d 0 fun j s => (s.rmPop d).rmSignal d (j.w 0))

/-- Looks up the head item as far as it goes now; it leaves the stream when its lookup has ended. -/
def State.rmHead (s : State) (d : Nat) (a : Ask) (b : Binding) : State :=
  let r := Eng.go (Eng.rmLookup d a b) (s.rm d).log s
  match r.1 with
  | some _ => r.2.2.rmPop d
  | none => r.2.2.updRm d (fun x => { x with log := r.2.1 })

/-- LOAD (R228, R240, R241, R245). -/
def execLoadExpert (d : Dist) (now : Nat) (s : State) : Host.Outcome State Fault Refusal :=
  .next ((s.at now).rmJob d 2 fun j s =>
    let w0 := j.w 0
    let a : Ask := { kind := if w0.testBit 58 then .toGa w0 (j.w 1) else .load w0, ten := j.ten, item := j.words, layer := rmLayer j,
                     expert := rmExpert j, keep := w0.testBit 59 }
    match s.binding d (rmLayer j) with
    | none => s
    | some b => if (s.rm d).failed then ((s.addServe d (a.blank (some b) s.free)).tickFree).rmPop d else s.rmHead d a b)

/-- Completes the PREFETCH jobs that have nothing left to do (R228). -/
def State.preDone (s : State) (d : Nat) : State :=
  let r := s.rm d
  let isOver := fun (p : Nat × Nat × Nat) => !r.pre.any (fun x => x.2.2 == p.1) && !r.serves.any (fun x => x.kind == .prefetch p.1)
  let s := s.updRm d (fun x => { x with preJobs := x.preJobs.filter (fun p => !isOver p) })
  (r.preJobs.filter isOver).foldl (fun s p => s.rmSignal d p.2.2) s

/-- Drops the serves of PREFETCH experts that are complete: they have no placement entry. -/
def State.preServes (s : State) (d : Nat) : State :=
  s.updRm d (fun x => { x with serves := x.serves.filter (fun y => match y.kind with
    | .prefetch _ => !s.serveComplete d y
    | _ => true) })

/-- The list of a PREFETCH job is read and its experts are taken up; an expert at or above E rejects the job. -/
def Eng.preList (d : Nat) (j : EngJob) (b : Binding) : Eng Unit := do
  let a : Ask := { kind := .prefetch 0, ten := j.ten, item := j.words, layer := rmLayer j, expert := 0 }
  let l ← Eng.rmRead d a none (j.w 1) (2 * (bits (j.w 2) 63 50 + 1))
  match l with
  | none => Eng.act (fun s => s.rmSignal d (j.w 0))
  | some l => do
    let es := elems 2 l
    match es.find? (fun e => b.experts ≤ e) with
    | some e => Eng.act (fun s => (s.rmFail d j.ten 0x90 8 (rmLayer j) e none).rmSignal d (j.w 0))
    | none => Eng.act (fun s => s.updRm d (fun x => { x with
        pre := x.pre ++ es.map (fun e => (rmLayer j, e, x.preNext)), preJobs := x.preJobs ++ [(x.preNext, j.ten, j.w 0)],
        preNext := x.preNext + 1 }))

/-- Takes up the next PREFETCH expert, when no demand entry or LOAD waits before it (R237). -/
def State.preNextExpert (s : State) (d : Nat) : State :=
  let r := s.rm d
  let busy := r.items.any (fun i => match i with | .demand _ _ => true | .job j => j.op == 2)
  match r.pre with
  | [] => s
  | (layer, e, job) :: rest =>
    match r.preJobs.find? (fun p => p.1 == job), s.binding d layer with
    | some p, some b =>
      if busy || !s.rmWorks p.2.1 || s.onlyPrefetch p.2.1 then s
      else
        let a : Ask := { kind := .prefetch job, ten := p.2.1, item := [], layer := layer, expert := e }
        let q := Eng.go (Eng.rmLookup d a b) r.preLog s
        match q.1 with
        | some _ => q.2.2.updRm d (fun x => { x with pre := x.pre.drop 1, preLog := [] })
        | none => q.2.2.updRm d (fun x => { x with preLog := q.2.1 })
    | _, _ => s.updRm d (fun x => { x with pre := rest, preLog := [] })

/-- PREFETCH (R228, R237): the head job is taken up, or the next expert of one is looked up. -/
def execPrefetch (d : Dist) (now : Nat) (s : State) : Host.Outcome State Fault Refusal :=
  let s := s.at now
  let head := match (s.rm d).items with | .job j :: _ => j.op == 3 | _ => false
  let s := if !head then s.preNextExpert d
    else s.rmJob d 3 fun j s =>
      if (s.rm d).failed then (s.rmPop d).rmSignal d (j.w 0)
      else match s.binding d (rmLayer j) with
        | none => s
        | some b =>
          let r := Eng.go (Eng.preList d j b) (s.rm d).log s
          match r.1 with
          | some _ => r.2.2.rmPop d
          | none => r.2.2.updRm d (fun x => { x with log := r.2.1 })
  .next ((s.preServes d).preDone d)

/-- DEMAND_ENTRY (R230): the head entry of the demand stream. -/
def execDemandEntry (d : Dist) (now : Nat) (s : State) : Host.Outcome State Fault Refusal :=
  let s := s.at now
  match (s.rm d).items with
  | .demand ten w :: _ =>
    if !s.rmWorks ten then .next s
    else
      let w0 := (w[0]?).getD 0
      let w3 := (w[3]?).getD 0
      let a : Ask := { kind := .demand (bits w0 32 23), ten := ten, item := w, layer := bits w3 63 48, expert := bits w0 63 50,
                       mask := (w[2]?).getD 0 }
      let n := (s.rm d).items.length
      let s := if (s.rm d).failed then ((s.addServe d (a.blank (s.binding d a.layer) s.free)).tickFree).rmPop d
        else match s.binding d a.layer with
          | none => (s.serveFailed d a 0x91 0 none false).rmPop d
          | some b => if b.experts ≤ a.expert then (s.serveFailed d a 0x91 0 none false).rmPop d else s.rmHead d a b
      .next (if (s.rm d).items.length < n then s.fsat F.RM_STATUS_ENTRIES [d] 1 else s)
  | _ => .next s

/-! ### Fetches (R235 to R237) -/

/-- Changes the fetch of a key. -/
def State.updFetch (s : State) (d ten key : Nat) (f : Fetch → Fetch) : State :=
  s.updRm d (fun x => { x with fetches := x.fetches.map (fun g => if g.ten = ten && g.key = key then f g else g) })

def State.fetchOf (s : State) (d ten key : Nat) : Option Fetch := (s.rm d).fetches.find? (fun f => f.ten == ten && f.key == key)

/-- A fetch that has nothing left to read ends; the last one ends the span of RM_ACTIVE_CCLK. -/
def State.fetchEnd (s : State) (d ten key : Nat) : State :=
  match s.fetchOf d ten key with
  | none => s
  | some f =>
    if !(f.ranges.isEmpty && f.reqs.isEmpty && f.parts.isEmpty) then s
    else
      let i := (s.rm d).fetches.findIdx (fun g => g.ten == ten && g.key == key)
      let s := if 1 < (s.rm d).fetches.length then s else s.fetchesIdle d
      let s := s.updRm d (fun x => { x with fetches := x.fetches.eraseIdx i, turn := if i < x.turn then x.turn - 1 else x.turn })
      if f.leads then { s with merge := s.merge.map (fun m => if m.ten = ten && m.key = key then { m with ended := true } else m) } else s

/-- The layer and expert of the entry that a fetch belongs to. -/
def State.fetchItem (s : State) (d key : Nat) : Nat × Nat :=
  match (s.rm d).serves.find? (fun x => x.key == key) with
  | some x => (x.layer, x.expert)
  | none => (0, 0)

/-- A range of a fetch has been read whole: it is decoded and delivered (R234, R235). -/
def State.rangeRead (s : State) (d : Nat) (f : Fetch) (c : Nat) (l : List Byte) : State :=
  let i := s.fetchItem d f.key
  let dec := match f.thatch with
    | some (fmt, exact_) => thatchDecode fmt f.size exact_ l
    | none => some l
  let s := if f.thatch.isSome then { s with thatchRest := s.thatchRest + l.length } else s
  match dec with
  | none => s.rmFail d f.ten 0x94 0 i.1 i.2 (some f.key)
  | some x => (if f.thatch.isSome then { s with thatchDec := s.thatchDec + x.length } else s).deliverCluster d f c x

/-- The bytes of a range whose pieces, by their places, have all been obtained. -/
def wholeRange (n : Nat) (l : List (Nat × List Byte)) : Option (List Byte) :=
  if (l.map (fun p => p.2.length)).sum = n then
    some ((List.range (n / 4096 + 2)).foldl (fun acc _ =>
      match l.find? (fun p => p.1 == acc.length) with | some p => acc ++ p.2 | none => acc) [])
  else none

/-- An outstanding request goes as far as it goes now: its bytes join their range, which is delivered when it is whole; a read that fails
stops the manager. -/
def State.fetchTake (s : State) (d ten key name : Nat) : State :=
  match s.fetchOf d ten key with
  | none => s
  | some f => match f.reqs.find? (fun q => q.name == name) with
    | none => s
    | some q =>
      if !s.rmWorks ten then s
      else
        let r := Eng.go (Eng.readOne (rmIssuer d ten) q.name q.addr q.len true) q.log s
        match r.1 with
        | none => r.2.2.updFetch d ten key (fun g => { g with
            reqs := g.reqs.map (fun x => if x.name = name then { x with log := r.2.1 } else x) })
        | some (st, l) =>
          let s := r.2.2.updFetch d ten key (fun g => { g with
            reqs := g.reqs.filter (fun x => x.name != name),
            parts := g.parts.map (fun p => if p.1.cluster = q.cluster then (p.1, p.2 ++ [(q.off, l)]) else p) })
          if st != 0 then
            let i := s.fetchItem d key
            s.rmFail d ten (if st = St.dataError then 0x92 else 0x93) 0 i.1 i.2 (some key) (st = St.dataError)
          else match (s.fetchOf d ten key).bind (fun g => g.parts.find? (fun p => p.1.cluster == q.cluster)) with
            | none => s
            | some p => match wholeRange p.1.len p.2 with
              | none => s
              | some all =>
                ((s.updFetch d ten key (fun g => { g with parts := g.parts.filter (fun p => p.1.cluster != q.cluster) })).rangeRead
                  d f q.cluster all).fetchEnd d ten key

/-- Takes in the responses that have come. -/
def State.fetchLand (s : State) (d : Nat) : State :=
  ((s.rm d).fetches.flatMap (fun f => f.reqs.map (fun q => (f.ten, f.key, q.name)))).foldl
    (fun s p => s.fetchTake d p.1 p.2.1 p.2.2) s

/-- The place of the fetch that issues the next request (R237): round-robin over those that have one to issue. No PREFETCH request
issues once only PREFETCH reads keep the step (R254). -/
def State.fetchDue (s : State) (d : Nat) : Option Nat :=
  let r := s.rm d
  let n := r.fetches.length
  ((List.range n).map (fun i => (r.turn + i) % n)).find? (fun i => match r.fetches[i]? with
    | some f => !f.ranges.isEmpty && !(f.prefetch && s.onlyPrefetch f.ten)
    | none => false)

/-- The next request of a fetch: from the start of a range or a 4 KiB boundary of the resting address to the next one or the end of the
range (R236). -/
def Fetch.nextReq (f : Fetch) (d : Nat) (r : RestRange) : FetchReq :=
  let a := r.addr + f.asked
  { name := fetchKey d f.key + 2 ^ 128 * (f.sent + 1), cluster := r.cluster, off := f.asked, addr := a,
    len := min (r.len - f.asked) (4096 - a % 4096) }

/-- A fetch issues its next request, which goes as far as it goes at once; a range of no bytes is whole without one. -/
def State.fetchIssue (s : State) (d i : Nat) : State :=
  match (s.rm d).fetches[i]? with
  | none => s
  | some f => match f.ranges with
    | [] => s
    | r :: rest =>
      let s := s.updRm d (fun x => { x with turn := i + 1 })
      if r.len = 0 then ((s.updFetch d f.ten f.key (fun g => { g with ranges := rest })).rangeRead d f r.cluster []).fetchEnd d f.ten f.key
      else
        let q := f.nextReq d r
        let whole := f.asked + q.len = r.len
        (s.updFetch d f.ten f.key (fun g => { g with
          ranges := if whole then rest else g.ranges, asked := if whole then 0 else f.asked + q.len, reqs := g.reqs ++ [q],
          parts := if f.asked = 0 then g.parts ++ [(r, [])] else g.parts, sent := g.sent + 1 })).fetchTake d f.ten f.key q.name

/-- FETCH_REQUEST_ISSUE (R236, R237): the responses that have come are taken in; then fetch number `f` issues its next request when it is
its turn and fewer than 1,024 are outstanding. -/
def execFetchRequestIssue (d : Dist) (f now : Nat) (s : State) : Host.Outcome State Fault Refusal :=
  let s := (s.at now).fetchLand d
  match (s.rm d).fetches[f]? with
  | none => .next s
  | some x =>
    if !s.rmWorks x.ten || s.fetchDue d != some f || 1024 ≤ ((s.rm d).fetches.flatMap Fetch.reqs).length then .next s
    else .next (s.fetchIssue d f)

/-! ### Placement and arrival (R238, R198) -/

/-- The words of a placement entry. -/
def State.placeWords (s : State) (d : Nat) (x : Serve) : List Nat :=
  let c := s.copyOf d x.ten x.key
  let addr := if x.state = 1 || x.state = 3 then
      (match c with
      | some c => squareBase d + c.first * 65536
      | none => if x.state = 3 then Config.placeOpen s.free 2 % 2 ^ 64 else 0)
    else 0
  let step := match s.run x.ten with | some r => r.step | none => 0
  let present := match c with | some c => c.present | none => []
  let word := fun i => (present.filter (fun k => k / 64 == i)).foldl (fun a k => a + 2 ^ (k % 64)) 0
  [addr, x.state * 2 ^ 56 + x.source * 2 ^ 52 + x.decK * 2 ^ 32 + step % 2 ^ 32, x.size, 0, word 0, word 1, word 2, word 3]

/-- Writes the placement entry of a serve that is complete (R238). -/
def State.placeServe (s : State) (d i : Nat) : State :=
  match (s.rm d).serves[i]? with
  | none => s
  | some x =>
    let upd := fun (s : State) (g : Serve → Serve) => s.updRm d (fun r => { r with serves := r.serves.modify i g })
    if x.placed || !s.rmWorks x.ten || !s.serveComplete d x then s
    else match x.place with
      | none => upd s (fun x => { x with placed := true })
      | some a =>
        let m : Eng Nat := do
          let l ← Eng.op (fun s => (some (0, (s.placeWords d x).flatMap (leBytes 8)), s))
          Eng.write (rmIssuer d x.ten) .wr (rmKey d) a l.2
        let q := Eng.go m x.log s
        match q.1 with
        | none => upd q.2.2 (fun x => { x with log := q.2.1 })
        | some st =>
          let s := (upd q.2.2 (fun x => { x with placed := true, log := [] })).tickFree
          if st != 0 then s.rmFail d x.ten 0x93 0 x.layer x.expert (some x.key) else s

/-- Whether an earlier demand entry on the same counter has not raised it (R198). -/
def raiseBlocked (l : List Serve) (i evc : Nat) : Bool := (l.take i).any (fun y => y.kind == .demand evc && !y.raised)

/-- Raises what may be raised: the arrival counter of a placed demand entry, in demand order, or the signal of a LOAD. -/
def State.raiseServe (s : State) (d i : Nat) : State :=
  match (s.rm d).serves[i]? with
  | none => s
  | some x =>
    let done := fun (s : State) => s.updRm d (fun r => { r with serves := r.serves.modify i (fun x => { x with raised := true }) })
    if !x.placed || x.raised then s
    else match x.kind with
      | .demand evc => if raiseBlocked (s.rm d).serves i evc then s else (done s).evcAdd d evc 1
      | .load w0 => (done s).rmSignal d w0
      | .toGa w0 _ => (done s).rmSignal d w0
      | .prefetch _ => s

/-- ARRIVAL_RAISE (R198, R230): the responses that have come are taken in, the placement entries of the complete entries are written,
and their counters raised in order. -/
def execArrivalRaise (d : Dist) (now : Nat) (s : State) : Host.Outcome State Fault Refusal :=
  let s := (s.at now).fetchLand d
  let n := List.range (s.rm d).serves.length
  let s := n.foldl (fun s i => s.placeServe d i) s
  let s := n.foldl (fun s i => s.raiseServe d i) s
  let s := s.updRm d (fun r => { r with serves := r.serves.filter (fun x => !x.raised) })
  .next ((s.preServes d).preDone d)

/-! ### Suspension (R252) -/

/-- An entry or job that is looked up again on resume. -/
def Serve.again (x : Serve) : Option RmItem :=
  match x.kind with
  | .demand _ => some (.demand x.ten x.item)
  | .prefetch _ => none
  | _ => some (.job { ten := x.ten, words := x.item })

/-- A Residency Manager at a suspend point: it stops at once, and looks up again on resume every entry that it has not raised. -/
def RmSt.suspend (r : RmSt) : RmSt :=
  let open_ := r.serves.filter (fun x => !x.raised)
  let pre := open_.filterMap (fun x => match x.kind with | .prefetch j => some (x.layer, x.expert, j) | _ => none)
  { r with items := open_.filterMap Serve.again ++ r.items, serves := [], fetches := [], turn := 0, log := [], pre := pre ++ r.pre, preLog := [] }

end Sys2Proof.Machine
end

