-- ==== Sys2Proof/Machine/RoutingEngine.lean ====
section
/-! DEFINITION. The Routing Engines (R180 to R218): starting, failing and completing jobs, ROUTE jobs, and the EXPERT entries. -/

namespace Sys2Proof.Machine

/-! ### The running job -/

def State.re (s : State) (d : Nat) : ReSt := (s.dist d).re

def State.updRe (s : State) (d : Nat) (f : ReSt → ReSt) : State := s.updDist d (fun x => { x with re := f x.re })

/-- Changes the running job. -/
def State.updReRun (s : State) (d : Nat) (f : ReRun → ReRun) : State :=
  s.updRe d (fun x => { x with running := x.running.map f })

/-- Whether a Routing Engine may work for a Tenancy: the step is under way and is not being suspended (R206). -/
def State.reWorks (s : State) (ten : Nat) : Bool := s.stepRuns ten && s.tick.suspending.isNone

/-- cclk in a span of device time at the clock in force (R68). -/
def State.cclk (s : State) (ns : Nat) : Nat := ns * 18 * (16 - s.fget F.PWR_STATUS_STEP []) / 160

def State.stepping (s : State) : Nat := s.fuses.stepping

/-- A failure of the running job: it is captured and logged, and the job ends (R214, R215). -/
def State.reFail (s : State) (d code reason status detail : Nat) (dataErr : Bool := false) : State :=
  match (s.re d).running with
  | none => s
  | some r =>
    ((s.updReRun d (fun r => { r with status := status, reason := reason, ended := true, phase := 9 })).reErr d code reason detail).distEv
      code d 0 r.job.ten detail dataErr

/-- The words of the engine's SRAM that a running job works in are read: the corrected ones are mended and counted, and an
uncorrectable one fails the job, which replays the step (R215). -/
def State.reScrub (s : State) (d : Nat) : State :=
  match (s.re d).running with
  | none => s
  | some r =>
    let a := reBase d + r.work.1
    let weak := s.weakIn 8 a r.work.2
    let s := if weak.isEmpty then s else (s.mend weak).eccCount (.resram d) weak.length
    if r.ended || (s.badIn 8 a r.work.2).isEmpty then s else s.reFail d 0x82 0 0x11 0

/-- Runs a program of the running job from its record, when the engine may work and the job is in one of the phases. -/
def State.reGo (s : State) (d : Nat) (op : Nat) (phases : List Nat) (m : ReRun → Eng Unit) : State :=
  match (s.re d).running with
  | none => s
  | some r =>
    if !s.reWorks r.job.ten || r.ended || r.job.op != op || !phases.contains r.phase then s
    else
      let s := s.reScrub d
      match (s.re d).running with
      | none => s
      | some r =>
        if r.ended then s
        else
          let x := Eng.go (m r) r.log s
          x.2.2.updReRun d (fun r => { r with log := x.2.1 })

/-- The name of a job's requests in a memory shaper. -/
def reKey (d : Nat) : Nat := 2 ^ 51 + d

/-- Reads for the running job; a failure ends the job. -/
def Eng.reRead (d ten code a n detail : Nat) : Eng (Option (List Byte)) := do
  let x ← Eng.read (reIssuer d ten) .rd (reKey d) a n
  if x.1 = 0 then pure (some x.2)
  else do
    Eng.act (fun s => s.reFail d code 0 0x11 detail (x.1 = St.dataError))
    pure none

/-- The number of the free value that the running job's outputs have become, plus 1; 0 while its work area is its own (R184). -/
def State.spoilOf (s : State) (d : Nat) : Nat := match (s.re d).running with | some r => (match r.spoil with | some k => k + 1 | none => 0) | none => 0

/-- The bytes that a job writes at an address. -/
def spoiled (k a : Nat) (l : List Byte) : List Byte :=
  if k = 0 then l else (List.range l.length).map (fun i => Config.spoilByte (k - 1) (a + i))

/-- Writes for the running job; a failure ends the job. -/
def Eng.reWrite (d ten a : Nat) (l : List Byte) : Eng Bool := do
  let k ← Eng.num (fun s => s.spoilOf d)
  let st ← Eng.write (reIssuer d ten) .wr (reKey d) a (spoiled k a l)
  if st = 0 then pure true
  else do
    Eng.act (fun s => s.reFail d 0x84 0 0x12 0)
    pure false

/-- Bytes of the work area of a job (R184). -/
def workSize (n : Nat) : Nat := 4096 * cdiv (n + 4096) 4096

/-- Whether a work area breaks R184. -/
def workBad (off n : Nat) : Bool := off % 4096 != 0 || 0x800000 < off + workSize n

/-- The content of a work area while and after a job uses it is not stated: free bytes. -/
def State.useWork (s : State) (d off n : Nat) : State :=
  let k := s.free
  ((s.eccWrite 8 (reBase d + off) ((List.range (workSize n)).map (Config.workByte k))).2.tickFree).updReRun d
    (fun r => { r with work := (off, workSize n) })

/-! ### Starting a job -/

/-- Starts the head job of an engine, when none runs and the head is of the kind; an undefined OP starts with the ROUTE jobs. -/
def State.reStart (s : State) (d op : Nat) (reason : State → EngJob → Nat) (use : State → EngJob → State) : State :=
  match (s.re d).running, (s.re d).queue with
  | none, j :: rest =>
    if !s.reWorks j.ten || (if 3 < j.op then 1 else j.op) != op then s
    else
      let c := s.ridge.cycles
      let r : ReRun := { job := j, index := s.fget F.RE_STATUS_JOBS [d], startCyc := c, selStart := c, selEnd := c }
      let s := s.updRe d (fun x => { x with queue := rest, running := some r, routes := if j.op = 1 then x.routes + 1 else x.routes })
      let why := reason s j
      if why != 0 then s.reFail d 0x80 why 0x10 0 else use s j
  | _, _ => s

/-! ### ROUTE -/

/-- The must-be-zero fields of a ROUTE descriptor are not all zero. -/
def routeMbz (j : EngJob) : Bool :=
  bits (j.w 0) 29 24 != 0 || bits (j.w 0) 7 0 != 0 || bits (j.w 7) 7 0 != 0 || bits (j.w 11) 21 0 != 0 || (j.w 15).testBit 0

/-- Whether a counter of the job lies within its arrival counters. -/
def counterClash (j : EngJob) : Bool :=
  [RouteJob.doneEvc j, RouteJob.freeEvc j, RouteJob.readyEvc j, RouteJob.jobEvc j].any
    (fun c => RouteJob.evcBase j ≤ c && c < RouteJob.evcBase j + RouteJob.evcSpan j)

/-- Whether logical Blocks `lo` to `hi` are all assigned. -/
def Ten.assigned (v : Ten) (lo hi : Nat) : Bool := (List.range' lo (hi + 1 - lo)).all (fun l => (v.phys l).isSome)

/-- The case of R214 that a ROUTE descriptor meets first, or 0. -/
def State.routeReason (s : State) (j : EngJob) : Nat :=
  let e := RouteJob.experts j
  let k := RouteJob.k j
  let g := RouteJob.groups j
  let t := RouteJob.tokens j
  if j.op != 1 || RouteJob.act j = 3 || RouteJob.norm j = 3 || RouteJob.policy j = 3 then 1
  else if routeMbz j then 2
  else if e < k || 65536 < RouteJob.first j + t || e % g != 0 || g < RouteJob.topg j || RouteJob.topg j * e / g < k then 3
  else if j.w 2 % 64 != 0 || RouteJob.stride j % 64 != 0 || RouteJob.stride j < e * RouteJob.esz j ||
      (RouteJob.biasEn j && j.w 5 % 64 != 0) || j.w 8 % 32 != 0 || j.w 9 % 16 != 0 || j.w 13 % 8 != 0 || j.w 14 % 64 != 0 then 4
  else if workBad (bits (j.w 12) 31 0) (6 * t * k + 16 * e) then 5
  else if RouteJob.evcSpan j = 0 || 1024 < RouteJob.evcBase j + RouteJob.evcSpan j || counterClash j then 6
  else
    let bad := match s.ten j.ten with
      | none => true
      | some v =>
        let lo := RouteJob.expFirst j
        let n := RouteJob.expCount j
        RouteJob.tokPer j = 0 || n = 0 || 1024 < lo + n || RouteJob.minTokens j = 0 || !v.assigned lo (lo + n - 1) ||
          !v.assigned (RouteJob.tokFirst j) (RouteJob.tokFirst j + (t - 1) / RouteJob.tokPer j)
    if bad then 7
    else if RouteJob.wrap j != 0 && (RouteJob.wrap j % RouteJob.chunk j != 0 || RouteJob.wrap j < RouteJob.chunk j) then 9
    else if 1 < g && s.stepping = 0xA0 then 10
    else 0

/-- Loads the biases and the exclusion mask of a ROUTE job, whose failing reads count as score reads. -/
def Eng.routeLoad (d : Nat) (r : ReRun) : Eng Unit := do
  let j := r.job
  let get := fun (on : Bool) a n => if on then Eng.reRead d j.ten 0x81 a n 0 else pure (some [])
  let b ← get (RouteJob.biasEn j) (j.w 5) (4 * RouteJob.experts j)
  match b with
  | none => pure ()
  | some b => do
    let m ← get (RouteJob.maskEn j) (j.w 6) ((RouteJob.experts j + 7) / 8)
    match m with
    | none => pure ()
    | some m => Eng.act (fun s => s.updReRun d (fun r => { r with rows := [b, m], phase := 2, selStart := s.ridge.cycles }))

/-- Reads and selects one job token (R186 to R190). -/
def Eng.routeToken (d : Nat) (r : ReRun) : Eng Unit := do
  let j := r.job
  let i := r.sel.length
  let x ← Eng.reRead d j.ten 0x81 (RouteJob.rowAddr j i) (RouteJob.experts j * RouteJob.esz j) i
  match x with
  | none => pure ()
  | some l =>
    let bias := elems 4 (r.rows.headD [])
    let mask := (r.rows[1]?).getD []
    let q := selectToken j (scoresOf j l) bias (fun e => ((mask[e / 8]?).getD 0).getLsbD (e % 8))
    Eng.act (fun s => s.updReRun d (fun r => { r with sel := r.sel ++ [q.1], bad := r.bad + q.2 }))

/-- Whether the scores of a chunk are ready (R186). -/
def State.chunkReady (s : State) (d : Nat) (j : EngJob) (c : Nat) : Bool :=
  !RouteJob.readyEn j || bits (j.w 4) 63 32 + c + 1 ≤ s.fget F.EVC_VALUE [d, RouteJob.readyEvc j]

/-- One token of the chunk in progress, when its chunk is `c`; after the chunk's last token FREE_EVC is raised, and after the
job's last token selection ends. -/
def State.chunkToken (s : State) (d c : Nat) : State :=
  match (s.re d).running with
  | none => s
  | some r =>
    let j := r.job
    if r.phase != 2 || r.sel.length = RouteJob.tokens j || r.sel.length / RouteJob.chunk j != c || !s.chunkReady d j c then s
    else
      let s := s.reGo d 1 [2] (Eng.routeToken d)
      match (s.re d).running with
      | none => s
      | some q =>
        if q.sel.length = r.sel.length then s
        else
          let last := q.sel.length = RouteJob.tokens j
          let s := if (last || q.sel.length % RouteJob.chunk j = 0) && RouteJob.freeEn j then s.evcAdd d (RouteJob.freeEvc j) 1 else s
          if last then s.updReRun d (fun r => { r with phase := 3, selEnd := s.ridge.cycles }) else s

/-- cclk that remain before the deadline less the margin (R203). -/
def State.remainingCclk (s : State) (d ten : Nat) : Int :=
  let budget := match s.run ten with | some r => r.budget | none => 0
  let ns : Int := ((s.deadline budget : Nat) : Int) - ((KMap.get 10 s.margin d * 1000 : Nat) : Int) - ((s.now : Nat) : Int)
  if 0 ≤ ns then ((s.cclk ns.toNat : Nat) : Int) else -((s.cclk (-ns).toNat : Nat) : Int)

/-- A Batten that the engine cannot read or write abandons the step (R417, R522). -/
def State.battenLost (s : State) (ten : Nat) : State :=
  (s.recordEvent { code := 0xD3, ten := ten } false (.abandon 3)).endStep ten (.abandon 3)

/-- STEP_OVERRUN_WARN (R203): it stands in the record, in RE_STATUS, at the interrupts and in the log. -/
def State.overrunWarn (s : State) (d ten : Nat) : State :=
  let s := (s.updReRun d (fun r => { r with warn := true })).fset F.RE_STATUS_WARN [d] 1
  let s := (s.srcEvent (.priv d 4)).srcEvent (.shared (320 + d))
  let r := match s.run ten with | some _ => s.updRun ten (fun r => { r with warn := true }) | none => s
  r.distEv 0x83 d 0 ten

/-- The LIMIT of a ROUTE job: the one that the Batten records, or a new prediction, which is recorded (R203, R204). WARN_EN is ignored
under FIXED_ORDER. -/
def State.routeLimit (s : State) (d : Nat) (j : EngJob) (maxBlock : Nat) : Nat × State :=
  let idx := (s.re d).routes - 1
  match s.ten j.ten with
  | none => (0xFFFFFFFF, s)
  | some v =>
    if 256 ≤ idx then (0xFFFFFFFF, s)
    else
      let base := v.battenAddr (match v.run with | some r => r.step | none => 0)
      let q := s.busWord deviceIssuer .rd (base + 56)
      let s := q.2.2
      let n := bits q.2.1 (9 * d + 8) (9 * d)
      if q.1 != 0 then (0xFFFFFFFF, s.battenLost j.ten)
      else if idx < n then
        let x := s.busRead deviceIssuer .rd (base + 0x1000 + 1024 * d + 4 * idx) 4
        let lim := leNat x.2.1
        if x.1 != 0 then (0xFFFFFFFF, x.2.2.battenLost j.ten)
        else (lim, if RouteJob.warnEn j && lim != 0xFFFFFFFF then x.2.2.overrunWarn d j.ten else x.2.2)
      else
        let lim := if RouteJob.warnEn j && !v.desc.fixedOrder then predictLimit j maxBlock (s.remainingCclk d j.ten) else none
        let s := if lim.isSome then s.overrunWarn d j.ten else s
        let lim := lim.getD 0xFFFFFFFF
        let a := s.busWrite deviceIssuer .wr (base + 0x1000 + 1024 * d + 4 * idx) (leBytes 4 lim)
        let b := a.2.busWrite deviceIssuer .wr (base + 56) (leBytes 8 (q.2.1 - n * 2 ^ (9 * d) + (idx + 1) * 2 ^ (9 * d)))
        if a.1 != 0 || b.1 != 0 then (lim, b.2.battenLost j.ten) else (lim, b.2)

/-- The counts of a job whose tokens are settled: residual tokens and the deferred list (R202). -/
def State.routeCounts (s : State) (d : Nat) (j : EngJob) (x : Settled) (limit maxBlock : Nat) : State :=
  let deferredAt := fun i => x.deferred.find? (fun p => p.1 == i)
  let residual := (x.toks.zipIdx.filter (fun p => !p.1.any Asg.kept && (deferredAt p.2).isNone)).length
  let list := (List.range (RouteJob.tokens j)).filterMap fun i =>
    (deferredAt i).map (fun p => p.2 * 65536 + (RouteJob.first j + i) % 65536)
  let s := s.updReRun d (fun r => { r with
    dropped := x.dropped, moved := x.moved, residual := residual, limit := limit, maxBlock := maxBlock, deferred := list })
  (s.fsat F.RE_COUNTS_DROPPED [d] x.dropped).fsat F.RE_COUNTS_DEFERRED [d] list.length

/-- Passes a demand entry to the District's Residency Manager (R199, R226). -/
def State.publish (s : State) (d ten : Nat) (words : List Nat) : State :=
  s.updRm d (fun r => r.addDemand s.now ten words)

/-- An expert of the plan: its number, its kept assignments, its shares, the index of its first dispatch entry and the SEQ of its
first EXPERT entry. -/
structure Planned where
  expert : Nat
  count : Nat
  shares : List (Nat × Nat)
  disp : Nat
  seq : Nat
  deriving DecidableEq, Repr

/-- The plan, with indices. -/
def planOf (j : EngJob) (pl : List (Nat × Nat × List (Nat × Nat))) : List Planned :=
  (pl.foldl (fun (acc : Nat × Nat × List Planned) p =>
    (acc.1 + p.2.1, acc.2.1 + p.2.2.length, acc.2.2 ++ [⟨p.1, p.2.1, p.2.2, acc.1, acc.2.1⟩]))
    (bits (j.w 10) 63 32, bits (j.w 10) 31 0, [])).2.2

/-- Writes the demand list, passing each entry when PUBLISH is 1 (R197, R199); false when a write has failed. -/
def Eng.demandList (d : Nat) (j : EngJob) (plan : List Planned) : Eng Bool :=
  plan.zipIdx.foldlM (fun (ok : Bool) p => do
    if !ok then pure false
    else do
      let w := demandEntry j p.2 p.1.expert p.1.count p.1.shares.length p.1.disp p.1.seq
      let good ← Eng.reWrite d j.ten (j.w 8 + 32 * p.2) (w.flatMap (leBytes 8))
      if !good then pure false
      else do
        Eng.act (fun s => s.updReRun d (fun r => { r with count := r.count + 1 }))
        let k ← Eng.num (fun s => s.spoilOf d)
        let w := elems 8 (spoiled k (j.w 8 + 32 * p.2) (w.flatMap (leBytes 8)))
        if RouteJob.publish j then Eng.act (fun s => s.publish d j.ten w) else pure ()
        pure true) true

/-- The EXPERT entries of an expert (R196). -/
def expertEntries (j : EngJob) (d idx : Nat) (p : Planned) : List CqEntry :=
  (p.shares.zipIdx.foldl (fun (acc : Nat × List CqEntry) q =>
    (acc.1 + q.1.2, acc.2 ++ [expertEntry j idx d p.expert q.1.1 q.1.2 acc.1 (p.seq + q.2)])) (p.disp, [])).2

/-- An EXPERT entry as the job makes it: free but for its kind and its Tenancy once the work area is corrupt (R184). -/
def spoiledEntry (k i : Nat) (e : CqEntry) : CqEntry :=
  if k = 0 then e
  else
    let f := fun n w => Config.spoilField (k - 1) (4 * i + n) % 2 ^ w
    { e with w0 := 2 * 2 ^ 60 + f 0 58 / 2 ^ 48 * 2 ^ 48 + bits e.w0 47 42 * 2 ^ 42 + f 0 58 % 2 ^ 32,
             w1 := f 1 64, w2 := f 2 64, w3 := f 3 64 }

/-- Writes the dispatch entries of each expert, and then holds its EXPERT entries for CQ0 (R196, R200). -/
def Eng.dispatchList (d : Nat) (j : EngJob) (toks : List (List Asg)) (plan : List Planned) : Eng Bool :=
  plan.zipIdx.foldlM (fun (ok : Bool) p => do
    if !ok then pure false
    else do
      let l := (tokensOf toks p.1.expert).zipIdx.flatMap fun q => (dispatchEntry j q.1.1 q.1.2 q.2).flatMap (leBytes 8)
      let good ← Eng.reWrite d j.ten (j.w 9 + 16 * p.1.disp) l
      if !good then pure false
      else do
        let k ← Eng.num (fun s => s.spoilOf d)
        let es := (expertEntries j d p.2 p.1).zipIdx.map (fun q => spoiledEntry k (q.2 + p.1.seq) q.1)
        Eng.act (fun s =>
          let s := s.updReRun d (fun r => { r with kept := r.kept + p.1.count, entries := r.entries + es.length })
          s.updRe d (fun x => { x with held := x.held ++ es }))
        pure true) true

/-- Capacity, prediction, placement and the lists of a ROUTE job whose tokens are selected. -/
def Eng.routePlan (d : Nat) (r : ReRun) : Eng Unit := do
  let j := r.job
  let x := settle j r.sel
  let bpe ← Eng.num (fun s => match s.ten j.ten with | some v => v.desc.blocksPerExpert | none => 1)
  let top := fun y => (blockLoads (placement j bpe (demandOrder j (keptCounts y)))).foldl (fun m p => max m p.2) 0
  let lim ← Eng.op (fun s => let q := s.routeLimit d j (top x.toks); (some (q.1, []), q.2))
  let y := if lim.1 = 0xFFFFFFFF then x else deferForTime j bpe lim.1 x
  Eng.act (fun s => s.routeCounts d j y lim.1 (top y.toks))
  let plan := planOf j (placement j bpe (demandOrder j (keptCounts y.toks)))
  let ok ← Eng.demandList d j plan
  if !ok then pure ()
  else do
    Eng.act (fun s => s.updReRun d (fun r => { r with phase := 5 }))
    let ok ← Eng.dispatchList d j y.toks plan
    if !ok then pure () else Eng.act (fun s => s.updReRun d (fun r => { r with phase := 9, ended := true }))

/-- ROUTE (R185): the head job starts, is checked and loads its lists; once every token is selected it settles capacity,
predicts, and writes its lists. -/
def execRoute (d : Dist) (now : Nat) (s : State) : Host.Outcome State Fault Refusal :=
  let s := s.at now
  let s := s.reStart d 1 (fun s j => s.routeReason j)
    (fun s j => s.useWork d (bits (j.w 12) 31 0) (6 * RouteJob.tokens j * RouteJob.k j + 16 * RouteJob.experts j))
  let s := s.reGo d 1 [1] (Eng.routeLoad d)
  .next (s.reGo d 1 [3, 5] (fun r => Eng.routePlan d r))

/-- ROUTE_CHUNK_SELECT (R186): the tokens of the next chunk, once it is ready. -/
def execRouteChunkSelect (d : Dist) (now : Nat) (s : State) : Host.Outcome State Fault Refusal :=
  let s := s.at now
  match (s.re d).running with
  | none => .next s
  | some r =>
    let c := r.sel.length / RouteJob.chunk r.job
    if r.job.op != 1 then .next s
    else .next ((List.range (RouteJob.chunk r.job)).foldl (fun s _ => s.chunkToken d c) s)

/-- EXPERT_ENTRY_WRITE (R196): one held EXPERT entry enters CQ0 when it has room. -/
def execExpertEntryWrite (d : Dist) (now : Nat) (s : State) : Host.Outcome State Fault Refusal :=
  let s := s.at now
  match (s.re d).held with
  | [] => .next s
  | e :: rest =>
    let q := KMap.get [] (s.dist d).cq 0
    if 1024 ≤ q.length then .next s
    else
      let s := s.updRe d (fun x => { x with held := rest })
      .next (s.updDist d (fun x => { x with cq := KMap.set [] x.cq 0 (q ++ [e]) }))

/-! ### NOP and completion -/

/-- Whether a NOP holds a field that must be zero (R182). -/
def reNopMbz (j : EngJob) : Bool :=
  bits (j.w 0) 59 0 != 0 || (List.range' 1 14).any (fun i => j.w i != 0) || bits (j.w 15) 63 24 != 0 || bits (j.w 15) 11 0 != 0

/-- RE_NOP (R180): a NOP starts; its counter and interrupt follow at its completion. -/
def execReNop (d : Dist) (now : Nat) (s : State) : Host.Outcome State Fault Refusal :=
  let s := (s.at now).reStart d 0 (fun _ j => if reNopMbz j then 2 else 0) (fun s _ => s)
  .next (match (s.re d).running with
    | some r => if r.job.op = 0 then s.updReRun d (fun r => { r with phase := 9, ended := true }) else s
    | none => s)

/-- The result record of a job (R202, R209, R213). -/
def ReRun.record (r : ReRun) (sel total : Nat) : List Nat :=
  let w0 := r.status * 2 ^ 56 + r.warn.toNat * 2 ^ 55 + r.reason * 2 ^ 32 + r.count % 2 ^ 32
  match r.job.op with
  | 2 => [w0, bits (r.job.w 2) 63 32 * 2 ^ 32 + r.failed, r.firstFailed, r.dropped * 2 ^ 32, 0, 0, total % 2 ^ 32, 0]
  | 3 => [w0, r.kept % 2 ^ 32, 0, 0, 0, 0, 0, 0]
  | _ =>
    [w0, r.kept % 2 ^ 32 * 2 ^ 32 + r.entries % 2 ^ 32, r.dropped % 2 ^ 32 * 2 ^ 32 + r.moved % 2 ^ 32,
      r.deferred.length * 2 ^ 32 + r.residual % 2 ^ 32, r.bad % 2 ^ 32 * 2 ^ 32 + r.limit % 2 ^ 32,
      r.maxBlock % 2 ^ 32 * 2 ^ 32 + (RouteJob.capacity r.job).getD 0xFFFFFFFF % 2 ^ 32, sel % 2 ^ 32 * 2 ^ 32 + total % 2 ^ 32, 0]

/-- Writes the record of a job that has ended, and the deferred list after it. -/
def Eng.reRecord (d : Nat) (r : ReRun) : Eng Unit := do
  if r.job.op = 0 then pure ()
  else do
    let sel ← Eng.num (fun _ => (r.selEnd - r.selStart) / 80)
    let total ← Eng.num (fun s => s.cclkSince r.startCyc)
    let k ← Eng.num (fun s => s.spoilOf d)
    let out := fun a l => Eng.write (reIssuer d r.job.ten) .wr (reKey d) a (spoiled k a l)
    let st ← if r.deferred.isEmpty then pure 0 else out (r.job.w 14 + 64) (r.deferred.flatMap (leBytes 4))
    let r' := if st = 0 then r else { r with status := 0x12, reason := 0 }
    let q ← out (r.job.w 14) ((r'.record sel total).flatMap (leBytes 8))
    if st = 0 && q = 0 then pure () else Eng.act (fun s => s.reFail d 0x84 0 0x12 0)

/-- RE_JOB_COMPLETE (R180, R182, R214): the record of the ended job, its counter and its interrupt. -/
def execReJobComplete (d : Dist) (now : Nat) (s : State) : Host.Outcome State Fault Refusal :=
  let s := s.at now
  match (s.re d).running with
  | none => .next s
  | some r =>
    if !r.ended || !s.reWorks r.job.ten then .next s
    else
      let x := Eng.go (Eng.reRecord d r) r.log s
      let s := x.2.2
      match x.1 with
      | none => .next (s.updReRun d (fun r => { r with log := x.2.1 }))
      | some _ =>
        let s := if (r.job.w 15).testBit 13 then s.evcAdd d (RouteJob.jobEvc r.job) 1 else s
        let s := if (r.job.w 15).testBit 12 then s.srcEvent (.priv d 3) else s
        let s := s.updRe d (fun x => { x with running := none })
        .next ((s.fadd F.RE_STATUS_JOBS [d] 1).fadd F.RE_ACTIVE_CCLK_COUNT [d] (s.cclkSince r.startCyc))

end Sys2Proof.Machine
end

