-- ==== Sys2Proof/Machine/StepStart.lean ====
section
/-! DEFINITION. The start of a step attempt: its number (R283, R288), its Batten (R414 to R416, R522), the state at step entry (R74,
R91, R103, R110), its digest (R467, R468), and the suspended step that resumes (R93, R166, R252). -/

namespace Sys2Proof.Machine

/-! ### Attempts -/

/-- The committed pointer as one word (R283). -/
def Ten.pointer (v : Ten) : Nat := v.cAtt % 2 ^ 16 * 2 ^ 48 + v.cStep % 2 ^ 48

/-- The attempt number of the next start of a step number (R283). -/
def Ten.attemptOf (v : Ten) (step : Nat) : Nat := if v.lastStep = step then v.nextAtt else 0

/-- A Tenancy takes an attempt number for a step number. -/
def Ten.take (v : Ten) (step : Nat) : Ten := { v with lastStep := step, nextAtt := v.attemptOf step + 1 }

/-- No attempt number is left (R288): no further step of the Tenancy starts. -/
def State.attemptsGone (s : State) (t : Nat) : State := (s.chipEv 0xA6 0 t).updTen t (fun v => { v with stopped := true })

/-- What a further attempt of a step keeps of it. -/
def Run.again (r : Run) (attempt startNs : Nat) (replay digestOn : Bool) : Run :=
  { r with
    attempt := attempt, startNs := startNs, lastCause := if replay then r.mark.getD 0 else 0, isReplay := replay, mark := none,
    prevUnits := r.units, units := [], discards := [], stepends := [], stepEnded := false, batten := false, entered := false,
    suspended := false, overrun := false, replayDue := false, rerun := false, flushed := false, fenced := false,
    marks := if replay then r.marks else 0, digestOn := digestOn, digest := 0, digestValid := false }

/-! ### The Batten -/

/-- Words 0 to 39 of a Batten record (R415). -/
def Ten.battenWords (v : Ten) (t : Nat) (r : Run) : List Nat :=
  [0x01 * 2 ^ 56 + t % 64 * 2 ^ 48 + r.kind % 256 * 2 ^ 40 + r.slot % 256 * 2 ^ 32 + v.desc.fixedOrder.toNat * 2 ^ 31 + r.attempt % 2 ^ 16,
    r.step % 2 ^ 48, r.firstNs % 2 ^ 64, r.startNs % 2 ^ 64, r.prevCommit % 2 ^ 64, 0, r.seed % 2 ^ 64, r.lastCause % 256 * 2 ^ 56]
    ++ r.input.map (· % 2 ^ 64) ++ [r.badDirs.headD 0]

/-- Whether T1 serves no longer a line of a range. -/
def State.t1OutOfService (s : State) (a n : Nat) : Bool :=
  (pieces a n).any (fun p => s.t1Top ≤ p.1 || s.t1.lost.contains (s.t1SlotNow p.1))

/-- Writes the whole record of an attempt from the input area (R414, R416). An uncorrectable word of the input area stays with the
words of the record that copy it (R522). -/
def State.writeBatten (s : State) (t : Nat) : State :=
  match s.ten t, s.run t with
  | some v, some r =>
    let src := v.desc.ctx + 0xC00
    let dst := v.battenAddr r.step
    if s.t1OutOfService src 256 || s.t1OutOfService dst 0x2000 then s.battenLost t
    else
      let bad := (s.badIn 32 src 256).flatMap (fun x => (List.range 4).map (fun i => (x - src) / 8 + i))
      let s := (s.transferWeak .t1 src 256).transferBad .t1 src 256
      let words := (List.range 32).map (fun i => s.rawWord (src + 8 * i))
      let r := { r with seed := words.headD 0, input := words.drop 1, batten := true }
      let s := (s.rawZero dst 0x2000).rawWrite dst ((v.battenWords t r).flatMap (leBytes 8))
      let s := { s with badWords := bad.foldl (fun m i => KMap.set false m ((dst + (if i = 0 then 48 else 56 + 8 * i)) / 32 * 32) true)
                          s.badWords }
      s.updRun t (fun q => { q with seed := r.seed, input := r.input, batten := true })
  | _, _ => s

/-- Reads the record of an earlier attempt and rewrites what changes (R416); a record that cannot be read abandons the step (R417). -/
def State.rewriteBatten (s : State) (t : Nat) : State :=
  match s.ten t, s.run t with
  | some v, some r =>
    let a := v.battenAddr r.step
    let q := s.busRead deviceIssuer .rd a 320
    let s := q.2.2
    if q.1 != 0 then s.battenLost t
    else
      let w0 := s.rawWord a
      let w7 := s.rawWord (a + 56)
      let put := fun (s : State) (i x : Nat) => s.rawWrite (a + 8 * i) (leBytes 8 x)
      let s := put s 0 (w0 - w0 % 2 ^ 16 + r.attempt % 2 ^ 16)
      let s := put s 3 r.startNs
      let s := put s 7 (w7 % 2 ^ 56 + r.lastCause % 256 * 2 ^ 56)
      let s := put s 39 (r.badDirs.headD 0)
      s.updRun t (fun q => { q with batten := true })
  | _, _ => s

/-- The Batten of the running attempt, once its Tenancy is resident (R59): whole for a new start, rewritten for a replay or a re-run,
and untouched for a step that resumes. -/
def State.beginStep (s : State) (t : Nat) : State :=
  match s.ten t, s.run t with
  | some v, some r =>
    if r.batten then s
    else
      let s := s.updTen t (fun v => { v with ran := true, imageBad := false })
      if r.isReplay || (v.stash.isSome && !r.isReplay) then (s.rewriteBatten t).updTen t (fun v => { v with stash := none })
      else s.writeBatten t
  | _, _ => s

/-! ### Step entry -/

/-- The fields that count from step entry, in a District. -/
def stepFields (d : Nat) : List (Fld × List Nat) :=
  [(F.RE_STATUS_WARN, [d]), (F.RE_STATUS_JOBS, [d]), (F.RE_COUNTS_DEFERRED, [d]), (F.RE_COUNTS_DROPPED, [d]),
    (F.RE_ACTIVE_CCLK_COUNT, [d]), (F.RE_ECC_CORRECTED, [d]), (F.RM_STATUS_ENTRIES, [d]), (F.RM_HITS_HITS, [d]),
    (F.RM_HITS_MISSES, [d]), (F.RM_MERGE_JOINS, [d]), (F.RM_MERGE_MERGE_FULL, [d]), (F.RM_ACTIVE_CCLK_COUNT, [d])] ++
    (List.range 6).map (fun i => (F.RM_BYTES_BYTES, [d, i + 1])) ++
    [(F.SQ_ECC_CORRECTED, [d]), (F.SQ_COMBINE_COUNT, [d]), (F.GA_STATUS_CORRECTED, [d]), (F.GA_ACTIVE_CCLK_COUNT, [d]),
      (F.DMA_POOL_STATUS_PEAK_KIB, [d])] ++ (List.range 4).map (fun i => (F.CQ_STATE_ERR, [d, i])) ++ [(F.GA_POISON_TILE, [d])]

/-- Clears a Block's Sequencer as at step entry (R110); its halt stands. -/
def State.clearBlk (s : State) (b : Nat) : State :=
  (s.updBlk b (fun x => { ({} : BlkSt) with halted := x.halted })).resetRegs (postLo b) 64

/-- What a suspended step keeps of a District's registers: what counts from step entry, and LAST_SEQ of its queues (R93). -/
def savedFields (d : Nat) : List (Fld × List Nat) := stepFields d ++ (List.range 4).map (fun i => (F.CQ_STATE_LAST_SEQ, [d, i]))

/-- The queues, engines and counters of a District are cleared (R91, R103, R229). -/
def State.clearDist (s : State) (d : Nat) : State :=
  let s := (s.updDist d DistSt.cleared).resetRegs (evcLo d) 4096
  (stepFields d).foldl (fun s p => s.fset p.1 p.2 0) s

/-- The settings of a District that take effect at a step entry (R143, R203, R247). -/
def State.entrySettings (s : State) (d : Nat) : State :=
  let s := { s with poolMin := KMap.set 16 s.poolMin d (s.fget F.DMA_POOL_CFG_MIN_KIB [d]),
                    margin := KMap.set 10 s.margin d (s.fget F.RE_CFG_WARN_MARGIN_US [d]) }
  s.updSq d (fun q => { q with borrow := s.fget F.SQ_CFG_BORROW_LIMIT [d] })

/-- The general registers from g1 on; the others hold zero. -/
def entryRegs (l : List Nat) : KMap W64 :=
  l.zipIdx.foldl (fun m p => KMap.set 0 m (p.2 + 1) (BitVec.ofNat 64 p.1)) []

/-- A participating DCC starts the step code (R74); its caches are cleaned and invalidated first (R90). -/
def State.startCore (s : State) (t : Nat) (v : Ten) (r : Run) (d : Nat) : State :=
  let s := s.flushCaches d
  s.updCore d (fun k => { k with
    g := entryRegs [v.battenAddr r.step, d, r.step, t, r.kind],
    pc := v.desc.entry, level := 0, ie := true, errCount := 0, errCode := 0, errAddr := 0, ten := t, step := r.step,
    batten := v.battenAddr r.step, wait := .none, inStep := true, enq := none, fetched := none,
    reqs := k.reqs.filter (fun q => match q.acc with | .store _ _ _ => true | .back _ _ => true | _ => false) })

/-- REPRO_SIG (R458 ff.): the part, its stepping and class, and the major version of the running firmware. -/
def State.reproSig (s : State) : Nat :=
  s.fuses.part % 2 ^ 16 * 2 ^ 48 + s.fuses.stepping % 256 * 2 ^ 40 + s.fuses.reproClass % 256 * 2 ^ 32 +
    s.fget F.FW_STATUS_FW_MAJOR [] * 2 ^ 16

/-- The valid entries of a digest table, by their numbers. -/
def Ten.digestEntries (v : Ten) : List (Nat × DigestEntry) :=
  v.digTab.zipIdx.filterMap (fun p => p.1.bind (fun e => if e.invalid then none else some (p.2, e)))

/-- The region digest that a sealed entry holds. -/
def State.sealDigest (s : State) (t n : Nat) : Option Nat := (KMap.get none s.sec.seals (t * 16 + n)).join

/-- The step digest and DIGEST_VALID (R467, R468). -/
def State.computeDigest (s : State) (t : Nat) : State :=
  match s.ten t, s.run t with
  | some v, some r =>
    let es := v.digestEntries
    let good := r.digestOn && !es.isEmpty && es.all (fun p => (s.sealDigest t p.1).isSome) &&
      v.digTab.all (fun e => match e with | some x => !x.invalid | none => true)
    if !good then s
    else
      let head := 0x01 * 2 ^ 56 + v.desc.fixedOrder.toNat * 2 ^ 8 + r.kind % 256
      let msg := leBytes 8 s.reproSig ++ leBytes 8 head ++
        es.flatMap (fun p => leBytes 8 p.2.word1 ++ beBytes 32 ((s.sealDigest t p.1).getD 0)) ++
        leBytes 8 (r.step % 2 ^ 47) ++ leBytes 8 r.seed ++ r.input.flatMap (leBytes 8)
      s.updRun t (fun r => { r with digest := beNat (sha256 msg), digestValid := true })
  | _, _ => s

/-- Step entry of a start or a replay. -/
def State.enterStep (s : State) (t : Nat) : State :=
  match s.ten t, s.run t with
  | some v, some r =>
    let s := [0, 1, 2, 3].foldl (fun s d => (s.clearDist d).entrySettings d) s
    let s := v.blocks.foldl (fun s p => (s.clearBlk p.2).rset .BLK_POISON [p.2] 0) s
    let s := { s with merge := [] }
    let s := s.updRun t (fun r => { r with entered := true })
    if r.discards.isEmpty then v.districts.foldl (fun s d => s.startCore t v r d) s
    else s.updRun t (fun r => { r with stepends := v.districts })
  | _, _ => s

/-! ### Suspension and resumption -/

/-- What is saved of a suspended step (R65, R93, R252), and what leaves the device for it. -/
def State.stashStep (s : State) (t : Nat) : State :=
  match s.ten t with
  | none => s
  | some v =>
    let s := v.districts.foldl State.flushCaches s
    let ds := [0, 1, 2, 3]
    let x : Stash :=
      { cores := v.districts.map (fun d => (d, s.core d)),
        dists := ds.map (fun d => let y := s.dist d; (d, { y with rm := y.rm.suspend })),
        evcs := ds.flatMap (fun d => KMap.slice s.regs (evcLo d) 4096 (evcLo d)),
        blks := v.blocks.map (fun p => (p.1, s.blk p.2)),
        posts := v.blocks.flatMap (fun p => KMap.slice s.regs (postLo p.2) 64 (p.1 * 64)),
        dma := s.dma.filter (fun j => j.ofTen t), inflight := s.posts.filter (fun p => p.ten == t),
        regs := ds.flatMap (fun d => (savedFields d).zipIdx.map (fun p => (d * 64 + p.2, BitVec.ofNat 64 (s.fget p.1.1 p.1.2)))) }
    let s := v.districts.foldl (fun s d => s.updCore d (fun k => { k with inStep := false, wait := .wfi })) s
    let s := v.blocks.foldl (fun s p => s.clearBlk p.2) s
    let s := ds.foldl (fun s d => s.updDist d DistSt.cleared) s
    let s := { s with dma := s.dma.filter (fun j => !j.ofTen t), posts := s.posts.filter (fun p => p.ten != t),
                      merge := s.merge.filter (fun m => m.ten != t) }
    s.updTen t (fun v => { v with stash := some x })

/-- Entries on their way to an inbox are in it at once when a step resumes (R93). Its instruction cache is empty then, as after a step
entry. -/
def BlkSt.landed (x : BlkSt) : BlkSt := { x with icache := [], inbox := x.inbox.map (fun i => { i with arrived := true }) }

/-- A suspended step goes on where it stopped (R93). -/
def State.resumeStep (s : State) (t : Nat) (x : Stash) : State :=
  match s.ten t with
  | none => s
  | some v =>
    let ds := [0, 1, 2, 3]
    let s := ds.foldl State.clearDist s
    let s := { s with merge := [] }
    let s := v.districts.foldl State.flushCaches s
    let s := x.cores.foldl (fun s p => s.setCore p.1 p.2) s
    let s := x.dists.foldl (fun s p => s.updDist p.1 (fun y => { p.2 with ga := { p.2.ga with halted := y.ga.halted } })) s
    let regs := ds.foldl (fun m d => KMap.splice m (evcLo d) 4096 (KMap.slice x.evcs (evcLo d) 4096 (evcLo d))) s.regs
    let s := { s with regs := regs }
    let s := v.blocks.foldl (fun s p =>
      let old : BlkSt := KMap.get {} x.blks p.1
      let s := s.updBlk p.2 (fun y => { old.landed with halted := y.halted })
      { s with regs := KMap.splice s.regs (postLo p.2) 64 (KMap.slice x.posts (p.1 * 64) 64 (postLo p.2)) }) s
    let s := ds.foldl (fun s d => (savedFields d).zipIdx.foldl (fun s p =>
      s.fset p.1.1 p.1.2 (KMap.get 0 x.regs (d * 64 + p.2)).toNat) s) s
    let s := { s with dma := s.dma ++ x.dma, posts := s.posts ++ x.inflight }
    s.updTen t (fun v => { v with
      stash := none, run := v.run.map (fun r => { r with entered := true, suspended := false }) })

end Sys2Proof.Machine
end

