-- ==== Sys2Proof/Machine/StepCmds.lean ====
section
/-! DEFINITION. The course of a step: the work of a tick is bound (R59), the step is entered (R91), ends (R91, R164, R254), is
committed (R36, R286), discarded (R92), replayed (R38, R413), overruns (R66, R67) or is suspended (R64, R65), and its result record
is built (R441 to R443). -/

namespace Sys2Proof.Machine

/-! ### Result slots (R439, R440) -/

/-- Store slots of a channel that are held or reserved. -/
def State.resReserved (s : State) (r : Nat) : Nat :=
  (s.tenIds.filter (fun t => match s.run t with | some q => q.channel == some r | none => false)).length +
    (if s.tick.urgentChannel = some r then 1 else 0)

/-- Store slots of a channel that are reserved for steps not yet ended. -/
def State.resOpen (s : State) (r : Nat) : Nat :=
  (s.tenIds.filter (fun t => match s.run t with | some q => q.channel == some r && q.ended.isNone | none => false)).length +
    (if s.tick.urgentChannel = some r then 1 else 0)

def State.resHeld (s : State) (r : Nat) : List Rec := KMap.get [] s.hif.held r

/-- A register in force whose change takes effect at the next tick start. -/
def State.inForce (s : State) (r : RegName) (ix : List Nat) : Nat :=
  match KMap.get none s.tick.latched (r.addr ix) with
  | some v => v.toNat
  | none => (s.rget r ix).toNat

/-- RES_TEN of a Tenancy in force (R439). -/
def State.resTen (s : State) (t : Nat) : Nat := s.inForce .RES_TEN [t]

/-- EN of DG_TEN of a Tenancy in force. -/
def State.digestEn (s : State) (t : Nat) : Bool := (s.inForce .DG_TEN [t]).testBit 0

/-- The channel whose slot a new step of a Tenancy would reserve, or none where it reports through none; and whether it gets one. -/
def State.reserveSlot (s : State) (t : Nat) : Bool × Option Nat :=
  if !(s.resTen t).testBit 31 then (true, none)
  else
    let r := s.resTen t % 64
    (s.fget F.RES_CH_CFG_EN [r] == 1 && s.resReserved r + (s.resHeld r).length < s.fget F.RES_CH_CFG_SLOTS [r], some r)

/-! ### The result record -/

/-- The words of the record of an ended step (R442), but for word 15. -/
def State.recordWords (s : State) (t : Nat) (v : Ten) (r : Run) (e : Ending) (area : List Byte) : List Nat :=
  let w := fun i => bodyWord area i
  let status := match e with | .commit => 0 | .discard _ => 1 | .abandon _ => 2
  let cause := match e with | .abandon c => c | _ => 0
  let code := match e with | .discard c => c | _ => 0
  let digest := fun i => r.digest / 2 ^ (64 * (3 - i)) % 2 ^ 64
  [status * 2 ^ 56 + cause % 256 * 2 ^ 48 + t % 64 * 2 ^ 42 + r.kind % 256 * 2 ^ 32 + code % 2 ^ 16 * 2 ^ 16 + r.attempt % 2 ^ 16,
    r.step % 2 ^ 48, r.endTick % 2 ^ 64, r.firstNs % 2 ^ 64, r.endNs % 2 ^ 64, w 0, w 1,
    min 255 r.overruns * 2 ^ 56 + r.warn.toNat * 2 ^ 55 + r.emulated.toNat * 2 ^ 54 + s.fget F.TEN_STATE_DEGRADED [t] * 2 ^ 53 +
      v.desc.fixedOrder.toNat * 2 ^ 52 + r.digestValid.toNat * 2 ^ 51,
    digest 0, digest 1, digest 2, digest 3, 0, 0, 0]

/-- Enters a record into its channel's store with the next sequence number (R443); the record of a channel that is disabled is
dropped (R449). -/
def State.storeRecord (s : State) (ch : Nat) (words : List Nat) : State :=
  if s.fget F.RES_CH_CFG_EN [ch] = 0 then s
  else
    let seq := s.fget F.RES_CH_PI_NEXT_SEQ [ch]
    let s := s.fset F.RES_CH_PI_NEXT_SEQ [ch] (if seq + 1 < 2 ^ 32 then seq + 1 else 1)
    let held := s.resHeld ch ++ [words ++ [2 ^ 63 + ch * 2 ^ 32 + seq]]
    let s := { s with hif := { s.hif with held := KMap.set [] s.hif.held ch held } }
    if s.fget F.RES_CH_CFG_MODE [ch] = 1 then s.srcEvent (.shared (256 + ch)) else s

/-- Builds the record of an ended step from its result area as it stands (R441, R443), whose bytes are free values where no memory
serves them (assumption 125). -/
def State.buildRecord (s : State) (t : Nat) : State :=
  match s.ten t, s.run t with
  | some v, some r =>
    let s' := s.updTen t (fun v => { v with run := none })
    match r.ended, r.channel with
    | none, _ => s
    | some _, none => s'
    | some e, some ch =>
      let q := s'.busRead deviceIssuer .rd (v.desc.ctx + 0xD00) 32
      if q.2.1.length = 32 then q.2.2.storeRecord ch (q.2.2.recordWords t v r e q.2.1)
      else (q.2.2.storeRecord ch (q.2.2.recordWords t v r e ((List.range 32).map (Config.contextByte q.2.2.free)))).tickFree
  | _, _ => s

/-- RESULT_RECORD_BUILD (R443). -/
def execResultRecordBuild (t : TenId) (now : Nat) (s : State) : Host.Outcome State Fault Refusal :=
  .next ((s.at now).buildRecord t)

/-! ### Binding the work of a tick -/

/-- The tick's work is shown. -/
def State.showWork (s : State) (work t : Nat) : State :=
  s.fsets [] [(F.SCHED_STATUS_LAST_WORK, work), (F.SCHED_STATUS_LAST_TENANCY, t)]

/-- A Tenancy's step takes the chip: its tables are loaded, and it is made resident or its Batten is written (R59). -/
def State.bindStep (s : State) (t work : Nat) : State :=
  let s := (s.showWork work t).setTst t .running
  let s := s.updTen t (fun v => { v with lastRun := s.fget F.TICK_COUNT_COUNT [] })
  let s := { s with tick := { s.tick with cur := t } }
  let s := [0, 1, 2, 3].foldl (fun s d => s.fset F.GA_STATUS_CTRL_VALID [d] 0) s
  let s := s.loadContext t
  if s.tick.resident.contains t then s.beginStep t
  else if (match s.tick.switch with | some w => w.incoming == t | none => false) then s
  else s.switchTo t

/-- A new step starts (R283): its number follows that of the committed one. -/
def State.newStep (s : State) (t slot kind budget : Nat) (urgent : Bool) (channel : Option Nat) : State :=
  let s := s.buildRecord t
  match s.ten t with
  | none => s
  | some v =>
    let step := (v.cStep + 1) % 2 ^ 48
    let a := v.attemptOf step
    if 65536 ≤ a then s.attemptsGone t
    else
      let ns := s.timeNow
      let r : Run := { step := step, attempt := a, kind := kind, slot := slot, budget := budget, firstNs := ns, startNs := ns,
                       prevCommit := v.pointer, urgent := urgent, channel := channel,
                       digestOn := s.digestEn t }
      let s := s.updTen t (fun v => { v.take step with run := some r, stash := none, imageBad := false })
      (s.fset F.TEN_STATE_OVERRUNS [t] 0).bindStep t (if urgent then 4 else 1)

/-- A further attempt of a step starts: a replay (R413), or the re-run of a suspended step (R166, R522). -/
def State.againStep (s : State) (t work : Nat) (replay : Bool) : State :=
  let s := if replay then (s.dropWork t).copiesEnd t else s
  match s.ten t, s.run t with
  | some v, some r =>
    let a := v.attemptOf r.step
    if 65536 ≤ a then (s.attemptsGone t).endStep t (.abandon 3)
    else
      let r' := r.again a s.timeNow replay (s.digestEn t)
      (s.updTen t (fun v => { v.take r.step with run := some r' })).bindStep t work
  | _, _ => s

/-- A suspended step resumes, or re-runs when its image did not come through whole or left a Great Array (R64, R166, R522). -/
def State.resumeWork (s : State) (t budget work : Nat) : State :=
  match s.ten t, s.run t with
  | some v, some r =>
    let s := s.updRun t (fun r => { r with budget := budget, overrun := false })
    if (r.rerun || v.imageBad) && r.batten then s.againStep t work false
    else (s.updRun t (fun r => { r with entered := false, suspended := false })).bindStep t work
  | _, _ => s

/-- A suspended step that was saved whole and met an error in its restore re-runs from its Batten (R522). -/
def State.recheckResume (s : State) (t : Nat) : State :=
  match s.ten t, s.run t with
  | some v, some r =>
    if v.stash.isSome && (r.rerun || v.imageBad) && r.batten && !r.entered then
      let a := v.attemptOf r.step
      if 65536 ≤ a then (s.attemptsGone t).endStep t (.abandon 3)
      else
        let r' := { r.again a s.timeNow false r.digestOn with discards := r.discards }
        s.updTen t (fun v => { v.take r.step with run := some r' })
    else s
  | _, _ => s

/-- A switch ends (R61 to R63): its data has moved, and the incoming step's Batten is written. -/
def State.endSwitch (s : State) (w : Switch) : State :=
  let s := s.switchDone w
  if s.tick.cur = w.incoming then (s.recheckResume w.incoming).beginStep w.incoming else s

/-- Whether no array pass is in flight, on a Block or on a Great Array. -/
def State.arraysIdle (s : State) : Bool :=
  s.blks.all (fun p => p.2.passes.isEmpty) && s.dists.all (fun p => p.2.ga.passes.isEmpty)

/-- SWITCH_END (R62, R70): not before the shortest time of the switch, and not while a pass of the step before it is in flight. -/
def execSwitchEnd (now : Nat) (s : State) : Host.Outcome State Fault Refusal :=
  let s := s.at now
  match s.tick.switch with
  | some w => .next (if w.startNs + s.switchNs w ≤ s.now && s.arraysIdle then s.endSwitch w else s)
  | none => .next s

/-! ### Step entry and step end -/

/-- STEP_ENTRY (R91): once the Batten is complete, the participating DCCs start, or go on where they were suspended. A pass that the
step before it left in flight has run to its end (R175). -/
def execStepEntry (now : Nat) (s : State) : Host.Outcome State Fault Refusal :=
  let s := s.at now
  let t := s.tick.cur
  match s.ten t, s.run t with
  | some v, some r =>
    if !r.batten || r.entered || r.ended.isSome || s.tick.switch.isSome || s.tick.suspending.isSome || s.stopped || !s.arraysIdle
    then .next s
    else match v.stash with
      | some x => .next (s.resumeStep t x)
      | none => .next ((s.computeDigest t).enterStep t)
  | _, _ => .next s

/-- A marked attempt has ended: its work is dropped and it waits for its replay (R38, R416), or is cancelled for a DESTROY (R413). -/
def State.replayLater (s : State) (t : Nat) : State :=
  let s := (s.dropWork t).copiesEnd t
  let tick := { s.tick with cur := 0, extend := 0, suspending := if s.tick.suspending = some 0 then none else s.tick.suspending }
  if s.tst t = TSt.draining.num then
    { s with tick := tick }.updTen t (fun v => { v with run := none, stash := none })
  else
    let s := { s with tick := { tick with replays := tick.replays.filter (· != t) ++ [t] } }
    s.updTen t (fun v => { v with
      stash := none, run := v.run.map (fun r => { r with replayDue := true, entered := false, stepEnded := false }) })

/-- The discard code of the lowest District that asked (R92). -/
def Run.discardCode (r : Run) : Option Nat :=
  [0, 1, 2, 3].findSome? (fun d => KMap.get none r.discards d)

/-- STEP_END (R91): the step's work is finished. A marked attempt waits for its replay (R413), a step that any District discards is
discarded (R92), and otherwise the DCC caches write back (R523) and the flip is due. -/
def execStepEnd (now : Nat) (s : State) : Host.Outcome State Fault Refusal :=
  let s := s.at now
  let t := s.tick.cur
  match s.ten t, s.run t with
  | some v, some r =>
    if !r.entered || r.ended.isSome || r.stepEnded || s.stopped || !s.stepDone t v r then .next s
    else
      let s := s.srcEvent (.priv 4 3)
      if r.mark.isSome then .next (s.replayLater t)
      else match r.discardCode with
        | some c => .next (s.endStep t (.discard c))
        | none =>
          let s := v.districts.foldl State.cleanAll s
          let s := [0, 1, 2, 3].foldl (fun s d => s.updRm d (fun m => { m with pre := [], preJobs := [], fetches := [], serves := [] })) s
          .next (s.updRun t (fun r => { r with stepEnded := true }))
  | _, _ => .next s

/-! ### The commit flip -/

/-- Writes eight bytes of T1 or T2 by the device itself, with the errors of the tier. -/
def State.deviceWrite (s : State) (a v : Nat) : Nat × State :=
  s.lineWrite 0 a (leBytes 8 v)

/-- The flip (R286): the committed pointer goes to the Batten, the redirection units take it up, and then to the header of each region
table. A pointer write that meets an uncorrectable word abandons the step (R522). -/
def State.commitFlip (s : State) (t : Nat) (v : Ten) (r : Run) : State :=
  let p := r.attempt % 2 ^ 16 * 2 ^ 48 + r.step % 2 ^ 48
  let q := s.deviceWrite (v.battenAddr r.step + 40) p
  if q.1 != 0 then q.2.battenLost t
  else
    let s := q.2.updTen t (fun v => { v with
      cStep := r.step, cAtt := r.attempt, run := v.run.map (fun r => { r with flipped := true }) })
    let s := s.fset F.TEN_STATE_STEP [t] r.step
    let s := v.regions.foldl (fun s g => (s.deviceWrite g.table p).2) s
    s.endStep t .commit

/-- Whether the flip waits for the Flush of R295. -/
def State.flushDue (s : State) (t : Nat) (r : Run) : Bool :=
  s.fget F.FL_TEN_FLUSH_AT_COMMIT [t] == 1 && !r.drives.isEmpty && !r.flushed

/-- Whether lines of the step's DCCs are still on their way back to memory (R523). -/
def State.backsOut (s : State) (v : Ten) : Bool := v.districts.any (fun d => (s.core d).reqs.any CoreReq.isBack)

/-- The end of a step whose work is finished: the flip, or what was asked for since then. -/
def State.finishStep (s : State) (t : Nat) : State :=
  match s.ten t, s.run t with
  | some v, some r =>
    if !r.stepEnded || r.ended.isSome || s.stopped then s
    else if r.mark.isSome then s.replayLater t
    else match r.discardCode with
      | some c => s.endStep t (.discard c)
      | none => if s.flushDue t r || s.backsOut v then s else s.commitFlip t v r
  | _, _ => s

/-- COMMIT_FLIP (R286). -/
def execCommitFlip (now : Nat) (s : State) : Host.Outcome State Fault Refusal :=
  let s := s.at now
  .next (s.finishStep s.tick.cur)

/-! ### Deadline and overrun -/

/-- Whether a Tenancy's step has started and its work has not finished. -/
def State.unfinished (s : State) (t : Nat) : Bool :=
  match s.run t with
  | some r => r.ended.isNone && !r.stepEnded
  | none => false

/-- The running step is in overrun, which has been logged: it is counted, and its policy or MAX_OVERRUNS applies (R66, R67). -/
def State.overrunStep (s : State) (t : Nat) (v : Ten) : State :=
  let s := (s.fsat F.SCHED_COUNTS_OVERRUNS [] 1).fsat F.TEN_STATE_OVERRUNS [t] 1
  let s := (s.updRun t (fun r => { r with overrun := true, overruns := r.overruns + 1 })).srcEvent (.shared 71)
  if v.desc.maxOver ≤ s.fget F.TEN_STATE_OVERRUNS [t] then s.chipEv 0x44 0 t
  else match v.desc.policy with
    | 1 => { s with tick := { s.tick with extend := t } }
    | 2 => { s with tick := { s.tick with suspending := some (s.tick.suspending.getD 0) } }
    | _ => s.endStep t (.abandon 1)

/-- The running step meets its deadline unfinished (R66, R67, R70, R174). A step marked for replay ends there: its work is dropped at
its suspend point, and no overrun is counted. -/
def State.meetDeadline (s : State) : State :=
  let t := s.tick.cur
  match s.ten t, s.run t with
  | some v, some r =>
    if !s.unfinished t || r.overrun then s
    else if r.mark.isSome then { s with tick := { s.tick with suspending := some (s.tick.suspending.getD 0) } }
    else (s.chipEv 0x43 0 t).overrunStep t v
  | _, _ => s

/-- The running step's deadline, when its tick runs. -/
def State.curDeadline (s : State) : Option Nat :=
  if s.tick.active then (s.run s.tick.cur).map (fun r => s.deadline r.budget) else none

/-- Handles a deadline that has passed. A fault of the deadline's own cclk still makes the step a replay, and an URGENT of that cclk
finds the step handled (R70), so the deadline is handled once its own nanosecond is over. -/
def State.dueDeadline (s : State) : State :=
  match s.curDeadline with
  | some d => if d < s.now && !s.stopped then s.meetDeadline else s
  | none => s

/-- STEP_DEADLINE (R66). -/
def execStepDeadline (now : Nat) (s : State) : Host.Outcome State Fault Refusal := .next (s.at now).dueDeadline

/-- With EN clear, a step that has not ended when the Eave begins is abandoned, and so is a replay that is due (R44). -/
def State.abandonUnended (s : State) : State :=
  let s := if s.unfinished s.tick.cur then s.endStep s.tick.cur (.abandon 5) else s
  s.tick.replays.foldl (fun s t => s.endStep t (.abandon 5)) s

/-- The Eave begins (R43). -/
def State.beginEave (s : State) : State :=
  let s := { s with tick := { s.tick with eave := true } }
  if s.fget F.TICK_CTRL_EN [] = 1 then s else s.abandonUnended

/-- Whether device time lies in the Eave of the running tick. -/
def State.inEave (s : State) : Bool :=
  s.tick.active && (s.tick.eave ||
    s.tick.startNs + (s.fget F.TICK_ACTIVE_PERIOD_US [] - s.fget F.TICK_ACTIVE_EAVE_US []) * 1000 ≤ s.now)

/-- EAVE_START (R43). -/
def execEaveStart (now : Nat) (s : State) : Host.Outcome State Fault Refusal :=
  let s := s.at now
  let ns := (s.fget F.TICK_ACTIVE_PERIOD_US [] - s.fget F.TICK_ACTIVE_EAVE_US []) * 1000
  .next (if s.tick.active && !s.tick.eave && s.tick.startNs + ns ≤ s.now then (s.srcEvent (.priv 4 2)).beginEave else s)

/-! ### Suspension -/

/-- Whether every unit of the running step has stopped (R65). -/
def State.atSuspendPoint (s : State) (t : Nat) (v : Ten) : Bool :=
  v.blocks.all (fun p => (s.blk p.2).passes.isEmpty) &&
    [0, 1, 2, 3].all (fun d => (s.ga d).passes.isEmpty && (s.ga d).conv.isNone) &&
    v.districts.all (fun d => (s.core d).reqs.isEmpty) &&
    (s.dma.filter (fun j => j.ofTen t)).all (fun j => j.bytes % 4096 == 0 && j.log.isEmpty || j.status.isSome) &&
    !s.requestsOut t

/-- The urgent step starts (R64): it resumes a suspended step, or is a new one. One whose suspended step was marked meanwhile is
left to its replay. -/
def State.startUrgent (s : State) (t : Nat) : State :=
  let ch := s.tick.urgentChannel
  let s := { s with tick := { s.tick with urgent := none, urgentChannel := none, suspending := none } }
  if s.tst t = TSt.suspended.num then (s.updRun t (fun r => { r with urgent := true })).resumeWork t 0 5
  else match s.ten t with
    | some v => if v.stopped || s.rtest .STOP_STEP [] t || v.inStep then s else s.newStep t 0xFF 0 0 true ch
    | none => s

/-- The running step becomes SUSPENDED. One from which a replay takes the tick keeps its row b of R59: `suspending` names it. -/
def State.suspendStep (s : State) (t : Nat) : State :=
  let entered := match s.run t with | some r => r.entered | none => false
  let s := if entered then s.stashStep t else s
  let s := s.updRun t (fun r => { r with suspended := true, entered := false, overrun := false })
  let s := { s with tick := { s.tick with
    cur := 0, extend := if s.tick.suspending = some t then t else 0,
    suspending := if s.tick.suspending = some 0 || s.tick.suspending = some t then none else s.tick.suspending } }
  if s.tst t = TSt.draining.num then s.endStep t (.abandon 6) else s.setTst t .suspended

/-- A step in overrun under EXTEND is put aside at its suspend point, for a replay that takes the tick. -/
def State.putAside (s : State) : State :=
  let t := s.tick.extend
  if t = 0 || s.tick.cur != t then s else { s with tick := { s.tick with suspending := some t } }.suspendStep t

/-- SUSPEND_POINT (R65): the running step is suspended once its units have stopped, or has ended meanwhile; the urgent step that
waits then runs in the rest of the tick, or at the next tick start once the Eave has begun (R64). -/
def execSuspendPoint (now : Nat) (s : State) : Host.Outcome State Fault Refusal :=
  let s := s.at now
  let t := s.tick.cur
  match s.tick.suspending with
  | none => .next s
  | some _ =>
    if s.tick.switch.isSome || s.stopped then .next s
    else
      let ready := match s.ten t with
        | some v => s.unfinished t && s.atSuspendPoint t v
        | none => true
      if !ready then .next s
      else
        let marked := match s.run t with | some r => r.mark.isSome | none => false
        let s := if t = 0 then s else if marked then s.replayLater t else s.suspendStep t
        match s.tick.suspending with
        | some u =>
          if u = 0 || s.tick.eave then .next { s with tick := { s.tick with suspending := none } } else .next (s.startUrgent u)
        | none => .next s

end Sys2Proof.Machine
end

