-- ==== Sys2Proof/Machine/TenCmds.lean ====
section
/-! DEFINITION. Tenancies: the substitution of retired units (R53, R176, R251), CREATE (R50 to R52, R287), DESTROY and teardown (R56,
R465, R524), URGENT (R64, R440), and the end of a Tenancy command. -/

namespace Sys2Proof.Machine

/-! ### Substitution at a tick start -/

/-- Whether a Block is named by no Tenancy's mask, enabled, and in service. -/
def State.freeBlock (s : State) (b : Nat) : Bool :=
  s.fuseEnabled b && !s.blkRetired b &&
    !s.tenIds.any (fun t => match s.ten t with | some v => v.mask.contains b | none => false)

/-- The substitute that a Tenancy takes for a Block (R53): a spare or a free Block, of the same District before any. -/
def State.substituteFor (s : State) (v : Ten) (b : Nat) : Option Nat :=
  let spares := v.spares.filter (fun x => !s.blkRetired x)
  ((spares.find? (fun x => x / 256 == b / 256)).or spares.head?).or
    (((List.range' (b / 256 * 256) 256).find? s.freeBlock).or ((List.range 1024).find? s.freeBlock))

/-- One Tenancy replaces a retired Block (R53). -/
def State.substitute (s : State) (t b : Nat) : State :=
  match s.ten t with
  | none => s
  | some v =>
    let v0 := { v with spares := v.spares.filter (· != b) }
    match v.logical b with
    | none => s.setTen t (some { v0 with mask := v.mask.filter (· != b) })
    | some l =>
      let drop := fun (v : Ten) => { v with stash := v.stash.map (fun x => { x with blks := x.blks.del l }) }
      match s.substituteFor v0 b with
      | some n =>
        let mask := (if v.mask.contains n then v.mask else n :: v.mask).filter (· != b)
        let s := s.setTen t (some (drop { v0 with
          bmap := v.bmap.set l (some n), spares := v0.spares.filter (· != n), mask := mask.mergeSort (· ≤ ·) }))
        if s.tick.resident.contains t then (s.zeroBlock n).clearBlk n else s
      | none =>
        let s := s.setTen t (some (drop { v0 with bmap := v.bmap.set l none, mask := v.mask.filter (· != b) }))
        ((s.fset F.TEN_STATE_DEGRADED [t] 1).chipEv 0x45 0 t).srcEvent (.shared 72)

/-- A Block leaves service. -/
def State.retireBlock (s : State) (b : Nat) : State :=
  (s.rbit .RET_BLOCK [b / 32] (b % 32) true).clearBlk b

/-- Every Tenancy that uses a retired Block replaces it, in ascending ID. -/
def State.replaceBlock (s : State) (b : Nat) : State := s.tenIds.foldl (fun s t => s.substitute t b) s

/-- A Great Array leaves service: its lists are emulated (R176). -/
def State.retireGa (s : State) (d : Nat) : State := (s.rbit .RIDGE_STATUS [] (36 + d) true).fset F.GA_STATUS_EMULATED [d] 1

/-- A Square lot leaves service: a PRIV lot is replaced by a zeroed free lot, and a copy that lies there is dropped (R251). -/
def State.retireLot (s : State) (d lot : Nat) : State :=
  let q := s.sq d
  if q.retired.contains lot then s
  else
    let s := s.updSq d (fun q => { q with retired := q.retired ++ [lot] })
    match q.map.find? (fun p => p.2 == lot + 1) with
    | none => s
    | some (k, _) =>
      if k % 4096 < s.privLots (k / 4096) d then
        let n := (s.sq d).freeLots.head?
        let s := s.updSq d (fun q => { q with map := KMap.set 0 q.map k (match n with | some x => x + 1 | none => 0) })
        match n with
        | some x => s.rawZero (squareBase d + x * 65536) 65536
        | none => s
      else
        s.updSq d (fun q =>
          let mine := fun (c : Copy) => c.ten == k / 4096 && c.first ≤ k % 4096 && k % 4096 < c.first + c.lots
          let q := { q with copies := q.copies.map (fun c => if mine c then { c with dropping := true } else c) }
          (q.copies.filter (fun c => mine c && !c.held)).foldl SquareSt.freeCopy q)

/-- Units decided for retirement leave service at a tick start (R420). -/
def State.retireUnits (s : State) : State :=
  let at_ := fun k => (s.ridge.decided.filter (fun x => x / 2 ^ 16 == k)).map (· % 2 ^ 16)
  let blks := (((at_ 1).filter (fun b => !s.blkRetired b)).mergeSort (· ≤ ·)).dedup
  let s := blks.foldl State.retireBlock s
  let s := blks.foldl State.replaceBlock s
  let s := ((at_ 2).filter (fun d => !s.gaRetired d)).foldl State.retireGa s
  (at_ 3).foldl (fun s u => s.retireLot (u / 4096) (u % 4096)) s

/-! ### CREATE -/

/-- The Block map as it lies in the context area (R52). -/
def mapBytes (m : List (Option Nat)) : List Byte :=
  (List.range 1024).flatMap (fun l => match (m[l]?).join with
    | some b => leBytes 2 (0x8000 + b % 1024)
    | none => leBytes 2 0)

/-- The device writes a Tenancy's Block map (R52). -/
def State.writeMap (s : State) (t : Nat) : State :=
  match s.ten t with
  | some v =>
    let l := mapBytes v.bmap
    (List.range 16).foldl (fun s i => (s.t1Write 0 (v.desc.ctx + 128 * i) ((l.drop (128 * i)).take 128)).2) s
  | none => s

/-- Whether a range lies in T1 in service (R263). -/
def State.inT1Service (s : State) (a n : Nat) : Bool := within a n 0 s.t1Top

/-- The descriptor of R50 from its words. -/
def Desc.ofWords (w : Nat → Nat) : Desc :=
  { gaMask := bits (w 0) 47 44, reMask := bits (w 0) 43 40, policy := bits (w 0) 39 36, maxOver := bits (w 0) 31 24,
    spareBlocks := bits (w 0) 23 16, wardRequired := (w 0).testBit 15, replT2 := (w 0).testBit 14, fixedOrder := (w 0).testBit 13,
    blocksPerExpert := bits (w 0) 10 0, priv := (List.range 4).map (fun n => bits (w 2) (16 * n + 15) (16 * n + 8)),
    cache := (List.range 4).map (fun n => bits (w 2) (16 * n + 7) (16 * n)), t1Quota := bits (w 3) 63 32, t2Quota := bits (w 3) 31 0,
    t3Quota := bits (w 4) 63 32, shaper := bits (w 4) 31 16, ctx := w 5, ctxLen := w 6, entry := w 7, batten := w 8 }

/-- Whether the words of a descriptor break a rule of BAD_DESCRIPTOR, for the Tenancy that TEN_CMD names. -/
def State.tenDescBad (s : State) (t : Nat) (w : Nat → Nat) : Bool :=
  let d := Desc.ofWords w
  bits (w 0) 63 56 != 1 || bits (w 0) 55 54 != 0 || bits (w 0) 53 48 != t || t == 0 || bits (w 0) 35 32 != 0 || bits (w 0) 12 11 != 0 ||
    !(1 ≤ d.policy && d.policy ≤ 3) || d.maxOver == 0 || 64 < d.spareBlocks || !(1 ≤ d.blocksPerExpert && d.blocksPerExpert ≤ 1024) ||
    w 1 % 128 != 0 || !s.inT1Service (w 1) 128 || (List.range 4).any (fun n => 128 < (d.priv[n]?).getD 0 + (d.cache[n]?).getD 0) ||
    63 < d.shaper || bits (w 4) 15 0 != 0 || d.ctx % 4096 != 0 || !s.inT1Service d.ctx d.ctxLen || d.entry % 4 != 0 ||
    d.batten % 0x2000 != 0 || !s.inT1Service d.batten 0x8000 || overlap d.batten 0x8000 d.ctx d.ctxLen || bits (w 9) 39 0 != 0 ||
    (List.range' 10 6).any (fun i => w i != 0)

/-- The Blocks of a 1024-bit mask, ascending. -/
def maskBlocks (l : List Byte) : List Nat :=
  (List.range 1024).filter (fun b => ((l[b / 8]?).getD 0).getLsbD (b % 8))

/-- The headers of the region tables that the records name (R287): none when one may not be read. -/
def State.readHeaders (s : State) (ctx : Nat) : Option (List (Nat × Nat)) × State :=
  (List.range 4).foldl (fun (acc : Option (List (Nat × Nat)) × State) n =>
    let q := acc.2.devWords (ctx + 0xA00 + 32 * n) 4
    let table := wordAt q.2.1 3
    if q.1 != 0 || !(wordAt q.2.1 1).testBit 31 then (acc.1, q.2.2)
    else if table % 8 != 0 then (none, q.2.2)
    else
      let h := q.2.2.busWord deviceIssuer .rd table
      (if h.1 = 0 then acc.1.map (· ++ [(table, h.2.1)]) else none, h.2.2)) (some [], s)

/-- The smallest of the committed pointers, by step and then by attempt (R287). -/
def smallestPointer (l : List Nat) : Nat :=
  match l with
  | [] => 0
  | p :: t => t.foldl (fun m x =>
      if x % 2 ^ 47 < m % 2 ^ 47 || (x % 2 ^ 47 = m % 2 ^ 47 && x / 2 ^ 48 < m / 2 ^ 48) then x else m) p

/-- Whether a creation finds its Blocks unavailable (R51). DESIGN CHOICE (assumption 13): a Block decided for retirement counts as
retired, although it serves until the next tick start; R51 does not say. -/
def State.blocksUnavailable (s : State) (mask : List Nat) : Bool :=
  let inService := fun b => s.fuseEnabled b && !s.blkRetired b && !s.ridge.decided.contains (unitKey 1 b)
  mask.any (fun b => !inService b) ||
    [0, 1, 2, 3].any (fun d =>
      let free := (List.range' (256 * d) 256).filter s.freeBlock
      let taken := free.filter (fun b => mask.contains b)
      !taken.isEmpty && free.length - taken.length < s.fget F.TEN_RESERVE_DN [] / 2 ^ (8 * d) % 256)

/-- The sum of a quota over all Tenancies. -/
def State.quotaSum (s : State) (f : Desc → Nat) : Nat :=
  (s.tenIds.map (fun t => match s.ten t with | some v => f v.desc | none => 0)).sum

/-- Whether a creation would exceed the capacity of a tier in service (R51): T1 in MiB, T2 in MiB, T3 in GiB. -/
def State.quotaExceeded (s : State) (d : Desc) : Bool :=
  let t2 := (64 - ((List.range 64).filter (fun c => s.rtest .T2_RETIRED [] c)).length) * 24 * 1024
  let drives := (List.range 8).filter (fun i => s.fget F.FL_DRIVE_PRESENT [i] == 1 && s.fget F.FL_DRIVE_FAILED [i] == 0)
  let t3 := (drives.map (fun i => min (s.fget F.FL_DRIVE_LBAS [i] * 4096) (2 ^ 45))).sum / 2 ^ 30
  s.t1Top / 2 ^ 20 < s.quotaSum Desc.t1Quota + d.t1Quota || t2 < s.quotaSum Desc.t2Quota + d.t2Quota ||
    t3 < s.quotaSum Desc.t3Quota + d.t3Quota

/-- CREATE (R51, R52, R287): RESULT and the device after it. A failed command has no effect but what its reads log. A device in Transit
holds no Tenancy (R344), and R51 has no result for that: the command fails, with a free value for its RESULT (assumption 92). -/
def State.createTen (s : State) (t : Nat) : Nat × State :=
  let da := (s.rget .TEN_ARG []).toNat
  if s.inTransit then ((Config.transitResult s.free).val + 1, s.tickFree)
  else if da % 8 != 0 || !s.inT1Service da 128 then (0x01, s)
  else
    let q := s.busRead deviceIssuer .rd da 128
    let s := q.2.2
    let w := bodyWord q.2.1
    let d := Desc.ofWords w
    if q.1 != 0 || s.tenDescBad t w then (0x01, s)
    else
      let m := s.busRead deviceIssuer .rd (w 1) 128
      let mask := maskBlocks m.2.1
      let h := m.2.2.readHeaders d.ctx
      let s := h.2
      match h.1 with
      | none => (0x01, s)
      | some heads =>
        let named := mask.take (mask.length - d.spareBlocks)
        let v : Ten := { desc := d, mask := mask, bmap := named.map some, spares := mask.drop (mask.length - d.spareBlocks) }
        let image := ([0, 1, 2, 3].map (v.imageLen v.bmap)).sum
        if m.1 != 0 || mask.length ≤ d.spareBlocks then (0x01, s)
        else if (s.ten t).isSome then (0x02, s)
        else if bits (w 9) 63 48 != s.fuses.part || bits (w 9) 47 40 != s.fuses.stepping then (0x0B, s)
        else if s.blocksUnavailable mask then (0x04, s)
        else if s.quotaExceeded d then (0x05, s)
        else if 2 ^ 31 < image || d.ctxLen < 8192 + image then (0x06, s)
        else
          let p := smallestPointer (heads.map Prod.snd)
          let s := (heads.filter (fun x => x.2 != p)).foldl (fun s x => (s.deviceWrite x.1 p).2) s
          let s := (s.setTen t (some { v with cStep := p % 2 ^ 48, cAtt := p / 2 ^ 48 })).rset .TEN_STATE [t] 0
          (0x00, ((s.setTst t .defined).fset F.TEN_STATE_STEP [t] (p % 2 ^ 48)).writeMap t)

/-! ### Teardown -/

/-- The Blocks of a Tenancy that no other resident Tenancy holds. -/
def State.ownBlocks (s : State) (t : Nat) (v : Ten) : List Nat :=
  v.mask.filter (fun b => !(s.tick.resident.filter (· != t)).any (fun u => match s.ten u with
    | some w => (w.logical b).isSome
    | none => false))

/-- Teardown (R56, R465): the Blocks are zeroed, and everything that the Tenancy held is released. Its Ward state and its stops go with it
(DEDUCED, assumption 93). -/
def State.tearDown (s : State) (t : Nat) : State :=
  match s.ten t with
  | none => s
  | some v =>
    let s := (s.ownBlocks t v).foldl State.zeroBlock (s.freeLots t)
    let s := (List.range 16).foldl (fun s n => s.unsealEntry (t * 16 + n)) s
    let s := s.finishUnseal t
    let s := match s.sec.sealing with
      | some k => if k / 16 = t then { s with sec := { s.sec with sealing := none } }.fsets [] [(F.DG_STATUS_BUSY, 0), (F.DG_STATUS_PAGES_LEFT, 0)] else s
      | none => s
    let s := ((((s.setTen t none).rset .TEN_STATE [t] 0).rset .WARD_STATE [t] 0).rbit .STOP_TRAFFIC [] t false).rbit .STOP_STEP [] t false
    let s := { s with
      fab := { s.fab with xlat := s.fab.xlat.filter (fun x => x.1 != t), leaseNs := KMap.set 0 s.fab.leaseNs t 0,
                          gens := KMap.clear s.fab.gens (t * 65536) 65536,
                          streams := s.fab.streams.filter (fun x => x.ten != t),
                          barriers := s.fab.barriers.filter (fun x => x.ten != t) } }
    { s with tick := { s.tick with
      resident := s.tick.resident.filter (· != t), replays := s.tick.replays.filter (· != t),
      extend := if s.tick.extend = t then 0 else s.tick.extend } }

/-- Drops an urgent step that was latched for a Tenancy and has not started (R524). -/
def State.dropUrgent (s : State) (t : Nat) : State :=
  if s.tick.urgent = some t then
    { s with tick := { s.tick with
      urgent := none, urgentChannel := none,
      suspending := if s.tick.suspending = some t then none else s.tick.suspending } }
  else s

/-- Whether a switch in progress saves or restores a Tenancy. -/
def State.inSwitch (s : State) (t : Nat) : Bool :=
  match s.tick.switch with
  | some w => w.saves.contains t || w.incoming == t
  | none => false

/-- The command of TEN_CMD has its result; it completes later (R524). -/
def State.tenResult (s : State) (t : Nat) (r : Option Nat) : State := { s with tick := { s.tick with cmd := some ⟨t, r⟩ } }

/-- What is left of a Tenancy's step when it is destroyed: a pending replay is cancelled without a record (R413), a suspended step is
abandoned (R56), and an ended one gets its record. -/
def State.dropStep (s : State) (t : Nat) : State :=
  let s := match s.run t with
    | some r =>
      if r.replayDue then s.updTen t (fun v => { v with run := none, stash := none })
      else if r.suspended && r.ended.isNone && s.tick.cur != t then s.endStep t (.abandon 6)
      else s
    | none => s
  s.buildRecord t

/-- Teardown at once when nothing of the Tenancy runs or moves. -/
def State.tryTearDown (s : State) (t : Nat) : State :=
  if s.tick.cur = t || s.inSwitch t then s else ((s.dropStep t).tearDown t).tenResult t (some 0)

/-- DESTROY (R56, R524). -/
def State.destroyTen (s : State) (t : Nat) : State :=
  if (s.ten t).isNone then s.tenResult t (some 0x03)
  else
    let s := (s.dropUrgent t).tenResult t none
    let s := if s.tst t = TSt.running.num then s.setTst t .draining else s
    s.tryTearDown t

/-- TEARDOWN (R56): the step of a DRAINING Tenancy has ended, or the save of a destroyed one; what it held is released and BUSY
clears. -/
def execTeardown (now : Nat) (s : State) : Host.Outcome State Fault Refusal :=
  let s := s.at now
  match s.tick.cmd with
  | some ⟨t, none⟩ =>
    let s := s.tryTearDown t
    match s.tick.cmd with
    | some ⟨_, some r⟩ =>
      let s := (s.fsets [] [(F.TEN_STATUS_RESULT, r), (F.TEN_STATUS_TENANCY, t), (F.TEN_STATUS_BUSY, 0)]).srcEvent (.shared 70)
      .next { s with tick := { s.tick with cmd := none } }
    | _ => .next s
  | _ => .next s

/-! ### URGENT -/

/-- URGENT (R64, R440): RESULT, and the device after it. An URGENT of the cclk of the running step's deadline leaves that step to its
policy (R70). DESIGN CHOICE (assumption 12): one latched before the Eave in a tick whose step has ended runs in the rest of that tick;
R64 names only a tick in which a step runs, and an idle one. -/
def State.urgentTen (s : State) (t : Nat) : Nat × State :=
  let s := s.dueDeadline
  if s.fget F.TICK_CTRL_EN [] = 0 then (0x09, s)
  else if (s.ten t).isNone then (0x03, s)
  else if s.tst t = TSt.running.num then (0x08, s)
  else if s.tick.urgent.isSome then (0x07, s)
  else
    let held := s.tst t = TSt.suspended.num
    let q := if held then (true, none) else s.reserveSlot t
    if !q.1 then (0x0A, s)
    else
      let atDeadline := s.unfinished s.tick.cur && s.curDeadline == some s.now
      let now_ := s.tick.active && !s.inEave && s.fget F.SCHED_STATUS_LAST_WORK [] != 0 && !atDeadline
      (0x00, { s with tick := { s.tick with
        urgent := some t, urgentChannel := q.2, suspending := if now_ then some t else s.tick.suspending } })

/-! ### TEN_CMD (R55, R524) -/

/-- A Tenancy command is accepted (R524). -/
def State.tenCmdBegin (s : State) (t : Nat) : State :=
  ((s.fset F.TEN_CMD_TENANCY [] t).fset F.TEN_STATUS_BUSY [] 1).srcEvent (.priv 4 4)

/-- An accepted write of TEN_CMD. -/
def State.tenCmdAct (s : State) (v : Nat) : State :=
  let t := bits v 5 0
  let s := s.tenCmdBegin t
  match bits v 31 28 with
  | 1 => let r := s.createTen t; r.2.tenResult t (some r.1)
  | 2 => s.destroyTen t
  | 3 => let r := s.urgentTen t; r.2.tenResult t (some r.1)
  | _ => s.tenResult t (some 0x01)

/-- TEN_CMD_COMPLETE (R524). -/
def execTenCmdComplete (now : Nat) (s : State) : Host.Outcome State Fault Refusal :=
  let s := s.at now
  if s.stopped then .next s else
  match s.tick.cmd with
  | some ⟨t, some r⟩ =>
    let s := (s.fsets [] [(F.TEN_STATUS_RESULT, r), (F.TEN_STATUS_TENANCY, t), (F.TEN_STATUS_BUSY, 0)]).srcEvent (.shared 70)
    .next { s with tick := { s.tick with cmd := none } }
  | _ => .next s

end Sys2Proof.Machine
end

