-- ==== Sys2Proof/Machine/TickCmds.lean ====
section
/-! DEFINITION. The tick generator: alignment to a reference (R46 to R49, R323), the schedule table (R57 to R60), and the tick start
(R42, R44, R45, R59). -/

namespace Sys2Proof.Machine

/-! ### Alignment (R46 to R49) -/

def State.alignMode (s : State) : Nat := s.fget F.TICK_CTRL_ALIGN_MODE []

/-- LOCKED: always 1 in MASTER, always 0 in FREE, and otherwise after four offsets of at most 100 ns. -/
def State.showLocked (s : State) : State :=
  let l := s.tick.offsets
  s.fset F.ALIGN_STATUS_LOCKED [] (match s.alignMode with
    | 0 => 0
    | 3 => 1
    | _ => (l.length == 4 && l.all (fun o => o.natAbs ≤ 100)).toNat)

/-- A valid reference has arrived: holdover ends. -/
def State.referenceSeen (s : State) : State :=
  { s with tick := { s.tick with refSeen := true, holdTicks := 0, lost := false } }.fset F.ALIGN_STATUS_HOLDOVER [] 0

/-- The first reference tick start at or after a time, from one reference tick start and the period, with its number of periods. -/
def nextReference (ref at_ period : Nat) : Nat × Int :=
  let k : Int := -(((ref : Int) - (at_ : Int)) / (period : Int))
  (((ref : Int) + k * (period : Int)).toNat, k)

/-- A measured offset is corrected (R48): by slewing, or by a step when it is larger than STEP_US. `longer` is the change of tick
length that removes it; `ref` a reference tick start in local time, `num` its tick number, and `shift` the change of device time that
a step makes. While the running tick is lengthened by a step, that step is the correction, and a further offset is only shown.
DESIGN CHOICE (assumption 9): the table of ALIGN_STATUS gives OFFSET_NS as local less reference tick start, which is negative for an
early follower, while the worked example of R47 calls the positive offset early; the register shows the offset of R47. -/
def State.correctOffset (s : State) (offset longer : Int) (ref : Nat) (num : Option Nat) (shift : Int) : State :=
  let s := s.fset F.ALIGN_STATUS_OFFSET_NS [] (offset % 2 ^ 32).toNat
  let s := { s with tick := { s.tick with offsets := (s.tick.offsets ++ [offset]).drop (s.tick.offsets.length - 3) } }
  let s := s.showLocked
  if s.tick.loading.isSome then s
  else if offset.natAbs ≤ s.fget F.ALIGN_CONFIG_STEP_US [] * 1000 then { s with tick := { s.tick with slew := longer, stepTo := none } }
  else { s with tick := { s.tick with slew := 0, stepTo := some (ref, num, shift) } }

/-- TICK_IN_EDGE (R47, R48): a filtered rising edge of TICK_IN in PIN mode. -/
def execTickInEdge (now : Nat) (s : State) : Host.Outcome State Fault Refusal :=
  let s := s.at now
  if s.alignMode != 1 || s.fget F.TICK_CTRL_EN [] = 0 then .next s
  else
    let ref := s.now + s.fget F.ALIGN_CONFIG_TICK_IN_DELAY_NS []
    let s := s.referenceSeen.fset F.ALIGN_STATUS_PATH_DELAY_NS [] 0
    if s.tick.waiting then .next { s with tick := { s.tick with refStart := some (s.tick.refStart.getD ref) } }
    else
      let a : Int := (s.tick.startNs : Int) - (ref : Int)
      let b : Int := (s.tick.endNs : Int) - (ref : Int)
      let o := if a.natAbs ≤ b.natAbs then a else b
      .next (s.correctOffset o (-o) ref none 0)

/-- HOLDOVER_LOST (R49). -/
def execHoldoverLost (s : State) : Host.Outcome State Fault Refusal :=
  if (s.alignMode = 1 || s.alignMode = 2) && !s.tick.lost && s.fget F.ALIGN_CONFIG_HOLDOVER_TICKS [] ≤ s.tick.holdTicks then
    let s := { s with tick := { s.tick with lost := true } }
    .next (((s.fset F.ALIGN_STATUS_LOST [] 1).chipEv 0x42).srcEvent (.shared 68))
  else .next s

/-- Sends a time packet out of a port with no route lookup (R323). -/
def State.sendTime (s : State) (port opcode dst body : Nat) (words : List Nat) : State :=
  let p : Packet := { cls := 1, opcode := opcode, pkey := 0xFFFF, src := s.fabId, dst := dst, epoch := s.fget F.EPOCH_CTRL_SRC_EPOCH [],
                      vc := 0, pathKey := (Config.pathKey s.free).toNat, tag := 0, hops := s.fget F.FAB_TIMERS_HOP_LIMIT [],
                      bytes := body, body := words.flatMap (leBytes 8) }
  (s.swAdd { pkt := p.sealed, inp := none, out := some port, sinceNs := s.now }).tickFree

/-- TIME_EXCHANGE_SEND (R47): once in each tick, 100 µs after its start; a generator that waits for its first tick may also ask. -/
def execTimeExchangeSend (now : Nat) (s : State) : Host.Outcome State Fault Refusal :=
  let s := s.at now
  let p := s.fget F.ALIGN_CONFIG_SYNC_PORT []
  let due := (s.tick.active && !s.tick.sentExchange && s.tick.startNs + 100000 ≤ s.now) || (s.tick.waiting && s.tick.exchange.isNone)
  if s.alignMode = 2 && s.fget F.TICK_CTRL_EN [] = 1 && p < 36 && due && s.fget F.PORT_STATUS_STATE [p] = Pst.active then
    let s := { s with tick := { s.tick with exchange := some s.now, sentExchange := true } }
    .next (s.sendTime p 0xF0 (s.fget F.PORT_STATUS_NBR_ID [p]) 0 [])
  else .next s

/-- TIME_EXCHANGE_VOID (R47). -/
def execTimeExchangeVoid (now : Nat) (s : State) : Host.Outcome State Fault Refusal :=
  let s := s.at now
  match s.tick.exchange with
  | some t1 => .next (if t1 + 50000 < s.now then { s with tick := { s.tick with exchange := none } } else s)
  | none => .next s

/-- Device time of a moment of the local clock. -/
def State.timeOf (s : State) (ns : Nat) : Nat := ((ns : Int) + s.timeOff).toNat

/-- TIME_REQ (R323): answered by a master, and by a locked follower on another port than SYNC_PORT. -/
def execTimeReq (n now : Nat) (s : State) : Host.Outcome State Fault Refusal :=
  let s := s.at now
  match s.delivered n [0xF0] with
  | none => .next s
  | some q =>
    let s := s.swDrop n
    let answers := s.alignMode = 3 || (s.alignMode = 2 && s.fget F.ALIGN_STATUS_LOCKED [] = 1 &&
      q.portNo != s.fget F.ALIGN_CONFIG_SYNC_PORT [])
    if !answers then .next s
    else
      .next (s.sendTime q.portNo 0xF1 q.pkt.src 2
        [s.timeOf q.sinceNs, s.timeNow, s.fget F.TICK_COUNT_COUNT [], s.timeOf s.tick.startNs])

/-- TIME_RESP (R47, R48): the exchange completes, and gives offset and path delay. DESIGN CHOICE (assumption 10): half of an odd sum,
whose rounding R47 leaves open, is rounded down. -/
def execTimeResp (n now : Nat) (s : State) : Host.Outcome State Fault Refusal :=
  let s := s.at now
  match s.delivered n [0xF1] with
  | none => .next s
  | some q =>
    let s := s.swDrop n
    match s.tick.exchange with
    | none => .next s
    | some sent =>
      if s.alignMode != 2 || q.portNo != s.fget F.ALIGN_CONFIG_SYNC_PORT [] || sent + 50000 < q.sinceNs then .next s
      else
        let w := bodyWord q.pkt.body
        let t1 : Int := s.timeOf sent
        let t4 : Int := s.timeOf q.sinceNs
        let t2 : Int := w 0
        let t3 : Int := w 1
        let offset := ((t4 - t3) - (t2 - t1) - toSigned 12 (s.fget F.ALIGN_CONFIG_ASYM_NS [])) / 2
        let path := ((t4 - t3) + (t2 - t1)) / 2
        let ref := (((w 3 : Nat) : Int) + offset - s.timeOff).toNat
        let s := s.referenceSeen.fset F.ALIGN_STATUS_PATH_DELAY_NS [] (path % 2 ^ 24).toNat
        let s := { s with tick := { s.tick with exchange := none } }
        let s := s.correctOffset offset offset ref (some (w 2)) (-offset)
        if !s.tick.waiting then .next s
        else
          let r := nextReference ref s.now (s.fget F.TICK_CONFIG_PERIOD_US [] * 1000)
          .next { s with tick := { s.tick with
            slew := 0, stepTo := none, refStart := some r.1, loading := some (some (((w 2 : Nat) : Int) + r.2).toNat, -offset) } }

/-! ### Registers of the generator -/

/-- Whether a value of TICK_CTRL is accepted (R46). -/
def State.tickCtrlOk (s : State) (v : Nat) : Bool :=
  bits v 6 4 ≤ 3 && !(bits v 6 4 = 2 && s.fget F.ALIGN_CONFIG_SYNC_PORT [] = 0xFF)

/-- Whether a value of TICK_CONFIG is accepted (R41). -/
def tickConfigOk (v : Nat) : Bool :=
  let p := bits v 13 0
  let e := bits v 26 16
  250 ≤ p && p ≤ 16000 && 10 ≤ e && e ≤ 2000 && e * 4 ≤ p

/-- Whether a value of ALIGN_CONFIG is accepted (R46). -/
def alignConfigOk (v : Nat) : Bool :=
  bits v 63 56 != 0 && bits v 23 16 != 0 && bits v 12 0 ≤ 5000 && (bits v 31 24 ≤ 35 || bits v 31 24 = 0xFF)

/-- EN has changed to 0 (R44): no further tick starts, and once the running tick's Eave has begun, a step that has not ended is
abandoned. -/
def State.tickOff (s : State) : State :=
  let s := { s with tick := { s.tick with waiting := false, outUntil := 0 } }
  if s.tick.active && s.tick.eave then s.abandonUnended else s

/-- An accepted write of TICK_CTRL (R44, R45), given the value before it: the first tick is armed, or no further tick starts; a change
of the mode drops what was measured against the old reference. DESIGN CHOICE (assumption 11): EN set again while the last tick still
runs lets the next tick start at that tick's end, with no new first tick. -/
def State.tickCtrlAct (s : State) (old : Nat) : State :=
  let en := s.fget F.TICK_CTRL_EN []
  let was := bit old 0
  let mode := s.alignMode
  let s := if mode = bits old 6 4 then s
    else
      let s := { s with tick := { s.tick with
        slew := 0, stepTo := none, loading := if s.tick.waiting then none else s.tick.loading, offsets := [], exchange := none,
        refStart := none, holdTicks := 0, lost := false, refSeen := true, waitNs := s.now } }
      (s.fset F.ALIGN_STATUS_HOLDOVER [] 0).showLocked
  if en = 1 && was = 0 then
    if s.tick.active && s.now < s.tick.endNs then s
    else { s with tick := { s.tick with
      active := false, waiting := true, waitNs := s.now, refStart := none, refSeen := true, loading := none } }
  else if en = 0 && was = 1 then s.tickOff
  else s

/-! ### The schedule table -/

def State.bankLen (s : State) (b : Nat) : Nat := s.fget (if b = 0 then F.SCHED_CTRL_LEN_B0 else F.SCHED_CTRL_LEN_B1) []

def State.bankLock (s : State) (b : Nat) : Bool :=
  s.fget (if b = 0 then F.SCHED_CTRL_LOCKSTEP_B0 else F.SCHED_CTRL_LOCKSTEP_B1) [] == 1

/-- The fault code that a write of SCHED_CTRL meets, or 0 (R57). -/
def State.schedCtrlBad (s : State) (v : Nat) : Nat :=
  let lenBad := fun n => n = 0 || 256 < n
  let b := s.fget F.SCHED_CTRL_ACTIVE_BANK []
  if lenBad (bits v 26 18) || lenBad (bits v 17 9) then 0x40
  else if b = 0 && (bits v 17 9 != s.bankLen 0 || (bit v 27 == 1) != s.bankLock 0) then 0x41
  else if b = 1 && (bits v 26 18 != s.bankLen 1 || (bit v 28 == 1) != s.bankLock 1) then 0x41
  else 0

/-- A pending swap takes effect at a tick start, or is refused (R57, R59). -/
def State.applySwap (s : State) : State :=
  if s.fget F.SCHED_CTRL_SWAP_PENDING [] = 0 then s
  else
    let s := s.fset F.SCHED_CTRL_SWAP_PENDING [] 0
    let b := 1 - s.fget F.SCHED_CTRL_ACTIVE_BANK []
    if s.bankLock b && s.alignMode ≤ 1 then s.chipEv 0x40
    else (s.fset F.SCHED_CTRL_ACTIVE_BANK [] b).fset F.SCHED_STATUS_CURSOR [] (s.fget F.SCHED_CTRL_START [] % s.bankLen b)

/-- The slot that a tick reads (R59, R60): bank, slot, and whether the bank runs in lockstep. -/
def State.slotNow (s : State) : Nat × Nat × Bool :=
  let b := s.fget F.SCHED_CTRL_ACTIVE_BANK []
  let n := s.bankLen b
  if s.bankLock b then (b, s.fget F.TICK_COUNT_COUNT [] % n, true) else (b, s.fget F.SCHED_STATUS_CURSOR [] % n, false)

/-- CURSOR moves past a slot. -/
def State.pastSlot (s : State) (x : Nat × Nat × Bool) : State := s.fset F.SCHED_STATUS_CURSOR [] ((x.2.1 + 1) % s.bankLen x.1)

/-- Whether the slot of a Tenancy runs idle (R59, R56, R288, R383). -/
def State.slotIdle (s : State) (t : Nat) : Bool :=
  t == 0 || match s.ten t with
    | none => true
    | some v => v.stopped || s.rtest .STOP_STEP [] t || s.tst t == TSt.draining.num ||
        (match s.tick.cmd with | some ⟨u, none⟩ => u == t | _ => false) ||
        (match v.run with | some r => r.ended.isNone && !r.suspended | none => false)

/-- Row d of R59: the slot's Tenancy resumes its suspended step, or starts a new one when its result slot is free (R439). -/
def State.runSlot (s : State) (x : Nat × Nat × Bool) : State :=
  let ix := [x.1, x.2.1]
  let t := s.fget F.SCHED_SLOT_TENANCY ix
  let budget := s.fget F.SCHED_SLOT_BUDGET_US ix
  if s.slotIdle t then s
  else if s.tst t = TSt.suspended.num then s.resumeWork t budget 5
  else
    let q := s.reserveSlot t
    if q.1 then s.newStep t x.2.1 (s.fget F.SCHED_SLOT_STEP_KIND ix) budget false q.2
    else s.fsat F.RES_CH_STATUS_STALLS [q.2.getD 0] 1

/-- Row b of R59: the step in overrun goes on, or is taken up again where a replay took a tick from it. -/
def State.extendWork (s : State) (t : Nat) : State :=
  if s.tick.cur = t then
    ((s.showWork 3 t).updRun t (fun r => { r with overrun := false })).updTen t (fun v => { v with
      lastRun := s.fget F.TICK_COUNT_COUNT [] })
  else s.resumeWork t ((s.run t).elim 0 Run.budget) 3

/-- Rows a to c of R59: a replay, the continuation of an overrun, or an urgent step. A replay that takes the tick from a step in
overrun finds that step at its suspend point, and puts it aside; row b takes it up at the next tick that has no replay. -/
def State.specialWork (s : State) : Option State :=
  match s.tick.replays with
  | t :: rest => some (({ s with tick := { s.tick with replays := rest } }.putAside).againStep t 2 true)
  | [] =>
    if s.tick.extend != 0 then some (s.extendWork s.tick.extend)
    else match s.tick.urgent with
      | some u => some (s.startUrgent u)
      | none => none

/-- Drops an early switch whose Tenancy does not take the tick (R63). -/
def State.dropEarly (s : State) : State :=
  match s.tick.switch with
  | some w => if w.incoming = s.tick.cur then s else { s with tick := { s.tick with switch := none } }
  | none => s

/-- A step in overrun that has been marked is replayed, and does not continue (rows a and b of R59): it has ended, and its work is
dropped at its suspend point (R174). One from which a replay takes the tick is stopped there. -/
def State.extendStops (s : State) : State :=
  let t := s.tick.extend
  match s.ten t, s.run t with
  | some v, some r =>
    if t = 0 || s.tick.cur != t || r.ended.isSome then s
    else if r.mark.isSome then
      if s.atSuspendPoint t v then s.replayLater t else { s with tick := { s.tick with extend := 0, suspending := some 0 } }
    else if s.tick.replays.isEmpty || s.atSuspendPoint t v then s
    else { s with tick := { s.tick with suspending := some t } }
  | _, _ => s

/-- Selects the tick's work (R59, R60). While the step of an earlier tick still finishes or stops, the tick takes no new work. -/
def State.selectWork (s : State) : State :=
  let x := s.slotNow
  let s := (s.showWork 0 0).extendStops
  let shown := fun (s : State) => if x.2.2 then s.pastSlot x else s
  if s.stopped || (s.tick.cur != 0 && (s.tick.extend != s.tick.cur || s.tick.suspending.isSome)) then (shown s).dropEarly
  else match s.specialWork with
    | some s =>
      let s := if x.2.2 then ((s.fsat F.SCHED_COUNTS_SKIPS [] 1).chipEv 0x46).pastSlot x else s
      s.dropEarly
    | none => ((s.runSlot x).pastSlot x).dropEarly

/-- EARLY_SWITCH_START (R63): the switch to the Tenancy of the next slot begins as soon as the running step has ended. -/
def execEarlySwitchStart (now : Nat) (s : State) : Host.Outcome State Fault Refusal :=
  let s := s.at now
  let ready := s.fget F.TICK_CTRL_EARLY_SWITCH [] == 1 && s.fget F.TICK_CTRL_EN [] == 1 && s.tick.active && s.tick.cur == 0 &&
    s.fget F.SCHED_STATUS_LAST_WORK [] != 0 && s.tick.switch.isNone && s.tick.replays.isEmpty && s.tick.extend == 0 &&
    s.tick.urgent.isNone && !s.stopped &&
    (match s.run (s.fget F.SCHED_STATUS_LAST_TENANCY []) with | some r => r.ended.isNone && r.suspended | none => true)
  let p := s.applySwap
  let x := (p.fadd F.TICK_COUNT_COUNT [] 1).slotNow
  let t := s.fget F.SCHED_SLOT_TENANCY [x.1, x.2.1]
  .next (if ready && !s.slotIdle t && !s.tick.resident.contains t then s.switchTo t else s)

/-! ### The tick start -/

/-- The time at which the next tick starts, when that time is known. -/
def State.tickDue (s : State) : Option Nat :=
  if s.tick.waiting then
    (if s.alignMode = 0 || s.alignMode = 3 then some s.tick.waitNs else s.tick.refStart)
  else if s.tick.active then some s.tick.endNs
  else none

/-- What is left of a tick at its end: its Eave has begun, its step's deadline has passed, and records are built. -/
def State.endTick (s : State) : State :=
  let s := if s.tick.active && !s.tick.eave then s.beginEave else s
  let s := if s.tick.active then s.meetDeadline else s
  let s := match s.ten s.tick.cur, s.run s.tick.cur with
    | some v, some r => if r.stepEnded then v.districts.foldl State.drainBacks s else s
    | _, _ => s
  let s := s.finishStep s.tick.cur
  (s.tenIds.filter (fun t => match s.run t with | some r => r.ended.isSome | none => false)).foldl State.buildRecord s

/-- Holdover is counted at tick starts (R49). -/
def State.countHoldover (s : State) : State :=
  if s.alignMode = 0 || s.alignMode = 3 then s
  else if s.tick.refSeen then { s with tick := { s.tick with refSeen := false } }
  else { s with tick := { s.tick with holdTicks := s.tick.holdTicks + 1 } }.fset F.ALIGN_STATUS_HOLDOVER [] 1

/-- TICK_COUNT of the tick that starts: one more, or what a step correction loads in FABRIC mode (R44, R48), together with TIME_NOW. -/
def State.countTick (s : State) : State :=
  let n := s.fget F.TICK_COUNT_COUNT []
  match s.tick.loading with
  | none => s.fset F.TICK_COUNT_COUNT [] (n + 1)
  | some (num, shift) =>
    let s := if s.tick.active then (s.fset F.ALIGN_STATUS_STEPPED [] 1).srcEvent (.shared 69) else s
    let s := { s with tick := { s.tick with loading := none } }
    if s.alignMode = 2 then { s with timeOff := s.timeOff + shift }.fset F.TICK_COUNT_COUNT [] (num.getD (n + 1))
    else s.fset F.TICK_COUNT_COUNT [] (n + 1)

/-- The length of the tick that starts (R48). -/
def State.startLength (s : State) (start : Nat) : State :=
  let period := s.fget F.TICK_ACTIVE_PERIOD_US [] * 1000
  match s.tick.stepTo with
  | some (ref, num, shift) =>
    let r := nextReference ref (start + period) period
    { s with tick := { s.tick with
      endNs := r.1, stepTo := none, loading := some (num.map (fun n => ((n : Int) + r.2).toNat), shift) } }
  | none =>
    let lim : Int := s.fget F.ALIGN_CONFIG_SLEW_NS []
    let adj := max (-lim) (min lim s.tick.slew)
    let off := if s.alignMode = 2 then s.timeOff - adj else s.timeOff
    { s with timeOff := off, tick := { s.tick with slew := s.tick.slew - adj, endNs := (((start + period : Nat) : Int) + adj).toNat } }

/-- TEN_PKEY takes effect at a tick start. -/
def State.loadPkeys (s : State) : State :=
  let m := (List.range' 1 63).foldl (fun m t => KMap.set 0 m t (s.fget F.TEN_PKEY_KEY [t])) s.fab.pkeys
  s.updFab (fun f => { f with pkeys := m })

/-- A tick starts (R59). -/
def State.newTick (s : State) (start : Nat) : State :=
  let s := s.countHoldover.countTick
  let s := s.rset .TICK_ACTIVE [] (s.rget .TICK_CONFIG [])
  let s := { s with tick := { s.tick with
    active := true, waiting := false, startNs := start, eave := false, refStart := none, sentExchange := false, outUntil := start + 1000, latched := [] } }
  let s := s.startLength start
  let s := { s.applySwap with t1 := { s.applySwap.t1 with units := s.fget F.T1_RESERVE_UNITS [] } }
  let s := (s.loadPkeys.retireUnits).slotsAtTick
  let s := s.tenIds.foldl State.writeMap s
  s.selectWork.srcEvent (.priv 4 1)

/-- TICK_START (R44, R59): the running tick has ended, or the first one is due. With EN clear no tick follows. -/
def execTickStart (now : Nat) (s : State) : Host.Outcome State Fault Refusal :=
  match s.tickDue with
  | none => .next (s.at now)
  | some due =>
    if max s.now now < due || s.fget F.RIDGE_STATUS_STATE [] = 4 then .next (s.at now)
    else
      let s := (s.at due).endTick
      if s.fget F.TICK_CTRL_EN [] = 0 then .next { s with tick := { s.tick with active := false } } else .next (s.newTick due)

end Sys2Proof.Machine
end

