-- ==== Sys2Proof/Machine/Firmware.lean ====
section
/-! DEFINITION. Firmware images and the boot selector (R494 to R496): when an image is valid, which slot boots, and what a running
image sets. -/

namespace Sys2Proof.Machine

/-- The offset of a slot in boot flash (R492): 1 is A and 2 is B, as R494 codes them. -/
def slotBase (slot : Nat) : Nat := if slot = 1 then 0x100000 else 0x1900000

/-- The slot that is not `slot`. -/
def otherSlot (slot : Nat) : Nat := if slot = 1 then 2 else 1

/-- Word `i` of an image header. -/
def hdrWord (l : List Byte) (i : Nat) : Nat := leNat ((l.drop (8 * i)).take 8)

/-- Words of a header as one number, the first word highest: the digest, key and signature of R495 start in [63:56]. -/
def hdrNat (l : List Byte) (i n : Nat) : Nat := (List.range n).foldl (fun a k => a * 2 ^ 64 + hdrWord l (i + k)) 0

/-- The bytes of a payload, by its header. -/
def payloadLen (h : List Byte) : Nat := bits (hdrWord h 1) 63 32

/-- Whether an image is valid but for its security version (R495). -/
def imageSound (fwKey : Nat) (h payload : List Byte) : Bool :=
  bits (hdrWord h 0) 63 32 == 0x564B4657 && bits (hdrWord h 1) 15 0 == 1 &&
    1 ≤ payloadLen h && payloadLen h ≤ 20 * 2 ^ 20 - 512 && payload.length == payloadLen h &&
    beNat (sha384 (beBytes 96 (hdrNat h 8 12))) == fwKey &&
    ecdsaValid (hdrNat h 8 6) (hdrNat h 14 6) (hdrNat h 20 6) (hdrNat h 26 6) (h.take 160) &&
    beNat (sha384 payload) == hdrNat h 2 6

/-- SVN of an image. -/
def imageSvn (h : List Byte) : Nat := bits (hdrWord h 1) 31 24

/-- What FW_CTL answers for an image: 0 valid, 1 BAD_IMAGE, 2 ROLLBACK (R498). -/
def State.imageResult (s : State) (h payload : List Byte) : Nat :=
  if !imageSound s.fuses.fwKey h payload then 1 else if imageSvn h < s.fuses.minSvn then 2 else 0

/-- The header of the image in a slot. -/
def State.slotHeader (s : State) (slot : Nat) : List Byte := s.flashRead (slotBase slot) 512

/-- Whether a slot holds a valid image. -/
def State.slotValid (s : State) (slot : Nat) : Bool :=
  let h := s.slotHeader slot
  (slot == 1 || slot == 2) && payloadLen h ≤ 20 * 2 ^ 20 - 512 &&
    s.imageResult h (s.flashRead (slotBase slot + 512) (payloadLen h)) == 0

/-- The valid copy of the boot selector with the higher SEQ, and its place. -/
def FwSt.selector (f : FwSt) : Option (Nat × Selector) :=
  match f.copies[0]?.join, f.copies[1]?.join with
  | some a, some b => if a.seq < b.seq then some (1, b) else some (0, a)
  | some a, none => some (0, a)
  | none, some b => some (1, b)
  | none, none => none

/-- Shows the selector in FW_STATUS. -/
def State.showSelector (s : State) : State :=
  let x := match s.fw.selector with | some p => p.2 | none => ⟨0, 0, 0, 0⟩
  s.fsets [] [(F.FW_STATUS_ACTIVE, x.active), (F.FW_STATUS_TRY_SLOT, x.trySlot), (F.FW_STATUS_TRIES_LEFT, x.tries)]

/-- Writes the selector: the older copy takes the new values and the next SEQ (R493). -/
def State.writeSelector (s : State) (active trySlot tries : Nat) : State :=
  let p := s.fw.selector
  let k := match p with | some (i, _) => 1 - i | none => 0
  let seq := match p with | some (_, x) => (x.seq + 1) % 2 ^ 32 | none => 1
  { s with fw := { s.fw with copies := s.fw.copies.set k (some ⟨seq, active, trySlot, tries⟩) } }.showSelector

/-- Shows which slots are valid. -/
def State.showSlots (s : State) : State :=
  s.fsets [] [(F.FW_STATUS_A_VALID, (s.slotValid 1).toNat), (F.FW_STATUS_B_VALID, (s.slotValid 2).toNat)]

/-- The slot that an update writes: the one that is not running; with none running, the one that is not ACTIVE. -/
def State.updateSlot (s : State) : Nat :=
  let run := s.fget F.FW_STATUS_RUN_SLOT []
  let x := if run = 0 then s.fget F.FW_STATUS_ACTIVE [] else run
  if x = 0 then 1 else otherSlot x

/-- Programs an image into the slot that an update writes. -/
def State.programSlot (s : State) (image : List Byte) : State :=
  (s.flashErase (slotBase s.updateSlot) 0x1800000).flashWrite (slotBase s.updateSlot) image

/-- A WRITE that a reset interrupts ends with FLASH_ERR; how far its slot was programmed is free. -/
def State.dropFwWrite (s : State) : State :=
  match s.fw.writing with
  | none => s
  | some (r, image) =>
    let s := if r = 0 then
        (match Config.programmed s.free with | some n => s.programSlot (image.take n) | none => s).tickFree
      else s
    { s with fw := { s.fw with writing := none } }.fsets [] [(F.FW_CTL_RESULT, 3), (F.FW_CTL_BUSY, 0)]

/-- The selector write of a TRY or a CONFIRM waits for the journal entry that was queued last (R475, R499). -/
def State.selectLater (s : State) (active trySlot tries : Nat) : State :=
  { s with fw := { s.fw with selPend := some (s.sec.lastSeq, active, trySlot, tries) } }.fset F.FW_CTL_BUSY [] 1

/-- The selector write that waited for the entry `seq` is done, or is given up with FLASH_ERR. -/
def State.selectNow (s : State) (seq : Nat) (done : Bool) : State :=
  match s.fw.selPend with
  | none => s
  | some (q, a, t, n) =>
    if q = seq then
      let s := { s with fw := { s.fw with selPend := none } }
      (if done then s.writeSelector a t n else s).fsets [] [(F.FW_CTL_RESULT, if done then 0 else 3), (F.FW_CTL_BUSY, 0)]
    else s

/-- The slot that boots, or 0 (R496). A try is spent before the slot is read; the selector write is journaled (R499). -/
def State.chooseSlot (s : State) : Nat × State :=
  let x := match s.fw.selector with | some p => p.2 | none => ⟨0, 0, 0, 0⟩
  let tries := x.trySlot != 0 && 0 < x.tries
  let s := if tries then
      (if s.journalRoom then s.journal 2 2 0 0xFF 0 0 (regDevAddr .FW_CTL []) (s.rget .FW_CTL []).toNat 0
        else s.fsat F.AUD_STATUS_DROPPED [] 1).writeSelector x.active x.trySlot (x.tries - 1)
    else s
  let rest := [x.active, if x.active = 0 then 1 else otherSlot x.active, 2]
  (((if tries then x.trySlot :: rest else rest).find? s.slotValid).getD 0, s)

/-- A slot's image runs: its versions are shown, REPRO_SIG takes its major version (REPRO_SIG), and OPLITH_VER is the version
that links take next (R310, R317). Slot 0 is none. -/
def State.runImage (s : State) (slot : Nat) : State :=
  let h := if slot = 0 then [] else s.slotHeader slot
  let s := s.fsets [] [(F.FW_STATUS_RUN_SLOT, slot), (F.FW_STATUS_FW_MAJOR, bits (hdrWord h 0) 31 16),
    (F.FW_STATUS_FW_MINOR, bits (hdrWord h 0) 15 0), (F.FW_STATUS_SVN, imageSvn h)]
  if slot = 0 then s else { s with fab := { s.fab with version := bits (hdrWord h 1) 23 16 } }

end Sys2Proof.Machine
end

