-- ==== Sys2Proof/Machine/RidgeCmds.lean ====
section
/-! DEFINITION. The Ridge's commands (R404 to R431): events, windows, forced faults, watchdogs, termination and fast re-entry, and
the grave state. -/

namespace Sys2Proof.Machine

/-! ### Events and windows -/

/-- The codes whose Force in R406 is BLK (level 0), DFU (level 1) or RDG (level 2), which are those of the Level that handles them. -/
def forceable (level c : Nat) : Bool :=
  match level with
  | 0 => c == 0x50 || (0x60 ≤ c && c ≤ 0x68) || c == 0x70
  | 1 => [0x50, 0x52, 0x53, 0x54, 0x62, 0x63].contains c || (0x71 ≤ c && c ≤ 0x76) || (0x80 ≤ c && c ≤ 0x87) ||
      (0x90 ≤ c && c ≤ 0x97) || (0xA0 ≤ c && c ≤ 0xA3) || (0xD4 ≤ c && c ≤ 0xD6)
  | _ => (0x31 ≤ c && c ≤ 0x34) || (0x40 ≤ c && c ≤ 0x47) || [0x50, 0x51].contains c || (0x55 ≤ c && c ≤ 0x58) ||
      (0xA4 ≤ c && c ≤ 0xAB) || (0xB0 ≤ c && c ≤ 0xBA) || (0xC0 ≤ c && c ≤ 0xCA) || (0xD0 ≤ c && c ≤ 0xD3) ||
      c == 0xD7 || c == 0xDE

/-- Whether SUB names a unit of District `d` for a code (R521). -/
def State.subNames (s : State) (d c sub : Nat) : Bool :=
  if c = 0x50 then sub ≤ 63 || (0x100 ≤ sub && sub ≤ 0x102)
  else if c = 0x62 || c = 0x63 then sub ≤ 63
  else if c = 0x95 || c = 0xD6 then sub ≤ 4095
  else if 0xA0 ≤ c && c ≤ 0xA2 then sub < 256 && sub / 64 == d
  else if c = 0xA3 then sub ≤ 1
  else if c = 0xD4 then sub ≤ 255 && s.fuseEnabled (d * 256 + sub)
  else sub == 0

/-- Whether UNIT names a chip-level unit for a code (R521). -/
def unitNames (c u : Nat) : Bool :=
  if c = 0x50 then u ≤ 15
  else if [0x55, 0x57, 0x58, 0xD0, 0xD1].contains c then u ≤ 3
  else if [0x56, 0xD2].contains c then u ≤ 1
  else if [0xA4, 0xA5].contains c then u ≤ 63
  else if [0xA8, 0xA9].contains c then u ≤ 7
  else if [0xB0, 0xB1, 0xB3, 0xB8].contains c then u ≤ 35
  else if c = 0xB2 then u ≤ 143
  else if [0xB4, 0xB5, 0xB6].contains c then u ≤ 35 || u == 0x3F
  else if c = 0xC9 then u ≤ 30
  else u == 0

/-- Whether an event is one of R406: a code at a level that handles it, and a unit that R521 names for it. A fused Block raises none
(R2). -/
def State.eventNamed (s : State) (e : Event) : Bool :=
  !s.atFused e && match e.level with
    | 0 => forceable 0 e.code && e.unit < 1024
    | 1 => forceable 1 e.code && e.unit < 2 ^ 16 && s.subNames (e.unit / 2 ^ 14) e.code (e.unit % 2 ^ 14)
    | 2 => (forceable 2 e.code || (0xD8 ≤ e.code && e.code ≤ 0xDD)) && unitNames e.code e.unit
    | _ => false

/-- An uncorrectable error in the central pool (R354) under the packet at place `n` of those that the switch holds: captured and logged, and
the packet goes on with a check that fails at its destination, which may be this device. -/
def State.poolError (s : State) (n : Nat) : State :=
  match s.fab.sw[n]? with
  | none => s
  | some q =>
    let s := s.fabErr 0xBA (portOr q.inp) 0 q.pkt.src q.pkt.pkey
    if q.out.isNone then (s.swDrop n).fabErr 0xB6 0x3F 0 q.pkt.src q.pkt.pkey
    else s.updFab (fun f => { f with sw := f.sw.modify n (fun q => { q with pkt := { q.pkt with check := q.pkt.check ^^^ 1 } }) })

/-- FAULT_LOG (R404): an event that a unit has detected and captured reaches the Ridge. Of 0xBA, `aux` is the place of the packet that it
meets. What is no event of R406 does not reach it (assumption 116). -/
def execFaultLog (e : Event) (now : Nat) (s : State) : Host.Outcome State Fault Refusal :=
  let s := s.at now
  .next (if !s.eventNamed e then s
    else if e.code = 0xBA && (s.fab.sw[e.aux]?).isSome then s.poolError e.aux
    else s.raiseEv e)

/-- The windows of R418, in ns, with the kinds of units that each counts: a day, an hour, a minute and a millisecond. The hour counts
the HBM4 rows too. -/
def windows : List (Nat × List Nat) :=
  [(86400000000000, [1, 2, 3, 4, 5]), (3600000000000, [7]), (60000000000, [8]), (1000000, [6])]

/-- RETIREMENT_WINDOW_END (R418): windows run back to back from cold reset, and each count starts again at a boundary. -/
def execRetirementWindowEnd (w : Fin 4) (now : Nat) (s : State) : Host.Outcome State Fault Refusal :=
  let s := s.at now
  match windows[w.val]? with
  | some (len, kinds) =>
    if s.now % len = 0 then
      .next { s with
        ridge := { s.ridge with counts := s.ridge.counts.filter (fun p => !kinds.contains (p.1 / 2 ^ 16)) },
        t1 := { s.t1 with rows := if w = 1 then [] else s.t1.rows } }
    else .next s
  | none => .next s

/-! ### Forced faults (R407, R408, R521) -/

/-- The codes that a write of word `w` of a force register raises, ascending. -/
def forcedCodes (level w v : Nat) : List Nat :=
  ((List.range 64).filter (fun b => v.testBit b && forceable level (64 * w + b))).map (64 * w + ·)

/-- Whether every code of a write has its unit named. -/
def State.forceOk (s : State) (level d w v unit : Nat) : Bool :=
  (forcedCodes level w v).all (fun c => match level with
    | 0 => true
    | 1 => s.subNames d c unit
    | _ => unitNames c unit)

/-- The capture register of a forced event takes zero data fields (R408): Block and District level. -/
def State.captureUnit (s : State) (level c u : Nat) : State :=
  let d := u / 2 ^ 14
  if level = 0 then
    if 0x60 ≤ c && c ≤ 0x68 then
      s.capture F.BLK_ERR_VALID F.BLK_ERR_OVERFLOW [u] [(F.BLK_ERR_CODE, c), (F.BLK_ERR_ADDR, 0)]
    else if c = 0x70 then
      (s.capture F.BLK_CHK_VALID F.BLK_CHK_OVERFLOW [u] [(F.BLK_CHK_TILE, 0), (F.BLK_CHK_COL_VALID, 0), (F.BLK_CHK_COL, 0)]).fsat
        F.BLK_CHK_COUNT [u] 1
    else s
  else if c = 0x53 then
    s.captureFirst F.CQ_ERR_VALID [d] [(F.CQ_ERR_REASON, 0), (F.CQ_ERR_QUEUE, 0), (F.CQ_ERR_SEQ, 0)]
  else if c = 0x62 || c = 0x63 then s.captureFirst F.DMA_CH_ERR_VALID [d, u % 64] [(F.DMA_CH_ERR_ADDR, 0)]
  else if 0x71 ≤ c && c ≤ 0x76 then
    let s := if c = 0x71 then
        (s.capture F.GA_CHK_VALID F.GA_CHK_OVERFLOW [d] [(F.GA_CHK_TILE, 0), (F.GA_CHK_COL_VALID, 0), (F.GA_CHK_COL, 0)]).fsat
          F.GA_CHK_COUNT [d] 1
      else s
    s.capture F.GA_ERR_VALID F.GA_ERR_OVERFLOW [d] [(F.GA_ERR_CODE, c), (F.GA_ERR_REASON, 0), (F.GA_ERR_INDEX, 0)]
  else if 0x80 ≤ c && c ≤ 0x87 then
    s.capture F.RE_ERR_VALID F.RE_ERR_OVERFLOW [d] [(F.RE_ERR_CODE, c), (F.RE_ERR_REASON, 0), (F.RE_ERR_JOB, 0), (F.RE_ERR_DETAIL, 0)]
  else if 0x90 ≤ c && c ≤ 0x97 then
    let s := if c = 0x95 then
        (s.capture F.SQ_ERR_VALID F.SQ_ERR_OVERFLOW [d] [(F.SQ_ERR_PRIV, 0), (F.SQ_ERR_LOT, 0), (F.SQ_ERR_LINE, 0)]).fsat
          F.SQ_ECC_UNCORRECTED [d] 1
      else s
    s.capture F.RM_ERR_VALID F.RM_ERR_OVERFLOW [d] [(F.RM_ERR_CODE, c), (F.RM_ERR_REASON, 0), (F.RM_ERR_LAYER, 0),
      (F.RM_ERR_EXPERT, 0)]
  else if c = 0xA0 || c = 0xA3 then
    s.capture F.HBM_ERR_VALID F.HBM_ERR_OVERFLOW [d] [(F.HBM_ERR_CODE, c), (F.HBM_ERR_SLOT, 0), (F.HBM_ERR_ADDR, 0)]
  else s

/-- The same at chip level. -/
def State.captureChip (s : State) (c u : Nat) : State :=
  if c = 0x34 then
    if s.fget F.DECODE_ERR_INFO_VALID [] = 1 then s.fset F.DECODE_ERR_INFO_OVERFLOW [] 1
    else (s.rset .DECODE_ERR_ADDR [] 0).rset .DECODE_ERR_INFO [] (BitVec.ofNat 64 (2 ^ 31))
  else if c = 0xA4 || c = 0xA7 then
    s.capture F.T2_ERR_VALID F.T2_ERR_OVERFLOW [] [(F.T2_ERR_CODE, c), (F.T2_ERR_CHANNEL, 0), (F.T2_ERR_FROM_COPY, 0),
      (F.T2_ERR_OFFSET, 0)]
  else if c = 0xA8 || c = 0xA9 then
    s.capture F.FL_ERR_VALID F.FL_ERR_OVERFLOW [] [(F.FL_ERR_DRIVE, 0), (F.FL_ERR_CODE, c), (F.FL_ERR_NVME_STATUS, 0),
      (F.FL_ERR_LBA, 0)]
  else if (0xB0 ≤ c && c ≤ 0xB3) || c = 0xB8 then
    s.capture F.PORT_ERR_VALID F.PORT_ERR_OVERFLOW [if c = 0xB2 then u / 4 else u] [(F.PORT_ERR_CODE, c), (F.PORT_ERR_LANES, 0),
      (F.PORT_ERR_REASON, 0)]
  else if 0xB4 ≤ c && c ≤ 0xBA then
    s.capture F.FAB_ERR_VALID F.FAB_ERR_OVERFLOW [] [(F.FAB_ERR_CODE, c), (F.FAB_ERR_PORT, 0), (F.FAB_ERR_REASON, 0),
      (F.FAB_ERR_SRC_ID, 0), (F.FAB_ERR_PKEY, 0)]
  else if c = 0xC9 then
    s.capture F.ALLEY_ERR_VALID F.ALLEY_ERR_OVERFLOW [] [(F.ALLEY_ERR_CODE, c), (F.ALLEY_ERR_PORT, 0)]
  else if 0xC0 ≤ c && c ≤ 0xCA then
    s.capture F.OPM_ERR_VALID F.OPM_ERR_OVERFLOW [] [(F.OPM_ERR_CODE, c), (F.OPM_ERR_REASON, 0), (F.OPM_ERR_TENANCY, 0),
      (F.OPM_ERR_SRC_ID, 0), (F.OPM_ERR_KEY, 0)]
  else s

/-- The Tenancy whose step a forced event at a unit applies to: the one whose step's data a Block, a Great Array or a Routing Engine's
SRAM holds (R412), the running one where it uses the unit, or where a chip-level code acts on a step. -/
def State.unitTen (s : State) (level c u : Nat) : Nat :=
  if level = 0 then s.stepOfBlock u
  else if level = 1 && (c = 0x72 || c = 0x73 || c = 0x82) then s.stepOfDist (u / 2 ^ 14)
  else if level = 1 then
    match s.ten s.tick.cur with
    | some v => if v.districts.contains (u / 2 ^ 14) then s.tick.cur else 0
    | none => 0
  else match codeAct c 0 with
    | .log => 0
    | .terminate => 0
    | .retire => 0
    | .held => 0
    | _ => s.tick.cur

/-- What a forced event does at its Block or District besides its action, as its unit does on detecting it (R408, assumption 117). -/
def State.forceUnit (s : State) (level c u : Nat) : State :=
  if level = 0 then
    if c = 0x60 || c = 0x61 || c = 0x68 then s.programDone u
    else if c = 0x66 then s.blkPend u 6
    else if c = 0x67 then s.poisonTiles u [0]
    else s
  else if c = 0x73 then s.rbit .GA_POISON [u / 2 ^ 14] 0 true
  else if c = 0xA3 then (s.fset F.PWR_STATUS_CAUSE_HBM [] 1).noteCause
  else s

/-- The same at chip level. -/
def State.forceChip (s : State) (c u : Nat) : State :=
  if c = 0x42 then (s.fset F.ALIGN_STATUS_LOST [] 1).srcEvent (.shared 68)
  else if c = 0x43 then
    match s.ten s.tick.cur, s.run s.tick.cur with
    | some v, some r => if s.unfinished s.tick.cur && !r.overrun && r.mark.isNone then s.overrunStep s.tick.cur v else s
    | _, _ => s
  else if c = 0xA9 then s.driveGone u
  else if c = 0xAB then s.fset F.T2_RETAIN_VALID [] 0
  else if c = 0xB1 then (if s.portLinked u then s.portFalls u else s)
  else if c = 0xB2 then
    if s.portActive (u / 4) && (s.fget F.PORT_STATUS_LANES_ACTIVE [u / 4]).testBit (u % 4) then
      (s.fset F.LANE_STATUS_GOOD [u / 4, u % 4] 0).narrowPort (u / 4)
    else s
  else if c = 0xB3 then s.rerouteFrom u
  else if c = 0xC9 then
    if s.fget F.ALLEY_STATUS_UP [u] = 1 then (s.fset F.ALLEY_STATUS_UP [u] 0).srcEvent (.shared (132 + u)) else s
  else s

/-- One forced event (R408): captured with zero data fields, and handled as though its unit had detected it. -/
def State.forceEvent (s : State) (level u : Nat) (count : Bool) (c : Nat) : State :=
  let ten := s.unitTen level c u
  let s := if level = 2 then s.captureChip c u else s.captureUnit level c u
  let s := s.raiseEv { code := c, level := level, unit := u, ten := ten, detail := if c = 0x34 then 2 ^ 31 else 0, dataErr := true }
    true count
  if level = 2 then s.forceChip c u else s.forceUnit level c u

/-- An accepted write of RIDGE_FORCE. -/
def State.ridgeForce (s : State) (w v : Nat) : State :=
  let u := s.fget F.FORCE_UNIT_UNIT []
  let count := s.fget F.FORCE_UNIT_COUNT [] == 1
  (forcedCodes 2 w v).foldl (fun s c => s.forceEvent 2 u count c) s

/-- An accepted write of DFU_FORCE of a District. -/
def State.dfuForce (s : State) (d w v : Nat) : State :=
  let u := d * 2 ^ 14 + s.fget F.DFU_FORCE_UNIT_SUB [d]
  let count := s.fget F.DFU_FORCE_UNIT_COUNT [d] == 1
  (forcedCodes 1 w v).foldl (fun s c => s.forceEvent 1 u count c) s

/-- An accepted write of BLK_FORCE of a Block. -/
def State.blkForce (s : State) (b w v : Nat) : State :=
  let count := s.fget F.DFU_FORCE_UNIT_COUNT [b / 256] == 1
  (forcedCodes 0 w v).foldl (fun s c => s.forceEvent 0 b count c) s

/-- A grave code written to GRAVE_FORCE. -/
def State.graveForce (s : State) (c : Nat) : State := s.raiseEv { code := c } true

/-- An accepted write of RET_CLEAR: the unit leaves the retirement record, and stays retired until the next cold reset (R422). -/
def State.retClear (s : State) (v : Nat) : State :=
  { s with ridge := { s.ridge with record := s.ridge.record.filter (· != unitKey (bits v 31 28) (bits v 15 0)) } }

/-- Whether RET_CLEAR names a unit of the record. -/
def State.retClearOk (s : State) (v : Nat) : Bool :=
  1 ≤ bits v 31 28 && bits v 31 28 ≤ 4 && s.ridge.record.contains (unitKey (bits v 31 28) (bits v 15 0))

/-! ### Watchdogs (R423) -/

/-- KICK restarts a watchdog's count: 0 to 3 the DCCs, 4 the CCC. -/
def State.kick (s : State) (c : Nat) : State := { s with ridge := { s.ridge with wdog := KMap.set 0 s.ridge.wdog c 0 } }

/-- DFU_WDOG_EXPIRY (R423): the L1 time of a DCC outside WFI exceeds its limit. -/
def execDfuWdogExpiry (d : Dist) (now : Nat) (s : State) : Host.Outcome State Fault Refusal :=
  let s := s.at now
  if s.fget F.DFU_WDOG_EN [d] = 1 && s.fget F.DFU_WDOG_LIMIT_US [d] * 1000 < KMap.get 0 s.ridge.wdog d then
    .next ((s.kick d).chipEv 0x58 d)
  else .next s

/-- CCC_WDOG_EXPIRY (R423): the time since the last KICK exceeds the limit. -/
def execCccWdogExpiry (now : Nat) (s : State) : Host.Outcome State Fault Refusal :=
  let s := s.at now
  if s.fget F.CCC_WDOG_EN [] = 1 && s.fget F.CCC_WDOG_LIMIT_US [] * 1000 < KMap.get 0 s.ridge.wdog 4 then
    .next ((s.kick 4).chipEv 0xD2)
  else .next s

/-! ### Termination and fast re-entry (R424 to R427) -/

/-- Sets STATE; out of BOOT no private instruction of the test access port is in force (R517). -/
def State.setRidge (s : State) (x : Nat) : State :=
  let s := s.fset F.RIDGE_STATUS_STATE [] x
  if x = 5 then s else s.tapStop

/-- A cancel applies to every message of every Tenancy (R369, R424). -/
def State.cancelAll (s : State) : State :=
  s.tenIds.foldl (fun s t => s.dropFabric t) s

/-- Every Tenancy ends without commit and without result records; its Ward lease lapses and its seals go. -/
def State.endTenancies (s : State) : State :=
  s.tenIds.foldl (fun s t => (s.updTen t (fun v => { v with run := none, stash := none })).tearDown t) s

/-- A CREATE or a DESTROY that was under way has had its effect. -/
def TenCmd.settle (c : TenCmd) : TenCmd := { c with result := some (c.result.getD 0) }

/-- Steps 1 to 3 of R424: nothing issues, messages are cancelled, work in flight is abandoned, and every Tenancy ends. -/
def State.terminateNow (s : State) (why : Nat) : State :=
  let s := (s.setRidge 1).cancelAll
  let s := { s with
    tick := { s.tick with cur := 0, switch := none, urgent := none, urgentChannel := none, suspending := none, extend := 0,
                          replays := [], cmd := s.tick.cmd.map TenCmd.settle } }
  let s := s.endTenancies
  let s := [0, 1, 2, 3].foldl (fun s c => s.updCore c CoreSt.leaveStep) s
  let s := { s with
    dists := [], blks := [], dma := [], posts := [], merge := [],
    fl := { s.fl with cmds := s.fl.cmds.map (fun (c : NvmeCmd) => { c with waits := false }) },
    shp := { s.shp with waiting := [], issued := [] },
    ridge := { s.ridge with terminate := false, why := why } }
  s.setPend 57

/-- Fast re-entries of the last hour (R427). -/
def State.recentReentries (s : State) : List Nat := s.ridge.reentries.filter (fun t => s.now < t + 3600000000000)

/-- What a register of the compute dies keeps through fast re-entry, as its difference from reset: the counts since cold reset,
the stack registers and the District fault unit (R425). -/
def keptReg (p : Nat × W64) : Option (Nat × W64) :=
  let l := p.1 % 0x800000
  let part := fun (hi lo : Nat) =>
    let x := BitVec.ofNat 64 (bits p.2.toNat hi lo * 2 ^ lo)
    if x = 0 then none else some (p.1, x)
  if p.1 < 0x2000000 || 0x4000000 ≤ p.1 then some p
  else if l = 0x50010 then part 31 16
  else if l = 0x80018 then part 47 32
  else if 0x60000 ≤ l && l < 0x80000 then (if l = 0x60030 then none else some p)
  else if 0x90000 ≤ l && l < 0xA0000 then some p
  else if 0x400000 ≤ l && l % 0x4000 = 0x40 then part 47 32
  else none

/-- Clears the active states and events of the sources whose core restarts; those that target the host keep them (R438, R457). -/
def State.clearSources (s : State) : State :=
  let ccc := [4, 5].flatMap (fun c => (List.range' 1 63).map (Src.priv c))
  let sh := ((List.range' 64 448).filter (fun n => s.fget F.SRC_SH_TARGET [n] != 6)).map Src.shared
  let s := (ccc ++ sh).foldl (fun s x => if s.rget x.reg x.ix = x.reg.rst x.ix then s else (s.srcClear x).fset (x.f 23 23) x.ix 0) s
  { s with ic := { firstT := s.ic.firstT.filter (fun p => p.1 < 0x2000000), deferred := [] } }

/-- The fabric-preserving reset for the fabric (R345): completion records and TEN_PKEY go, and the device's own requests are
dropped without completion. -/
def State.fabricReset (s : State) : State :=
  let s := s.resetRegs (RegName.addr .TEN_PKEY [1]) 0x1F8
  s.updFab (fun f => { f with
    records := [], reqs := [], pkeys := [], xlat := [], colls := [], streams := [], barriers := [], gens := [], leaseNs := [],
    puts := [], sw := f.sw.filter (fun q => q.req.isNone && q.coll.isNone) })

/-- The compute dies and the cores lose their state: memories on the dies, registers, sources, caches (R425). -/
def State.clearDies (s : State) : State :=
  let s := s.clearSources
  { s with
    cores := [], dists := [], blks := [], regs := s.regs.filterMap keptReg, poolMin := [], margin := [],
    squares := (s.squares.map (fun p => (p.1, { p.2 with map := [], copies := [], borrow := 1024 }))).filter
      (fun p => p.2 != ({} : SquareSt)),
    mem := KMap.clear s.mem (squareBase 0) (t3Base - squareBase 0),
    badWords := KMap.clear s.badWords (squareBase 0) (t3Base - squareBase 0),
    weakWords := KMap.clear s.weakWords (squareBase 0) (t3Base - squareBase 0) }

/-- Every reset clears the EN bits of the watchdogs and their counts (R423). -/
def State.stopWatchdogs (s : State) : State :=
  let s := [0, 1, 2, 3].foldl (fun s d => s.fset F.DFU_WDOG_EN [d] 0) (s.fset F.CCC_WDOG_EN [] 0)
  { s with ridge := { s.ridge with wdog := [] } }

/-- Step 5 of R424: the fabric-preserving reset. The device is in Transit and STATE is REENTRY. -/
def State.reenter (s : State) : State :=
  let fault := s.ridge.why == 4
  let s := s.dropFwWrite
  let s := { s with ridge := { s.ridge with
    terminate := false, hold := false, reentries := if fault then s.now :: s.recentReentries else s.ridge.reentries } }
  let s := (s.fabricReset.clearDies.stopWatchdogs).setRidge 2
  let s := [4, 5].foldl (fun s c => s.fset F.CORE_CTRL_RUN [c] 0) s
  s.fsets [] [(F.FAB_ROLE_TRANSIT_NOW, 1), (F.RST_CAUSE_KIND, 3), (F.RST_CAUSE_SOURCE, s.ridge.why)]

/-- The registers that hold stated values when STATE becomes RUN (R520). -/
def State.enterRun (s : State) : State :=
  let s := [0, 1, 2, 3, 4, 5].foldl (fun s c =>
    let was := s.fget F.CORE_CTRL_RUN [c] == 1
    ((s.fset F.CORE_CTRL_RUN [c] 1).fset F.CORE_CTRL_HALT_REQ [c] 0).updCore c (fun k => { k with
      bornCycles := if was then k.bornCycles else s.ridge.cycles })) s
  let s := [0, 1, 2, 3].foldl (fun s d => (s.fset F.DFU_WDOG_EN [d] 1).fset F.GA_CTRL_HALT_REQ [d] 0) s
  let s := s.fset F.CCC_WDOG_EN [] 1
  let s := { s with ridge := { s.ridge with wdog := [] }, pins := { s.pins with silent := false } }
  let s := s.setRidge 0
  s.fset F.FAB_ROLE_TRANSIT_NOW [] (s.fget F.FAB_ROLE_TRANSIT [])

/-- Units that fail self-test are retired (R420, R422); a fused Block is not tested (R2). -/
def State.selfTest (s : State) (fails : List Nat) : State :=
  (fails.filter (fun k => 1 ≤ k / 2 ^ 16 && k / 2 ^ 16 ≤ 3 && (k / 2 ^ 16 != 1 || s.fuseEnabled (k % 2 ^ 16)))).foldl (fun s k =>
    if s.ridge.decided.contains k then s else s.decideRetire k) s

/-- Steps 6 to 10 of R424: the slot is chosen and checked, T1 is zeroed, the units are tested, the retirement maps are applied, and
the device runs again. With no valid slot it stays in BOOT (R496). -/
def State.reentryEnd (s : State) (fails : List Nat) : State :=
  let q := s.chooseSlot
  let s := q.2.runImage q.1
  let s := s.rawZero 0 0x6000000000
  if q.1 = 0 then (s.setRidge 5).showSlots
  else
    let s := (s.selfTest fails).retireUnits
    let s := ([0, 1, 2, 3].filter s.gaRetired).foldl (fun s d => s.fset F.GA_STATUS_EMULATED [d] 1) s
    let s := s.showSlots.enterRun
    let s := (List.range 36).foldl (fun s p => if s.fab.version = s.fab.advertised then s else s.announceVersion p) s
    (s.updFab (fun f => { f with advertised := f.version })).setPend 56

/-- TERMINATION (R424, R426, R427, R430): the next stage of the sequence that a termination code or a reset request has started:
steps 1 to 3, steps 4 and 5, or steps 6 to 10. `fails` names the units that fail self-test. -/
def execTermination (fails : List Nat) (now : Nat) (s : State) : Host.Outcome State Fault Refusal :=
  let s := s.at now
  let st := s.fget F.RIDGE_STATUS_STATE []
  if s.ridge.powerFail then .next s
  else if (st = 0 || st = 5) && s.ridge.terminate then .next (s.terminateNow 4)
  else if st = 1 then
    let limit := s.ridge.why == 4 && (s.fget F.RIDGE_CTRL_AUTO_REENTRY [] == 0 ||
      s.fget F.RET_LIMITS2_REENTRY_MAX [] ≤ s.recentReentries.length)
    let held := (s.setRidge 3).fset F.FAB_ROLE_TRANSIT_NOW [] 1
    .next (if s.ridge.hold then held else if limit then held.chipEv 0xD7 else s.reenter)
  else if st = 2 then .next (s.reentryEnd fails)
  else .next s

/-- A write of RELEASE continues a HELD device at step 5 (R427). -/
def State.release (s : State) : State := if s.fget F.RIDGE_STATUS_STATE [] = 3 && !s.ridge.powerFail then s.reenter else s

/-! ### The grave state -/

/-- The words of the grave snapshot: FIRST, the history queue, RIDGE_STATUS. -/
def State.snapshot (s : State) : List Nat :=
  (List.range 4).map (fun w => (s.rget .FIRST [w]).toNat) ++
    (List.range 32).flatMap (fun k => (List.range 4).map (fun w => (s.rget .HIST [k, w]).toNat)) ++
    [(s.rget .RIDGE_STATUS []).toNat + min 15 s.recentReentries.length * 2 ^ 32]

/-- GRAVE_EVENT (R428, R430): the device stops and goes silent. `saved` tells whether the snapshot's marker is written. -/
def execGraveEvent (saved : Bool) (now : Nat) (s : State) : Host.Outcome State Fault Refusal :=
  let s := s.at now
  match s.ridge.grave with
  | none => .next s
  | some c =>
    let s := { s with ridge := { s.ridge with grave := none, terminate := false } }
    if s.fget F.RIDGE_STATUS_STATE [] = 4 then .next s
    else
      let s := (s.cancelAll.setRidge 4).fset F.RIDGE_STATUS_GRAVE_CODE [] c
      let s := { s with pins := { s.pins with silent := true }, tick := { s.tick with outUntil := 0 },
                        ridge := { s.ridge with graveN := false } }
      .next (if saved then { s with ridge := { s.ridge with snap := some s.snapshot } } else s)

end Sys2Proof.Machine
end

