-- ==== Sys2Proof/Machine/RoleCmds.lean ====
section
/-! DEFINITION. Roles, keys, the audit journal and sealing (R464 to R479). -/

namespace Sys2Proof.Machine

/-! ### Roles (R470 to R473) -/

/-- The role of a key slot (R474): 3 Maker, 2 Installer, 1 Operator. -/
def slotRole (slot : Nat) : Nat := if slot = 0 then 3 else if slot ≤ 2 then 2 else 1

/-- Queues an entry that records no register write. With a full queue it is lost and counted. -/
def State.journalOther (s : State) (agent role kind slot detail object : Nat) : State :=
  if s.journalRoom then s.journal agent role kind slot detail 0 object 0 0 else s.fsat F.AUD_STATUS_DROPPED [] 1

/-- A lock-out that has lasted 60 s ends, and FAILS returns to 0 (R473). -/
def State.endLock (s : State) (a : Nat) : State :=
  if (s.agentSt a).lockNs != 0 && (s.agentSt a).lockNs ≤ s.now then
    (s.updAgent a (fun x => { x with lockNs := 0 })).fsets [a] [(F.ROLE_STATUS_LOCKED, 0), (F.ROLE_STATUS_FAILS, 0)]
  else s

/-- An outcome of R473: it is shown, journaled, counted, and logged when it is a failure. -/
def State.roleOutcome (s : State) (a role slot result : Nat) : State :=
  let s := (s.fset F.ROLE_STATUS_RESULT [a] result).journalOther a role 2 slot result slot
  let fails := s.fget F.ROLE_STATUS_FAILS [a] + 1
  let s := if 2 ≤ result && result ≤ 6 then s.fset F.ROLE_STATUS_FAILS [a] fails else s
  let s := if 2 ≤ result && result ≤ 6 && 8 ≤ fails then
      (s.updAgent a (fun x => { x with lockNs := s.now + 60000000000 })).fset F.ROLE_STATUS_LOCKED [a] 1
    else s
  if 2 ≤ result && result ≤ 7 then s.chipEv 0x31 else s

/-- GO: a fresh challenge replaces any pending one (R472). -/
def State.roleGo (s : State) (a role slot : Nat) : State :=
  let s := s.endLock a
  if (s.agentSt a).lockNs != 0 then s.roleOutcome a role slot 7
  else
    let c := (Config.challenge s.free).toNat
    let s := s.updAgent a (fun x => { x with challenge := some c, challengeNs := s.now })
    let s := (List.range 6).foldl (fun s i => s.fset F.ROLE_CHALLENGE_BYTES [a, i] (c / 2 ^ (64 * (5 - i)) % 2 ^ 64)) s
    ((s.fadd F.ROLE_STATUS_REQ_ID [a] 1).fset F.ROLE_STATUS_PENDING [a] 1).tickFree

/-- The 72 bytes that an agent signs (R472). -/
def State.roleMessage (s : State) (a role slot challenge : Nat) : List Byte :=
  beBytes 16 s.fuses.serial ++ beBytes 48 challenge ++
    [BitVec.ofNat 8 role, BitVec.ofNat 8 slot, BitVec.ofNat 8 a, 0] ++ beBytes 4 (s.fget F.ROLE_STATUS_REQ_ID [a])

/-- Half of ROLE_RESP as a number: r from word 0, s from word 6. -/
def State.roleResp (s : State) (a first : Nat) : Nat :=
  (List.range 6).foldl (fun n i => n * 2 ^ 64 + s.fget F.ROLE_RESP_BYTES [a, first + i]) 0

/-- The result of VERIFY (R473). -/
def State.verifyResult (s : State) (a role slot : Nat) : Nat :=
  let x := s.agentSt a
  if x.lockNs != 0 then 7
  else match x.challenge with
    | none => 3
    | some c =>
      if x.challengeNs + 10000000000 < s.now then 4
      else match KMap.get none s.sec.keys slot with
        | none => 5
        | some (kx, ky) =>
          if slotRole slot != role then 6
          else if ecdsaValid kx ky (s.roleResp a 0) (s.roleResp a 6) (s.roleMessage a role slot c) then 1 else 2

/-- VERIFY: the challenge is used, and the session starts or a failure is recorded. -/
def State.roleVerify (s : State) (a role slot : Nat) : State :=
  let s := s.endLock a
  let r := s.verifyResult a role slot
  let s := (s.updAgent a (fun x => { x with challenge := none })).fset F.ROLE_STATUS_PENDING [a] 0
  let s := if r = 1 then
      (s.updAgent a (fun x => { x with
        sessions := x.sessions.filter (fun y => y.role != role) ++
          [⟨role, slot, s.now + s.fget F.ROLE_CFG_TTL_S [] * 1000000000⟩] })).fset F.ROLE_STATUS_FAILS [a] 0
    else s
  s.roleOutcome a role slot r

/-- DROP: the agent's session of the role ends. -/
def State.roleDrop (s : State) (a role : Nat) : State :=
  match (s.agentSt a).sessions.find? (fun x => x.role == role && s.now < x.endNs) with
  | some y =>
    (s.updAgent a (fun x => { x with sessions := x.sessions.map (fun z => if z.role = role then z.endAt s.now else z) })).roleOutcome
      a role y.slot 8
  | none => s

/-- CHALLENGE_EXPIRY (R472): 10 s after it was issued, a challenge is no longer pending. -/
def execChallengeExpiry (a : Fin 3) (now : Nat) (s : State) : Host.Outcome State Fault Refusal :=
  let s := s.at now
  let x := s.agentSt a
  .next (if x.challenge.isSome && x.challengeNs + 10000000000 < s.now then s.fset F.ROLE_STATUS_PENDING [a.val] 0 else s)

/-- SESSION_EXPIRY (R471): TTL_S after it was granted, a session ends. -/
def execSessionExpiry (a : Fin 3) (role : Fin 4) (now : Nat) (s : State) : Host.Outcome State Fault Refusal :=
  let s := s.at now
  .next (s.updAgent a (fun x => { x with
    sessions := x.sessions.filter (fun y => y.role != role.val || s.now ≤ y.endNs) }))

/-- LOCKOUT_END (R473). -/
def execLockoutEnd (a : Fin 3) (now : Nat) (s : State) : Host.Outcome State Fault Refusal := .next ((s.at now).endLock a)

/-! ### Keys (R474) -/

/-- The role that enrols a slot's key. -/
def enroller (slot : Nat) : Role := if slot ≤ 2 then .maker else .installer

/-- The key in KEY_DATA: X then Y. -/
def State.keyData (s : State) : Nat × Nat :=
  let w := fun k => (List.range 6).foldl (fun n i => n * 2 ^ 64 + s.fget F.KEY_DATA_BYTES [k + i]) 0
  (w 0, w 6)

/-- Shows which slots hold a key. -/
def State.showKeys (s : State) : State :=
  s.fset F.KEY_STATUS_LOADED [] ((List.range 8).foldl (fun a k => a + (KMap.get none s.sec.keys k).isSome.toNat * 2 ^ k) 0)

/-- The sessions of an agent that a slot's key granted end. -/
def AgentSt.without (x : AgentSt) (slot now : Nat) : AgentSt :=
  { x with sessions := x.sessions.map (fun y => if y.slot = slot then y.endAt now else y) }

/-- GO of KEY_CTL by an agent that holds the enrolling role: the key in KEY_DATA enrols, or with zeros revokes, the slot. A
revoked key ends the sessions that it granted. The key sector is written once the journal entry is committed. -/
def State.keyGo (s : State) (w : Writer) (slot : Nat) : State :=
  let role := enroller slot
  let k := s.keyData
  let by_ := (KMap.get none s.sec.keys (s.roleSlot w role)).getD (0, 0)
  let gone := k.1 == 0 && k.2 == 0
  let s := s.journal ((writerAgent w).getD 0) role.num 3 (s.roleSlot w role) 0 0 slot 0 0
  let seq := s.sec.lastSeq
  let s := { s with sec := { s.sec with
    keys := KMap.set none s.sec.keys slot (if gone then none else some k),
    agents := if gone then s.sec.agents.map (fun (p : Nat × AgentSt) => (p.1, p.2.without slot s.now)) else s.sec.agents,
    keyPend := some (slot, if gone then none else some ⟨k.1, k.2, by_.1, by_.2⟩), keySeq := seq } }
  (s.fsets [] [(F.KEY_CTL_BUSY, 1), (F.KEY_CTL_ERR, 0)]).showKeys

/-- An enrolment that is refused. -/
def State.keyRefused (s : State) : State := s.fset F.KEY_CTL_ERR [] 1

/-- KEY_SECTOR_WRITE (R474): once the enrolment's entry is committed. -/
def execKeySectorWrite (now : Nat) (s : State) : Host.Outcome State Fault Refusal :=
  let s := s.at now
  match s.sec.keyPend with
  | none => .next s
  | some (slot, e) =>
    if s.ridge.powerFail || s.sec.queue.any (fun j => j.headD 0 / 2 ^ 32 == s.sec.keySeq) then .next s
    else .next ({ s with sec := { s.sec with sector := KMap.set none s.sec.sector slot e, keyPend := none } }.fset
      F.KEY_CTL_BUSY [] 0)

/-- Whether a stored key is accepted, given those accepted so far (R474): the Maker's by its digest in fuses, another by a
signature that verifies under an accepted key of its enrolling role. -/
def keyAccepted (digest : Nat) (sofar : KMap (Option (Nat × Nat))) (slot : Nat) (k : KeyEntry) : Bool :=
  if slot = 0 then beNat (sha384 (beBytes 48 k.x ++ beBytes 48 k.y)) == digest
  else (List.range 3).any (fun e => slotRole e == (enroller slot).num && KMap.get none sofar e == some (k.byX, k.byY))

/-- The keys that the boot accepts from the key sector. -/
def State.loadKeys (s : State) : State :=
  let step := fun (acc : KMap (Option (Nat × Nat)) × Nat) (slot : Nat) =>
    match KMap.get none s.sec.sector slot with
    | some k => if keyAccepted s.fuses.makerDigest acc.1 slot k then (KMap.set none acc.1 slot (some (k.x, k.y)), acc.2)
      else (acc.1, acc.2 + 2 ^ slot)
    | none => acc
  let r := (List.range 8).foldl step ([], 0)
  ({ s with sec := { s.sec with keys := r.1 } }.fset F.KEY_STATUS_REJECTED [] r.2).showKeys

/-! ### The audit journal (R476 to R479) -/

/-- Where the journal lies in boot flash, and its pointer sector. -/
abbrev journalBase : Nat := 0x03E00000
abbrev pointerBase : Nat := 0x03E41000

/-- Whether a slot is wholly erased. -/
def State.slotErased (s : State) (k : Nat) : Bool := (s.flashRead (journalBase + 64 * k) 64).all (· == 0xFF)

/-- The slot that the next entry goes to: a sector is erased before its first slot, and a slot that is not erased is skipped. -/
def State.journalSlot (s : State) : Nat → Nat → Nat
  | 0, k => k
  | n + 1, k => let k := k % 4160; if k % 64 = 0 || s.slotErased k then k else s.journalSlot n (k + 1)

/-- The 56 bytes of words 0 to 6. -/
def entryBytes (e : JEntry) : List Byte := e.flatMap (leBytes 8)

/-- Programs the first `ops` operations of an entry into a slot: words 0 to 6, the CRC, the MARKER, the pointer record. -/
def State.program (s : State) (e : JEntry) (k ops : Nat) : State :=
  let a := journalBase + 64 * k
  let s := if k % 64 = 0 then s.flashErase a 4096 else s
  let s := if 1 ≤ ops then s.flashWrite a (entryBytes e) else s
  let s := if 2 ≤ ops then s.flashWrite (a + 56) (leBytes 4 (crc32c (entryBytes e))) else s
  let s := if 3 ≤ ops then s.flashWrite (a + 60) (leBytes 2 0x5AA5) else s
  if 4 ≤ ops then
    let full := s.sec.ptr = 512
    let s := if full then s.flashErase pointerBase 4096 else s
    let p := if full then 0 else s.sec.ptr
    let s := s.flashWrite (pointerBase + 8 * p) (leBytes 8 (e.headD 0 / 2 ^ 32 * 2 ^ 32 + k))
    { s with sec := { s.sec with ptr := p + 1 } }
  else s

/-- Settings whose journal entry is committed are written to boot flash, and so is the boot selector (R475, R493, R499). -/
def State.saveSettings (s : State) (seq : Nat) : State :=
  let due := s.fw.waiting.filter (fun x => x.1 == seq)
  { s with fw := { s.fw with
    waiting := s.fw.waiting.filter (fun x => x.1 != seq),
    saved := due.foldl (fun m (x : Nat × Nat × W64) => KMap.set none m x.2.1 (some x.2.2)) s.fw.saved } }.selectNow seq true

/-- What waited for a journal entry that is given up is not written to boot flash (R474, R475). -/
def State.giveUp (s : State) (seq : Nat) : State :=
  let s := { s with fw := { s.fw with waiting := s.fw.waiting.filter (fun x => x.1 != seq) } }.selectNow seq false
  if s.sec.keyPend.isSome && s.sec.keySeq == seq then
    ({ s with sec := { s.sec with keyPend := none } }).fset F.KEY_CTL_BUSY [] 0
  else s

/-- JOURNAL_COMMIT (R477, R479): the engine commits the next queued entry. `bad` counts its attempts whose verify fails, of which
it retries one; an entry that fails twice is given up. Once POWER_FAIL_N has asserted, only `ops` operations are finished, or an
erase is abandoned that leaves `junk` in its sector, and the queued entries are lost. -/
def execJournalCommit (bad : Fin 3) (ops : Fin 5) (junk : List (BitVec 8)) (now : Nat) (s : State) :
    Host.Outcome State Fault Refusal :=
  let s := s.at now
  match s.sec.queue with
  | [] => .next s
  | e :: rest =>
    let k := s.journalSlot 4160 s.sec.head
    if s.ridge.powerFail then
      let s := if ops = 0 then (if k % 64 = 0 then s.flashWrite (journalBase + 64 * k) (junk.take 4096) else s) else s.program e k ops
      .next ({ s with sec := { s.sec with queue := [] }, fw := { s.fw with waiting := [], selPend := none } }.fset F.AUD_STATUS_QUEUED [] 0)
    else
      let fail := fun (s : State) (k : Nat) => (s.program e k 1).fset F.AUD_STATUS_FLASH_ERR [] 1
      let s := if 1 ≤ bad.val then fail s k else s
      let k := if 1 ≤ bad.val then s.journalSlot 4160 (k + 1) else k
      let s := if bad = 2 then fail s k else s.program e k 4
      let seq := e.headD 0 / 2 ^ 32
      let s := { s with sec := { s.sec with queue := rest, head := (k + 1) % 4160,
                                            committed := if bad = 2 then s.sec.committed else seq } }
      let s := s.fset F.AUD_STATUS_QUEUED [] rest.length
      .next (if bad = 2 then s.giveUp seq else s.saveSettings seq)

/-- Whether a slot holds a committed entry (R478), and its SEQ. -/
def State.slotEntry (s : State) (k : Nat) : Option Nat :=
  let l := s.flashRead (journalBase + 64 * k) 64
  if leNat ((l.drop 60).take 2) = 0x5AA5 && leNat ((l.drop 56).take 4) = crc32c (l.take 56) then some (leNat (l.take 8) / 2 ^ 32)
  else none

/-- The boot scan (R478): the head is the accepted slot with the highest SEQ. -/
def State.scanJournal (s : State) : State :=
  let best := (List.range 4160).foldl (fun (b : Option (Nat × Nat)) k =>
    match s.slotEntry k, b with
    | some q, some (m, _) => if m < q then some (q, k) else b
    | some q, none => some (q, k)
    | none, _ => b) none
  match best with
  | some (q, k) =>
    ({ s with sec := { s.sec with head := (k + 1) % 4160, committed := q } }).fset F.AUD_STATUS_NEXT_SEQ [] (q + 1)
  | none => { s with sec := { s.sec with head := 0, committed := 0 } }

/-- A write of SEQ to AUD_READ: the search, and its result (R476). -/
def State.audRead (s : State) (seq : Nat) : State :=
  let k := (List.range 4160).find? (fun k => s.slotEntry k == some seq)
  let word := fun w => match k with | some k => leNat (s.flashRead (journalBase + 64 * k + 8 * w) 8) | none => 0
  let s := (List.range 8).foldl (fun s w => s.fset F.AUD_DATA_WORD [w] (word w)) s
  s.fsets [] [(F.AUD_READ_SEQ, seq), (F.AUD_READ_DONE, 1), (F.AUD_READ_FOUND, k.isSome.toNat)]

/-! ### Sealing (R465) -/

/-- The range of a digest table entry that can be sealed. -/
def State.sealRange (s : State) (t n : Nat) : Option (Nat × Nat) :=
  match (s.ten t).bind (fun v => (v.digTab[n]?).join) with
  | some e => if e.invalid then none else some (e.base, bits e.word1 63 32)
  | none => none

/-- Whether DG_CMD accepts a command. -/
def State.sealOk (s : State) (op t n : Nat) : Bool :=
  s.fget F.DG_STATUS_BUSY [] == 0 && ((op == 1 && (s.sealRange t n).isSome) || op == 2)

def State.sealReject (s : State) : State := s.fset F.DG_STATUS_REJECT [] 1

/-- The journal entry of a SEAL or UNSEAL (R475): DETAIL and OBJECT name the entry. -/
def State.journalSeal (s : State) (w : Writer) (t n : Nat) : State :=
  s.journalOther ((writerAgent w).getD 0) 1 3 (s.roleSlot w .operator) (t * 256 + n) n

/-- SEAL: the range is sealed at once, and its hashing starts. -/
def State.sealStart (s : State) (w : Writer) (t n : Nat) : State :=
  match s.sealRange t n with
  | none => s.sealReject
  | some (b, pages) =>
    let k := t * 16 + n
    let s := s.journalSeal w t n
    let s := { s with sec := { s.sec with
      seals := KMap.set none s.sec.seals k (some none), sealed := KMap.set none s.sec.sealed k (some (b, pages * 4096)),
      sealing := some k } }
    s.fsets [] [(F.DG_STATUS_BUSY, 1), (F.DG_STATUS_PAGES_LEFT, pages)]

/-- UNSEAL: the entry's digest and sealing go, once a step of the Tenancy that has started has ended. -/
def State.unsealStart (s : State) (w : Writer) (t n : Nat) : State :=
  let s := s.journalSeal w t n
  let k := t * 16 + n
  if (match s.run t with | some r => r.ended.isNone | none => false) then
    ({ s with sec := { s.sec with unsealWait := some k } }).fset F.DG_STATUS_BUSY [] 1
  else s.unsealEntry k

/-- SEAL_COMPLETE (R465): the range has been read and hashed. A read that fails leaves the entry without a digest. -/
def execSealComplete (now : Nat) (s : State) : Host.Outcome State Fault Refusal :=
  let s := s.at now
  match s.sec.sealing with
  | none => .next s
  | some k =>
    if s.stopped then .next s
    else
      let s := { s with sec := { s.sec with sealing := none } }
      let s := s.fsets [] [(F.DG_STATUS_BUSY, 0), (F.DG_STATUS_PAGES_LEFT, 0)]
      match KMap.get none s.sec.seals k, KMap.get none s.sec.sealed k with
      | some none, some (b, n) =>
        let r := s.busRead deviceIssuer .rd b n
        .next (if r.1 = 0 then
            { r.2.2 with sec := { r.2.2.sec with seals := KMap.set none r.2.2.sec.seals k (some (some (beNat (sha256 r.2.1)))) } }
          else r.2.2)
      | _, _ => .next s

end Sys2Proof.Machine
end

