-- ==== Sys2Proof/Machine/PowerCmds.lean ====
section
/-! DEFINITION. Power, resets, boot and firmware (R289 to R291, R480 to R500, R507, R508, R520). -/

namespace Sys2Proof.Machine

/-! ### Rails and the throttle (R480 to R488) -/

/-- RAIL_OUT_OF_RANGE (R480, R482): a rail has left its range for 2 µs. `filtering` tells that POWER_FAIL_N is within its glitch
filter run. -/
def execRailOutOfRange (r : Fin 13) (filtering : Bool) (now : Nat) (s : State) : Host.Outcome State Fault Refusal :=
  let s := (s.at now).fset F.RAIL_STATUS_IN_RANGE [r.val] 0
  .next (if filtering || s.pins.powerFailLow || s.pins.porstLow then s else s.chipEv 0xDB)

/-- T2_PG_LOW (R483): the latch on VDD_AON is set. `decay` lists what T2 lost with its supplies. -/
def execT2PgLow (decay : List (Nat × BitVec 8)) (s : State) : Host.Outcome State Fault Refusal :=
  let s := { s with pwr := { s.pwr with t2pg := true } }
  .next ((decay.filter (fun c => t2Base ≤ c.1 && c.1 < 0x28000000000)).foldl (fun s c => s.rawWrite c.1 [c.2]) s)

/-- Whether an emergency condition holds (R487). -/
def State.emergency (s : State) : Bool :=
  (match s.pwr.overNs with | some t => t + 100000 ≤ s.now | none => false) ||
    s.pwr.tjOver || s.pins.isLow 3

/-- POWER_READING (R486 to R488): each rail's state, current and voltage, the power, and the hottest junction, against the limits as
they are now. An emergency condition that held until this reading, or holds from it, is noted. -/
def execPowerReading (rails : List (Bool × Nat × Nat)) (watts tj now : Nat) (s : State) : Host.Outcome State Fault Refusal :=
  let s := s.at now
  let was := s.emergency
  let s := (rails.take 13).zipIdx.foldl (fun (s : State) p => s.fsets [p.2]
    [(F.RAIL_STATUS_IN_RANGE, p.1.1.toNat), (F.RAIL_STATUS_CURRENT, p.1.2.1), (F.RAIL_STATUS_MV, p.1.2.2)]) s
  let limit := s.fget F.PWR_LIMIT_LIMIT_W []
  let crit := [0, 1, 2, 3].any (fun d => [0, 1].any (fun j => s.fget F.HBM_STATUS_CRIT [d, j] == 1))
  let s := s.fsets [] [(F.PWR_STATUS_POWER_W, min watts 0xFFFF), (F.PWR_STATUS_TJ_MAX_C, min tj 255),
    (F.PWR_STATUS_CAUSE_POWER, (limit < watts : Bool).toNat),
    (F.PWR_STATUS_CAUSE_TJ, (s.fget F.PWR_LIMIT_TJ_THROTTLE_C [] < tj : Bool).toNat), (F.PWR_STATUS_CAUSE_HBM, crit.toNat)]
  let hot := match s.pwr.hotNs with | some t => t + 10000 ≤ s.now && 125 < tj | none => false
  let s := { s with pwr := { s.pwr with
    overNs := if 11 * limit < 10 * watts then some (s.pwr.overNs.getD s.now) else none,
    hotNs := if 125 < tj then some (s.pwr.hotNs.getD s.now) else none,
    tjOver := s.fget F.PWR_LIMIT_TJ_EMERG_C [] ≤ tj } }.noteCause
  let s := if was || s.emergency then { s with pwr := { s.pwr with emergNs := s.now } } else s
  .next (if hot && s.fget F.RIDGE_STATUS_STATE [] != 4 && s.ridge.grave.isNone then s.chipEv 0xDA else s)

/-- Sets the throttle step; a change is an event of source 80. -/
def State.setThrottle (s : State) (x : Nat) : State :=
  if s.fget F.PWR_STATUS_STEP [] = x then s else (s.fset F.PWR_STATUS_STEP [] x).srcEvent (.shared 80)

/-- THROTTLE_STEP_UP (R486): while a cause exists the step rises by one, at once and then every 20 µs. -/
def execThrottleStepUp (now : Nat) (s : State) : Host.Outcome State Fault Refusal :=
  let s := s.at now
  let x := s.fget F.PWR_STATUS_STEP []
  if s.pwr.cause && x < 7 && s.pwr.dueNs ≤ s.now then
    .next ({ s with pwr := { s.pwr with dueNs := s.pwr.dueNs + 20000 } }.setThrottle (x + 1))
  else .next s

/-- THROTTLE_STEP_DOWN (R486, R488): after 1 ms without a cause, and then every further 1 ms. A cause that arises at the time at which
the step would fall keeps it, so the step falls once that time has passed. -/
def execThrottleStepDown (now : Nat) (s : State) : Host.Outcome State Fault Refusal :=
  let s := s.at now
  let x := s.fget F.PWR_STATUS_STEP []
  if !s.pwr.cause && s.fget F.PWR_STATUS_EMERG [] = 0 && 0 < x && s.pwr.dueNs < s.now then
    .next ({ s with pwr := { s.pwr with dueNs := s.pwr.dueNs + 1000000 } }.setThrottle (x - 1))
  else .next s

/-- EMERGENCY_THROTTLE (R487): the step goes to 7, and the arrays halt. -/
def execEmergencyThrottle (now : Nat) (s : State) : Host.Outcome State Fault Refusal :=
  let s := s.at now
  .next (if s.emergency && s.fget F.PWR_STATUS_EMERG [] = 0 then
      ({ s with pwr := { s.pwr with emergNs := s.now } }.fset F.PWR_STATUS_EMERG [] 1).setThrottle 7
    else s)

/-- EMERGENCY_RELEASE (R487): no condition has held for 1 ms. Without a cause the step then falls under R486, from now on. -/
def execEmergencyRelease (now : Nat) (s : State) : Host.Outcome State Fault Refusal :=
  let s := s.at now
  .next (if s.fget F.PWR_STATUS_EMERG [] = 1 && !s.emergency && s.pwr.emergNs + 1000000 ≤ s.now then
      { s with pwr := { s.pwr with dueNs := if s.pwr.cause then s.pwr.dueNs else max s.pwr.dueNs s.now } }.fset F.PWR_STATUS_EMERG [] 0
    else s)

/-! ### Power failure (R290, R291) -/

/-- POWER_FAIL (R290): new work stops, Retained writes drain, and T2 enters self-refresh. `done` tells whether that entry completes
before the supplies end. -/
def execPowerFail (done : Bool) (now : Nat) (s : State) : Host.Outcome State Fault Refusal :=
  let s := s.at now
  if !s.pins.powerFailLow || s.ridge.powerFail then .next s
  else .next { s with ridge := { s.ridge with powerFail := true, marker := done } }

/-! ### Resets (R490, R491) -/

/-- Whether a T2 address lies in a Retained range, its copy half included. -/
def State.retained (s : State) (a : Nat) : Bool :=
  (List.range 16).any (fun r => s.fget F.T2_RANGE_BASE_EN [r] == 1 && s.fget F.T2_RANGE_BASE_RETAINED [r] == 1 &&
    (let b := t2Base + s.fget F.T2_RANGE_BASE_BASE [r] * 4096
     b ≤ a && a < b + t2Span (KMap.get 0 s.t2Len r) (s.fget F.T2_RANGE_BASE_MIRROR [r] == 1) * 4096))

/-- NVMe writes that had been sent: those named have reached the medium (R290). -/
def State.landWrites (s : State) (landed : List Nat) : State :=
  (s.fl.cmds.filter (fun c => c.op == .write && landed.contains c.id)).foldl (fun s c => s.rawWrite c.addr c.data) s

/-- What a cold or power-on reset keeps: boot flash and the records in it, T2 and the drives, fuses, the latch on VDD_AON, the
balls' levels and the test access port. Every register returns to its reset value, and device time starts again. -/
def State.cleared (s : State) (kind source : Nat) : State :=
  let chip := fun (p : Nat × Byte) => t2Base ≤ p.1 && p.1 < squareBase 0 || t3Base ≤ p.1
  let flag := fun (p : Nat × Bool) => t2Base ≤ p.1 && p.1 < squareBase 0 || t3Base ≤ p.1
  let r : State :=
    { fuses := s.fuses, mem := s.mem.filter chip, badWords := s.badWords.filter flag, weakWords := s.weakWords.filter flag,
      hostMem := s.hostMem, flash := s.flash, t1 := { repairs := s.t1.repairs },
      ridge := { record := s.ridge.record, snap := s.ridge.snap, marker := s.ridge.marker },
      sec := { sector := s.sec.sector, ptr := s.sec.ptr, boot := s.sec.boot },
      pwr := { t2pg := s.pwr.t2pg, pfSeen := s.ridge.powerFail },
      fw := { copies := s.fw.copies, saved := s.fw.saved },
      pins := { porstLow := s.pins.porstLow, powerFailLow := s.pins.powerFailLow, low := s.pins.low,
                t2ResetN := s.pins.t2ResetN },
      tap := s.tap, free := s.free, pending := s.pending }
  r.tapStop.fsets [] [(F.RST_CAUSE_KIND, kind), (F.RST_CAUSE_SOURCE, source)]

/-- POWER_ON_RESET (R289, R490): VDD_AON rises, or PORST_N is low. `done` tells whether T2 entered self-refresh before the reset
stopped its controllers, `landed` the NVMe writes that reached their media, and `decay` what T2 lost with its supplies. -/
def execPowerOnReset (vdd done : Bool) (landed : List Nat) (decay : List (Nat × BitVec 8)) (s : State) :
    Host.Outcome State Fault Refusal :=
  if !(vdd || s.pins.porstLow) then .next s
  else
    let lost := decay.filter (fun c => t2Base ≤ c.1 && c.1 < 0x28000000000 && (vdd || !s.retained c.1))
    let s := lost.foldl (fun s c => s.rawWrite c.1 [c.2]) (s.dropFwWrite.landWrites landed)
    let marker := if s.ridge.powerFail then s.ridge.marker else done && !vdd
    let s := { s with ridge := { s.ridge with marker := marker },
                      pwr := { s.pwr with t2pg := s.pwr.t2pg || vdd },
                      pins := { s.pins with t2ResetN := if vdd then 0 else s.pins.t2ResetN },
                      tap := if vdd then {} else s.tap }
    .next (s.cleared 1 (if vdd then 1 else 2))

/-- A write of COLD (R491), which a power failure does not hold (R291): T2 enters self-refresh, the transmitters are silenced, and the boot starts again. -/
def State.coldReset (s : State) : State :=
  if s.fget F.RIDGE_STATUS_STATE [] = 4 then s
  else
    let i3c := s.rget .I3C_CFG []
    let s := s.dropFwWrite
    let k := s.free
    let s := (s.landWrites ((s.fl.cmds.map NvmeCmd.id).filter (Config.resetLands k))).tickFree
    ({ s with ridge := { s.ridge with marker := !s.ridge.powerFail || s.ridge.marker } }.cleared 2 3).rset .I3C_CFG [] i3c

/-- A write of this block that is ignored. -/
def State.pwrReject (s : State) : State := s.fset F.PWR_STATUS_CFG_REJECT [] 1

/-- A fabric-preserving reset asked for (R491): the sequence of R424 from step 1, with no fault code. -/
def State.askFabric (s : State) (why : Nat) : State :=
  let st := s.fget F.RIDGE_STATUS_STATE []
  if st = 0 || st = 5 then s.terminateNow why else s

/-! ### Boot (R497) -/

/-- A port that stops carrying traffic: what waits for it goes elsewhere, and its link state is dropped. -/
def State.portQuiet (s : State) (p x : Nat) : State :=
  let s := (s.setPortState p x).updPort p (fun x => { x.linkLost with rx := (wholeSlots x.rx.length x.rx).1, downNs := s.now })
  s.rerouteFrom p

/-- What PORT_CTRL asks of a port: disabled, looped for test, or training when it had not been enabled (R309). -/
def State.portCtrlAct (s : State) (p : Nat) : State :=
  let st := s.portState p
  if st = Pst.retired then s
  else if s.fget F.PORT_CTRL_EN [p] = 0 then (if st = Pst.disabled then s else s.portQuiet p Pst.disabled)
  else if s.fget F.PORT_CTRL_TEST_LOOP [p] != 0 then (if st = Pst.test then s else s.portQuiet p Pst.test)
  else if st = Pst.disabled || st = Pst.test then (s.updPort p (fun x => { x with full := true })).setPortState p Pst.training
  else s

/-- The flash port runs: queues to the drives that are present are created, and those drives serve requests (FL_DRIVE). A port that
does not run has none. -/
def State.flashRuns (s : State) : State :=
  (List.range 8).foldl (fun s d =>
    if s.fget F.FL_CFG_EN [] = 0 then s.fsets [d] [(F.FL_DRIVE_QUEUES, 0), (F.FL_DRIVE_READY, 0)]
    else if s.fget F.FL_DRIVE_PRESENT [d] = 1 && s.fget F.FL_DRIVE_FAILED [d] = 0 then s.driveUp d else s) s

/-- The settings record is applied (R493): each saved register returns, and with it what an accepted write of it does. -/
def State.restoreSettings (s : State) : State :=
  let s := s.fw.saved.foldl (fun s p =>
    match p.2 with
    | some v => { s with regs := KMap.set 0 s.regs p.1 (KMap.get 0 s.regs p.1 ^^^ v) }
    | none => s) s
  let s := { s with t1 := { s.t1 with units := s.fget F.T1_RESERVE_UNITS [] } }
  (List.range 16).foldl (fun s r =>
    if s.fget F.T2_RANGE_BASE_EN [r] = 1 then
      let s := { s with t2Len := KMap.set 0 s.t2Len r (s.fget F.T2_RANGE_LEN_LEN [r]) }
      s.fset F.T2_RANGE_BASE_RESYNC [r] (s.fget F.T2_RANGE_BASE_MIRROR [r])
    else s) s |>.degradeRanges

/-- The restored settings of the ports, the route table and the flash port take effect: the table is committed as table 0. -/
def State.startPorts (s : State) : State :=
  let routes := (List.range 128).any (fun k => s.fget F.ROUTE_VALID [0, k] == 1)
  let s := s.fset F.EPOCH_STATUS_READY0 [] routes.toNat
  let s := { s with fab := { s.fab with epochNs := s.now, advertised := s.fab.version },
                    pins := { s.pins with silent := false, flPerstN := 0xFF } }
  ((List.range 36).foldl State.portCtrlAct s).flashRuns

/-- A T1 slot is out of service at boot: nothing is live yet, and its pages take their places in the reserve, or none. -/
def State.bootSlot (s : State) (sl : Nat) : State :=
  if s.t1.retired.contains sl || s.t1.lost.contains sl then s
  else
    let s := (s.rbit .HBM_RETIRED [sl / 64, sl / 32 % 2] (2 * (sl % 32)) true).rbit .HBM_RETIRED [sl / 64, sl / 32 % 2] (2 * (sl % 32) + 1) true
    let used := s.fget F.T1_RESERVE_USED []
    let s := { s with t1 := { s.t1 with waiting := s.t1.waiting.filter (· != sl), losing := s.t1.losing.filter (· != sl) } }
    if used < s.t1.units then
      let s := { s with t1 := { s.t1 with retired := s.t1.retired ++ [sl] } }
      let moves := (s.livePages sl).zip s.freeReserve
      let s := { s with t1 := { s.t1 with
        moved := moves.foldl (fun (m : KMap Nat) (p : Nat × Nat) => KMap.set 0 m p.1 (p.2 + 1)) s.t1.moved } }
      s.fset F.T1_RESERVE_USED [] (used + 1)
    else { s with t1 := { s.t1 with lost := s.t1.lost ++ [sl] } }

/-- Units of the retirement record, and the slots that fail training, are out of service (R418, R421). -/
def State.applyRecord (s : State) (slots fails : List Nat) : State :=
  let s := { s with ridge := { s.ridge with decided := s.ridge.record } }
  let old := (s.ridge.record.filter (fun k => k / 2 ^ 16 == 4)).map (· % 2 ^ 16)
  let s := old.foldl State.bootSlot s
  let s := (slots.filter (· < 256)).foldl (fun s sl =>
    let k := unitKey 4 sl
    (if s.ridge.decided.contains k then s else s.decideRetire k).bootSlot sl) s
  let s := (s.selfTest fails).retireUnits
  ([0, 1, 2, 3].filter s.gaRetired).foldl (fun s d => s.fset F.GA_STATUS_EMULATED [d] 1) s

/-- T2 is trained, or leaves self-refresh, and its Retained contents are judged (R267, R291, R483, R508). A channel that fails
training is retired. -/
def State.trainT2 (s : State) (channels : BitVec 64) : State :=
  let ok := s.ridge.marker && !s.pwr.t2pg
  let s := s.fsets [] [(F.T2_RETAIN_VALID, ok.toNat), (F.T2_RETAIN_PF_SEEN, s.pwr.pfSeen.toNat),
    (F.T2_RETAIN_SR_INCOMPLETE, (!s.ridge.marker : Bool).toNat), (F.T2_UP_CHANNEL, channels.toNat)]
  let s := { s with pwr := { s.pwr with t2pg := s.pwr.t2pg && !s.ridge.marker }, ridge := { s.ridge with marker := false },
                    pins := { s.pins with t2ResetN := BitVec.allOnes 16 } }
  let s := if ok then s else s.chipEv 0xAB
  ((List.range 64).filter (fun c => !channels.getLsbD c)).foldl (fun s c => s.decideRetire (unitKey 5 c)) s

/-- The stacks that trained, with the soft repairs in force (R262). -/
def State.trainStacks (s : State) (stks : BitVec 8) : State :=
  (List.range 8).foldl (fun s k => s.fsets [k / 2, k % 2] [(F.HBM_STATUS_UP, (stks.getLsbD k).toNat),
    (F.HBM_STATUS_REPAIRS, (s.t1.repairs.filter (fun r => r.1 == k)).length)]) s

/-- What the flash port finds at its drives: capacity in 4 KiB LBAs and I/O queue pairs. A capacity of 0 is an absent drive, and no
queue pair a drive without the 4 KiB LBA format, which is left not ready (R293). -/
def State.findDrives (s : State) (drives : List (Nat × Nat)) : State :=
  (drives.take 8).zipIdx.foldl (fun (s : State) p =>
    let s := s.fsets [p.2] [(F.FL_DRIVE_PRESENT, (p.1.1 != 0 : Bool).toNat), (F.FL_DRIVE_LBAS, p.1.1)]
    s.updFl (fun f => { f with queues := KMap.set 0 f.queues p.2 (min p.1.2 64) })) s

/-- The registers that the fuses load (R2, R421): nothing is stored for them. The boot count, the grave snapshot's code, and the
journal, keys and selector of boot flash are read. -/
def State.bootRead (s : State) : State :=
  let boot := (s.sec.boot + 1) % 2 ^ 32
  let s := { s with fw := { s.fw with booted := true }, sec := { s.sec with boot := boot } }
  let s := (s.fset F.RST_CAUSE_BOOT_COUNT [] boot).scanJournal.loadKeys
  match s.ridge.snap with
  | some l => s.fset F.RIDGE_STATUS_LAST_GRAVE [] (bits (l.getLastD 0) 55 48)
  | none => s

/-- BOOT (R496, R497, R520). The operands are what training and self-test find: ring links, spokes, stacks and T2 channels that
trained (a stack that did not loses all its slots, R265), slots that did not, units that fail self-test, and the drives. With no valid image the device stays in BOOT. -/
def execBoot (links spokes : BitVec 4) (stks : BitVec 8) (channels : BitVec 64) (slots fails : List Nat)
    (drives : List (Nat × Nat)) (now : Nat) (s : State) : Host.Outcome State Fault Refusal :=
  let s := s.at now
  if s.fget F.RIDGE_STATUS_STATE [] != 5 || s.fw.booted || s.pins.porstLow || s.ridge.powerFail then .next s
  else
    let q := s.bootRead.chooseSlot
    let s := ((q.2.showSelector.showSlots).runImage q.1).trainT2 channels
    let s := (s.trainStacks stks).rawZero 0 0x6000000000
    if q.1 = 0 then .next s
    else
      let s := s.fsets [] [(F.RING_STATUS_LINK_UP, links.toNat), (F.RING_STATUS_SPOKE_UP, spokes.toNat)]
      let dead := (List.range 256).filter (fun sl => !stks.getLsbD (sl / 32))
      let s := (s.restoreSettings.applyRecord (dead ++ slots) fails).findDrives drives
      .next s.startPorts.enterRun

/-! ### Firmware update (R498, R499) -/

def State.fwResult (s : State) (r : Nat) : State := s.fset F.FW_CTL_RESULT [] r

/-- WRITE: the image at FW_SRC is read and checked. It ends later, with a valid image programmed into the slot. -/
def State.fwWrite (s : State) : State :=
  let a := s.fget F.FW_SRC_ADDR [] * 4096
  let h := s.busRead deviceIssuer .rd a 512
  let n := payloadLen h.2.1
  let big := 20 * 2 ^ 20 - 512 < n
  let p := if h.1 != 0 || big then (1, [], h.2.2) else h.2.2.busRead deviceIssuer .rd (a + 512) n
  let r := if p.1 != 0 || !inT1 a (512 + n) then 1 else p.2.2.imageResult h.2.1 p.2.1
  let s := p.2.2
  ({ s with fw := { s.fw with writing := some (r, if r = 0 then h.2.1 ++ p.2.1 else []) } }).fset F.FW_CTL_BUSY [] 1

/-- FW_WRITE_END (R498): a valid image is in the slot, which is verified. `bad` lists bytes that read other than they were programmed. -/
def execFwWriteEnd (bad : List (Nat × BitVec 8)) (now : Nat) (s : State) : Host.Outcome State Fault Refusal :=
  let s := s.at now
  match s.fw.writing with
  | none => .next s
  | some (r, image) =>
    if s.stopped then .next s
    else
    let s := if r = 0 then s.programSlot image else s
    let base := slotBase s.updateSlot
    let wrong := bad.filter (fun c => r == 0 && c.1 < 0x1800000 && s.flashRead (base + c.1) 1 != [c.2])
    let s := wrong.foldl (fun s c => s.flashWrite (base + c.1) [c.2]) s
    let s := { s with fw := { s.fw with writing := none } }.fset F.FW_CTL_BUSY [] 0
    .next ((s.fwResult (if wrong.isEmpty then r else 3)).showSlots)

/-- TRY: the slot that is not running is to be tried three times, once its journal entry is committed. -/
def State.fwTrial (s : State) : State :=
  let k := s.updateSlot
  if s.slotValid k then s.selectLater (s.fget F.FW_STATUS_ACTIVE []) k 3 else s.fwResult 4

/-- CONFIRM: the running slot is ACTIVE, once its journal entry is committed. -/
def State.fwConfirm (s : State) : State :=
  let run := s.fget F.FW_STATUS_RUN_SLOT []
  if run = 0 then s.fwResult 4 else s.selectLater run 0 0

/-- ACTIVATE: a fabric-preserving reset that boots TRY_SLOT. -/
def State.fwActivate (s : State) : State :=
  if s.fget F.FW_STATUS_TRY_SLOT [] = 0 then s.fwResult 4 else (s.fwResult 0).askFabric 5

/-- An operation of FW_CTL. -/
def State.fwOp (s : State) (op : Nat) : State :=
  if op = 1 then s.fwWrite else if op = 2 then s.fwTrial else if op = 3 then s.fwConfirm else s.fwActivate

/-- BURN_SVN: the MIN_SVN fuse rises to the running SVN. -/
def State.burnSvn (s : State) : State :=
  { s with fuses := { s.fuses with minSvn := max s.fuses.minSvn (s.fget F.FW_STATUS_SVN []) } }

end Sys2Proof.Machine
end

