-- ==== Sys2Proof/Machine/RouteLists.lean ====
section
/-! DEFINITION. NEURON jobs, which name the active neuron clusters of demanded experts (R207 to R209), and GATHER jobs, which look
up, deduplicate and pool embedding rows (R210 to R213). -/

namespace Sys2Proof.Machine

/-! ### NEURON -/

namespace NeuronJob
def mode (j : EngJob) : Nat := bits (j.w 0) 59 58
def publish (j : EngJob) : Bool := (j.w 0).testBit 57
def clusters (j : EngJob) : Nat := bits (j.w 0) 56 48 + 1
def width (j : EngJob) : Nat := bits (j.w 0) 47 32
def rank (j : EngJob) : Nat := bits (j.w 0) 31 24
def fmt (j : EngJob) : Nat := bits (j.w 3) 31 28

/-- Bytes of a token row that the job reads. -/
def rowBytes (j : EngJob) : Nat := if mode j = 1 then width j * fmtBits (fmt j) / 8 else 2 * rank j

/-- Bytes of the sketch or head of an expert (R208). -/
def sketchBytes (j : EngJob) : Nat :=
  if mode j = 1 then 32 * clusters j * width j / 8 + 64 * clusters j else clusters j * rank j + 2 * clusters j

/-- The device address of the token row of a dispatch entry (R201). -/
def rowAddr (j : EngJob) (w : Nat) : Nat := (j.w 2 + bits w 43 34 * 0x100000 + bits w 33 20 * bits (j.w 3) 63 32) % 2 ^ 64
end NeuronJob

/-- The case of R214 that a NEURON descriptor meets first without its ROUTE descriptor, or 0. A width, a rank or a cluster count
outside its range counts with the alignment rules. -/
def State.neuronReason (s : State) (j : EngJob) : Nat :=
  let pre := NeuronJob.mode j = 1
  let many := match s.ten j.ten with | some v => 256 < v.blocks.length | none => false
  if !(NeuronJob.mode j = 1 || NeuronJob.mode j = 2) || 9 < NeuronJob.fmt j || (pre && fmtMx (NeuronJob.fmt j)) ||
      (!pre && NeuronJob.fmt j != 8) then 1
  else if bits (j.w 0) 23 0 != 0 || bits (j.w 3) 27 0 != 0 || (List.range' 8 6).any (fun i => j.w i != 0) ||
      bits (j.w 15) 63 24 != 0 || bits (j.w 15) 11 0 != 0 || (pre && NeuronJob.rank j != 0) || (!pre && NeuronJob.width j != 0) then 2
  else if j.w 6 % 32 != 0 || j.w 14 % 64 != 0 || bits (j.w 2) 29 20 != 0 || 256 < NeuronJob.clusters j ||
      (pre && (NeuronJob.width j = 0 || NeuronJob.width j % 32 != 0 || 16384 < NeuronJob.width j)) ||
      (!pre && (NeuronJob.rank j = 0 || 128 < NeuronJob.rank j)) then 4
  else if workBad (bits (j.w 7) 31 0) 0 then 5
  else if (pre && many) || (!pre && s.stepping = 0xA0) then 8
  else 0

/-- A quotient of whole numbers rounded to nearest even. -/
def divHalfEven (n d : Nat) : Nat :=
  if d = 0 then 0 else if d < 2 * (n % d) || (d = 2 * (n % d) && n / d % 2 = 1) then n / d + 1 else n / d

/-- The INT8 elements of a token row under the scale max|x| ÷ 127, and max|x| (R208). -/
def quantRow (xs : List Num) : List Int × Dy :=
  let ds := xs.map Num.dy
  let e := ds.foldl (fun a x => min a x.e) 0
  let ms := ds.map (fun x => x.m * 2 ^ (x.e - e).toNat)
  let top := ms.foldl (fun a x => max a x.natAbs) 0
  (ms.map (fun x => let q : Int := divHalfEven (127 * x.natAbs) top; if x < 0 then -q else q), ⟨top, e⟩)

/-- Whether a number has a value. -/
def Num.finite (x : Num) : Bool := !x.isNan && !x.isInf

/-- The clusters that a token activates under PREPASS: the estimates are exact. An operand that is not finite leaves a verdict
open. -/
def prepassActive (j : EngJob) (sketch row : List Byte) : List Bool :=
  let d := NeuronJob.width j
  let fb := fmtBits (NeuronJob.fmt j)
  let xs := (List.range d).map (fun k => elemNum (NeuronJob.fmt j) (bitField row (fb * k) fb))
  let q := quantRow xs
  let thresh := fp32.decode (bits (j.w 7) 63 32)
  let scales := elems 2 (sketch.drop (32 * NeuronJob.clusters j * d / 8))
  (List.range (NeuronJob.clusters j)).map fun c => (List.range 32).any fun i =>
    let n := 32 * c + i
    let signs := leNat ((sketch.drop (n * d / 8)).take (d / 8))
    let code := (scales[n]?).getD 0
    let scale := fp16.decode code
    let sum := q.1.zipIdx.foldl (fun a p => if signs.testBit p.2 then a - p.1 else a + p.1) 0
    if xs.all Num.finite && scale.finite && !thresh.isNan then
      let est : Num := .fin (sum < 0) (sum.natAbs * q.2.m.natAbs) q.2.e
      ((Num.fin false 127 0).mul thresh).lt (est.mul scale)
    else Config.vxOpen (0x208 :: code :: bits (j.w 7) 63 32 :: n :: row.map BitVec.toNat) % 2 = 1

/-- The clusters that a token activates under PREDICT: each logit is summed exactly and rounded once to FP32. -/
def predictActive (j : EngJob) (head row : List Byte) : List Bool :=
  let r := NeuronJob.rank j
  let zs := (elems 2 row).map bf16.decode
  let scales := elems 2 (head.drop (NeuronJob.clusters j * r))
  (List.range (NeuronJob.clusters j)).map fun c =>
    let ws := ((head.drop (c * r)).take r).map (fun b => intNum 8 b.toNat)
    let sum := (List.zipWith Num.mul zs ws).foldl Num.add (.fin false 0 0)
    let x := (fp16.decode ((scales[c]?).getD 0)).mul sum
    (fp32.decode (bits (j.w 7) 63 32)).lt (fp32.decode (laneRound 0 x false [0x209, c]).code)

/-- The clusters that the tokens of an expert activate; none when a read has failed. -/
def Eng.neuronTokens (d : Nat) (j : EngJob) (sketch : List Byte) (route : EngJob) (idx first n : Nat) : Eng (Option (List Bool)) :=
  (List.range n).foldlM (fun (acc : Option (List Bool)) i => do
    match acc with
    | none => pure none
    | some on => do
      let e ← Eng.reRead d j.ten 0x86 (route.w 9 + 16 * (first + i)) 16 idx
      match e with
      | none => pure none
      | some l => do
        let row ← Eng.reRead d j.ten 0x86 (NeuronJob.rowAddr j (leNat (l.take 8))) (NeuronJob.rowBytes j) idx
        match row with
        | none => pure none
        | some x =>
          let now := if NeuronJob.mode j = 1 then prepassActive j sketch x else predictActive j sketch x
          pure (some (List.zipWith (· || ·) on now))) (some (List.replicate (NeuronJob.clusters j) false))

/-- The number whose bits are given, lowest first. -/
def bitsNat (l : List Bool) : Nat := l.zipIdx.foldl (fun a p => if p.1 then a + 2 ^ p.2 else a) 0

/-- Refines one demand entry: its mask, its words 2 and 3, and its publication (R208). -/
def Eng.neuronEntry (d : Nat) (j route : EngJob) (idx : Nat) : Eng Bool := do
  let a := route.w 8 + 32 * idx
  let e ← Eng.reRead d j.ten 0x86 a 32 idx
  match e with
  | none => pure false
  | some l => do
    let w := elems 8 l
    let w0 := (w[0]?).getD 0
    let w1 := (w[1]?).getD 0
    let w3 := (w[3]?).getD 0
    let x := bits w0 63 50
    let sk ← Eng.reRead d j.ten 0x86 ((j.w 4 + x * j.w 5) % 2 ^ 64) (NeuronJob.sketchBytes j) idx
    match sk with
    | none => pure false
    | some sk => do
      let on ← Eng.neuronTokens d j sk route idx (bits w1 63 32) (bits w0 49 33)
      match on with
      | none => pure false
      | some on => do
        let n := (on.filter id).length
        let ok ← Eng.reWrite d j.ten (j.w 6 + 32 * x) (leBytes 32 (bitsNat on))
        if !ok then pure false
        else do
          let w3' := w3 - bits w3 47 39 * 2 ^ 39 + n * 2 ^ 39
          let mask := (j.w 6 + 32 * x) % 2 ^ 64
          let ok ← Eng.reWrite d j.ten (a + 16) (leBytes 8 mask ++ leBytes 8 w3')
          if !ok then pure false
          else do
            let k ← Eng.num (fun s => s.spoilOf d)
            let w := elems 8 (leBytes 8 w0 ++ leBytes 8 w1 ++ spoiled k (a + 16) (leBytes 8 mask ++ leBytes 8 w3'))
            Eng.act (fun s =>
              let s := s.updReRun d (fun r => { r with count := r.count + 1, kept := r.kept + n })
              if NeuronJob.publish j then s.publish d j.ten w else s)
            pure true

/-- A NEURON job after its load: it reads its ROUTE descriptor and that job's record, and refines every demand entry. -/
def Eng.neuronRun (d : Nat) (r : ReRun) : Eng Unit := do
  let j := r.job
  let rd ← Eng.reRead d j.ten 0x86 (j.w 1) 128 0
  match rd with
  | none => pure ()
  | some l => do
    let route : EngJob := { ten := j.ten, words := elems 8 l }
    if route.op != 1 || RouteJob.publish route then Eng.act (fun s => s.reFail d 0x80 8 0x10 0)
    else if workBad (bits (j.w 7) 31 0) (32 * RouteJob.experts route) then Eng.act (fun s => s.reFail d 0x80 5 0x10 0)
    else do
      Eng.act (fun s => (s.useWork d (bits (j.w 7) 31 0) (32 * RouteJob.experts route)).updReRun d (fun r => { r with phase := 6 }))
      let rec_ ← Eng.reRead d j.ten 0x86 (route.w 14) 64 0
      match rec_ with
      | none => pure ()
      | some l => do
        let n := leNat (l.take 4)
        let ok ← (List.range n).foldlM (fun (ok : Bool) i => if ok then Eng.neuronEntry d j route i else pure false) true
        if ok then Eng.act (fun s => s.updReRun d (fun r => { r with phase := 9, ended := true })) else pure ()

/-- NEURON (R207 to R209). -/
def execNeuron (d : Dist) (now : Nat) (s : State) : Host.Outcome State Fault Refusal :=
  let s := (s.at now).reStart d 3 (fun s j => s.neuronReason j) (fun s _ => s)
  .next (s.reGo d 3 [1, 6] (Eng.neuronRun d))

/-! ### GATHER -/

namespace GatherJob
def pool (j : EngJob) : Nat := bits (j.w 0) 59 58
def elem (j : EngJob) : Nat := bits (j.w 0) 57 56
def lookups (j : EngJob) : Nat := bits (j.w 2) 63 32
def bags (j : EngJob) : Nat := bits (j.w 2) 31 0
def stride (j : EngJob) : Nat := bits (j.w 5) 63 32
def rowBytes (j : EngJob) : Nat := bits (j.w 5) 31 0
def esz (j : EngJob) : Nat := if elem j = 0 then 4 else 2
def width (j : EngJob) : Nat := rowBytes j / esz j
end GatherJob

/-- The case of R214 that a GATHER descriptor meets first, or 0. A count outside its range counts with the alignment rules. -/
def gatherReason (j : EngJob) : Nat :=
  let n := GatherJob.lookups j
  let b := GatherJob.bags j
  if GatherJob.elem j = 3 then 1
  else if bits (j.w 0) 55 0 != 0 || bits (j.w 12) 63 32 != 0 || j.w 13 != 0 || bits (j.w 15) 63 24 != 0 || bits (j.w 15) 11 0 != 0 then 2
  else if j.w 1 % 8 != 0 || n = 0 || 262144 < n || (GatherJob.pool j = 0 && b != 0) || (GatherJob.pool j != 0 && (b = 0 || n < b)) ||
      GatherJob.stride j % 64 != 0 || GatherJob.rowBytes j % 64 != 0 || GatherJob.rowBytes j < 64 || 4096 < GatherJob.rowBytes j ||
      j.w 14 % 64 != 0 then 4
  else if workBad (bits (j.w 12) 31 0) (16 * n) then 5
  else 0

/-- Puts a number into an ascending list of distinct numbers. -/
def insertAsc (x : Nat) : List Nat → List Nat
  | [] => [x]
  | y :: t => if x < y then x :: y :: t else if x = y then y :: t else y :: insertAsc x t

/-- Distinct numbers of a list, ascending. -/
def sortedSet (l : List Nat) : List Nat := l.foldr insertAsc []

/-- Places of the members of a sorted list. -/
def placesOf (l : List Nat) : KMap Nat := l.zipIdx.map (fun p => (p.1, p.2 + 1))

/-- Loads and sorts the IDs of a GATHER job, and writes the distinct IDs and the inverse map (R211). -/
def Eng.gatherSort (d : Nat) (r : ReRun) : Eng Unit := do
  let j := r.job
  let l ← Eng.reRead d j.ten 0x86 (j.w 1) (8 * GatherJob.lookups j) 0
  match l with
  | none => pure ()
  | some l => do
    let ids := elems 8 l
    let uniq := sortedSet (ids.filter (· < j.w 4))
    let at_ := placesOf uniq
    let inv := ids.map (fun x => match KMap.get 0 at_ x with | 0 => 0xFFFFFFFF | n + 1 => n)
    let ok ← Eng.reWrite d j.ten (j.w 11) (uniq.flatMap (leBytes 8))
    if !ok then pure ()
    else do
      let ok ← Eng.reWrite d j.ten (j.w 7) (inv.flatMap (leBytes 4))
      if !ok then pure ()
      else Eng.act (fun s => s.updReRun d (fun r => { r with
        uniq := uniq, inv := inv, count := uniq.length, phase := 7, dropped := (ids.filter (fun x => j.w 4 ≤ x)).length }))

/-- Ends a GATHER job that has no rows left to read and pools nothing; a job that pools goes on to its bags. -/
def State.gatherRowsDone (s : State) (d : Nat) : State :=
  match (s.re d).running with
  | some r =>
    if r.job.op != 2 || r.phase != 7 || r.rows.length < r.uniq.length || !r.log.isEmpty then s
    else if GatherJob.pool r.job = 0 then s.updReRun d (fun r => { r with phase := 9, ended := true })
    else s.updReRun d (fun r => { r with phase := 8 })
  | none => s

/-- RE_GATHER (R210, R211): the head GATHER job starts, loads and sorts its IDs. -/
def execReGather (d : Dist) (now : Nat) (s : State) : Host.Outcome State Fault Refusal :=
  let s := (s.at now).reStart d 2 (fun _ j => gatherReason j) (fun s j => s.useWork d (bits (j.w 12) 31 0) (16 * GatherJob.lookups j))
  .next ((s.reGo d 2 [1] (Eng.gatherSort d)).gatherRowsDone d)

/-- Reads the next distinct row and writes it out; a read that fails gives zeros (R211). -/
def Eng.gatherRow (d : Nat) (r : ReRun) : Eng Unit := do
  let j := r.job
  let u := r.rows.length
  match r.uniq[u]? with
  | none => pure ()
  | some x => do
    let n := GatherJob.rowBytes j
    let q ← Eng.readOne (reIssuer d j.ten) (reKey d) ((j.w 3 + x * GatherJob.stride j) % 2 ^ 64) n true
    let row := if q.1 = 0 then q.2 else List.replicate n 0
    if q.1 = 0 then pure ()
    else Eng.act (fun s =>
      let s := s.updReRun d (fun r => { r with
        failed := r.failed + 1, firstFailed := if r.failed = 0 then x else r.firstFailed, status := 1 })
      (s.reErr d 0x85 0 (r.inv.idxOf u)).distEv 0x85 d 0 j.ten (r.inv.idxOf u))
    let ok ← Eng.reWrite d j.ten (j.w 6 + u * n) row
    if ok then Eng.act (fun s => s.updReRun d (fun r => { r with rows := r.rows ++ [row] })) else pure ()

/-- GATHER_ROW_READ (R211). -/
def execGatherRowRead (d : Dist) (now : Nat) (s : State) : Host.Outcome State Fault Refusal :=
  let s := (s.at now).gatherRowsDone d
  .next ((s.reGo d 2 [7] (Eng.gatherRow d)).gatherRowsDone d)

/-- The elements of a row, widened to FP32. -/
def gatherElems (j : EngJob) (row : List Byte) : List Nat :=
  (elems (GatherJob.esz j) row).map fun v =>
    if GatherJob.elem j = 0 then v
    else if GatherJob.elem j = 1 then v * 65536
    else (laneRound 0 (fp16.decode v) false [0x212, v]).code

/-- The pooled elements of a bag: the rows of its lookups in range, in lookup order, with their weights (R212). -/
def poolBag (j : EngJob) (rows : List (List Nat × Nat)) : List Nat :=
  let scaled := rows.map (fun p => if GatherJob.pool j = 2 then p.1.map (fun x => f32mul x p.2) else p.1)
  match scaled with
  | [] => List.replicate (GatherJob.width j) 0
  | a :: t =>
    let sum := t.foldl (fun acc x => List.zipWith f32add acc x) a
    if GatherJob.pool j = 3 then sum.map (fun x => f32div x (f32nat scaled.length)) else sum

/-- Pools the next bag (R212). -/
def Eng.gatherBag (d : Nat) (r : ReRun) : Eng Unit := do
  let j := r.job
  let b := r.kept
  let n := GatherJob.lookups j
  let off ← Eng.reRead d j.ten 0x86 (j.w 8 + 4 * b) 8 0
  match off with
  | none => pure ()
  | some l => do
    let lo := leNat (l.take 4)
    let hi := leNat (l.drop 4)
    if (b = 0 && lo != 0) || hi < lo || n < hi || (b + 1 = GatherJob.bags j && hi != n) then
      Eng.act (fun s => s.reFail d 0x87 0xB 0x10 b)
    else do
      let ws ← if GatherJob.pool j = 2 && lo < hi then Eng.reRead d j.ten 0x86 (j.w 9 + 4 * lo) (4 * (hi - lo)) 0 else pure (some [])
      match ws with
      | none => pure ()
      | some ws => do
        let w := elems 4 ws
        let rows := (List.range (hi - lo)).filterMap fun i =>
          ((r.inv[lo + i]?).bind (fun u => r.rows[u]?)).map (fun x => (gatherElems j x, (w[i]?).getD 0))
        let out := poolBag j rows
        let ok ← Eng.reWrite d j.ten (j.w 10 + b * 4 * GatherJob.width j) (out.flatMap (leBytes 4))
        if ok then Eng.act (fun s => s.updReRun d (fun r =>
          if b + 1 = GatherJob.bags j then { r with kept := b + 1, phase := 9, ended := true } else { r with kept := b + 1 }))
        else pure ()

/-- GATHER_POOL (R212): one bag. -/
def execGatherPool (d : Dist) (now : Nat) (s : State) : Host.Outcome State Fault Refusal :=
  .next ((s.at now).reGo d 2 [8] (Eng.gatherBag d))

end Sys2Proof.Machine
end

