-- ==== Sys2Proof/Machine/RegRead.lean ====
section
/-! DEFINITION. Reads of control registers (R7 to R11, R518): the fields that are computed when they are read, the registers that a
writer reaches, the two registers whose read has an effect (CLAIM, R453; RP_STATUS, R446), and reads of 4 and 8 bytes. -/

namespace Sys2Proof.Machine

/-! ### Fields computed when read -/

/-- A count as a field of `w` bits shows it. -/
def satTo (w n : Nat) : Nat := min n (2 ^ w - 1)

/-- A list of (field's first bit, width, value) as a number; a value is cut to its width. -/
def pack (l : List (Nat × Nat × Nat)) : Nat := (l.map (fun p => p.2.2 % 2 ^ p.2.1 * 2 ^ p.1)).sum

/-- The presented record of a channel (R446): the oldest that has not been acknowledged, in PORT mode. -/
def State.presented (s : State) (ch : Nat) : Option Rec :=
  if s.fget F.RES_CH_CFG_EN [ch] = 1 && s.fget F.RES_CH_CFG_MODE [ch] = 1 then (KMap.get [] s.hif.held ch).head? else none

/-- The seconds left of a session by which an agent holds a role now. -/
def State.sessionLeft (s : State) (a : Nat) (r : Role) : Nat :=
  match s.session a r with
  | some x => satTo 16 ((x.endNs - s.now) / 1000000000)
  | none => if s.holds (.core 4) r && a = 2 then 0xFFFF else 0

/-- The Tenancy whose step runs in a District, or 0. -/
def State.distTen (s : State) (d : Nat) : Nat :=
  match s.ten s.tick.cur with
  | some v => if v.districts.contains d then s.tick.cur else 0
  | none => 0

/-- The state of a queue's head (CQ_STATE): WAITING and BLOCKED. -/
def State.cqHead (s : State) (d q : Nat) : Bool × Bool :=
  match (KMap.get [] (s.dist d).cq q).head? with
  | none => (false, false)
  | some e =>
    let w := !s.entryWaitMet e
    let full := match s.entryBlock e with | some b => 16 ≤ (s.blk b).inbox.length | none => false
    (w, (e.kind = 1 || e.kind = 2) && full)

/-- CORE_STATUS. -/
def State.coreStatus (s : State) (c : Nat) : Nat :=
  let k := s.core c
  let waits := match k.wait with | .wfi => true | .evwait _ _ => true | _ => false
  pack [(31, 1, k.halted.toNat), (30, 1, waits.toNat), (6, 2, k.level), (0, 6, s.coreTen c)]

/-- BLK_STATUS. -/
def State.blkStatus (s : State) (b : Nat) : Nat :=
  let k := s.blk b
  let t := s.runnerOfBlock b
  let logical := match s.ten t with | some v => (v.logical b).getD 0 | none => 0
  let tags := ((List.range 8).filter (s.tagBusy b)).map (2 ^ ·)
  pack [(63, 1, k.running.isSome.toNat), (62, 1, (k.halted && k.passes.isEmpty).toNat), (61, 1, k.ie.toNat), (48, 10, logical), (42, 6, t),
    (32, 8, tags.sum), (0, 32, match k.running with | some e => e.seq | none => 0)]

/-- DMA_CH_STATUS, over its stored fields. -/
def State.chStatus (s : State) (d c raw : Nat) : Nat :=
  let l := s.dma.filter (fun j => j.owner == .ch d c)
  match l.head? with
  | none => raw
  | some j => pack [(63, 1, 1), (60, 3, l.length), (54, 6, j.ten), (40, 8, bits raw 47 40), (8, 32, j.bytes)]

/-- RE_STATUS, over its stored fields. -/
def State.reStatus (s : State) (d raw : Nat) : Nat :=
  let e := s.re d
  let phase := match e.running with | some r => r.phase | none => 0
  let ten := match e.running with | some r => r.job.ten | none => 0
  pack [(63, 1, e.running.isSome.toNat), (62, 1, bit raw 62), (58, 4, phase), (54, 4, e.queue.length), (48, 6, ten),
    (32, 16, satTo 16 e.held.length), (0, 32, raw)]

/-- The Tenancy that a Residency Manager serves, or 0. -/
def RmSt.tenancy (r : RmSt) : Nat :=
  match r.serves.head?, r.fetches.head?, r.items.head? with
  | some x, _, _ => x.ten
  | none, some f, _ => f.ten
  | none, none, some (.job j) => j.ten
  | none, none, some (.demand t _) => t
  | none, none, none => 0

/-- RM_STATUS, over its stored field. -/
def State.rmStatus (s : State) (d raw : Nat) : Nat :=
  let r := s.rm d
  let busy := !(r.items.isEmpty && r.serves.isEmpty && r.fetches.isEmpty && r.pre.isEmpty)
  let jobs := r.items.filter (fun x => match x with | .job _ => true | .demand _ _ => false)
  let looked := s.fab.reqs.filter (fun q => q.srcType == 4 && q.srcIdx == d && q.result.isNone && !r.fetches.any (fun f =>
    f.reqs.any (fun x => x.log.contains (farTag + 2 * q.id, []))))
  let out := r.fetches.flatMap Fetch.reqs
  pack [(63, 1, busy.toNat), (59, 4, jobs.length), (53, 6, r.tenancy), (46, 7, r.binds.length), (42, 4, r.fetches.length),
    (31, 11, satTo 11 (looked.length + out.length)), (0, 31, raw)]

/-- SQ_STATUS (R242). -/
def State.sqStatus (s : State) (d : Nat) : Nat :=
  let q := s.sq d
  let res := s.tick.resident
  let held := (res.map (fun t => s.privLots t d + s.quotaLots t d)).sum
  let borrowed := (res.map (fun t => s.usedLots t d - s.quotaLots t d)).sum
  pack [(51, 13, q.freeLots.length), (38, 13, 4096 - held - q.retired.length), (25, 13, borrowed), (12, 13, q.retired.length)]

/-- SQ_TEN. -/
def State.sqTen (s : State) (d t : Nat) : Nat :=
  if s.tick.resident.contains t then
    pack [(51, 13, s.privLots t d), (38, 13, s.quotaLots t d), (25, 13, s.usedLots t d), (12, 13, s.keptLots t d)]
  else pack [(25, 13, s.usedLots t d), (12, 13, s.keptLots t d)]

/-- The stage of HIER in progress, as R395 counts them: stage 2 of ALL_REDUCE has two parts here. -/
def CollRun.stage (r : CollRun) : Nat := if r.job.op = 4 then min 3 ((r.done + 3) / 2) else min 2 (r.done + 1)

/-- COLL_STATUS. -/
def State.showColl (s : State) (c : Nat) : Nat :=
  let k := KMap.get {} s.fab.colls c
  let streams := if c = 0 then (s.fab.streams.length) else 0
  let own := match k.running with
    | none => 0
    | some r => pack [(63, 1, 1), (54, 6, r.job.ten), (50, 4, r.job.op), (48, 2, if r.algo = 2 then r.stage else 0), (32, 16, r.job.group),
        (24, 8, r.job.gen)]
  own + pack [(60, 3, k.queue.length + k.running.isSome.toNat), (0, 24, streams)]

/-- ms since the last renewal of a Tenancy's lease. -/
def State.leaseAge (s : State) (t : Nat) : Nat :=
  if s.fget F.WARD_STATE_STATE [t] = 0 then 0 else satTo 16 ((s.now - KMap.get 0 s.fab.leaseNs t) / 1000000)

/-- A register's value as a read shows it: its stored fields, and those computed now. -/
def State.regShow (s : State) (r : RegName) (ix : List Nat) : Nat :=
  let raw := (s.rget r ix).toNat
  match r, ix with
  | .CHIP_ID, _ => pack [(16, 16, s.fuses.part), (8, 8, s.fuses.stepping), (0, 8, s.fuses.reproClass)]
  | .BLOCK_FUSE, _ => ((List.range 1024).filter s.fuseEnabled).length
  | .BLOCK_MAP, [n] => (((List.range 32).filter (fun b => s.fuseEnabled (32 * n + b))).map (2 ^ ·)).sum
  | .TIME_NOW, _ => s.timeNow % 2 ^ 64
  | .CORE_STATUS, [c] => s.coreStatus c
  | .CORE_PC, [c] => (s.core c).lastPc
  | .CQ_STATE, [d, q] =>
    let h := s.cqHead d q
    raw + pack [(63, 1, h.1.toNat), (62, 1, h.2.toNat), (32, 11, (KMap.get [] (s.dist d).cq q).length)]
  | .BLK_STATUS, [b] => s.blkStatus b
  | .BLK_PC, [b] => (s.blk b).lastPc
  | .BLK_INT, [b] => (s.blk b).pend.toNat * 2 ^ 16 + (s.blk b).en.toNat
  | .DMA_POOL_STATUS, [d] => raw + (((List.range 64).map (s.poolUse d)).sum + 1023) / 1024
  | .DMA_CH_STATUS, [d, c] => s.chStatus d c raw
  | .GA_STATUS, [d] =>
    let g := s.ga d
    let ten := match s.ten s.tick.cur with | some v => if v.desc.gaMask.testBit d then s.tick.cur else 0 | none => 0
    raw + pack [(63, 1, (!g.passes.isEmpty || g.conv.isSome).toNat), (46, 6, ten)]
  | .RE_STATUS, [d] => s.reStatus d raw
  | .RE_ACTIVE_CCLK, [d] => raw + (match (s.re d).running with | some x => s.cclkSince x.startCyc | none => 0)
  | .RM_STATUS, [d] => s.rmStatus d raw
  | .RM_ACTIVE_CCLK, [d] => raw + (if (s.rm d).fetches.isEmpty then 0 else s.cclkSince (s.rm d).activeCyc)
  | .SQ_STATUS, [d] => s.sqStatus d
  | .SQ_TEN, [d, t] => s.sqTen d t
  | .THATCH_STATS, _ => satTo 32 (s.thatchRest / 2 ^ 20) * 2 ^ 32 + satTo 32 (s.thatchDec / 2 ^ 20)
  | .SHP_STATE, [t, q] => raw % 2 ^ 48 + satTo 16 (s.bucketWaiting (.mem t q)) * 2 ^ 48
  | .PSHP_STATE, [p, v] => raw % 2 ^ 48 + satTo 16 (s.bucketWaiting (.port p v)) * 2 ^ 48
  | .SSHP_STATE, [t, q] => raw % 2 ^ 48 + satTo 16 (s.bucketWaiting (.src t q)) * 2 ^ 48
  | .LINK_TOKEN, _ => s.linkToken
  | .EPOCH_STATUS, _ => raw + satTo 16 (s.inflight 1) * 2 ^ 16 + satTo 16 (s.inflight 0)
  | .PORT_CTRL, _ => if s.fuses.stepping = 0xA0 then raw - bit raw 3 * 8 else raw
  | .PORT_STATUS, [p] => raw + (((List.range 4).filter (fun l => s.fget F.LANE_STATUS_RETIRED [p, l] == 1)).map (2 ^ ·)).sum * 2 ^ 50
  | .OPM_STATUS, _ => pack [(53, 11, s.fab.comb.length), (32, 21, s.storeUsed), (0, 21, s.storeSize)]
  | .WARD_STATE, [t] => raw + s.leaseAge t
  | .COLL_STATUS, [c] => s.showColl c
  | .RIDGE_STATUS, _ => raw + min 15 s.recentReentries.length * 2 ^ 32
  | .RES_CH_STATUS, [ch] => raw + pack [(51, 13, (s.resHeld ch).length), (38, 13, s.resOpen ch)]
  | .RP_STATUS, [ch] =>
    (match s.presented ch with
    | none => 0xFFFFFFFF
    | some x => let w := (x[15]?).getD 0; bits w 47 40 * 2 ^ 16 + bits w 15 0)
  | .RP_DATA, [ch, w] => (match s.presented ch with | none => 0 | some x => (x[w]?).getD 0)
  | .ROLE_HELD, [a] =>
    let left := fun r => s.sessionLeft a r
    let has := fun r => (0 < left r || (s.session a r).any (fun x => s.now < x.endNs) : Bool).toNat
    pack [(48, 16, left .maker), (32, 16, left .installer), (16, 16, left .operator), (2, 1, has .maker), (1, 1, has .installer),
      (0, 1, has .operator)]
  | .AUD_STATUS, _ => raw + (!s.sec.queue.isEmpty : Bool).toNat * 2 ^ 63
  | .REPRO_SIG, _ => s.reproSig
  | .DG_SEL, _ => raw + (s.sealDigest (bits raw 9 4) (bits raw 3 0)).isSome.toNat * 2 ^ 63
  | .DG_VAL, [w] =>
    let sel := (s.rget .DG_SEL []).toNat
    (s.sealDigest (bits sel 9 4) (bits sel 3 0)).getD 0 / 2 ^ (64 * (3 - w)) % 2 ^ 64
  | .DG_TEN, [t] =>
    let es := match s.ten t with | some v => v.digestEntries | none => []
    raw + (!es.isEmpty && es.all (fun p => (KMap.get none s.sec.seals (t * 16 + p.1)).isSome) : Bool).toNat * 2 ^ 16
  | .FW_FUSE, _ => s.fuses.minSvn % 256 * 2 ^ 8
  | .SRC_PRIV, [c, n] => raw + (s.srcPending (.priv c n)).toNat * 2 ^ 22
  | .SRC_SH, [n] => raw + (s.srcPending (.shared n)).toNat * 2 ^ 22
  | _, _ => raw

/-! ### Reads with an effect -/

/-- CLAIM by the owning core (R453). -/
def State.claim (s : State) (c : Nat) : Nat × State :=
  match s.winner c 0 with
  | none => (0, s)
  | some x =>
    let n := match x with | .priv _ n => n | .shared n => n
    (s.fget (x.f 15 0) x.ix * 2 ^ 16 + n, (s.fset (x.f 23 23) x.ix 1).srcClear x)

/-- A read of RP_STATUS (R446): the presented record's READ_COUNT rises, and is returned with its SEQ. -/
def State.readPort (s : State) (ch : Nat) : Nat × State :=
  match s.presented ch with
  | none => (0xFFFFFFFF, s)
  | some x =>
    let w := (x[15]?).getD 0
    let n := min 255 (bits w 47 40 + 1)
    let y := x.take 15 ++ [w - bits w 47 40 * 2 ^ 40 + n * 2 ^ 40]
    let s := { s with hif := { s.hif with held := KMap.upd [] s.hif.held ch (fun l => y :: l.drop 1) } }
    (s.regShow .RP_STATUS [ch], s)

/-- A read of a whole register by a writer. -/
def State.regTake (s : State) (w : Writer) (r : RegName) (ix : List Nat) : Nat × State :=
  match r, ix with
  | .CLAIM, [c] => if w = .core (Fin.ofNat 6 c) then s.claim c else (0, s)
  | .RP_STATUS, [ch] => s.readPort ch
  | _, _ => (s.regShow r ix, s)

/-! ### What a writer reaches -/

/-- Whether an offset lies in the blocks that the I3C target reaches (R501). -/
def i3cReach (grave : Bool) (off : Nat) : Bool :=
  off < 0x1000 || (0x10000 ≤ off && off < 0x20000) || (!grave && 0x60000 ≤ off && off < 0x90000)

/-- The register at an offset for a writer: the agent registers are held once per agent, and a DCC, which is none, reaches no copy
(R470). -/
def State.reach (s : State) (w : Writer) (off : Nat) : Option (RegName × List Nat × Bool) :=
  let grave := s.fget F.RIDGE_STATUS_STATE [] == 4
  if w = .i3c && !i3cReach grave off then none
  else match regAt off with
    | some (r, ix, up) =>
      if r.info.region = .secAgent then (writerAgent w).map (fun a => (r, a :: ix.drop 1, up)) else some (r, ix, up)
    | none => none

/-- Whether an offset lies on a register, whoever asks. -/
def assigned (off : Nat) : Bool := (regAt off).isSome

/-- What BAR0 answers instead of the register: during STATE REENTRY the District blocks read zero (R438), and in the grave state
every block but Identity and Ridge reads ones (R428). -/
def State.bar0Shut (s : State) (w : Writer) (off : Nat) : Option Nat :=
  if w != .host then none
  else
    let st := s.fget F.RIDGE_STATUS_STATE []
    if st = 2 && 0x2000000 ≤ off then some 0
    else if st = 4 && !(off < 0x1000 || (0x10000 ≤ off && off < 0x20000)) then some 0xFFFFFFFF
    else none

/-- A read of an aligned word of 4 bytes. -/
def State.regWord (s : State) (w : Writer) (off : Nat) : Nat × State :=
  match s.bar0Shut w off with
  | some v => (v, s)
  | none =>
    match s.reach w off with
    | none => (0, s)
    | some (r, ix, up) =>
      let q := s.regTake w r ix
      (if up then q.1 / 2 ^ 32 % 2 ^ 32 else q.1 % 2 ^ 32, q.2)

/-- A read of the control register space (R9, R10, R518). -/
def State.regRead (s : State) (w : Writer) (off len : Nat) : Nat × State :=
  if !(len = 4 || len = 8) || off % len != 0 then (0xFFFFFFFF, s.chipEv 0x32)
  else if len = 4 then s.regWord w off
  else
    match s.bar0Shut w off, s.reach w off with
    | none, some (r, ix, false) =>
      if r.info.w64 then s.regTake w r ix
      else
        let a := s.regWord w off
        let b := a.2.regWord w (off + 4)
        (a.1 + b.1 * 2 ^ 32, b.2)
    | _, _ =>
      let a := s.regWord w off
      let b := a.2.regWord w (off + 4)
      (a.1 + b.1 * 2 ^ 32, b.2)

end Sys2Proof.Machine
end

