-- ==== Sys2Proof/Machine/RegWrite.lean ====
section
/-! DEFINITION. Writes of control registers (R7, R9 to R11, R475, R479, R518): which written values are admitted, what an ignored
write logs, what an accepted write does beyond setting its fields, the roles, and the halves of 64-bit registers. -/

namespace Sys2Proof.Machine

/-! ### What a write changes -/

/-- The bits of a register whose access code satisfies a condition. -/
def RegName.bitsOf (r : RegName) (p : Acc → Bool) : Nat :=
  ((r.info.fields.filter (fun f => p f.acc)).map (fun f => 2 ^ (f.hi + 1) - 2 ^ f.lo)).sum

/-- What a register holds after a write of `v` over `old` (R7). -/
def RegName.written (r : RegName) (old v : Nat) : Nat :=
  let set := r.bitsOf (fun a => a == .rw || a == .rwl)
  let one := r.bitsOf (· == .w1s)
  let clr := r.bitsOf (· == .w1c)
  let keep := old &&& (r.bitsOf (· == .ro) ||| one)
  keep ||| (v &&& (set ||| one)) ||| (old &&& clr &&& (2 ^ 64 - 1 - v % 2 ^ 64))

/-- What becomes of a written value: accepted, accepted but for fields that keep their values, or ignored whole. -/
inductive Verdict where
  | ok
  | part (v : Nat)
  | bad
  deriving DecidableEq, Repr

/-- Ignored whole unless a condition holds. -/
def whole (b : Bool) : Verdict := if b then .ok else .bad

/-- A written value in which a field keeps its value. -/
def Fld.keepIn (f : Fld) (old v : Nat) : Nat := (f.ins (BitVec.ofNat 64 v) (f.ext (BitVec.ofNat 64 old))).toNat

/-- The verdict of a write whose listed fields are each admitted or not (R7). -/
def fieldwise (old v : Nat) (l : List (Fld × Bool)) : Verdict :=
  match l.filter (fun p => !p.2) with
  | [] => .ok
  | bad => .part (bad.foldl (fun v p => p.1.keepIn old v) v)

/-! ### Which values are admitted -/

/-- FAB_TIMERS (R348). -/
def timersOk (v : Nat) : Bool :=
  let res := bits v 31 20
  let hops := bits v 19 16
  let retry := bits v 15 4
  10 ≤ res && 2 ≤ hops && 10 ≤ retry && hops * res ≤ bits v 47 32 &&
    (bits v 3 0 + 1) * retry + 2 * hops * res ≤ bits v 63 48

/-- PKEY (R349). -/
def State.pkeyOk (s : State) (k v : Nat) : Bool :=
  let key := bits v 15 0
  !v.testBit 63 || (key != 0 && key != 0xFFFF &&
    (List.range 64).all (fun j => j == k || s.fget F.PKEY_VALID [j] == 0 || s.fget F.PKEY_KEY [j] != key))

/-- PORT_VC_CFG (R350). -/
def State.vcOk (s : State) (p v : Nat) : Bool :=
  let slots := fun v => bits v 63 48 + bits v 47 36 + bits v 35 24 + bits v 23 12 + bits v 11 0
  let others := ((List.range 36).filter (· != p)).map (fun q => slots (s.rget .PORT_VC_CFG [q]).toNat)
  17 ≤ bits v 47 36 && 17 ≤ bits v 35 24 && 17 ≤ bits v 23 12 && 17 ≤ bits v 11 0 && slots v + others.sum ≤ 393216

/-- BAR2_XLAT (R435). -/
def xlatOk (v : Nat) : Bool :=
  !v.testBit 63 || (match winOf (bits v 55 30 * 2 ^ 30) with
    | .t1 => true
    | .t2 => true
    | .square _ _ => true
    | .spad _ _ => true
    | .ga _ _ => true
    | .resram _ _ => true
    | _ => false)

/-- RES_CH_CFG (R449). -/
def State.channelVerdict (s : State) (ch old v : Nat) : Verdict :=
  let size := bits v 56 52
  let slots := bits v 44 32
  let fits := fieldwise old v [(F.RES_CH_CFG_LOG2_SIZE, 6 ≤ size && size ≤ 16), (F.RES_CH_CFG_SLOTS, 1 ≤ slots && slots ≤ 4096)]
  let v' := match fits with | .part x => x | _ => v
  let m := 2 ^ 62 + (2 ^ 57 - 2 ^ 52) + (2 ^ 45 - 2 ^ 32)
  let others := ((List.range 64).filter (fun c => c != ch && s.fget F.RES_CH_CFG_EN [c] == 1)).map (fun c => s.fget F.RES_CH_CFG_SLOTS [c])
  if v.testBit 63 && old.testBit 63 && v' &&& m != old &&& m then .bad
  else if v.testBit 63 && 4096 < bits v' 44 32 + others.sum then .bad
  else fits

/-- RES_CH_CI: it may not pass PI, nor fall further behind it than the ring is long. -/
def State.indexOk (s : State) (ch v : Nat) : Bool :=
  (s.fget F.RES_CH_PI_PI [ch] + 2 ^ 32 - v % 2 ^ 32) % 2 ^ 32 ≤ 2 ^ s.fget F.RES_CH_CFG_LOG2_SIZE [ch]

/-- EPOCH_CTRL (R336): the table that SRC_EPOCH selects must be READY; a commit in the same write acts first. -/
def State.epochOk (s : State) (v : Nat) : Bool :=
  if v.testBit 0 then v.testBit 2 || s.epochReady 1 else v.testBit 1 || s.epochReady 0

/-- PWR_LIMIT. -/
def powerOk (v : Nat) : Bool :=
  let e := bits v 31 24
  let t := bits v 23 16
  100 ≤ e && e ≤ 120 && 85 ≤ t && t ≤ 115 && t < e && 600 ≤ bits v 11 0 && bits v 11 0 ≤ 1900

/-- Whether a fabric-preserving reset that is asked for runs (R491): STATE is RUN or BOOT. -/
def State.resetable (s : State) : Bool := s.fget F.RIDGE_STATUS_STATE [] == 0 || s.fget F.RIDGE_STATUS_STATE [] == 5

/-- Whether no port is in a state other than DISABLED or DOWN (R347). -/
def State.portsQuiet (s : State) : Bool :=
  (List.range 36).all (fun p => s.portState p == Pst.disabled || s.portState p == Pst.down)

/-- The verdict on a value written to a register. -/
def State.regVerdict (s : State) (r : RegName) (ix : List Nat) (v : Nat) : Verdict :=
  let old := (s.rget r ix).toNat
  match r, ix with
  | .RING_RETRY_COUNT, _ => fieldwise old v [(F.RING_RETRY_COUNT_LINK3, bits v 63 48 == 0), (F.RING_RETRY_COUNT_LINK2, bits v 47 32 == 0),
      (F.RING_RETRY_COUNT_LINK1, bits v 31 16 == 0), (F.RING_RETRY_COUNT_LINK0, bits v 15 0 == 0)]
  | .TICK_CTRL, _ => whole (s.tickCtrlOk v)
  | .TICK_CONFIG, _ => whole (tickConfigOk v)
  | .ALIGN_CONFIG, _ => whole (alignConfigOk v)
  | .TEN_CMD, _ => whole (s.fget F.TEN_STATUS_BUSY [] == 0)
  | .TEN_RESERVE, _ => whole ([0, 1, 2, 3].all (fun n => bits v (8 * n + 7) (8 * n) ≤ 64))
  | .SCHED_CTRL, _ => whole (s.schedCtrlBad v == 0)
  | .SCHED_SLOT, [b, _] => whole (b != s.fget F.SCHED_CTRL_ACTIVE_BANK [])
  | .SCHED_COUNTS, _ => fieldwise old v [(F.SCHED_COUNTS_SKIPS, bits v 63 32 == 0), (F.SCHED_COUNTS_OVERRUNS, bits v 31 0 == 0)]
  | .DMA_POOL_CFG, _ => whole (4 ≤ bits v 15 0 && bits v 15 0 ≤ 64)
  | .RE_CFG, _ => whole (bits v 11 0 ≤ 2000)
  | .SQ_CFG, _ => whole (bits v 12 0 ≤ 4096)
  | .T1_RESERVE, _ => whole (bits v 4 0 ≤ 16 && s.fget F.T1_RESERVE_USED [] ≤ bits v 4 0)
  | .T2_RANGE_BASE, [n] => whole (s.t2RangeOk n v (s.fget F.T2_RANGE_LEN_LEN [n]))
  | .FL_CFG, _ =>
    let free := fun hi lo => !old.testBit 0 || bits v hi lo == bits old hi lo
    fieldwise old v [(F.FL_CFG_SPLIT, bits v 15 12 ≤ 3), (F.FL_CFG_STRIPE_DRIVES, bits v 11 8 ≤ 3 && free 11 8),
      (F.FL_CFG_STRIPE_UNIT, bits v 7 4 ≤ 4 && free 7 4)]
  | .FL_TIMEOUT, _ => whole (10 ≤ bits v 15 0 && bits v 15 0 ≤ 10000)
  | .FL_TRIM_ADDR, _ => whole (v % 4096 == 0)
  | .FL_TRIM_CTL, _ => whole (s.fget F.FL_TRIM_CTL_BUSY [] == 0)
  | .SHP_CTRL, _ => whole (bits v 15 0 != 0)
  | .PSHP_CFG, _ => whole (shaperOk v)
  | .SSHP_CFG, _ => whole (shaperOk v)
  | .FAB_ID, _ => whole s.portsQuiet
  | .FAB_ROLE, _ => whole (!v.testBit 0 || s.tenIds.isEmpty)
  | .FAB_TIMERS, _ => whole (timersOk v)
  | .EPOCH_CTRL, _ => fieldwise old v [(F.EPOCH_CTRL_SRC_EPOCH, s.epochOk v)]
  | .ROUTE, [e, _] => whole (!(s.fget (if e = 0 then F.EPOCH_STATUS_LIVE0 else F.EPOCH_STATUS_LIVE1) [] == 1 && s.epochReady e))
  | .PKEY, [k] => whole (s.pkeyOk k v)
  | .TEN_PKEY, _ => whole (bits v 15 0 != 0xFFFF)
  | .PORT_CTRL, _ => fieldwise old v [(F.PORT_CTRL_MAX_WIDTH, bits v 7 6 != 3), (F.PORT_CTRL_TEST_LOOP, bits v 5 4 != 3),
      (F.PORT_CTRL_QUICK, !(s.fuses.stepping == 0xA0 && v.testBit 3))]
  | .PORT_VC_CFG, [p] => whole (s.vcOk p v)
  | .PORT_LINK, _ => fieldwise old v [(F.PORT_LINK_REPLAYS, bits v 63 32 == 0), (F.PORT_LINK_LINK_DOWNS, bits v 31 16 == 0),
      (F.PORT_LINK_RETRAINS, bits v 15 0 == 0)]
  | .PORT_ARB, _ => whole (bits v 23 16 != 0 && bits v 15 8 != 0 && bits v 7 0 != 0)
  | .OPM_CTRL, _ => whole (bits v 47 32 != 0 && bits v 15 0 ≤ 20000)
  | .LEASE_CFG, _ => whole (20 ≤ bits v 15 0 && bits v 15 0 ≤ 1000)
  | .AUTH_CTL, _ => if bits v 39 24 = 0 then .bad
    else fieldwise old v [(F.AUTH_CTL_PERIOD_MS, 1 ≤ bits v 62 56 && bits v 62 56 ≤ 100)]
  | .AUTH_LIST, _ => fieldwise old v [(F.AUTH_LIST_ADDR, v % 2 == 0)]
  | .CMD_TX_CTL, _ => fieldwise old v [(F.CMD_TX_CTL_PATH, bits v 61 60 != 0)]
  | .RET_LIMITS, _ => whole ((List.range 8).all (fun n => bits v (8 * n + 7) (8 * n) != 0))
  | .RET_LIMITS2, _ => whole (bits v 63 48 != 0 && 1 ≤ bits v 47 40 && bits v 47 40 ≤ 15 && 1 ≤ bits v 39 32 && bits v 39 32 ≤ 15)
  | .CCC_WDOG, _ => fieldwise old v [(F.CCC_WDOG_LIMIT_US, 1000 ≤ bits v 15 0)]
  | .DFU_WDOG, _ => fieldwise old v [(F.DFU_WDOG_LIMIT_US, 100 ≤ bits v 15 0)]
  | .RET_CLEAR, _ => whole (s.retClearOk v)
  | .RIDGE_FORCE, [w] => whole (s.forceOk 2 0 w v (s.fget F.FORCE_UNIT_UNIT []))
  | .DFU_FORCE, [d, w] => whole (s.forceOk 1 d w v (s.fget F.DFU_FORCE_UNIT_SUB [d]))
  | .BLK_FORCE, [b, _] => whole (s.fuseEnabled b)
  | .GRAVE_FORCE, _ => whole (0xD8 ≤ bits v 7 0 && bits v 7 0 ≤ 0xDD)
  | .BAR2_XLAT, _ => whole (xlatOk v)
  | .RES_CH_CFG, [ch] => s.channelVerdict ch old v
  | .RES_CH_BASE, [ch] => whole (s.fget F.RES_CH_CFG_EN [ch] == 0)
  | .RES_CH_CI, [ch] => whole (s.indexOk ch v)
  | .SRC_SH, _ => whole (bits v 62 60 != 7)
  | .ROLE_REQ, _ => fieldwise old v [(F.ROLE_REQ_ROLE, bits v 9 8 != 0)]
  | .ROLE_CFG, _ => whole (60 ≤ bits v 15 0)
  | .KEY_CTL, _ => whole (bits v 2 0 != 0 && (!v.testBit 31 || s.fget F.KEY_CTL_BUSY [] == 0))
  | .DG_CMD, _ => whole (!(bits v 31 28 == 1 || bits v 31 28 == 2) || s.sealOk (bits v 31 28) (bits v 9 4) (bits v 3 0))
  | .PWR_LIMIT, _ => whole (powerOk v)
  | .RST_CTRL, _ => whole (v.testBit 1 || !v.testBit 0 || s.resetable)
  | .FW_CTL, _ => whole (bits v 31 28 == 0 || (bits v 31 28 ≤ 4 && s.fget F.FW_CTL_BUSY [] == 0 &&
      (bits v 31 28 != 4 || s.fget F.FW_STATUS_TRY_SLOT [] == 0 || s.resetable)))
  | .FW_FUSE, _ => whole (!v.testBit 0 || s.fget F.FW_STATUS_RUN_SLOT [] == s.fget F.FW_STATUS_ACTIVE [])
  | .I3C_CFG, _ => whole (8 ≤ bits v 6 0 && bits v 6 0 < 0x78)
  | _, _ => .ok

/-! ### What an ignored value logs -/

/-- A rejected write of the host endpoint's block. -/
def State.hifReject (s : State) : State := s.fset F.HIF_STATUS_CFG_REJECT [] 1

/-- What a write that is ignored for its value, whole or in a field, logs or sets. -/
def State.regReject (s : State) (r : RegName) (ix : List Nat) (v : Nat) : State :=
  match r, ix with
  | .TICK_CTRL, _ | .TICK_CONFIG, _ | .ALIGN_CONFIG, _ | .TEN_RESERVE, _ => s.chipEv 0x40
  | .TEN_CMD, _ => s.chipEv 0x47
  | .SCHED_CTRL, _ => s.chipEv (s.schedCtrlBad v)
  | .SCHED_SLOT, _ => s.chipEv 0x41
  | .DMA_POOL_CFG, [d] => s.distEv 0x62 d 0
  | .RE_CFG, [d] =>
    (s.capture F.RE_ERR_VALID F.RE_ERR_OVERFLOW [d] [(F.RE_ERR_CODE, 0x80), (F.RE_ERR_REASON, 15), (F.RE_ERR_JOB, 0),
      (F.RE_ERR_DETAIL, 0)]).distEv 0x80 d 0
  | .SQ_CFG, [d] =>
    (s.rmErr d 0x90 15 0 0).distEv 0x90 d 0
  | .T1_RESERVE, _ | .T2_RANGE_BASE, _ | .FL_CFG, _ | .FL_TIMEOUT, _ | .FL_TRIM_CTL, _ | .SHP_CTRL, _ => s.chipEv 0xAA
  | .PSHP_CFG, _ | .SSHP_CFG, _ | .OPM_CTRL, _ | .LEASE_CFG, _ => s.opmErr 0xC8 0 0 0 0
  | .AUTH_CTL, _ => if bits v 39 24 = 0 then s.opmErr 0xC8 0 0 0 0 else s
  | .FAB_ID, _ => s.fabReject 1
  | .FAB_TIMERS, _ => s.fabReject 2
  | .ROUTE, _ => s.fabReject 3
  | .EPOCH_CTRL, _ => s.fabReject 4
  | .PKEY, _ | .TEN_PKEY, _ => s.fabReject 5
  | .PORT_CTRL, [p] | .PORT_VC_CFG, [p] | .PORT_ARB, [p] => s.fabErr 0xB9 p 6 0 0
  | .FAB_ROLE, _ => s.fabReject 7
  | .RET_LIMITS, _ | .RET_LIMITS2, _ | .CCC_WDOG, _ | .DFU_WDOG, _ | .RET_CLEAR, _ | .RIDGE_FORCE, _ | .DFU_FORCE, _ | .GRAVE_FORCE, _ =>
    s.chipEv 0xDE
  | .BAR2_XLAT, _ | .RES_CH_CFG, _ | .RES_CH_BASE, _ | .RES_CH_CI, _ => s.hifReject
  | .SRC_SH, _ => s.fsat F.IC_STATUS_REJECTS [] 1
  | .KEY_CTL, _ => s.keyRefused
  | .DG_CMD, _ => s.sealReject
  | .PWR_LIMIT, _ | .RST_CTRL, _ | .FW_CTL, _ | .FW_FUSE, _ | .I3C_CFG, _ => s.pwrReject
  | _, _ => s

/-! ### What an accepted write does -/

/-- A channel is disabled or reset (R438, R449): its held records and its reservations go. -/
def State.dropChannel (s : State) (ch : Nat) : State :=
  let s := { s with hif := { s.hif with held := KMap.set [] s.hif.held ch [], outq := s.hif.outq.filter (· != OutWrite.ring ch) },
                    tick := { s.tick with urgentChannel := if s.tick.urgentChannel = some ch then none else s.tick.urgentChannel } }
  s.tenIds.foldl (fun s t => match s.run t with
    | some q =>
      if q.channel = some ch then
        (if q.ended.isSome then s.updTen t (fun v => { v with run := none }) else s.updRun t (fun q => { q with channel := none }))
      else s
    | none => s) s

/-- RESULT_ACK (R447). -/
def State.ackRecord (s : State) (ch v : Nat) : State :=
  match s.presented ch with
  | some x =>
    if bits ((x[15]?).getD 0) 31 0 = v % 2 ^ 32 then
      { s with hif := { s.hif with held := KMap.upd [] s.hif.held ch (fun l => l.drop 1) } }
    else s.fsat F.HIF_STATUS_ACK_STALE [] 1
  | none => s.fsat F.HIF_STATUS_ACK_STALE [] 1

/-- The configuration bits of a source take a value; PRIO and COAL_COUNT of 0 become 1. -/
def State.setSource (s : State) (x : Src) (new : Nat) : State :=
  let s := s.rset x.reg x.ix (BitVec.ofNat 64 new)
  let s := if s.fget (x.f 48 46) x.ix = 0 then s.fset (x.f 48 46) x.ix 1 else s
  if s.fget (x.f 45 38) x.ix = 0 then s.fset (x.f 45 38) x.ix 1 else s

/-- An accepted write of SRC_CFG: that of an active source waits until the source completes (R456). -/
def State.writeSource (s : State) (x : Src) (new : Nat) : State :=
  if s.fget (x.f 23 23) x.ix = 1 then
    { s with ic := { s.ic with deferred := KMap.set none s.ic.deferred x.addr (some (BitVec.ofNat 64 new)) } }
  else s.setSource x new

/-- COMPLETE by the owning core (R454): the source is active no more, and a waiting write of its SRC_CFG takes effect. -/
def State.complete (s : State) (c n : Nat) : State :=
  let x : Src := if n < 64 then .priv c n else .shared n
  if !x.listed || s.fget (x.f 23 23) x.ix = 0 || (64 ≤ n && s.fget F.SRC_SH_TARGET [n] != c) then s
  else
    let s := s.fset (x.f 23 23) x.ix 0
    match KMap.get none s.ic.deferred x.addr with
    | none => s
    | some v =>
      let s := { s with ic := { s.ic with deferred := KMap.set none s.ic.deferred x.addr none } }
      s.setSource x (v.toNat &&& x.reg.bitsOf (fun a => a == .rw || a == .rwl) ||| (s.rget x.reg x.ix).toNat &&& x.reg.bitsOf (· == .ro))

/-- CORE_CTRL: HALT_REQ halts the core at its next instruction boundary, and RUN = 0 holds it in reset, from
which CYCLE counts (R75). -/
def State.writeCore (s : State) (c new : Nat) : State :=
  let was := s.fget F.CORE_CTRL_RUN [c] == 1
  let s := s.rset .CORE_CTRL [c] (BitVec.ofNat 64 new)
  if !new.testBit 0 then s.setCore c (if c < 4 then {} else { level := 2 })
  else s.updCore c (fun k => { k with
    halted := new.testBit 1, bornCycles := if was then k.bornCycles else s.ridge.cycles })

/-- EPOCH_CTRL (R336): commits, and then the epoch that the device stamps; the table it leaves stays LIVE for a while. -/
def State.writeEpoch (s : State) (old v : Nat) : State :=
  let s := if v.testBit 1 then s.fset F.EPOCH_STATUS_READY0 [] 1 else s
  let s := if v.testBit 2 then s.fset F.EPOCH_STATUS_READY1 [] 1 else s
  if bit v 0 = bit old 0 then s
  else
    let s := (s.fset F.EPOCH_CTRL_SRC_EPOCH [] (bit v 0)).fset (if bit v 0 = 0 then F.EPOCH_STATUS_LIVE0 else F.EPOCH_STATUS_LIVE1) [] 1
    s.updFab (fun f => { f with epochNs := s.now })

/-- ALLEY_CTRL: a port that stops is no longer UP. -/
def State.writeAlley (s : State) (new : Nat) : State :=
  let s := s.rset .ALLEY_CTRL [] (BitVec.ofNat 64 new)
  (List.range 31).foldl (fun s a =>
    if !new.testBit a && s.fget F.ALLEY_STATUS_UP [a] = 1 then (s.fset F.ALLEY_STATUS_UP [a] 0).srcEvent (.shared (132 + a)) else s) s

/-- The actions of ROLE_REQ: GO, VERIFY, DROP. -/
def State.writeRole (s : State) (a v : Nat) : State :=
  let role := s.fget F.ROLE_REQ_ROLE [a]
  let slot := s.fget F.ROLE_REQ_SLOT [a]
  let s := if v.testBit 31 then s.roleGo a role slot else s
  let s := if v.testBit 30 then s.roleVerify a role slot else s
  if v.testBit 29 then s.roleDrop a role else s

/-- RES_CH_CFG (R443, R449). -/
def State.writeChannel (s : State) (ch old new : Nat) : State :=
  let s := s.rset .RES_CH_CFG [ch] (BitVec.ofNat 64 new)
  if old.testBit 63 && !new.testBit 63 then s.dropChannel ch
  else if !old.testBit 63 && new.testBit 63 then s.fset F.RES_CH_PI_NEXT_SEQ [ch] 1
  else s

/-- Keeps what a register held at the tick start, until the next one. -/
def State.latch (s : State) (r : RegName) (ix : List Nat) (old : Nat) : State :=
  let a := r.addr ix
  { s with tick := { s.tick with latched :=
    if (KMap.get none s.tick.latched a).isSome then s.tick.latched else KMap.set none s.tick.latched a (some (BitVec.ofNat 32 old)) } }

/-- What an accepted write of `v` does; `new` is what the register's fields come to. -/
def State.regAct (s : State) (w : Writer) (r : RegName) (ix : List Nat) (v new : Nat) : State :=
  let old := (s.rget r ix).toNat
  let t := s.rset r ix (BitVec.ofNat 64 new)
  match r, ix with
  | .TICK_CTRL, _ => t.tickCtrlAct old
  | .SCHED_CTRL, _ => if v.testBit 31 then t.fset F.SCHED_CTRL_SWAP_PENDING [] 1 else t
  | .TEN_CMD, _ => s.tenCmdAct v
  | .CORE_CTRL, [c] => s.writeCore c new
  | .BLK_CTRL, [b] => if s.fuseEnabled b then t.updBlk b (fun k => { k with halted := new.testBit 0 }) else s
  | .GA_CTRL, [d] => t.updGa d (fun g => { g with halted := new.testBit 0 })
  | .BLK_SOFT_INT, [b] => if v.testBit 0 && s.fuseEnabled b then s.blkPend b 9 else s
  | .T2_RANGE_BASE, [n] => s.setT2Range n v
  | .FL_CFG, _ => t.flashRuns
  | .FL_TRIM_CTL, _ => s.trimStart (bits v 31 0)
  | .SHP_CFG, [t, q] => s.bucketConfig (.mem t q) new
  | .PSHP_CFG, [p, vc] => s.bucketConfig (.port p vc) new
  | .SSHP_CFG, [t, q] => (s.bucketConfig (.src t q) new).fabPump
  | .FAB_ROLE, _ => t.fset F.FAB_ROLE_TRANSIT_NOW [] (if [2, 3].contains (s.fget F.RIDGE_STATUS_STATE []) then 1 else bit new 0)
  | .EPOCH_CTRL, _ => s.writeEpoch old v
  | .ROUTE, [e, _] => t.fset (if e = 0 then F.EPOCH_STATUS_READY0 else F.EPOCH_STATUS_READY1) [] 0
  | .PORT_CTRL, [p] =>
    let t := t.portCtrlAct p
    if v.testBit 2 && t.portActive p then t.startRetrain p 0 else t
  | .AUTH_CTL, [a] => if new.testBit 63 then t.updAuth a (fun x => { x with startNs := s.now, next := 0, acked := 0, fenced := 0 }) else t
  | .CMD_TX_CTL, _ => if v.testBit 63 then t.cmdTxGo else t
  | .ALLEY_CTRL, _ => s.writeAlley new
  | .RIDGE_CTRL, _ => if v.testBit 5 then t.release else t
  | .RET_CLEAR, _ => t.retClear v
  | .RIDGE_FORCE, [n] => s.ridgeForce n v
  | .DFU_FORCE, [d, n] => s.dfuForce d n v
  | .BLK_FORCE, [b, n] => s.blkForce b n v
  | .GRAVE_FORCE, _ => t.graveForce (bits v 7 0)
  | .RES_TEN, _ => t.latch r ix old
  | .DG_TEN, _ => t.latch r ix old
  | .RES_CH_CFG, [ch] => s.writeChannel ch old new
  | .RESULT_ACK, [ch] => s.ackRecord ch v
  | .COMPLETE, [c] => if w = .core (Fin.ofNat 6 c) then s.complete c (bits v 15 0) else s
  | .THRESHOLD, [c] => if w = .core (Fin.ofNat 6 c) then t else s
  | .SOFT, [c] => if v.testBit 0 then s.srcEvent (.priv c 8) else s
  | .SRC_PRIV, [c, n] => s.writeSource (.priv c n) new
  | .SRC_SH, [n] => s.writeSource (.shared n) new
  | .GF_CFG, [l] => if bits new 7 0 = 0 then t.fset F.GF_CFG_STABLE [l] 1 else t
  | .ROLE_REQ, [a] => t.writeRole a v
  | .KEY_CTL, _ => if v.testBit 31 then t.keyGo w (bits v 2 0) else t
  | .AUD_READ, _ => s.audRead (bits v 31 0)
  | .DG_CMD, _ =>
    let t := t.fset ⟨.DG_CMD, 31, 28⟩ [] 0
    if bits v 31 28 = 1 then t.sealStart w (bits v 9 4) (bits v 3 0)
    else if bits v 31 28 = 2 then t.unsealStart w (bits v 9 4) (bits v 3 0)
    else t
  | .RST_CTRL, _ => if v.testBit 1 then s.coldReset else if v.testBit 0 then s.askFabric 3 else s
  | .FW_CTL, _ => s.fwOp (bits v 31 28)
  | .FW_FUSE, _ => if v.testBit 0 then s.burnSvn else s
  | _, _ => t

/-! ### Settings (R493) -/

/-- The bits of a register that the settings record keeps, or none. -/
def settingBits (r : RegName) : Nat :=
  match r with
  | .TICK_CTRL => 0x70
  | .FAB_ID | .PORT_CTRL | .PORT_VC_CFG | .PORT_ARB | .FAB_TIMERS | .PKEY | .CMD_ALLOW | .ALLEY_CTRL | .ALLEY_CMD_EN | .T1_RESERVE
  | .T2_RANGE_BASE | .T2_RANGE_LEN | .FL_CFG | .FL_TIMEOUT | .TICK_CONFIG | .ALIGN_CONFIG | .RIDGE_CTRL | .RET_LIMITS | .RET_LIMITS2
  | .ROLE_CFG | .GF_CFG | .PWR_LIMIT | .I3C_CFG | .ROUTE => r.bitsOf (· == .rwl)
  | _ => 0

/-- A setting waits for the journal entry that was queued last: its address in the record, and its difference from reset. -/
def State.noteSetting (s : State) (r : RegName) (ix at_ : List Nat) : State :=
  let seq := s.sec.lastSeq
  let v := KMap.get 0 s.regs (r.addr ix) &&& BitVec.ofNat 64 (settingBits r)
  { s with fw := { s.fw with waiting := s.fw.waiting ++ [(seq, r.addr at_, v)] } }

/-- The settings that an accepted write changes: the route table of SRC_EPOCH is kept as table 0. -/
def State.noteSettings (s : State) (r : RegName) (ix : List Nat) : State :=
  let e := s.fget F.EPOCH_CTRL_SRC_EPOCH []
  match r, ix with
  | .ROUTE, [t, k] => if t = e then s.noteSetting .ROUTE [t, k] [0, k] else s
  | .EPOCH_CTRL, _ => (List.range 128).foldl (fun s k => s.noteSetting .ROUTE [e, k] [0, k]) s
  | _, _ => if settingBits r = 0 then s else s.noteSetting r ix ix

/-! ### Roles, and the write of a register -/

/-- Whether a written value names an action in a WO field (R7): a bit of it set, and in the OP field of FW_CTL a listed operation. -/
def RegName.names (r : RegName) (v : Nat) : Bool :=
  match r with
  | .FW_CTL => 1 ≤ bits v 31 28 && bits v 31 28 ≤ 4
  | _ => v &&& r.bitsOf (· == .wo) != 0

/-- The role that a write of `v` needs, if it needs one: none for a write that names no action in a register without RWL fields. -/
def State.roleNeeded (s : State) (w : Writer) (r : RegName) (v : Nat) : Option Role :=
  match r with
  | .KEY_DATA => some (if s.holds w .maker then .maker else .installer)
  | .KEY_CTL => some (if bits v 2 0 = 0 then (if s.holds w .maker then .maker else .installer) else enroller (bits v 2 0))
  | _ => r.info.role.filter (fun _ => r.bitsOf (· == .rwl) != 0 || r.names v)

/-- How many journal entries a write makes (R475): its own, and that of a key enrolment, a SEAL or an UNSEAL. -/
def RegName.entries (r : RegName) (v : Nat) : Nat :=
  match r with
  | .KEY_CTL => if v.testBit 31 then 2 else 1
  | .DG_CMD => if bits v 31 28 = 1 || bits v 31 28 = 2 then 2 else 1
  | _ => 1

/-- A write of value `v` to a whole register under the access codes, the roles and the admitted values. -/
def State.regPut (s : State) (w : Writer) (r : RegName) (ix : List Nat) (v : Nat) : State :=
  let old := (s.rget r ix).toNat
  let verdict := s.regVerdict r ix v
  let wo := r.bitsOf (· == .wo)
  let x := match verdict with | .part x => x | _ => v
  let new := r.written old x
  let idle := match verdict with
    | .bad => true
    | .part _ => new == old && x &&& wo == 0
    | .ok => false
  let late := fun (s : State) => match verdict with | .ok => s | _ => s.regReject r ix v
  match s.roleNeeded w r v with
  | none => if idle then s.regReject r ix v else if r.info.role.isSome then s else late (s.regAct w r ix x new)
  | some role =>
    s.gated w role r ix v (r.entries v) (!idle) (fun s => s.regReject r ix v) (fun s => late ((s.regAct w r ix x new).noteSettings r ix))

/-- The watchdog of a register with a KICK field (R469): 4 the CCC's. -/
def kickOf (r : RegName) (ix : List Nat) : Option Nat :=
  match r, ix with
  | .CCC_WDOG, _ => some 4
  | .DFU_WDOG, [d] => some d
  | _, _ => none

/-- A write to a whole register; KICK needs no role and is not journaled, and with it a write that leaves the other fields as they
are is no attempt on them. -/
def State.regSet (s : State) (w : Writer) (r : RegName) (ix : List Nat) (v : Nat) : State :=
  match kickOf r ix with
  | some c =>
    if v.testBit 31 then
      let s := s.kick c
      if v % 2 ^ 31 = (s.rget r ix).toNat % 2 ^ 31 then s else s.regPut w r ix (v % 2 ^ 31)
    else s.regPut w r ix v
  | none => s.regPut w r ix v

/-! ### Halves (R11) and writes of the control register space (R9, R10, R518) -/

/-- The number of a writer. -/
def writerNum : Writer → Nat
  | .host => 0
  | .i3c => 1
  | .core c => 2 + c.val
  | .dma => 15

/-- Where a writer's held lower half of a register is kept. -/
def heldKey (w : Writer) (r : RegName) (ix : List Nat) : Nat := r.addr ix * 16 + writerNum w

/-- Holds or drops a lower half. -/
def State.holdHalf (s : State) (w : Writer) (r : RegName) (ix : List Nat) (x : Option Nat) : State :=
  { s with halves := KMap.set none s.halves (heldKey w r ix) x }

/-- A write of an upper half: with the held lower half, or with the register's current one whose W1C, W1S and WO bits take no
action. -/
def State.putUpper (s : State) (w : Writer) (r : RegName) (ix : List Nat) (v : Nat) : State :=
  let stay := (s.rget r ix).toNat % 2 ^ 32 &&& r.bitsOf (fun a => a == .rw || a == .rwl || a == .ro)
  let low := (KMap.get none s.halves (heldKey w r ix)).getD stay
  (s.holdHalf w r ix none).regSet w r ix (v % 2 ^ 32 * 2 ^ 32 + low)

/-- A write of an aligned word of 4 bytes to a register that is there. -/
def State.putWord (s : State) (w : Writer) (x : RegName × List Nat × Bool) (v : Nat) : State :=
  let (r, ix, up) := x
  if !r.info.w64 then s.regSet w r ix (v % 2 ^ 32)
  else if up then s.putUpper w r ix v
  else s.holdHalf w r ix (some (v % 2 ^ 32))

/-- Whether writes are ignored here: in the grave state, and by the host to the Districts during STATE REENTRY (R428, R429, R438). -/
def State.writesShut (s : State) (w : Writer) (off : Nat) : Bool :=
  let st := s.fget F.RIDGE_STATUS_STATE []
  st == 4 || (w == .host && st == 2 && 0x2000000 ≤ off)

/-- Whether an offset is unassigned for a writer (R10, R501): a DCC finds the agent registers, and its writes to them are ignored. -/
def State.unassigned (s : State) (w : Writer) (off : Nat) : Bool :=
  (s.reach w off).isNone && (w == .i3c || !assigned off)

/-- A write of one word, if there is a register. -/
def State.tryWord (s : State) (w : Writer) (off v : Nat) : State :=
  match s.reach w off with
  | some x => s.putWord w x v
  | none => s

/-- A write of the control register space. -/
def State.regWrite (s : State) (w : Writer) (off len v : Nat) : State :=
  if s.writesShut w off then s
  else if !(len = 4 || len = 8) || off % len != 0 then s.chipEv 0x32
  else if len = 4 then (if s.unassigned w off then s.chipEv 0x33 else s.tryWord w off v)
  else if s.unassigned w off && s.unassigned w (off + 4) then s.chipEv 0x33
  else match s.reach w off with
    | some (r, ix, false) =>
      if r.info.w64 then (s.holdHalf w r ix none).regSet w r ix (v % 2 ^ 64)
      else (s.putWord w (r, ix, false) (v % 2 ^ 32)).tryWord w (off + 4) (v / 2 ^ 32 % 2 ^ 32)
    | some x => (s.putWord w x (v % 2 ^ 32)).tryWord w (off + 4) (v / 2 ^ 32 % 2 ^ 32)
    | none => s.tryWord w (off + 4) (v / 2 ^ 32 % 2 ^ 32)

end Sys2Proof.Machine
end

