-- ==== Sys2Proof/Machine/DmaCmds.lean ====
section
/-! DEFINITION. The commands by which DMA descriptors move their bytes (R133). -/

namespace Sys2Proof.Machine

/-- The registers that a channel outside any Tenancy accesses for its descriptor answer (R9, R142). -/
def State.ctlServe (s : State) (id : Nat) : State :=
  match (s.job id).map DmaJob.owner with
  | some (.ch d c) =>
    (s.fab.reqs.filter (fun r => r.dst == ctlDst && r.srcIdx == d * 64 + c && r.result.isNone)).foldl (fun s r =>
      let q := match r.kind with
        | .read => let v := s.regRead .dma r.addr r.len; (leBytes r.len v.1, v.2)
        | _ => ([], s.regWrite .dma r.addr r.len (leNat r.data))
      q.2.updReq r.id (fun x => { x with result := some (0, q.1) })) s
  | _ => s

/-- Moves up to `n` chunks of a descriptor whose operation is `op`. -/
def State.dmaMoves (s : State) (op id n : Nat) : State :=
  match s.job id with
  | some j => if j.op = op then Nat.repeat (fun s => (State.dmaMove s id).ctlServe id) n s else s
  | none => s

/-- COPY (R133, R136, R139). -/
def execDmaCopy (id n now : Nat) (s : State) : Host.Outcome State Fault Refusal := .next ((s.at now).dmaMoves 1 id n)

/-- SKEW (R133, R135). -/
def execDmaSkew (id n now : Nat) (s : State) : Host.Outcome State Fault Refusal := .next ((s.at now).dmaMoves 2 id n)

/-- GATHER (R133, R136). -/
def execDmaGather (id n now : Nat) (s : State) : Host.Outcome State Fault Refusal := .next ((s.at now).dmaMoves 3 id n)

/-- DISPATCH (R133, R201). -/
def execDmaDispatch (id n now : Nat) (s : State) : Host.Outcome State Fault Refusal := .next ((s.at now).dmaMoves 4 id n)

/-- FILL (R133). -/
def execDmaFill (id n now : Nat) (s : State) : Host.Outcome State Fault Refusal := .next ((s.at now).dmaMoves 5 id n)

end Sys2Proof.Machine
end

