-- ==== Sys2Proof/Machine/HostCmds.lean ====
section
/-! DEFINITION. The host endpoint (R432 to R438), result channels (R439 to R449), interrupt delivery (R450 to R457) and sensed lines
(R458). -/

namespace Sys2Proof.Machine

/-! ### BAR2 (R434 to R436) -/

/-- Captures a failing request of BAR2: KIND, STATUS, and the offset of the line. -/
def State.hifErr (s : State) (kind status off : Nat) : State :=
  s.capture F.HIF_ERR_VALID F.HIF_ERR_OVERFLOW []
    [(F.HIF_ERR_KIND, kind), (F.HIF_ERR_STATUS, status), (F.HIF_ERR_WINDOW, off / 2 ^ 30), (F.HIF_ERR_OFFSET, off)]

/-- Whether a range of BAR2 is one PCIe request: it lies in the aperture and crosses no 4 KiB boundary. -/
def bar2Request (off n most : Nat) : Bool := off + n ≤ 2 ^ 36 && 1 ≤ n && n ≤ most && off % 4096 + n ≤ 4096

/-- The device address of a BAR2 offset (R434). -/
def State.bar2Addr (s : State) (off : Nat) : Nat := s.fget F.BAR2_XLAT_TARGET [off / 2 ^ 30] * 2 ^ 30 + off % 2 ^ 30

/-- The first failing line of a request: its status, and the offset of the line in BAR2. -/
def firstFail (a off : Nat) (l : List (Nat × Nat)) : Option (Nat × Nat) :=
  (l.find? (fun x => x.2 != 0)).map (fun x => (x.2, (off + (x.1 - a)) / 128 * 128))

/-- BAR2_READ (R436). The completion is reported as 0 successful, 1 successful with poisoned data, 2 Unsupported Request, 3 Completer
Abort. -/
def execBar2Read (off n : Nat) (now : Nat) (s : State) : Host.Outcome State Fault Refusal :=
  let s := s.at now
  let done := fun (s : State) (st : Nat) (l : List Byte) => { s with out := { status := st, data := l } }
  if !bar2Request off n 4096 || s.stopped then .next s
  else if s.fget F.BAR2_XLAT_VALID [off / 2 ^ 30] = 0 then .next (done (s.hifErr 1 0 (off / 128 * 128)) 2 [])
  else
    let a := s.bar2Addr off
    let r := (pieces a n).foldl (fun (x : List (Nat × Nat) × List Byte × State) p =>
      let q := x.2.2.busRead hostIssuer .rd p.1 p.2
      (x.1 ++ [(p.1, q.1)], x.2.1 ++ q.2.1, q.2.2)) ([], [], s)
    match firstFail a off r.1 with
    | none => .next (done r.2.2 0 r.2.1)
    | some (st, o) =>
      let s := r.2.2.hifErr 3 st o
      .next (if r.1.all (fun x => x.2 == 0 || x.2 == St.dataError) then done s 1 (List.replicate n 0xFF) else done s 3 [])

/-- BAR2_WRITE (R436): lines that fail are dropped, and the others stand. -/
def execBar2Write (off : Nat) (data : List (BitVec 8)) (poisoned : Bool) (now : Nat) (s : State) : Host.Outcome State Fault Refusal :=
  let s := s.at now
  let w := off / 2 ^ 30
  let o := off / 128 * 128
  if !bar2Request off data.length 512 || s.stopped then .next s
  else if s.fget F.BAR2_XLAT_VALID [w] = 0 then .next (s.hifErr 1 0 o)
  else if s.fget F.BAR2_XLAT_WRITE [w] = 0 then .next (s.hifErr 2 0 o)
  else if poisoned then .next (s.hifErr 4 0 o)
  else
    let a := s.bar2Addr off
    let r := (pieces a data.length).foldl (fun (x : List (Nat × Nat) × State) p =>
      let q := x.2.busWrite hostIssuer .wr p.1 ((data.drop (p.1 - a)).take p.2)
      (x.1 ++ [(p.1, q.1)], q.2)) ([], s)
    match firstFail a off r.1 with
    | none => .next r.2
    | some (st, o) => .next (r.2.hifErr 3 st o)

/-! ### The endpoint (R438) -/

/-- Whether outbound writes leave: Bus Master Enable is 1 and the link is up. -/
def State.canSend (s : State) : Bool := s.fget F.HIF_STATUS_BME [] == 1 && s.fget F.HIF_STATUS_LINK_UP [] == 1

/-- Whether an MSI-X vector is sendable (R455). -/
def State.sendable (s : State) (v : Nat) : Bool :=
  s.canSend && s.fget F.HIF_STATUS_MSIX_EN [] == 1 && s.fget F.HIF_STATUS_FN_MASK [] == 0 && s.fget F.MSIX_CTL_MASK [v] == 0

/-- The message of a vector: its data written to its address in host memory. -/
def State.sendMsi (s : State) (v : Nat) : State :=
  s.hostWrite (s.fget F.MSIX_ADDR_ADDR [v]) (leBytes 4 (s.fget F.MSIX_DATA_DATA [v]))

/-- Sends the message of a vector whose pending bit is set, once it is sendable. -/
def State.sendPending (s : State) (v : Nat) : State :=
  if s.rtest .MSIX_PBA [v / 64] (v % 64) && s.sendable v then (s.rbit .MSIX_PBA [v / 64] (v % 64) false).sendMsi v else s

/-- Whether a ring has room for one record more after `queued` others (R444). -/
def State.ringRoom (s : State) (ch queued : Nat) : Bool :=
  (s.fget F.RES_CH_PI_PI [ch] + 2 ^ 32 - s.fget F.RES_CH_CI_CI [ch]) % 2 ^ 32 + queued < 2 ^ s.fget F.RES_CH_CFG_LOG2_SIZE [ch]

/-- Writes the oldest record of a channel to its ring: PI advances, the store slot is freed, and the channel's source has an event
(R444, R451). -/
def State.ringWrite (s : State) (ch : Nat) : State :=
  match (s.resHeld ch).head? with
  | none => s
  | some x =>
    let pi := s.fget F.RES_CH_PI_PI [ch]
    let a := s.fget F.RES_CH_BASE_BASE [ch] * 4096 + 128 * (pi % 2 ^ s.fget F.RES_CH_CFG_LOG2_SIZE [ch])
    let s := { s with hif := { s.hif with held := KMap.upd [] s.hif.held ch (fun l => l.drop 1) } }
    ((s.hostWrite a (x.flatMap (leBytes 8))).fset F.RES_CH_PI_PI [ch] (pi + 1)).srcEvent (.shared (256 + ch))

/-- The writes that wait leave in their order. -/
def State.drainOut (s : State) : State :=
  if !s.canSend then s
  else
    let l := s.hif.outq
    let s := { s with hif := { s.hif with outq := [] } }
    l.foldl (fun s x => match x with
      | .ring ch => s.ringWrite ch
      | .msi v => s.sendPending v) s

/-- What an FLR, a hot reset or a link down clears (R438, R471). -/
def State.endpointReset (s : State) : State :=
  let s := (List.range 64).foldl (fun s ch => ((s.dropChannel ch).rset .RES_CH_CFG [ch] (RegName.rst .RES_CH_CFG [ch])).rset .RES_CH_BASE [ch] 0) s
  let s := { (s.resetRegs 0x100100 0x200).resetRegs 0x140000 0x8100 with hif := { s.hif with outq := [] } }
  let s := s.updAgent 0 (fun x => { x with sessions := x.sessions.map (·.endAt s.now) })
  s.fsets [] [(F.HIF_STATUS_BME, 0), (F.HIF_STATUS_MSIX_EN, 0), (F.HIF_STATUS_FN_MASK, 0), (F.HIF_STATUS_FLR_SEEN, 1)]

/-- ENDPOINT_RESET: 0 an FLR, 1 a hot reset, 2 link down. -/
def execEndpointReset (kind : Fin 3) (now : Nat) (s : State) : Host.Outcome State Fault Refusal :=
  let s := (s.at now).endpointReset
  .next (if kind = 2 then s.fsets [] [(F.HIF_STATUS_LINK_UP, 0), (F.HIF_STATUS_SPEED, 0), (F.HIF_STATUS_WIDTH, 0)] else s)

/-- BUS_MASTER_ENABLE: the host's software configures the function over a link that is up, at a generation and a width; the writes
that wait leave once the bit is set. -/
def execBusMasterEnable (gen : Fin 6) (lanes : Fin 5) (bme msixEn fnMask : Bool) (now : Nat) (s : State) :
    Host.Outcome State Fault Refusal :=
  let s := (s.at now).fsets [] [(F.HIF_STATUS_LINK_UP, 1), (F.HIF_STATUS_SPEED, gen.val + 1), (F.HIF_STATUS_WIDTH, 2 ^ lanes.val),
    (F.HIF_STATUS_BME, bme.toNat), (F.HIF_STATUS_MSIX_EN, msixEn.toNat), (F.HIF_STATUS_FN_MASK, fnMask.toNat)]
  .next s.drainOut

/-! ### Result channels -/

/-- RING_RECORD_WRITE (R444): a RING channel writes its oldest record once the ring has room; while outbound writes wait, it joins
them. -/
def execRingRecordWrite (ch : Fin 64) (now : Nat) (s : State) : Host.Outcome State Fault Refusal :=
  let s := s.at now
  let queued := (s.hif.outq.filter (· == OutWrite.ring ch)).length
  if s.fget F.RES_CH_CFG_EN [ch] = 0 || s.fget F.RES_CH_CFG_MODE [ch] = 1 || (s.resHeld ch).length ≤ queued || !s.ringRoom ch queued then
    .next s
  else if s.canSend && queued = 0 then .next (s.ringWrite ch)
  else .next { s with hif := { s.hif with outq := s.hif.outq ++ [.ring ch] } }

/-- A write of a whole register by its name. -/
def State.ctlWrite (s : State) (w : Writer) (r : RegName) (ix : List Nat) (v : Nat) : State :=
  s.regWrite w (r.addr ix) (if r.info.w64 then 8 else 4) v

/-- A read of a whole register by its name; what it returns is reported outside. -/
def State.ctlRead (s : State) (w : Writer) (r : RegName) (ix : List Nat) : State :=
  let q := s.regRead w (r.addr ix) (if r.info.w64 then 8 else 4)
  { q.2 with out := { status := 0, value := q.1 } }

/-- RP_STATUS_READ (R446). -/
def execRpStatusRead (w : Writer) (ch : Fin 64) (now : Nat) (s : State) : Host.Outcome State Fault Refusal :=
  .next ((s.at now).ctlRead w .RP_STATUS [ch.val])

/-- RESULT_ACK (R447). -/
def execResultAck (w : Writer) (ch : Fin 64) (seq : BitVec 32) (now : Nat) (s : State) : Host.Outcome State Fault Refusal :=
  .next ((s.at now).ctlWrite w .RESULT_ACK [ch.val] seq.toNat)

/-! ### Interrupts -/

/-- COAL_TIMEOUT (R452): COAL_US have passed since the first event that the source counts, so that it is pending. The source is a
private one of the core below 64, and a shared one above. -/
def execCoalTimeout (c : CoreId) (n : Fin 512) (s : State) : Host.Outcome State Fault Refusal :=
  let x : Src := if n.val < 64 then .priv c n else .shared n
  let us := s.fget (x.f 37 24) x.ix
  if !x.listed || us = 0 || s.fget (x.f 15 0) x.ix = 0 then .next s
  else .next (s.at (KMap.get 0 s.ic.firstT x.addr - 1 + us * 1000))

/-- CLAIM (R453): a read of a core's CLAIM. -/
def execClaim (w : Writer) (c : CoreId) (now : Nat) (s : State) : Host.Outcome State Fault Refusal :=
  .next ((s.at now).ctlRead w .CLAIM [c.val])

/-- INT_COMPLETE (R454): a write of a core's COMPLETE. -/
def execIntComplete (w : Writer) (c : CoreId) (n : BitVec 32) (now : Nat) (s : State) : Host.Outcome State Fault Refusal :=
  .next ((s.at now).ctlWrite w .COMPLETE [c.val] n.toNat)

/-- SOFT (R450): a write of a core's SOFT. -/
def execSoft (w : Writer) (c : CoreId) (v : BitVec 32) (now : Nat) (s : State) : Host.Outcome State Fault Refusal :=
  .next ((s.at now).ctlWrite w .SOFT [c.val] v.toNat)

/-- MSI_X_SEND (R455): a pending shared source that targets the host sends its message, or sets the vector's pending bit. -/
def execMsiXSend (n : Fin 512) (now : Nat) (s : State) : Host.Outcome State Fault Refusal :=
  let s := s.at now
  let x : Src := .shared n
  if n.val < 64 || s.fget F.SRC_SH_TARGET [n] != 6 || !s.srcPending x then .next s
  else
    let v := s.fget F.SRC_SH_VECTOR [n]
    let s := s.srcClear x
    if s.sendable v then .next (s.sendMsi v)
    else
      let s := s.rbit .MSIX_PBA [v / 64] (v % 64) true
      .next (if s.canSend || s.hif.outq.contains (.msi v) then s else { s with hif := { s.hif with outq := s.hif.outq ++ [.msi v] } })

/-- VECTOR_SENDABLE (R455): a pending message is sent once. -/
def execVectorSendable (v : Fin 2048) (now : Nat) (s : State) : Host.Outcome State Fault Refusal := .next ((s.at now).sendPending v)

/-! ### Sensed lines (R458, R506) -/

/-- What an accepted level of a line does. -/
def State.lineAct (s : State) (l : Nat) (level : Bool) : State :=
  match l with
  | 1 => { s with pins := { s.pins with powerFailLow := !level } }
  | 2 => s.noteCause
  | 3 =>
    let s := s.noteCause
    { s with pwr := { s.pwr with emergNs := s.now } }
  | 4 => if level then s else { s with pwr := { s.pwr with t2pg := true } }
  | 5 => if level then s else s.endpointReset
  | 6 =>
    let held := s.tap.ir == 0 || (3 ≤ s.tap.ir.toNat && s.tap.ir.toNat ≤ 6)
    let s := { s with pins := { s.pins with porstLow := !level } }
    if level && held then { s with tap := { s.tap with ir := 0xFF } } else s
  | 7 => if level then s else s.tapStop
  | _ => s

/-- SENSED_LINE_CHANGE (R458): the line has held a new level for `held` cclk; a shorter pulse is dropped and counted. -/
def execSensedLineChange (l : Fin 8) (level : Bool) (held : Nat) (now : Nat) (s : State) : Host.Outcome State Fault Refusal :=
  let s := s.at now
  if s.line l = level && (level || s.pins.isLow l) then .next s
  else if held < s.fget F.GF_CFG_STABLE [l] then .next (s.fsat F.GF_CFG_GLITCHES [l] 1)
  else
    let s := { s with pins := { s.pins with low := KMap.set false s.pins.low l (!level) } }
    .next ((s.fset F.GF_CFG_LEVEL [l] level.toNat).lineAct l level)

end Sys2Proof.Machine
end

