-- ==== Sys2Proof/Machine/RegRows.lean ====
section
/-! DEFINITION. The commands that are writes of control registers: the write of any register, and those that have a row of their
own. Every one of them is the same write, made at the register's offset by a writer (R470). -/

namespace Sys2Proof.Machine

/-! ### Any register -/

/-- REG_WRITE (R7, R9 to R11): a write of `len` bytes at an offset of the control register space. -/
def execRegWrite (w : Writer) (off len : Nat) (v : BitVec 64) (now : Nat) (s : State) : Host.Outcome State Fault Refusal :=
  .next ((s.at now).regWrite w off len v.toNat)

/-! ### Tick, schedule and Tenancies -/

/-- TICK_CTRL_WRITE (R44, R46). -/
def execTickCtrlWrite (w : Writer) (v : BitVec 32) (now : Nat) (s : State) : Host.Outcome State Fault Refusal :=
  .next ((s.at now).ctlWrite w .TICK_CTRL [] (v.toNat))

/-- TICK_CONFIG_WRITE (R41). -/
def execTickConfigWrite (w : Writer) (v : BitVec 32) (now : Nat) (s : State) : Host.Outcome State Fault Refusal :=
  .next ((s.at now).ctlWrite w .TICK_CONFIG [] (v.toNat))

/-- ALIGN_CONFIG_WRITE (R46). -/
def execAlignConfigWrite (w : Writer) (v : BitVec 64) (now : Nat) (s : State) : Host.Outcome State Fault Refusal :=
  .next ((s.at now).ctlWrite w .ALIGN_CONFIG [] (v.toNat))

/-- CREATE (R51): OP 1 of TEN_CMD; TEN_ARG holds the descriptor's address. -/
def execCreate (w : Writer) (t : TenId) (now : Nat) (s : State) : Host.Outcome State Fault Refusal :=
  .next ((s.at now).ctlWrite w .TEN_CMD [] (2 ^ 28 + t.val))

/-- DESTROY (R56): OP 2 of TEN_CMD. -/
def execDestroy (w : Writer) (t : TenId) (now : Nat) (s : State) : Host.Outcome State Fault Refusal :=
  .next ((s.at now).ctlWrite w .TEN_CMD [] (2 * 2 ^ 28 + t.val))

/-- URGENT (R64): OP 3 of TEN_CMD. -/
def execUrgent (w : Writer) (t : TenId) (now : Nat) (s : State) : Host.Outcome State Fault Refusal :=
  .next ((s.at now).ctlWrite w .TEN_CMD [] (3 * 2 ^ 28 + t.val))

/-- TEN_CMD_INVALID_OP (R524): an OP of TEN_CMD that is not listed. A listed one is the command that it names. -/
def execTenCmdInvalidOp (w : Writer) (op : Fin 16) (t : TenId) (now : Nat) (s : State) : Host.Outcome State Fault Refusal :=
  .next ((s.at now).ctlWrite w .TEN_CMD [] (op.val * 2 ^ 28 + t.val))

/-- SWAP (R57): a write of SCHED_CTRL with SWAP. -/
def execSwap (w : Writer) (v : BitVec 32) (now : Nat) (s : State) : Host.Outcome State Fault Refusal :=
  .next ((s.at now).ctlWrite w .SCHED_CTRL [] (v.toNat ||| 2 ^ 31))

/-! ### Halts and software interrupts -/

/-- CORE_HALT_REQ (R75): a write of CORE_CTRL. -/
def execCoreHaltReq (w : Writer) (c : CoreId) (v : BitVec 32) (now : Nat) (s : State) : Host.Outcome State Fault Refusal :=
  .next ((s.at now).ctlWrite w .CORE_CTRL [c.val] (v.toNat))

/-- BLK_SOFT_INT (R147). -/
def execBlkSoftInt (w : Writer) (b : BlockId) (v : BitVec 32) (now : Nat) (s : State) : Host.Outcome State Fault Refusal :=
  .next ((s.at now).ctlWrite w .BLK_SOFT_INT [b.val] (v.toNat))

/-- BLK_HALT_REQ (R175): a write of BLK_CTRL. -/
def execBlkHaltReq (w : Writer) (b : BlockId) (v : BitVec 32) (now : Nat) (s : State) : Host.Outcome State Fault Refusal :=
  .next ((s.at now).ctlWrite w .BLK_CTRL [b.val] (v.toNat))

/-- GA_HALT_REQ (R175): a write of GA_CTRL. -/
def execGaHaltReq (w : Writer) (d : Dist) (v : BitVec 32) (now : Nat) (s : State) : Host.Outcome State Fault Refusal :=
  .next ((s.at now).ctlWrite w .GA_CTRL [d.val] (v.toNat))

/-! ### Memory tiers -/

/-- T2_RANGE_BASE_WRITE (R269). -/
def execT2RangeBaseWrite (w : Writer) (r : Fin 16) (v : BitVec 64) (now : Nat) (s : State) : Host.Outcome State Fault Refusal :=
  .next ((s.at now).ctlWrite w .T2_RANGE_BASE [r.val] (v.toNat))

/-- TRIM (R297): a write of FL_TRIM_CTL. -/
def execTrim (w : Writer) (pages : BitVec 32) (now : Nat) (s : State) : Host.Outcome State Fault Refusal :=
  .next ((s.at now).ctlWrite w .FL_TRIM_CTL [] (pages.toNat))

/-- SHP_CFG_WRITE (R300). -/
def execShpCfgWrite (w : Writer) (t : TenId) (q : Fin 3) (v : BitVec 64) (now : Nat) (s : State) : Host.Outcome State Fault Refusal :=
  .next ((s.at now).ctlWrite w .SHP_CFG [t.val, q.val] (v.toNat))

/-! ### Oplith -/

/-- RETRAIN (R311): a write of RETRAIN in PORT_CTRL, or the lane checks of an ACTIVE port. -/
def execRetrain (w : Writer) (lanes : Bool) (p : PortId) (v : BitVec 32) (now : Nat) (s : State) : Host.Outcome State Fault Refusal :=
  let s := s.at now
  if lanes then .next (if s.portActive p && !s.pins.silent then s.startRetrain p 0 else s)
  else .next (s.ctlWrite w .PORT_CTRL [p.val] (v.toNat ||| 4))

/-- EPOCH_COMMIT (R336): a write of COMMIT of a table, with SRC_EPOCH as it stands. -/
def execEpochCommit (w : Writer) (e : Fin 2) (now : Nat) (s : State) : Host.Outcome State Fault Refusal :=
  .next ((s.at now).ctlWrite w .EPOCH_CTRL [] (2 ^ (e.val + 1) + s.fget F.EPOCH_CTRL_SRC_EPOCH []))

/-- SRC_EPOCH_WRITE (R336). -/
def execSrcEpochWrite (w : Writer) (e : Fin 2) (now : Nat) (s : State) : Host.Outcome State Fault Refusal :=
  .next ((s.at now).ctlWrite w .EPOCH_CTRL [] (e.val))

/-- ROUTE_TABLE_WRITE (R336). -/
def execRouteTableWrite (w : Writer) (e : Fin 2) (k : Fin 128) (v : BitVec 64) (now : Nat) (s : State) : Host.Outcome State Fault Refusal :=
  .next ((s.at now).ctlWrite w .ROUTE [e.val, k.val] (v.toNat))

/-- TRANSIT (R344): a write of FAB_ROLE. -/
def execTransit (w : Writer) (on : Bool) (now : Nat) (s : State) : Host.Outcome State Fault Refusal :=
  .next ((s.at now).ctlWrite w .FAB_ROLE [] (on.toNat))

/-- CMD_TX_GO (R382): a write of CMD_TX_CTL with GO. -/
def execCmdTxGo (w : Writer) (v : BitVec 64) (now : Nat) (s : State) : Host.Outcome State Fault Refusal :=
  .next ((s.at now).ctlWrite w .CMD_TX_CTL [] (v.toNat ||| 2 ^ 63))

/-- PSHP_CFG_WRITE (R376). -/
def execPshpCfgWrite (w : Writer) (p : PortId) (vc : Fin 4) (v : BitVec 64) (now : Nat) (s : State) : Host.Outcome State Fault Refusal :=
  .next ((s.at now).ctlWrite w .PSHP_CFG [p.val, vc.val] (v.toNat))

/-- SSHP_CFG_WRITE (R376). -/
def execSshpCfgWrite (w : Writer) (t : TenId) (q : Fin 2) (v : BitVec 64) (now : Nat) (s : State) : Host.Outcome State Fault Refusal :=
  .next ((s.at now).ctlWrite w .SSHP_CFG [t.val, q.val] (v.toNat))

/-! ### Ridge and fault units -/

/-- RIDGE_FORCE (R407). -/
def execRidgeForce (w : Writer) (n : Fin 4) (v : BitVec 64) (now : Nat) (s : State) : Host.Outcome State Fault Refusal :=
  .next ((s.at now).ctlWrite w .RIDGE_FORCE [n.val] (v.toNat))

/-- DFU_FORCE (R407). -/
def execDfuForce (w : Writer) (d : Dist) (n : Fin 4) (v : BitVec 64) (now : Nat) (s : State) : Host.Outcome State Fault Refusal :=
  .next ((s.at now).ctlWrite w .DFU_FORCE [d.val, n.val] (v.toNat))

/-- BLK_FORCE (R407). -/
def execBlkForce (w : Writer) (b : BlockId) (n : Fin 4) (v : BitVec 64) (now : Nat) (s : State) : Host.Outcome State Fault Refusal :=
  .next ((s.at now).ctlWrite w .BLK_FORCE [b.val, n.val] (v.toNat))

/-- GRAVE_FORCE (R407). -/
def execGraveForce (w : Writer) (v : BitVec 32) (now : Nat) (s : State) : Host.Outcome State Fault Refusal :=
  .next ((s.at now).ctlWrite w .GRAVE_FORCE [] (v.toNat))

/-- RET_CLEAR (R422). -/
def execRetClear (w : Writer) (v : BitVec 32) (now : Nat) (s : State) : Host.Outcome State Fault Refusal :=
  .next ((s.at now).ctlWrite w .RET_CLEAR [] (v.toNat))

/-- DFU_WDOG_KICK (R423): a write of DFU_WDOG with KICK. -/
def execDfuWdogKick (w : Writer) (d : Dist) (v : BitVec 32) (now : Nat) (s : State) : Host.Outcome State Fault Refusal :=
  .next ((s.at now).ctlWrite w .DFU_WDOG [d.val] (v.toNat ||| 2 ^ 31))

/-- CCC_WDOG_KICK (R423): a write of CCC_WDOG with KICK. -/
def execCccWdogKick (w : Writer) (v : BitVec 32) (now : Nat) (s : State) : Host.Outcome State Fault Refusal :=
  .next ((s.at now).ctlWrite w .CCC_WDOG [] (v.toNat ||| 2 ^ 31))

/-- RELEASE (R427): a write of RIDGE_CTRL with RELEASE. -/
def execRelease (w : Writer) (v : BitVec 32) (now : Nat) (s : State) : Host.Outcome State Fault Refusal :=
  .next ((s.at now).ctlWrite w .RIDGE_CTRL [] (v.toNat ||| 2 ^ 5))

/-! ### Host endpoint -/

/-- BAR2_XLAT_WRITE (R435). -/
def execBar2XlatWrite (w : Writer) (n : Fin 64) (v : BitVec 64) (now : Nat) (s : State) : Host.Outcome State Fault Refusal :=
  .next ((s.at now).ctlWrite w .BAR2_XLAT [n.val] (v.toNat))

/-- RES_CH_CI_WRITE (R445). -/
def execResChCiWrite (w : Writer) (ch : Fin 64) (v : BitVec 32) (now : Nat) (s : State) : Host.Outcome State Fault Refusal :=
  .next ((s.at now).ctlWrite w .RES_CH_CI [ch.val] (v.toNat))

/-- RES_CH_CFG_WRITE (R449). -/
def execResChCfgWrite (w : Writer) (ch : Fin 64) (v : BitVec 64) (now : Nat) (s : State) : Host.Outcome State Fault Refusal :=
  .next ((s.at now).ctlWrite w .RES_CH_CFG [ch.val] (v.toNat))

/-- SRC_CFG_WRITE (R456): of a private source of the core below 64, and of a shared one above. -/
def execSrcCfgWrite (w : Writer) (c : CoreId) (n : Fin 512) (v : BitVec 64) (now : Nat) (s : State) : Host.Outcome State Fault Refusal :=
  let x : Src := if n.val < 64 then .priv c n else .shared n
  .next ((s.at now).ctlWrite w x.reg x.ix v.toNat)

/-! ### Roles, keys, journal and seals -/

/-- SEAL (R465): OP 1 of DG_CMD. -/
def execSeal (w : Writer) (t : TenId) (n : Fin 16) (now : Nat) (s : State) : Host.Outcome State Fault Refusal :=
  .next ((s.at now).ctlWrite w .DG_CMD [] (2 ^ 28 + t.val * 16 + n.val))

/-- UNSEAL (R465): OP 2 of DG_CMD. -/
def execUnseal (w : Writer) (t : TenId) (n : Fin 16) (now : Nat) (s : State) : Host.Outcome State Fault Refusal :=
  .next ((s.at now).ctlWrite w .DG_CMD [] (2 * 2 ^ 28 + t.val * 16 + n.val))

/-- ROLE_GO (R472): a write of GO in ROLE_REQ. -/
def execRoleGo (w : Writer) (role : Fin 4) (slot : Fin 8) (now : Nat) (s : State) : Host.Outcome State Fault Refusal :=
  .next ((s.at now).ctlWrite w .ROLE_REQ [0] (2 ^ 31 + role.val * 2 ^ 8 + slot.val))

/-- ROLE_VERIFY (R473): a write of VERIFY in ROLE_REQ. -/
def execRoleVerify (w : Writer) (role : Fin 4) (slot : Fin 8) (now : Nat) (s : State) : Host.Outcome State Fault Refusal :=
  .next ((s.at now).ctlWrite w .ROLE_REQ [0] (2 ^ 30 + role.val * 2 ^ 8 + slot.val))

/-- ROLE_DROP (R471): a write of DROP in ROLE_REQ. -/
def execRoleDrop (w : Writer) (role : Fin 4) (slot : Fin 8) (now : Nat) (s : State) : Host.Outcome State Fault Refusal :=
  .next ((s.at now).ctlWrite w .ROLE_REQ [0] (2 ^ 29 + role.val * 2 ^ 8 + slot.val))

/-- KEY_GO (R474): a write of GO in KEY_CTL. -/
def execKeyGo (w : Writer) (slot : Fin 8) (now : Nat) (s : State) : Host.Outcome State Fault Refusal :=
  .next ((s.at now).ctlWrite w .KEY_CTL [] (2 ^ 31 + slot.val))

/-- AUD_READ (R476). -/
def execAudRead (w : Writer) (seq : BitVec 32) (now : Nat) (s : State) : Host.Outcome State Fault Refusal :=
  .next ((s.at now).ctlWrite w .AUD_READ [] (seq.toNat))

/-! ### Resets and firmware -/

/-- COLD (R491): a write of COLD in RST_CTRL, with FABRIC or without. -/
def execCold (w : Writer) (both : Bool) (now : Nat) (s : State) : Host.Outcome State Fault Refusal :=
  .next ((s.at now).ctlWrite w .RST_CTRL [] (2 + both.toNat))

/-- FABRIC (R491): a write of FABRIC in RST_CTRL. -/
def execFabric (w : Writer) (now : Nat) (s : State) : Host.Outcome State Fault Refusal :=
  .next ((s.at now).ctlWrite w .RST_CTRL [] (1))

/-- FW_WRITE (R498): OP 1 of FW_CTL. -/
def execFwWrite (w : Writer) (now : Nat) (s : State) : Host.Outcome State Fault Refusal :=
  .next ((s.at now).ctlWrite w .FW_CTL [] (1 * 2 ^ 28))

/-- TRY (R498): OP 2 of FW_CTL. -/
def execFwTry (w : Writer) (now : Nat) (s : State) : Host.Outcome State Fault Refusal :=
  .next ((s.at now).ctlWrite w .FW_CTL [] (2 * 2 ^ 28))

/-- CONFIRM (R498): OP 3 of FW_CTL. -/
def execConfirm (w : Writer) (now : Nat) (s : State) : Host.Outcome State Fault Refusal :=
  .next ((s.at now).ctlWrite w .FW_CTL [] (3 * 2 ^ 28))

/-- ACTIVATE (R498): OP 4 of FW_CTL. -/
def execActivate (w : Writer) (now : Nat) (s : State) : Host.Outcome State Fault Refusal :=
  .next ((s.at now).ctlWrite w .FW_CTL [] (4 * 2 ^ 28))

/-- BURN_SVN (R499). -/
def execBurnSvn (w : Writer) (now : Nat) (s : State) : Host.Outcome State Fault Refusal :=
  .next ((s.at now).ctlWrite w .FW_FUSE [] (1))

end Sys2Proof.Machine
end

