-- ==== Sys2Proof/Machine/Ring.lean ====
section
/-! DEFINITION. The on-package ring (R19 to R22): its paths, its retries, and the retirement of links. -/

namespace Sys2Proof.Machine

/-- Whether a ring link is retired. -/
def State.linkRetired (s : State) (l : Nat) : Bool := s.rtest .RING_STATUS [] (4 + l)

/-- The links from a District to another in ascending direction, and in descending direction; link `n` joins Districts n and n + 1. -/
def linksUp (a b : Nat) : List Nat := (List.range ((b + 4 - a) % 4)).map (fun i => (a + i) % 4)
def linksDown (a b : Nat) : List Nat := (List.range ((a + 4 - b) % 4)).map (fun i => (a + 3 - i) % 4)

/-- The path of R19 between two Districts: the direct link between neighbours, else by bit 7 of the target address; a path over a
retired link moves to the other direction (R21). -/
def State.ringPath (s : State) (a b : Nat) (bit7 : Bool) : List Nat :=
  let up := linksUp a b
  let down := linksDown a b
  let opposite := (b + 4 - a) % 4 == 2
  -- D0 and D2 meet through D1 for bit 7 clear, D1 and D3 through D2
  let viaUp := if opposite then ((a == 0 || a == 1) != bit7) else up.length ≤ down.length
  let first := if viaUp then up else down
  if first.any s.linkRetired then (if viaUp then down else up) else first

/-- The count of retries of a link. -/
def retryField : Nat → Fld
  | 0 => F.RING_RETRY_COUNT_LINK0
  | 1 => F.RING_RETRY_COUNT_LINK1
  | 2 => F.RING_RETRY_COUNT_LINK2
  | _ => F.RING_RETRY_COUNT_LINK3

/-- RING_TRANSFER (R19, R21): a transfer crosses its path, after the stated number of retries on each of its links; they are
counted. The answer is the time that the hops add, in fclk. -/
def execRingTransfer (a b : Dist) (bit7 : Bool) (retries : List Nat) (now : Nat) (s : State) :
    Host.Outcome State Fault Refusal :=
  let s := s.at now
  let path := s.ringPath a b bit7
  let s := (path.zip retries).foldl (fun (s : State) p =>
    let key := unitKey 6 p.1
    let s := s.fsat (retryField p.1) [] p.2
    { s with ridge := { s.ridge with counts := KMap.upd 0 s.ridge.counts key (· + p.2) } }) s
  .next { s with out := { s.out with value := 32 * path.length } }

/-- RING_LINK_RETIRE (R21, R418): a link whose retries in the window have reached RING_N is retired. -/
def execRingLinkRetire (l : Fin 4) (now : Nat) (s : State) : Host.Outcome State Fault Refusal :=
  let s := s.at now
  let key := unitKey 6 l
  if s.linkRetired l || s.ridge.decided.contains key || KMap.get 0 s.ridge.counts key < s.fget F.RET_LIMITS2_RING_N [] then .next s
  else .next ((s.decideRetire key).ringCut l)

/-- Whether the ring cannot reach a District: both of its links are down, or one is and another link of the ring is retired (R22). -/
def State.ringLost (s : State) (d : Nat) : Bool :=
  let down := fun l => !s.rtest .RING_STATUS [] l
  let own := [d % 4, (d + 3) % 4]
  own.all down || own.any (fun l => down l && [0, 1, 2, 3].any (fun m => m != l && s.linkRetired m))

/-- DISTRICT_UNREACHABLE (R22): a District loses its spoke (`lost.1`), or ring links (`lost.2`) are lost that no retirement took. The loss of one link
alone, while no other is retired, leaves the District reachable. -/
def execDistrictUnreachable (d : Dist) (lost : Bool × List (Fin 4)) (now : Nat) (s : State) : Host.Outcome State Fault Refusal :=
  let s := lost.2.foldl (fun (s : State) l => s.rbit .RING_STATUS [] l.val false) (s.at now)
  let s := if lost.1 then s.rbit .RING_STATUS [] (8 + d) false else s
  .next (if lost.1 || (!lost.2.isEmpty && s.ringLost d) then s.chipEv 0xD1 d else s)

end Sys2Proof.Machine
end

