-- ==== Sys2Proof/Machine/Rinuno.lean ====
section
/-! DEFINITION. The instructions of the control cores that reach no memory: arithmetic, branches, core control registers,
levels, waits and event counters (R75 to R77, R82 to R84, R88, R91, R92, R103). -/

namespace Sys2Proof.Machine

/-- A 16-bit immediate, sign-extended. -/
def imm16 (i : BitVec 16) : W64 := i.signExtend 64

/-- Division of integers that rounds towards zero, with the corners of R84: of width `w`, on the signed values. -/
def divS (w : Nat) (a b : Int) : Int := if b = 0 then -1 else if a = -(2 ^ (w - 1) : Int) && b = -1 then a else Int.tdiv a b

/-- The remainder that goes with it. -/
def remS (w : Nat) (a b : Int) : Int := if b = 0 then a else if a = -(2 ^ (w - 1) : Int) && b = -1 then 0 else Int.tmod a b

/-- Leading zeros of a number of `w` bits. -/
def clz (w v : Nat) : Nat := if v % 2 ^ w = 0 then w else w - 1 - Nat.log2 (v % 2 ^ w)

/-- Trailing zeros of a number of `w` bits. -/
def ctz : Nat → Nat → Nat
  | 0, _ => 0
  | w + 1, v => if v % 2 = 1 then 0 else 1 + ctz w (v / 2)

/-- One bits of a number of `w` bits. -/
def popc : Nat → Nat → Nat
  | 0, _ => 0
  | w + 1, v => v % 2 + popc w (v / 2)

/-- The ALU function of FUNC[5:0] on operands of width `w`, before narrowing to `w` bits; `none` where the function table
lists no operation (R83). Shift amounts are rb[5:0] in both forms. -/
def aluOp (op w : Nat) (a b : Nat) : Option Int :=
  let ua := a % 2 ^ w
  let ub := b % 2 ^ w
  let sa := toSigned w a
  let sb := toSigned w b
  let sh := b % 64
  match op with
  | 0x00 => some (ua + ub)
  | 0x01 => some ((ua : Int) - ub)
  | 0x02 => some (ua &&& ub : Nat)
  | 0x03 => some (ua ||| ub : Nat)
  | 0x04 => some (ua ^^^ ub : Nat)
  | 0x05 => some (ua * 2 ^ sh : Nat)
  | 0x06 => some (ua / 2 ^ sh : Nat)
  | 0x07 => some (sa / 2 ^ sh)
  | 0x08 => some (if sa < sb then 1 else 0)
  | 0x09 => some (if ua < ub then 1 else 0)
  | 0x0A => some (min sa sb)
  | 0x0B => some (max sa sb)
  | 0x0C => some (min ua ub : Nat)
  | 0x0D => some (max ua ub : Nat)
  | 0x10 => some (ua * ub : Nat)
  | 0x11 => some (sa * sb / 2 ^ w)
  | 0x12 => some (ua * ub / 2 ^ w : Nat)
  | 0x13 => some (divS w sa sb)
  | 0x14 => some (if ub = 0 then -1 else (ua / ub : Nat))
  | 0x15 => some (remS w sa sb)
  | 0x16 => some (if ub = 0 then (ua : Int) else (ua % ub : Nat))
  | 0x18 => some (clz w ua)
  | 0x19 => some (ctz w ua)
  | 0x1A => some (popc w ua)
  | 0x1B => some (beNat (leBytes (w / 8) ua))
  | _ => none

/-- The result of an ALU instruction: FUNC[6] selects the 32-bit form, which sign-extends; FUNC[10:7] must be zero (R83). -/
def aluResult (func : BitVec 11) (a b : W64) : Option W64 :=
  let f := func.toNat
  if f / 128 != 0 then none
  else if f.testBit 6 then (aluOp (f % 64) 32 a.toNat b.toNat).map (fun r => (BitVec.ofInt 32 r).signExtend 64)
  else (aluOp (f % 64) 64 a.toNat b.toNat).map (BitVec.ofInt 64)

/-- The opcodes of R82. -/
def rinunoOpcodes : List Nat :=
  List.range' 0x01 10 ++ List.range' 0x10 7 ++ List.range' 0x18 5 ++ List.range' 0x20 6 ++
    [0x28, 0x29, 0x30, 0x31, 0x32, 0x33, 0x34, 0x38, 0x39]

/-- Whether a word's opcode, or its function of SYS or EVC, is reserved (R82). The all-zero word is. -/
def rinunoReserved (op func : Nat) : Bool :=
  !rinunoOpcodes.contains op || (op == 0x30 && !([0, 1, 2, 3, 5, 6].contains func)) ||
    (op == 0x39 && !([0, 1, 2].contains func))

/-- ALU (R83, R84), and every word whose opcode or function is reserved: it raises ILLEGAL_INSTR (R82). A word of another
instruction is that instruction's own command; given here it does nothing. -/
def execAlu (c : CoreId) (rd ra rb : Fin 32) (w : BitVec 6 × BitVec 11) (s : State) : Host.Outcome State Fault Refusal :=
  if w.1 = 1 then
    s.instr c fun k s => match aluResult w.2 (k.reg ra) (k.reg rb) with
      | some v => s.retireReg c rd v
      | none => s.illegal c
  else if rinunoReserved w.1.toNat w.2.toNat then s.instr c fun _ s => s.illegal c
  else .next s

/-- ADDI (R82). -/
def execAddi (c : CoreId) (rd ra : Fin 32) (imm : BitVec 16) (s : State) : Host.Outcome State Fault Refusal :=
  s.instr c fun k s => s.retireReg c rd (k.reg ra + imm16 imm)

/-- ANDI (R82). -/
def execAndi (c : CoreId) (rd ra : Fin 32) (imm : BitVec 16) (s : State) : Host.Outcome State Fault Refusal :=
  s.instr c fun k s => s.retireReg c rd (k.reg ra &&& imm.setWidth 64)

/-- ORI (R82). -/
def execOri (c : CoreId) (rd ra : Fin 32) (imm : BitVec 16) (s : State) : Host.Outcome State Fault Refusal :=
  s.instr c fun k s => s.retireReg c rd (k.reg ra ||| imm.setWidth 64)

/-- XORI (R82). -/
def execXori (c : CoreId) (rd ra : Fin 32) (imm : BitVec 16) (s : State) : Host.Outcome State Fault Refusal :=
  s.instr c fun k s => s.retireReg c rd (k.reg ra ^^^ imm.setWidth 64)

/-- SLTI (R82). -/
def execSlti (c : CoreId) (rd ra : Fin 32) (imm : BitVec 16) (s : State) : Host.Outcome State Fault Refusal :=
  s.instr c fun k s => s.retireReg c rd (if (k.reg ra).slt (imm16 imm) then 1 else 0)

/-- SLTIU (R82). -/
def execSltiu (c : CoreId) (rd ra : Fin 32) (imm : BitVec 16) (s : State) : Host.Outcome State Fault Refusal :=
  s.instr c fun k s => s.retireReg c rd (if (k.reg ra).ult (imm16 imm) then 1 else 0)

/-- The result of SHIFTI: IMM16[7:6] selects the shift, IMM16[15:8] must be zero (R82). -/
def shiftResult (imm : BitVec 16) (a : W64) : Option W64 :=
  let n := imm.toNat % 64
  match imm.toNat / 64 with
  | 0 => some (a <<< n)
  | 1 => some (a >>> n)
  | 2 => some (a.sshiftRight n)
  | _ => none

/-- SHIFTI (R82). -/
def execShifti (c : CoreId) (rd ra : Fin 32) (imm : BitVec 16) (s : State) : Host.Outcome State Fault Refusal :=
  s.instr c fun k s => match shiftResult imm (k.reg ra) with
    | some v => s.retireReg c rd v
    | none => s.illegal c

/-- LUI; RA must be zero (R82). -/
def execLui (c : CoreId) (rd ra : Fin 32) (imm : BitVec 16) (s : State) : Host.Outcome State Fault Refusal :=
  s.instr c fun _ s => if ra != 0 then s.illegal c else s.retireReg c rd (imm16 imm <<< 16)

/-- INSK; RA[1:0] names the field and RA[4:2] must be zero (R82). -/
def execInsk (c : CoreId) (rd ra : Fin 32) (imm : BitVec 16) (s : State) : Host.Outcome State Fault Refusal :=
  s.instr c fun k s =>
    if 4 ≤ ra.val then s.illegal c
    else s.retireReg c rd ((k.reg rd &&& ~~~((0xFFFF : W64) <<< (16 * ra.val))) ||| (imm.setWidth 64 <<< (16 * ra.val)))

/-- The conditions of BEQ to BGEU, in the order of their opcodes (R82). -/
def branchTaken (cc : Nat) (a b : W64) : Bool :=
  match cc with
  | 0 => a == b
  | 1 => a != b
  | 2 => a.slt b
  | 3 => !a.slt b
  | 4 => a.ult b
  | _ => !a.ult b

/-- A line of T1 or T2 that a wrong-path load asks for, or with `ex` a wrong-path fetch (R89): it is filled when the address is
cacheable, the Tenancy's table grants it, the memory shaper lets the request issue at once, and no earlier access to the line is
outstanding; otherwise it is dropped. -/
def State.wrongFill (s : State) (c a : Nat) (ex : Bool) : State :=
  let i := s.coreIssuer c
  let t := if a < t2Base then Tier.t1 else Tier.t2
  let ok := s.cacheable c a && ((s.core c).level != 0 || match s.ten (s.core c).ten with
    | some v => v.tableGrants a (!ex) false ex false
    | none => false)
  let here := if ex then (s.core c).icache.contains (lineOf a) else (s.findLine c a).isSome
  if !ok || here || !s.shapeFree i t || reqMeets (s.core c).reqs a 1 then s
  else
    let r := (s.shaped i t (lineOf a) 128 false (2 ^ 53 + 32 + c)).2.readLine c a
    if r.1 != 0 then r.2.2
    else if ex then r.2.2.fillCode c a
    else r.2.2.fillLine c ⟨lineOf a, r.2.1, false⟩

/-- A wrong path leaves nothing but cache fills and counts; at most 24 instructions execute (R88, R89). -/
def State.wrongPath (s : State) (c n : Nat) (loads fetches : List Nat) : State :=
  let s := (fetches.take n).foldl (fun s a => s.wrongFill c a true) ((loads.take n).foldl (fun s a => s.wrongFill c a false) s)
  s.updCore c (fun k => { k with wrongPath := k.wrongPath + n, mispredict := k.mispredict + 1 })

/-- A branch or jump resolves, writes its link register, goes to `to_` and retires, and updates the predictor. When the predictor was wrong, the wrong path
comes first: how many instructions, and the lines that its loads and its fetches asked for (R88). DESIGN CHOICE (assumption 19):
jumps are predicted as branches are. -/
def State.resolve (s : State) (c rd : Nat) (link : W64) (to_ : Nat) (wrong : Fin 25 × List Nat × List Nat) : State :=
  let k := s.core c
  let s := if Config.predicted k.branches k.pc = to_ then s else s.wrongPath c wrong.1 wrong.2.1 wrong.2.2
  (s.updCore c (fun x => { x.setReg rd link with branches := x.branches ++ [(k.pc, to_)] })).retire c to_

/-- BEQ to BGEU (R82). -/
def execBranch (c : CoreId) (cc : Fin 6) (ra rb : Fin 32) (off : BitVec 16) (wrong : Fin 25 × List Nat × List Nat)
    (s : State) : Host.Outcome State Fault Refusal :=
  s.instr c fun k s =>
    s.resolve c 0 0 (if branchTaken cc (k.reg ra) (k.reg rb) then (BitVec.ofNat 64 k.pc + imm16 off * 4).toNat else k.next) wrong

/-- JAL (R82), given with its offset and its wrong path. -/
def execJal (c : CoreId) (j : BitVec 26 × Fin 25 × List Nat × List Nat) (s : State) : Host.Outcome State Fault Refusal :=
  s.instr c fun k s =>
    s.resolve c 31 (BitVec.ofNat 64 k.next) (BitVec.ofNat 64 k.pc + j.1.signExtend 64 * 4).toNat j.2

/-- JALR, given with its immediate and its wrong path; a target that is not 4 B aligned raises MISALIGNED at the jump (R85). -/
def execJalr (c : CoreId) (rd ra : Fin 32) (j : BitVec 16 × Fin 25 × List Nat × List Nat) (s : State) :
    Host.Outcome State Fault Refusal :=
  s.instr c fun k s =>
    let t := k.reg ra + imm16 j.1
    if t.toNat % 4 != 0 then s.trap c .misaligned k.pc t
    else s.resolve c rd (BitVec.ofNat 64 k.next) t.toNat j.2

/-- SYSCALL (R76, R77): it enters L1, where the runtime serves the call that g10 names; a call that the running firmware does
not define is a fault of the program. -/
def execSyscall (c : CoreId) (rd ra rb : Fin 32) (s : State) : Host.Outcome State Fault Refusal :=
  s.instr c fun k s =>
    if rd != 0 || ra != 0 || rb != 0 then s.illegal c
    else if k.level == 0 && c.val < 4 && k.tvec.toNat % 4 == 0 && Config.syscallDefined (k.reg 10) then
      (s.enterTrap c .syscall k.next 0).updCore c (fun x => { x with lastPc := k.pc, retired := x.retired + 1 })
    else s.trap c .syscall k.next 0

/-- SRET restores LEVEL and IE and resumes at EPC; at L0 it raises PRIVILEGE (R76). A DCC that returns to L0 outside a step, as
after an interrupt that came when STEPEND had retired, is back in WFI until the next step entry (R91). DESIGN CHOICE (assumption
20): a PREV_LEVEL that the runtime wrote and a DCC does not have returns to L1. -/
def execSret (c : CoreId) (rd ra rb : Fin 32) (s : State) : Host.Outcome State Fault Refusal :=
  s.instr c fun k s =>
    if rd != 0 || ra != 0 || rb != 0 then s.illegal c
    else if k.level == 0 then s.trap c .privilege k.pc 0
    else (s.updCore c (fun x => { x with
      level := if 4 ≤ c.val then 2 else min k.prevLevel 1, ie := k.prevIe,
      wait := if c.val < 4 && k.prevLevel == 0 && !k.inStep then .wfi else .none })).retire c k.epc.toNat

/-- FENCE stalls until every earlier access has completed (R86). -/
def execFence (c : CoreId) (rd ra rb : Fin 32) (s : State) : Host.Outcome State Fault Refusal :=
  s.instr c fun k s =>
    if rd != 0 || ra != 0 || rb != 0 then s.illegal c
    else if !k.reqs.isEmpty then s
    else s.retire c k.next

/-- WFI waits until an interrupt or the next step entry (R91). -/
def execWfi (c : CoreId) (rd ra rb : Fin 32) (s : State) : Host.Outcome State Fault Refusal :=
  s.instr c fun k s =>
    if rd != 0 || ra != 0 || rb != 0 then s.illegal c
    else (s.retire c k.next).updCore c (fun x => { x with wait := .wfi })

/-- STEPEND performs a FENCE, then asks for commit with ra = 0 and for discard otherwise (R86, R92). Only a DCC at L0 is in a
step; elsewhere it raises PRIVILEGE. -/
def execStepend (c : CoreId) (rd ra rb : Fin 32) (s : State) : Host.Outcome State Fault Refusal :=
  s.instr c fun k s =>
    if rd != 0 || rb != 0 then s.illegal c
    else if !(c.val < 4 && k.level == 0) then s.trap c .privilege k.pc 0
    else if !k.reqs.isEmpty then s
    else
      let v := k.reg ra
      (s.retire c k.next).coreStepEnd c (if v = 0 then none else some (v.toNat % 2 ^ 16))

/-- BREAK is a debug stop while the core is under HALT_REQ, and a fault otherwise (R77). -/
def execBrk (c : CoreId) (rd ra rb : Fin 32) (s : State) : Host.Outcome State Fault Refusal :=
  s.instr c fun k s =>
    if rd != 0 || ra != 0 || rb != 0 then s.illegal c
    else if c.val < 4 && s.fget F.CORE_CTRL_HALT_REQ [c] == 1 then s.updCore c (fun x => { x with halted := true })
    else s.trap c .brk k.pc 0

/-! ### Core control registers (R75) -/

/-- The bits of STATUS. At L0 IE is always 1. -/
def CoreSt.status (k : CoreSt) : Nat :=
  k.level + (k.ie || k.level == 0).toNat * 4 + k.prevLevel * 8 + k.prevIe.toNat * 32

/-- A core control register's value, or `none` where the level may not read it. STEP and BATTEN hold what the last step entry gave.
DESIGN CHOICE (assumption 18): TENANCY reads 0 on a core on which no step runs. -/
def State.csr (s : State) (c n : Nat) : Option W64 :=
  let k := s.core c
  let l0 := k.level == 0
  match n with
  | 0x000 => some (BitVec.ofNat 64 k.status)
  | 0x001 => if l0 then none else some k.tvec
  | 0x002 => if l0 then none else some k.epc
  | 0x003 => if l0 then none else some k.cause
  | 0x004 => if l0 then none else some k.badaddr
  | 0x005 => if l0 then none else some k.scratch
  | 0x006 => some (BitVec.ofNat 64 (k.errCount * 2 ^ 48 + k.errCode % 256 * 2 ^ 40 + k.errAddr % 2 ^ 40))
  | 0x010 => some (BitVec.ofNat 64 (s.coreTen c))
  | 0x011 => some (BitVec.ofNat 64 k.step)
  | 0x012 => some (BitVec.ofNat 64 k.batten)
  | 0x020 => some (BitVec.ofNat 64 (s.cclkSince k.bornCycles))
  | 0x021 => some (BitVec.ofNat 64 k.retired)
  | 0x022 => some (BitVec.ofNat 64 k.wrongPath)
  | 0x023 => some (BitVec.ofNat 64 k.mispredict)
  | 0x024 => some (BitVec.ofNat 64 k.dmiss)
  | 0x025 => some (BitVec.ofNat 64 k.imiss)
  | 0x030 => some (BitVec.ofNat 64 c)
  | _ => none

/-- Writes a core control register, or answers `none` where it is read-only at the level or not listed. At L0 only ERRSTAT
is written, and only with zero. -/
def CoreSt.setCsr (k : CoreSt) (n : Nat) (v : W64) : Option CoreSt :=
  if n = 6 then
    if k.level = 0 && v != 0 then none
    else some { k with errCount := bits v.toNat 63 48, errCode := bits v.toNat 47 40, errAddr := bits v.toNat 39 0 }
  else if k.level = 0 then none
  else match n with
    | 0x000 => some { k with ie := v.getLsbD 2, prevLevel := bits v.toNat 4 3, prevIe := v.getLsbD 5 }
    | 0x001 => some { k with tvec := v }
    | 0x002 => some { k with epc := v }
    | 0x003 => some { k with cause := v }
    | 0x004 => some { k with badaddr := v }
    | 0x005 => some { k with scratch := v }
    | _ => none

/-- CSRR; RA must be zero (R82). -/
def execCsrr (c : CoreId) (rd ra : Fin 32) (imm : BitVec 16) (s : State) : Host.Outcome State Fault Refusal :=
  s.instr c fun _ s =>
    if ra != 0 then s.illegal c
    else match s.csr c (imm.toNat % 4096) with
      | some v => s.retireReg c rd v
      | none => s.illegal c

/-- CSRW; RD must be zero (R82). -/
def execCsrw (c : CoreId) (rd ra : Fin 32) (imm : BitVec 16) (s : State) : Host.Outcome State Fault Refusal :=
  s.instr c fun k s =>
    if rd != 0 then s.illegal c
    else match k.setCsr (imm.toNat % 4096) (k.reg ra) with
      | some k' => (s.setCore c k').retire c k.next
      | none => s.illegal c

/-- CSRX (R82). -/
def execCsrx (c : CoreId) (rd ra : Fin 32) (imm : BitVec 16) (s : State) : Host.Outcome State Fault Refusal :=
  s.instr c fun k s =>
    match s.csr c (imm.toNat % 4096), k.setCsr (imm.toNat % 4096) (k.reg ra) with
    | some old, some k' => (s.setCore c (k'.setReg rd old)).retire c k.next
    | _, _ => s.illegal c

/-! ### Event counters (R103) -/

/-- The District whose counters a core reaches: its own. The CCCs have none. -/
def evcDist (c : Nat) : Option Nat := if c < 4 then some c else none

/-- EVRD (R82). -/
def execEvrd (c : CoreId) (rd ra : Fin 32) (s : State) : Host.Outcome State Fault Refusal :=
  s.instr c fun k s => match evcDist c with
    | some d => s.retireReg c rd (BitVec.ofNat 64 (s.fget F.EVC_VALUE [d, (k.reg ra).toNat % 1024]))
    | none => s.illegal c

/-- EVADD (R103). -/
def execEvadd (c : CoreId) (ra rb : Fin 32) (s : State) : Host.Outcome State Fault Refusal :=
  s.instr c fun k s => match evcDist c with
    | some d => (s.evcAdd d (k.reg ra).toNat ((k.reg rb).toNat % 2 ^ 32)).retire c k.next
    | none => s.illegal c

/-- EVWAIT stalls until the counter reaches rb (R103); it is given again while it waits. -/
def execEvwait (c : CoreId) (ra rb : Fin 32) (s : State) : Host.Outcome State Fault Refusal :=
  let ready := match (s.core c).wait with
    | .evwait _ _ => s.updCore c (fun x => { x with wait := .none })
    | _ => s
  if !ready.canIssue c then .next s
  else ready.instr c fun k s => match evcDist c with
    | some d =>
      let i := (k.reg ra).toNat % 1024
      let v := (k.reg rb).toNat % 2 ^ 32
      if v ≤ s.fget F.EVC_VALUE [d, i] then s.retire c k.next
      else s.updCore c (fun x => { x with wait := .evwait i v })
    | none => s.illegal c

/-! ### Interrupts and halt -/

/-- INTERRUPT_TAKE (R76): a raised request is taken at an instruction boundary, at L0 always and at L1 or L2 with IE set, while the
core runs (R65, R290). It ends WFI, and an EVWAIT that it interrupts starts again afterwards. -/
def execInterruptTake (c : CoreId) (s : State) : Host.Outcome State Fault Refusal :=
  let k := s.core c
  let boundary := match k.wait with | .access => false | _ => true
  if s.fget F.CORE_CTRL_RUN [c] == 1 && !s.stopped && s.tick.suspending.isNone && !k.halted && boundary && s.intRaised c &&
      (k.level == 0 || k.ie) then
    if k.tvec.toNat % 4 != 0 then .next ((s.enterTrap c .interrupt k.pc 0).controlFault c)
    else .next (s.enterTrap c .interrupt k.pc 0)
  else .next s

end Sys2Proof.Machine
end

