-- ==== Sys2Proof/Machine/RinunoMem.lean ====
section
/-! DEFINITION. The control cores' loads, stores, atomics, CACHE and ENQ, and the completion of their outstanding accesses
(R71, R72, R81, R82, R85 to R87, R94 to R97, R106, R392). -/

namespace Sys2Proof.Machine

/-- The exception of a load, atomic or ENQ that ends with a failing status (R81, R87): PC stays, and rd is unchanged. -/
def State.accessTrap (s : State) (c st a : Nat) : State :=
  s.trap c (if st = St.bounds then .bounds else .access) (s.core c).pc
    (BitVec.ofNat 64 (if st = St.bounds then a else st))

/-- Sign or zero extension of a loaded number. -/
def extendLoad (len : Nat) (signed : Bool) (v : Nat) : W64 :=
  if signed then BitVec.ofInt 64 (toSigned (8 * len) v) else BitVec.ofNat 64 (v % 2 ^ (8 * len))

/-! ### Loads -/

/-- What a core's read of a checked local place gives: none while it waits, else its status and bytes. `ecc` is the error that
the data cache lookup meets, and `acc` what an answer of the flash port completes. -/
def State.coreRead (s : State) (c : Nat) (t : Tier) (a ph n ecc : Nat) (acc : CoreAcc) : Option (Nat × List Byte) × State :=
  if s.cacheable c a then
    let held := match s.findLine c a with | some l => ecc != 2 || l.dirty | none => false
    let q := if held then (true, s) else s.coreShaped c t (lineOf ph) 128 false
    if !q.1 then (none, q.2)
    else
      let r := q.2.dataLine c a ecc
      (some (r.1, match r.2.1 with | some l => l.bytes a n | none => []), r.2.2)
  else
    let q := s.coreShaped c t ph n false
    if !q.1 then (none, q.2)
    else if t == .t3 then q.2.coreFlash c ph n acc
    else
      let r := q.2.tierRead (s.coreIssuer c).ten t ph n
      (some (r.1, r.2.1), r.2.2)

/-- The end of a load or an atomic (R87): FENCED writes zero and leaves a trace in ERRSTAT, another failure is ACCESS_ERROR. -/
def State.endRead (s : State) (c st a rd : Nat) (v : W64) : State :=
  if st = 0 then s.retireReg c rd v
  else if st = St.fenced then (s.recordErr c st a).retireReg c rd 0
  else s.accessTrap c st a

/-- Width in bytes of LDB, LDBU, LDH, LDHU, LDW, LDWU, LDD, in that order. -/
def loadLen (op : Nat) : Nat := if op = 6 then 8 else 2 ^ (op / 2)

/-- LDB to LDD (R82, R85, R87), in the order of their opcodes. -/
def execLoad (c : CoreId) (op : Fin 7) (rd ra : Fin 32) (imm : BitVec 16) (ecc : Fin 3) (now : Nat) (s : State) :
    Host.Outcome State Fault Refusal :=
  (s.at now).instr c fun k s =>
    let a := (k.reg ra + imm16 imm).toNat
    let n := loadLen op
    let signed := op.val % 2 == 0
    if a % n != 0 then s.trap c .misaligned k.pc (BitVec.ofNat 64 a)
    else if reqMeets k.reqs a n then s
    else match s.check (s.coreIssuer c) .rd a with
      | (0, some (.mem t ph), s') =>
        (match s'.coreRead c t a ph n ecc (.load rd a n signed) with
        | (none, s') => s'
        | (some r, s') => s'.endRead c r.1 a rd (extendLoad n signed (leNat r.2)))
      | (0, some (.ctl off), s') =>
        let r := s'.regRead (.core c) off n
        r.2.retireReg c rd (extendLoad n signed r.1)
      | (0, some pl, s') => s'.coreSend c pl .read n [] (.load rd a n signed) true
      | (0, none, s') => s'.accessTrap c St.unmapped a
      | (st, _, s') => s'.endRead c st a rd 0

/-! ### Stores -/

/-- A store to a line that the data cache holds, or that it allocates: the line is dirty. Its fill may fail; it retires all the same,
so that its miss counts (R75). -/
def State.cacheStore (s : State) (c a n : Nat) (v : W64) (ecc : Nat) : State :=
  let r := s.dataLine c a ecc
  match r.2.1 with
  | some l => r.2.2.updCore c (fun k => { k with
      dcache := k.dcache.map (fun x => if x.line = l.line then x.put a (leBytes n v.toNat) else x) })
  | none => (r.2.2.updCore c (fun k => { k with dmiss := k.dmiss + 1 })).recordErr c r.1 a

/-- A posted store to a control register: it retires, and completes later. -/
def State.postStore (s : State) (c a n : Nat) (v : W64) : State :=
  (s.updCore c (fun k => { k with reqs := k.reqs ++ [{ acc := .store a n v, ten := (s.coreIssuer c).ten, tag := none }] })).retire c
    (s.core c).next

/-- A core's own line of an address leaves its data cache, back to memory when dirty, before an access that does not go through the
cache. -/
def State.ownLineOut (s : State) (c a : Nat) : State :=
  match s.findLine c a with
  | some l => (s.postBack c l).dropLine c a
  | none => s

/-- STB to STD (R82, R85, R86), in the order of their opcodes. A bounds failure is an exception; every other failure is that
of a posted store. -/
def execStore (c : CoreId) (sz : Fin 4) (rd ra : Fin 32) (imm : BitVec 16) (ecc : Fin 3) (now : Nat) (s : State) :
    Host.Outcome State Fault Refusal :=
  (s.at now).instr c fun k s =>
    let a := (k.reg ra + imm16 imm).toNat
    let n := 2 ^ sz.val
    let v := k.reg rd
    if a % n != 0 then s.trap c .misaligned k.pc (BitVec.ofNat 64 a)
    else match s.check (s.coreIssuer c) .wr a with
      | (0, some (.mem t ph), s') =>
        let cached := s'.cacheable c a && !reqMeets k.reqs a n
        let held := match s'.findLine c a with | some l => ecc.val != 2 || l.dirty | none => false
        if cached && held then (s'.cacheStore c a n v ecc).retire c k.next
        else if cached && Config.storeAllocates s'.free then
          let q := s'.coreShaped c t (lineOf ph) 128 false
          if q.1 then (q.2.cacheStore c a n v ecc).retire c k.next else q.2
        else
          ((s'.tickFree.ownLineOut c a).post c (.store a n v) (s'.coreIssuer c).ten t ph n).retire c k.next
      | (0, some (.ctl _), s') => s'.postStore c a n v
      | (0, some pl, s') => (s'.coreSend c pl .write n (leBytes n v.toNat) (.store a n v) false).retire c k.next
      | (0, none, s') => (s'.recordErr c St.unmapped a).retire c k.next
      | (st, _, s') => if st = St.bounds then s'.accessTrap c st a else (s'.recordErr c st a).retire c k.next

/-! ### Atomics -/

/-- AMO (R82, R85, R87): FUNC[10] selects the width and FUNC[3:0] the operation; a 32-bit old value is zero-extended. DESIGN CHOICE
(assumption 21): it is performed at memory, and a line of the address that the core holds leaves its cache first. -/
def execAmo (c : CoreId) (rd ra rb : Fin 32) (func : BitVec 11) (now : Nat) (s : State) : Host.Outcome State Fault Refusal :=
  (s.at now).instr c fun k s =>
    let a := (k.reg ra).toNat
    let n := if func.getLsbD 10 then 4 else 8
    let op := func.toNat % 16
    let v := (k.reg rb).toNat
    let cmp := (k.reg rd).toNat
    if func.toNat / 16 % 64 != 0 || 9 < op then s.illegal c
    else if a % n != 0 then s.trap c .misaligned k.pc (BitVec.ofNat 64 a)
    else if reqMeets k.reqs a n then s
    else match s.check (s.coreIssuer c) .atomic a with
      | (0, some (.mem t ph), s') =>
        if (s'.findLine c a).isSome then s'.ownLineOut c a
        else
          let q := s'.coreShaped c t ph n true
          if !q.1 then q.2
          else
            let r := q.2.coreAtomic (s.coreIssuer c) t ph n op v cmp
            r.2.2.endRead c r.1 a rd (BitVec.ofNat 64 r.2.1)
      | (0, some (.ctl off), s') =>
        let r := s'.regRead (.core c) off n
        (r.2.regWrite (.core c) off n (atomicOp op n r.1 v cmp)).retireReg c rd (BitVec.ofNat 64 r.1)
      | (0, some pl, s') =>
        s'.coreSend c pl (.atomic op) n (leBytes n v ++ (if op = 9 then leBytes n cmp else [])) (.amo rd a n) true
      | (0, none, s') => s'.accessTrap c St.unmapped a
      | (st, _, s') => s'.endRead c st a rd 0

/-! ### CACHE -/

/-- CACHE (R72, R82): RD selects clean, invalidate, both, or the instruction cache. `bad` tells that the line to be cleaned
holds an uncorrectable error (R106). -/
def execCache (c : CoreId) (rd ra : Fin 32) (imm : BitVec 16) (bad : Bool) (now : Nat) (s : State) :
    Host.Outcome State Fault Refusal :=
  (s.at now).instr c fun k s =>
    let a := (k.reg ra + imm16 imm).toNat
    if 4 ≤ rd.val then s.illegal c
    else
      let s' := match rd.val, s.findLine c a with
        | 3, _ => s.updCore c (fun x => { x with icache := x.icache.filter (· != lineOf a) })
        | 1, _ => s.dropLine c a
        | m, some l =>
          let s := if bad && l.dirty then s.chipEv 0x57 (c % 4) k.ten else s
          let s := s.postBack c l
          if m = 2 then s.dropLine c a
          else s.updCore c (fun x => { x with dcache := x.dcache.map (fun (y : CacheLine) => if y.line = l.line then { y with dirty := false } else y) })
        | _, none => s
      s'.retire c k.next

/-! ### ENQ -/

/-- Why an ENQ raises an exception (R94, R95, R392). -/
def State.enqBad (s : State) (c func : Nat) : Option Exc :=
  let k := s.core c
  let ix := func % 256
  let dcc := c < 4
  match func / 256 with
  | 0 =>
    if dcc then (if ix / 4 != c || ix % 4 = 0 || ix % 4 = 3 then some .privilege else none)
    else if 16 ≤ ix then some .illegal
    else if ix % 4 != 3 then some .privilege else none
  | 1 =>
    if dcc && ix != c then some .privilege
    else if 4 ≤ ix then some .illegal
    else if dcc && k.level == 0 && !(match s.ten k.ten with | some v => v.desc.reMask.testBit ix | none => false) then
      some .privilege
    else none
  | 2 => if dcc && ix != c then some .privilege else if 4 ≤ ix then some .illegal else none
  | 3 => if 64 ≤ ix then some .illegal else if dcc then none else some .privilege
  | 4 => if 16 ≤ ix then some .illegal else none
  | _ => some .illegal

/-- Bytes of one entry of a target. -/
def enqSize (func : Nat) : Nat :=
  match func / 256 with
  | 0 => 32
  | 1 => 128
  | 2 => 64
  | 3 => 64
  | _ => 128

/-- Entries that a target has room for (R96). -/
def State.enqRoom (s : State) (c func : Nat) : Nat :=
  let ix := func % 256
  match func / 256 with
  | 0 => 1024 - (KMap.get [] (s.dist (ix / 4)).cq (ix % 4)).length
  | 1 => 8 - (s.re ix).queue.length
  | 2 => 8 - ((s.rm ix).items.filter (fun x => match x with | .job _ => true | .demand _ _ => false)).length
  | 3 => 4 - (s.dma.filter (fun j => j.owner == .ch c ix)).length
  | _ => 4 - (s.coll ix).queue.length

/-- One accepted entry; it takes the ID of the running Tenancy (R97). -/
def State.enqEntry (s : State) (c func : Nat) (w : List Nat) : State :=
  let ix := func % 256
  let t := s.tick.cur
  match func / 256 with
  | 0 =>
    let e : CqEntry := ⟨ix / 4, bits (wordAt w 0) 63 48 * 2 ^ 48 + t % 64 * 2 ^ 42 + bits (wordAt w 0) 41 0, wordAt w 1, wordAt w 2,
      wordAt w 3, none⟩
    s.updDist (ix / 4) (fun x => { x with cq := KMap.set [] x.cq (ix % 4) (KMap.get [] x.cq (ix % 4) ++ [e]) })
  | 1 => s.updDist ix (fun x => { x with re := { x.re with queue := x.re.queue ++ [⟨t, w⟩] } })
  | 2 => s.updRm ix (fun r => r.addJob s.now ⟨t, w⟩)
  | 3 => s.dmaAccept { id := 0, owner := .ch c ix, ten := t, words := w, off := 0 }
  | _ => s.updColl ix (fun x => { x with queue := x.queue ++ [⟨if c < 4 then c else 0, t, w⟩] })

/-- The words of the entries that bytes hold. -/
def enqWords (size : Nat) (l : List Byte) : List (List Nat) :=
  (List.range (l.length / size)).map fun e => (List.range (size / 8)).map fun i =>
    leNat ((l.drop (size * e + 8 * i)).take 8)

/-- The entries read are accepted as far as there is room (R96), and their number is written to rd. -/
def State.enqAccept (s : State) (c rd func : Nat) (l : List Byte) : State :=
  let es := (enqWords (enqSize func) l).take (s.enqRoom c func)
  ((es.foldl (fun s w => s.enqEntry c func w) s).updCore c (fun k => { k with enq := none })).retireReg c rd (BitVec.ofNat 64 es.length)

/-- The next part of an ENQ's source, up to a 128 B line of local memory or a register, or an entry beyond the device: it goes through
the data cache (R72). `none` while it waits. -/
def State.enqPart (s : State) (c rd func a n : Nat) (got : List Byte) : Option (Nat × List Byte) × State :=
  let b := (a + got.length) % 2 ^ 64
  let m := min (128 - b % 128) (n * enqSize func - got.length)
  if reqMeets (s.core c).reqs b m then (none, s)
  else match s.check (s.coreIssuer c) .rd b with
    | (0, some (.mem t ph), s) => s.coreRead c t b ph m 0 (.enq rd func a n got)
    | (0, some (.ctl off), s) =>
      let r := s.regRead (.core (Fin.ofNat 6 c)) off m
      (some (0, leBytes m (if m = 4 || m = 8 then r.1 else 2 ^ (8 * m) - 1)), r.2)
    | (0, some pl, s) => (none, s.coreSend c pl .read (enqSize func) [] (.enq rd func a n got) true)
    | (0, none, s) => (some (St.unmapped, []), s)
    | (st, _, s) => (some (st, []), s)

/-- The source of an ENQ from its entry on that `got` ends in, part by part: what it read is kept while it waits. -/
def State.enqRun (s : State) (c rd func a n miss : Nat) (got : List Byte) : Nat → State
  | 0 => s.enqAccept c rd func got
  | fuel + 1 =>
    if n * enqSize func ≤ got.length then s.enqAccept c rd func got
    else match s.enqPart c rd func a n got with
      | (none, s) => s.updCore c (fun k => { k with enq := some ⟨n, got, miss⟩ })
      | (some (0, l), s) => s.enqRun c rd func a n miss (got ++ l) fuel
      | (some (st, _), s) =>
        (s.updCore c (fun k => { k with enq := some ⟨n, got, miss⟩ })).accessTrap c st ((a + got.length) % 2 ^ 64)

/-- ENQ (R94 to R97): as many of the rb entries at ra as the target has room for are read and accepted. An ENQ that waited for a part
of its source goes on from it. -/
def execEnq (c : CoreId) (rd ra rb : Fin 32) (func : BitVec 11) (now : Nat) (s : State) : Host.Outcome State Fault Refusal :=
  (s.at now).instr c fun k s =>
    let f := func.toNat
    match s.enqBad c f with
    | some .illegal => s.illegal c
    | some e => s.trap c e k.pc 0
    | none =>
      let a := (k.reg ra).toNat
      let e : EnqSt := k.enq.getD ⟨min (k.reg rb).toNat (s.enqRoom c f), [], k.dmiss⟩
      if e.n = 0 then s.retireReg c rd 0 else s.enqRun c rd f a e.n e.miss e.got (e.n * enqSize f)

/-! ### Completion -/

/-- A posted store reaches its place; its failure is recorded in ERRSTAT. -/
def State.performStore (s : State) (c ten a n : Nat) (v : W64) : State :=
  let i : Issuer := { s.coreIssuer c with ten := ten }
  let r := match s.check i .wr a with
    | (0, some (.mem t ph), s) => (s.dropLine c a).tierWrite i t ph (leBytes n v.toNat)
    | (0, some (.ctl off), s) => (0, s.regWrite (if h : c < 6 then .core ⟨c, h⟩ else .host) off n (v.toNat % 2 ^ (8 * n)))
    | (0, _, s) => (St.unmapped, s)
    | (st, _, s) => (st, s)
  if r.1 = 0 then r.2 else r.2.recordErr c r.1 a

/-- A posted access that its memory shaper has let go: it is made (R86, R523). -/
def State.perform (s : State) (c : Nat) (r : CoreReq) : State :=
  match r.acc with
  | .store a n v => s.performStore c r.ten a n v
  | _ => s.performBack c r

/-- Whether a posted access has left its memory shaper. -/
def State.reqFree (s : State) (r : CoreReq) : Bool := r.key == 0 || s.shp.issued.any (fun p => p.1 == r.key)

/-- The response of an access that left the device. -/
def State.coreResponse (s : State) (c : Nat) (acc : CoreAcc) (st : Nat) (data : List Byte) : State :=
  let go := fun (s : State) => s.updCore c (fun k => { k with wait := .none })
  match acc with
  | .store a _ _ => if st = 0 then s else s.recordErr c st a
  | .back a _ => if st = 0 then s else s.recordErr c st a
  | .fetch pc => if st != 0 then (go s).accessTrap c st pc else (go s).updCore c (fun k => { k with fetched := some pc })
  | .load rd a n signed => (go s).endRead c st a rd (extendLoad n signed (leNat (data.take n)))
  | .amo rd a n => (go s).endRead c st a rd (BitVec.ofNat 64 (leNat (data.take n)))
  | .enq _ _ a n got =>
    let e := (s.core c).enq.getD ⟨n, got, (s.core c).dmiss⟩
    if st != 0 then ((go s).updCore c (fun k => { k with enq := some e })).accessTrap c st ((a + got.length) % 2 ^ 64)
    else (go s).updCore c (fun k => { k with enq := some { e with got := got ++ data } })

/-- Bytes that an outstanding access of a core reaches. -/
def CoreAcc.span : CoreAcc → Nat × Nat
  | .load _ a n _ => (a, n)
  | .store a n _ => (a, n)
  | .amo _ a n => (a, n)
  | .enq _ _ a _ _ => (a, 1)
  | .back l _ => (l, 128)
  | .fetch pc => (pc, 4)

/-- CORE_ACCESS_COMPLETE (R86, R87): the `n`th outstanding access of a core completes; an earlier one to the same line
completes first. -/
def execCoreAccessComplete (c : CoreId) (n : Nat) (now : Nat) (s : State) : Host.Outcome State Fault Refusal :=
  let s := s.at now
  let k := s.core c
  match k.reqs[n]? with
  | none => .next s
  | some r =>
    let drop := fun (s : State) => s.updCore c (fun k => { k with reqs := k.reqs.eraseIdx n })
    match r.tag, r.nvme with
    | none, some id => match s.nvmeResult id with
      | some x => .next ((drop (s.nvmeDrop id)).coreResponse c r.acc x.1 x.2)
      | none => .next s
    | none, none =>
      if s.stopped || reqMeets (k.reqs.take n) r.acc.span.1 r.acc.span.2 || !s.reqFree r then .next s
      else .next ((drop (s.shapeTaken r.key)).perform c r)
    | some id, _ => match s.fabResult id with
      | some x => .next ((drop (s.fabDrop id)).coreResponse c r.acc x.1 x.2)
      | none => .next s

end Sys2Proof.Machine
end

