-- ==== Sys2Proof/Machine/TestCmds.lean ====
section
/-! DEFINITION. The I3C target (R501) and the test access port (R512 to R517). -/

namespace Sys2Proof.Machine

/-- I3C_TRANSACTION (R501): a read or a write of 4 or 8 bytes at a BAR0 offset. -/
def execI3cTransaction (write wide : Bool) (off : BitVec 32) (v : BitVec 64) (now : Nat) (s : State) :
    Host.Outcome State Fault Refusal :=
  let s := s.at now
  let len := if wide then 8 else 4
  if write then .next (s.regWrite .i3c off.toNat len (v.toNat % 2 ^ (8 * len)))
  else
    let r := s.regRead .i3c off.toNat len
    .next { r.2 with out := { status := 0, value := r.1 } }

/-! ### Output balls (R507) -/

/-- An output ball that R507 names. -/
inductive OutBall where
  | oplTx (p : Fin 36) | alyTx (a : Fin 31) | tickOut | graveN | flPerstN (i : Fin 8) | spiCsN | t2ResetN (i : Fin 16)
  deriving DecidableEq, Repr

/-- What an output ball shows: a level, electrical idle, traffic, nothing that drives it, or what its boundary cells hold. -/
inductive BallState where
  | low | high | idle | active | released | cells
  deriving DecidableEq, Repr

def BallState.level (b : Bool) : BallState := if b then .high else .low

/-- The state of an output ball: under device control as R507 has it, else as the instruction of R515 in force has it. -/
def State.ball (s : State) (b : OutBall) : BallState :=
  if s.tap.ir = 4 then .released
  else if [0, 3, 5, 6].contains s.tap.ir.toNat then .cells
  else match b with
    | .oplTx _ | .alyTx _ => if s.pins.silent || s.pins.porstLow then .idle else .active
    | .tickOut => .level (s.now < s.tick.outUntil && !s.pins.porstLow)
    | .graveN => if s.ridge.graveN || s.pins.porstLow then .released else .low
    | .flPerstN i => .level (s.pins.flPerstN.getLsbD i && !s.pins.porstLow)
    | .spiCsN => .high
    | .t2ResetN i => .level (s.pins.t2ResetN.getLsbD i)

/-! ### Instructions of the test access port -/

/-- Loads an instruction: the instruction register had captured 0b0000_0001, which is shifted out (R512). -/
def State.tapLoad (s : State) (ir : Nat) : State := { s with tap := { s.tap with ir := BitVec.ofNat 8 ir, priv := 0, irOut := 1 } }

/-- BYPASS: its register captures 0. -/
def State.tapBypass (s : State) : State := { s.tapLoad 0xFF with out := { value := 0 } }

/-- The boundary register captures the cells and is loaded with those that are shifted in. -/
def State.tapScan (s : State) (balls cells : BitVec 3926) : State :=
  { s with tap := { s.tap with capture := balls, preload := cells } }

/-- An instruction of R515, which takes effect while PORST_N is low. -/
def State.tapComply (s : State) (ir : Nat) (act : State → State) : State :=
  if s.pins.porstLow then act (s.tapLoad ir) else s.tapBypass

/-- The agent that holds the Maker role (R470): one with a session, else the firmware in BOOT. -/
def State.makerAgent (s : State) : Option Writer :=
  [Writer.host, .i3c, .core 4].find? (fun w => s.holds w .maker)

/-- A private instruction (R517): it takes effect while TEST_EN is high, STATE is BOOT and an agent holds Maker, and is
journaled as a register write by that agent; NEW is the opcode. With a full journal queue it is turned away as a write is
(R479). -/
def State.tapPrivate (s : State) (ir : Nat) (act : State → State) : State :=
  match s.makerAgent with
  | some w =>
    if !s.line 7 || s.fget F.RIDGE_STATUS_STATE [] != 5 then s.tapBypass
    else if !s.journalRoom then (s.fsat F.AUD_STATUS_DROPPED [] 1).tapBypass
    else act ((s.journal ((writerAgent w).getD 0) Role.maker.num 0 (s.roleSlot w .maker) 0 0 0 0 ir).tapLoad ir)
  | none => s.tapBypass

/-- What a private register reads. -/
def State.tapPriv (s : State) (v : BitVec 64) : State :=
  { s with tap := { s.tap with priv := v }, out := { value := v.toNat } }

/-- TAP_RESET (R512, R515): IDCODE is selected, and the balls return to device control. -/
def execTapReset (s : State) : Host.Outcome State Fault Refusal := .next { s with tap := { s.tap with ir := 1, priv := 0 } }

/-- EXTEST (R513, R515): the cells shifted in drive the outputs, and the inputs are captured. -/
def execExtest (balls cells : BitVec 3926) (s : State) : Host.Outcome State Fault Refusal :=
  .next (s.tapComply 0x00 (fun s => s.tapScan balls cells))

/-- What IDCODE reads (R514). -/
def State.idcode (s : State) : Nat :=
  (if s.fuses.stepping = 0xB0 then 1 else 0) * 2 ^ 28 + s.fuses.part % 2 ^ 16 * 2 ^ 12 + 0x6F1 * 2 + 1

/-- IDCODE (R513, R514). -/
def execIdcode (s : State) : Host.Outcome State Fault Refusal := .next { s.tapLoad 0x01 with out := { value := s.idcode } }

/-- SAMPLE/PRELOAD (R513): the balls stay under device control. -/
def execSamplePreload (balls cells : BitVec 3926) (s : State) : Host.Outcome State Fault Refusal :=
  .next ((s.tapLoad 0x02).tapScan balls cells)

/-- CLAMP (R513, R515): outputs at the preloaded values, the bypass register selected. -/
def execClamp (s : State) : Host.Outcome State Fault Refusal :=
  .next (s.tapComply 0x03 (fun s => { s with out := { value := 0 } }))

/-- HIGHZ (R513, R515): outputs released, the bypass register selected. -/
def execHighz (s : State) : Host.Outcome State Fault Refusal :=
  .next (s.tapComply 0x04 (fun s => { s with out := { value := 0 } }))

/-- EXTEST_PULSE (R513, R515). -/
def execExtestPulse (balls cells : BitVec 3926) (s : State) : Host.Outcome State Fault Refusal :=
  .next (s.tapComply 0x05 (fun s => s.tapScan balls cells))

/-- EXTEST_TRAIN (R513, R515). -/
def execExtestTrain (balls cells : BitVec 3926) (s : State) : Host.Outcome State Fault Refusal :=
  .next (s.tapComply 0x06 (fun s => s.tapScan balls cells))

/-- MBIST (R513, R517): the 64-bit status that the self-test gives. -/
def execMbist (status : BitVec 64) (now : Nat) (s : State) : Host.Outcome State Fault Refusal :=
  .next ((s.at now).tapPrivate 0x40 (fun s => s.tapPriv status))

/-- SCAN (R513, R517): what is shifted out of the chains. -/
def execScan (chain : BitVec 64) (now : Nat) (s : State) : Host.Outcome State Fault Refusal :=
  .next ((s.at now).tapPrivate 0x41 (fun s => s.tapPriv chain))

/-- HBM_WRAP (R513, R517): what the stack wrappers give. -/
def execHbmWrap (wrapper : BitVec 64) (now : Nat) (s : State) : Host.Outcome State Fault Refusal :=
  .next ((s.at now).tapPrivate 0x42 (fun s => s.tapPriv wrapper))

/-- One field of the fuse array. -/
def Fuses.field (f : Fuses) : Fin 8 → Nat
  | 0 => f.part
  | 1 => f.stepping
  | 2 => f.reproClass
  | 3 => f.serial
  | 4 => f.fwKey
  | 5 => f.makerDigest
  | 6 => f.minSvn
  | 7 => f.fusedMap

/-- A field programmed. -/
def Fuses.program (f : Fuses) (v : Nat) : Fin 8 → Fuses
  | 0 => { f with part := v }
  | 1 => { f with stepping := v }
  | 2 => { f with reproClass := v }
  | 3 => { f with serial := v }
  | 4 => { f with fwKey := v }
  | 5 => { f with makerDigest := v }
  | 6 => { f with minSvn := v }
  | 7 => { f with fusedMap := v }

/-- FUSE (R513, R517): reads a field of the fuse array, and programs it where a value is given. -/
def execFuse (field : Fin 8) (prog : Option Nat) (now : Nat) (s : State) : Host.Outcome State Fault Refusal :=
  .next ((s.at now).tapPrivate 0x43 (fun s =>
    let s := match prog with | some v => { s with fuses := s.fuses.program v field } | none => s
    let v := s.fuses.field field
    { s.tapPriv (BitVec.ofNat 64 v) with out := { value := v } }))

/-- BYPASS (R513), which every opcode not listed selects. -/
def execBypass (s : State) : Host.Outcome State Fault Refusal := .next s.tapBypass

end Sys2Proof.Machine
end

