-- ==== Sys2Proof/Machine/Dispatch.lean ====
section
/-! DEFINITION. One arm per command: the meaning it calls. -/

namespace Sys2Proof.Machine

/-- The effect of a command on everything but the queue. -/
def exec (i : Instr) (s : State) : Host.Outcome State Fault Refusal :=
  match i with
  | .regWrite w off len v now => Sys2Proof.Machine.execRegWrite w off len v now s
  | .ringTransfer a b bit7 retries now => Sys2Proof.Machine.execRingTransfer a b bit7 retries now s
  | .ringLinkRetire l now => Sys2Proof.Machine.execRingLinkRetire l now s
  | .districtUnreachable d lost now => Sys2Proof.Machine.execDistrictUnreachable d lost now s
  | .tickStart now => Sys2Proof.Machine.execTickStart now s
  | .switchEnd now => Sys2Proof.Machine.execSwitchEnd now s
  | .earlySwitchStart now => Sys2Proof.Machine.execEarlySwitchStart now s
  | .stepEntry now => Sys2Proof.Machine.execStepEntry now s
  | .eaveStart now => Sys2Proof.Machine.execEaveStart now s
  | .stepDeadline now => Sys2Proof.Machine.execStepDeadline now s
  | .suspendPoint now => Sys2Proof.Machine.execSuspendPoint now s
  | .tickCtrlWrite w v now => Sys2Proof.Machine.execTickCtrlWrite w v now s
  | .tickConfigWrite w v now => Sys2Proof.Machine.execTickConfigWrite w v now s
  | .alignConfigWrite w v now => Sys2Proof.Machine.execAlignConfigWrite w v now s
  | .timeExchangeSend now => Sys2Proof.Machine.execTimeExchangeSend now s
  | .timeExchangeVoid now => Sys2Proof.Machine.execTimeExchangeVoid now s
  | .tickInEdge now => Sys2Proof.Machine.execTickInEdge now s
  | .holdoverLost => Sys2Proof.Machine.execHoldoverLost s
  | .create w t now => Sys2Proof.Machine.execCreate w t now s
  | .destroy w t now => Sys2Proof.Machine.execDestroy w t now s
  | .urgent w t now => Sys2Proof.Machine.execUrgent w t now s
  | .tenCmdInvalidOp w op t now => Sys2Proof.Machine.execTenCmdInvalidOp w op t now s
  | .tenCmdComplete now => Sys2Proof.Machine.execTenCmdComplete now s
  | .teardown now => Sys2Proof.Machine.execTeardown now s
  | .swap w v now => Sys2Proof.Machine.execSwap w v now s
  | .alu c rd ra rb w => Sys2Proof.Machine.execAlu c rd ra rb w s
  | .addi c rd ra imm => Sys2Proof.Machine.execAddi c rd ra imm s
  | .andi c rd ra imm => Sys2Proof.Machine.execAndi c rd ra imm s
  | .ori c rd ra imm => Sys2Proof.Machine.execOri c rd ra imm s
  | .xori c rd ra imm => Sys2Proof.Machine.execXori c rd ra imm s
  | .slti c rd ra imm => Sys2Proof.Machine.execSlti c rd ra imm s
  | .sltiu c rd ra imm => Sys2Proof.Machine.execSltiu c rd ra imm s
  | .shifti c rd ra imm => Sys2Proof.Machine.execShifti c rd ra imm s
  | .lui c rd ra imm => Sys2Proof.Machine.execLui c rd ra imm s
  | .insk c rd ra imm => Sys2Proof.Machine.execInsk c rd ra imm s
  | .load c op rd ra imm ecc now => Sys2Proof.Machine.execLoad c op rd ra imm ecc now s
  | .store c sz rd ra imm ecc now => Sys2Proof.Machine.execStore c sz rd ra imm ecc now s
  | .amo c rd ra rb func now => Sys2Proof.Machine.execAmo c rd ra rb func now s
  | .coreAccessComplete c n now => Sys2Proof.Machine.execCoreAccessComplete c n now s
  | .branch c cc ra rb off wrong => Sys2Proof.Machine.execBranch c cc ra rb off wrong s
  | .jal c j => Sys2Proof.Machine.execJal c j s
  | .jalr c rd ra j => Sys2Proof.Machine.execJalr c rd ra j s
  | .syscall c rd ra rb => Sys2Proof.Machine.execSyscall c rd ra rb s
  | .sret c rd ra rb => Sys2Proof.Machine.execSret c rd ra rb s
  | .fence c rd ra rb => Sys2Proof.Machine.execFence c rd ra rb s
  | .wfi c rd ra rb => Sys2Proof.Machine.execWfi c rd ra rb s
  | .stepend c rd ra rb => Sys2Proof.Machine.execStepend c rd ra rb s
  | .brk c rd ra rb => Sys2Proof.Machine.execBrk c rd ra rb s
  | .csrr c rd ra imm => Sys2Proof.Machine.execCsrr c rd ra imm s
  | .csrw c rd ra imm => Sys2Proof.Machine.execCsrw c rd ra imm s
  | .csrx c rd ra imm => Sys2Proof.Machine.execCsrx c rd ra imm s
  | .cache c rd ra imm bad now => Sys2Proof.Machine.execCache c rd ra imm bad now s
  | .enq c rd ra rb func now => Sys2Proof.Machine.execEnq c rd ra rb func now s
  | .evrd c rd ra => Sys2Proof.Machine.execEvrd c rd ra s
  | .evadd c ra rb => Sys2Proof.Machine.execEvadd c ra rb s
  | .evwait c ra rb => Sys2Proof.Machine.execEvwait c ra rb s
  | .interruptTake c => Sys2Proof.Machine.execInterruptTake c s
  | .stepEnd now => Sys2Proof.Machine.execStepEnd now s
  | .commitFlip now => Sys2Proof.Machine.execCommitFlip now s
  | .nvmeFlush t now => Sys2Proof.Machine.execNvmeFlush t now s
  | .dispatchEntry d => Sys2Proof.Machine.execDispatchEntry d s
  | .inboxArrive b => Sys2Proof.Machine.execInboxArrive b s
  | .blockProgramStart b => Sys2Proof.Machine.execBlockProgramStart b s
  | .coreHaltReq w c v now => Sys2Proof.Machine.execCoreHaltReq w c v now s
  | .mm b shape fa fb acc accum shingle z sa sb sd ia ib => Sys2Proof.Machine.execMm b shape fa fb acc accum shingle z sa sb sd ia ib s
  | .passEnd b late bad => Sys2Proof.Machine.execPassEnd b late bad s
  | .vxArith b op ty mask vd va vb vc => Sys2Proof.Machine.execVxArith b op ty mask vd va vb vc s
  | .vxFunction b op ty mask vd va => Sys2Proof.Machine.execVxFunction b op ty mask vd va s
  | .vxCmp b ty mask vd va vb imm => Sys2Proof.Machine.execVxCmp b ty mask vd va vb imm s
  | .vxMov b ty mask vd va => Sys2Proof.Machine.execVxMov b ty mask vd va s
  | .rsum b ty mask vd va => Sys2Proof.Machine.execRsum b ty mask vd va s
  | .rmaxRmin b least ty mask vd va => Sys2Proof.Machine.execRmaxRmin b least ty mask vd va s
  | .rargmax b ty mask vd va => Sys2Proof.Machine.execRargmax b ty mask vd va s
  | .sort b ty mask vd va vc => Sys2Proof.Machine.execSort b ty mask vd va vc s
  | .vxLd b ty mask vd vc imm => Sys2Proof.Machine.execVxLd b ty mask vd vc imm s
  | .vxSt b ty mask vd vc imm => Sys2Proof.Machine.execVxSt b ty mask vd vc imm s
  | .bcast b ty mask vd vc => Sys2Proof.Machine.execBcast b ty mask vd vc s
  | .movs b ty vd va imm => Sys2Proof.Machine.execMovs b ty vd va imm s
  | .perm b ty mask vd va vb => Sys2Proof.Machine.execPerm b ty mask vd va vb s
  | .cvt b ty mask vd va imm => Sys2Proof.Machine.execCvt b ty mask vd va imm s
  | .mxq b ty mask vd va vb imm => Sys2Proof.Machine.execMxq b ty mask vd va vb imm s
  | .axpy b ty mask vd va vc => Sys2Proof.Machine.execAxpy b ty mask vd va vc s
  | .rand b ty mask vd vc => Sys2Proof.Machine.execRand b ty mask vd vc s
  | .dmGo b sa n z imm => Sys2Proof.Machine.execDmGo b sa n z imm s
  | .dmWait b z imm => Sys2Proof.Machine.execDmWait b z imm s
  | .dmStat b sd n z => Sys2Proof.Machine.execDmStat b sd n z s
  | .dmPart b sa sb n z => Sys2Proof.Machine.execDmPart b sa sb n z s
  | .dmRavail b sd n z => Sys2Proof.Machine.execDmRavail b sd n z s
  | .dmRwait b n z imm => Sys2Proof.Machine.execDmRwait b n z imm s
  | .dmRel b n z imm => Sys2Proof.Machine.execDmRel b n z imm s
  | .dmaCopy id n now => Sys2Proof.Machine.execDmaCopy id n now s
  | .dmaSkew id n now => Sys2Proof.Machine.execDmaSkew id n now s
  | .dmaGather id n now => Sys2Proof.Machine.execDmaGather id n now s
  | .dmaDispatch id n now => Sys2Proof.Machine.execDmaDispatch id n now s
  | .dmaFill id n now => Sys2Proof.Machine.execDmaFill id n now s
  | .dmaReadIssue d c n now => Sys2Proof.Machine.execDmaReadIssue d c n now s
  | .ringUnitWrite id now => Sys2Proof.Machine.execRingUnitWrite id now s
  | .dmaDescriptorComplete id now => Sys2Proof.Machine.execDmaDescriptorComplete id now s
  | .syPost b sb blk useReg ctr z value => Sys2Proof.Machine.execSyPost b sb blk useReg ctr z value s
  | .syPostf b sb blk useReg ctr z value => Sys2Proof.Machine.execSyPostf b sb blk useReg ctr z value s
  | .syWait b ctr z value => Sys2Proof.Machine.execSyWait b ctr z value s
  | .syRdc b sd ctr z => Sys2Proof.Machine.execSyRdc b sd ctr z s
  | .postArrive n => Sys2Proof.Machine.execPostArrive n s
  | .ctAlu b w sd sa sb z => Sys2Proof.Machine.execCtAlu b w sd sa sb z s
  | .ctAddi b sd sa z imm => Sys2Proof.Machine.execCtAddi b sd sa z imm s
  | .ctLi b sd z imm => Sys2Proof.Machine.execCtLi b sd z imm s
  | .ctLih b sd z imm => Sys2Proof.Machine.execCtLih b sd z imm s
  | .ctLd b sd sa z imm => Sys2Proof.Machine.execCtLd b sd sa z imm s
  | .ctSt b sa sb z imm => Sys2Proof.Machine.execCtSt b sa sb z imm s
  | .ctBranch b cc sa sb z imm => Sys2Proof.Machine.execCtBranch b cc sa sb z imm s
  | .ctJ b z imm => Sys2Proof.Machine.execCtJ b z imm s
  | .ctJr b sa z imm => Sys2Proof.Machine.execCtJr b sa z imm s
  | .ctEnd b z => Sys2Proof.Machine.execCtEnd b z s
  | .ctIret b z => Sys2Proof.Machine.execCtIret b z s
  | .ctSetv b sa z imm => Sys2Proof.Machine.execCtSetv b sa z imm s
  | .ctIen b z imm => Sys2Proof.Machine.execCtIen b z imm s
  | .ctIclr b z imm => Sys2Proof.Machine.execCtIclr b z imm s
  | .ctIe b z imm => Sys2Proof.Machine.execCtIe b z imm s
  | .ctTset b z imm => Sys2Proof.Machine.execCtTset b z imm s
  | .ctRds b sd z imm => Sys2Proof.Machine.execCtRds b sd z imm s
  | .blockTimerZero b => Sys2Proof.Machine.execBlockTimerZero b s
  | .localInterruptEntry b => Sys2Proof.Machine.execLocalInterruptEntry b s
  | .blkSoftInt w b v now => Sys2Proof.Machine.execBlkSoftInt w b v now s
  | .blkHaltReq w b v now => Sys2Proof.Machine.execBlkHaltReq w b v now s
  | .gaListFetch d now => Sys2Proof.Machine.execGaListFetch d now s
  | .gaPass d now => Sys2Proof.Machine.execGaPass d now s
  | .gaConvert d now => Sys2Proof.Machine.execGaConvert d now s
  | .gaNop d now => Sys2Proof.Machine.execGaNop d now s
  | .gaPassEnd d late bad now => Sys2Proof.Machine.execGaPassEnd d late bad now s
  | .gaConvertEnd d now => Sys2Proof.Machine.execGaConvertEnd d now s
  | .gaHaltReq w d v now => Sys2Proof.Machine.execGaHaltReq w d v now s
  | .route d now => Sys2Proof.Machine.execRoute d now s
  | .routeChunkSelect d now => Sys2Proof.Machine.execRouteChunkSelect d now s
  | .neuron d now => Sys2Proof.Machine.execNeuron d now s
  | .reGather d now => Sys2Proof.Machine.execReGather d now s
  | .gatherRowRead d now => Sys2Proof.Machine.execGatherRowRead d now s
  | .gatherPool d now => Sys2Proof.Machine.execGatherPool d now s
  | .reNop d now => Sys2Proof.Machine.execReNop d now s
  | .reJobComplete d now => Sys2Proof.Machine.execReJobComplete d now s
  | .expertEntryWrite d now => Sys2Proof.Machine.execExpertEntryWrite d now s
  | .bind d now => Sys2Proof.Machine.execBind d now s
  | .loadExpert d now => Sys2Proof.Machine.execLoadExpert d now s
  | .prefetch d now => Sys2Proof.Machine.execPrefetch d now s
  | .releaseKeep d now => Sys2Proof.Machine.execReleaseKeep d now s
  | .rmNop d now => Sys2Proof.Machine.execRmNop d now s
  | .demandEntry d now => Sys2Proof.Machine.execDemandEntry d now s
  | .fetchRequestIssue d f now => Sys2Proof.Machine.execFetchRequestIssue d f now s
  | .arrivalRaise d now => Sys2Proof.Machine.execArrivalRaise d now s
  | .t1Request t wr a n data err now => Sys2Proof.Machine.execT1Request t wr a n data err now s
  | .t2Request t wr a n data err now => Sys2Proof.Machine.execT2Request t wr a n data err now s
  | .idleScrub a err now => Sys2Proof.Machine.execIdleScrub a err now s
  | .hbmTempRead k temp corrected now => Sys2Proof.Machine.execHbmTempRead k temp corrected now s
  | .rowRepair k pc row spare now => Sys2Proof.Machine.execRowRepair k pc row spare now s
  | .slotMigrationEnd now => Sys2Proof.Machine.execSlotMigrationEnd now s
  | .t2RangeBaseWrite w r v now => Sys2Proof.Machine.execT2RangeBaseWrite w r v now s
  | .resyncEnd r now => Sys2Proof.Machine.execResyncEnd r now s
  | .powerFail done now => Sys2Proof.Machine.execPowerFail done now s
  | .t3Request t wr a n data now => Sys2Proof.Machine.execT3Request t wr a n data now s
  | .nvmeCompletion id nvme landed now => Sys2Proof.Machine.execNvmeCompletion id nvme landed now s
  | .nvmeTimeout id landed now => Sys2Proof.Machine.execNvmeTimeout id landed now s
  | .driveFailed d now => Sys2Proof.Machine.execDriveFailed d now s
  | .trim w pages now => Sys2Proof.Machine.execTrim w pages now s
  | .trimDone cpl now => Sys2Proof.Machine.execTrimDone cpl now s
  | .shaperIssue set q now => Sys2Proof.Machine.execShaperIssue set q now s
  | .shaperRefill now => Sys2Proof.Machine.execShaperRefill now s
  | .shpCfgWrite w t q v now => Sys2Proof.Machine.execShpCfgWrite w t q v now s
  | .shaperSample opm now => Sys2Proof.Machine.execShaperSample opm now s
  | .frameSend p now => Sys2Proof.Machine.execFrameSend p now s
  | .frameReceive p err ctl slots now => Sys2Proof.Machine.execFrameReceive p err ctl slots now s
  | .nakRepeat p now => Sys2Proof.Machine.execNakRepeat p now s
  | .portDown p reason now => Sys2Proof.Machine.execPortDown p reason now s
  | .portTrain p quickOk nbrId nbrPort token ver lanes theirGood theirMax theirVc now => Sys2Proof.Machine.execPortTrain p quickOk nbrId nbrPort token ver lanes theirGood theirMax theirVc now s
  | .retrain w lanes p v now => Sys2Proof.Machine.execRetrain w lanes p v now s
  | .retrainReq p now => Sys2Proof.Machine.execRetrainReq p now s
  | .widthReq p => Sys2Proof.Machine.execWidthReq p s
  | .widthAck p => Sys2Proof.Machine.execWidthAck p s
  | .laneNotGood p lane => Sys2Proof.Machine.execLaneNotGood p lane s
  | .portRetire p => Sys2Proof.Machine.execPortRetire p s
  | .version p => Sys2Proof.Machine.execVersion p s
  | .credit p => Sys2Proof.Machine.execCredit p s
  | .packetArrive p shared now => Sys2Proof.Machine.execPacketArrive p shared now s
  | .packetGrant p n now => Sys2Proof.Machine.execPacketGrant p n now s
  | .residenceTimeout n now => Sys2Proof.Machine.execResidenceTimeout n now s
  | .e2eRetry n now => Sys2Proof.Machine.execE2eRetry n now s
  | .recordExpiry n now => Sys2Proof.Machine.execRecordExpiry n now s
  | .epochCommit w e now => Sys2Proof.Machine.execEpochCommit w e now s
  | .srcEpochWrite w e now => Sys2Proof.Machine.execSrcEpochWrite w e now s
  | .routeTableWrite w e k v now => Sys2Proof.Machine.execRouteTableWrite w e k v now s
  | .epochLiveClear e now => Sys2Proof.Machine.execEpochLiveClear e now s
  | .transit w on now => Sys2Proof.Machine.execTransit w on now s
  | .read n now => Sys2Proof.Machine.execRead n now s
  | .write n now => Sys2Proof.Machine.execWrite n now s
  | .atomic n now => Sys2Proof.Machine.execAtomic n now s
  | .readData n now => Sys2Proof.Machine.execReadData n now s
  | .complete n now => Sys2Proof.Machine.execComplete n now s
  | .atomicData n now => Sys2Proof.Machine.execAtomicData n now s
  | .combineHoldEnd id now => Sys2Proof.Machine.execCombineHoldEnd id now s
  | .combineReply id => Sys2Proof.Machine.execCombineReply id s
  | .put n now => Sys2Proof.Machine.execPut n now s
  | .putEnd n now => Sys2Proof.Machine.execPutEnd n now s
  | .endAck n now => Sys2Proof.Machine.execEndAck n now s
  | .barrier n now => Sys2Proof.Machine.execBarrier n now s
  | .timeReq n now => Sys2Proof.Machine.execTimeReq n now s
  | .timeResp n now => Sys2Proof.Machine.execTimeResp n now s
  | .cmd n now => Sys2Proof.Machine.execCmd n now s
  | .cmdAck n now => Sys2Proof.Machine.execCmdAck n now s
  | .cmdRetry now => Sys2Proof.Machine.execCmdRetry now s
  | .stop past now => Sys2Proof.Machine.execStop past now s
  | .start now => Sys2Proof.Machine.execStart now s
  | .fenceCommand past now => Sys2Proof.Machine.execFenceCommand past now s
  | .shape now => Sys2Proof.Machine.execShape now s
  | .cmdTxGo w v now => Sys2Proof.Machine.execCmdTxGo w v now s
  | .pshpCfgWrite w p vc v now => Sys2Proof.Machine.execPshpCfgWrite w p vc v now s
  | .sshpCfgWrite w t q v now => Sys2Proof.Machine.execSshpCfgWrite w t q v now s
  | .alleyHello a id port token now => Sys2Proof.Machine.execAlleyHello a id port token now s
  | .alleyCmd a src w0 w1 w2 now => Sys2Proof.Machine.execAlleyCmd a src w0 w1 w2 now s
  | .alleyAck a word now => Sys2Proof.Machine.execAlleyAck a word now s
  | .alleyHelloSend a now => Sys2Proof.Machine.execAlleyHelloSend a now s
  | .alleyDown a now => Sys2Proof.Machine.execAlleyDown a now s
  | .lease n now => Sys2Proof.Machine.execLease n now s
  | .leaseAck n now => Sys2Proof.Machine.execLeaseAck n now s
  | .leaseSend a now => Sys2Proof.Machine.execLeaseSend a now s
  | .leaseTtlExpiry t past now => Sys2Proof.Machine.execLeaseTtlExpiry t past now s
  | .allToAll c now => Sys2Proof.Machine.execAllToAll c now s
  | .allGather c now => Sys2Proof.Machine.execAllGather c now s
  | .reduceScatter c now => Sys2Proof.Machine.execReduceScatter c now s
  | .allReduce c now => Sys2Proof.Machine.execAllReduce c now s
  | .broadcast c now => Sys2Proof.Machine.execBroadcast c now s
  | .collBarrier c now => Sys2Proof.Machine.execCollBarrier c now s
  | .reform c now => Sys2Proof.Machine.execReform c now s
  | .cancel c past now => Sys2Proof.Machine.execCancel c past now s
  | .collNop c now => Sys2Proof.Machine.execCollNop c now s
  | .streamResend c peer now => Sys2Proof.Machine.execStreamResend c peer now s
  | .collTimeout c now => Sys2Proof.Machine.execCollTimeout c now s
  | .collComplete c now => Sys2Proof.Machine.execCollComplete c now s
  | .faultLog e now => Sys2Proof.Machine.execFaultLog e now s
  | .retirementWindowEnd w now => Sys2Proof.Machine.execRetirementWindowEnd w now s
  | .ridgeForce w n v now => Sys2Proof.Machine.execRidgeForce w n v now s
  | .dfuForce w d n v now => Sys2Proof.Machine.execDfuForce w d n v now s
  | .blkForce w b n v now => Sys2Proof.Machine.execBlkForce w b n v now s
  | .graveForce w v now => Sys2Proof.Machine.execGraveForce w v now s
  | .retClear w v now => Sys2Proof.Machine.execRetClear w v now s
  | .dfuWdogKick w d v now => Sys2Proof.Machine.execDfuWdogKick w d v now s
  | .cccWdogKick w v now => Sys2Proof.Machine.execCccWdogKick w v now s
  | .dfuWdogExpiry d now => Sys2Proof.Machine.execDfuWdogExpiry d now s
  | .cccWdogExpiry now => Sys2Proof.Machine.execCccWdogExpiry now s
  | .termination fails now => Sys2Proof.Machine.execTermination fails now s
  | .release w v now => Sys2Proof.Machine.execRelease w v now s
  | .graveEvent saved now => Sys2Proof.Machine.execGraveEvent saved now s
  | .bar2Read off n now => Sys2Proof.Machine.execBar2Read off n now s
  | .bar2Write off data poisoned now => Sys2Proof.Machine.execBar2Write off data poisoned now s
  | .bar2XlatWrite w n v now => Sys2Proof.Machine.execBar2XlatWrite w n v now s
  | .endpointReset kind now => Sys2Proof.Machine.execEndpointReset kind now s
  | .busMasterEnable gen lanes bme msixEn fnMask now => Sys2Proof.Machine.execBusMasterEnable gen lanes bme msixEn fnMask now s
  | .resultRecordBuild t now => Sys2Proof.Machine.execResultRecordBuild t now s
  | .ringRecordWrite ch now => Sys2Proof.Machine.execRingRecordWrite ch now s
  | .resChCiWrite w ch v now => Sys2Proof.Machine.execResChCiWrite w ch v now s
  | .rpStatusRead w ch now => Sys2Proof.Machine.execRpStatusRead w ch now s
  | .resultAck w ch seq now => Sys2Proof.Machine.execResultAck w ch seq now s
  | .resChCfgWrite w ch v now => Sys2Proof.Machine.execResChCfgWrite w ch v now s
  | .coalTimeout c n => Sys2Proof.Machine.execCoalTimeout c n s
  | .claim w c now => Sys2Proof.Machine.execClaim w c now s
  | .intComplete w c n now => Sys2Proof.Machine.execIntComplete w c n now s
  | .soft w c v now => Sys2Proof.Machine.execSoft w c v now s
  | .srcCfgWrite w c n v now => Sys2Proof.Machine.execSrcCfgWrite w c n v now s
  | .msiXSend n now => Sys2Proof.Machine.execMsiXSend n now s
  | .sensedLineChange l level held now => Sys2Proof.Machine.execSensedLineChange l level held now s
  | .seal w t n now => Sys2Proof.Machine.execSeal w t n now s
  | .sealComplete now => Sys2Proof.Machine.execSealComplete now s
  | .unseal w t n now => Sys2Proof.Machine.execUnseal w t n now s
  | .roleGo w role slot now => Sys2Proof.Machine.execRoleGo w role slot now s
  | .roleVerify w role slot now => Sys2Proof.Machine.execRoleVerify w role slot now s
  | .roleDrop w role slot now => Sys2Proof.Machine.execRoleDrop w role slot now s
  | .challengeExpiry a now => Sys2Proof.Machine.execChallengeExpiry a now s
  | .sessionExpiry a role now => Sys2Proof.Machine.execSessionExpiry a role now s
  | .lockoutEnd a now => Sys2Proof.Machine.execLockoutEnd a now s
  | .keyGo w slot now => Sys2Proof.Machine.execKeyGo w slot now s
  | .keySectorWrite now => Sys2Proof.Machine.execKeySectorWrite now s
  | .journalCommit bad ops junk now => Sys2Proof.Machine.execJournalCommit bad ops junk now s
  | .audRead w seq now => Sys2Proof.Machine.execAudRead w seq now s
  | .railOutOfRange r filtering now => Sys2Proof.Machine.execRailOutOfRange r filtering now s
  | .t2PgLow decay => Sys2Proof.Machine.execT2PgLow decay s
  | .powerReading rails watts tj now => Sys2Proof.Machine.execPowerReading rails watts tj now s
  | .throttleStepUp now => Sys2Proof.Machine.execThrottleStepUp now s
  | .throttleStepDown now => Sys2Proof.Machine.execThrottleStepDown now s
  | .emergencyThrottle now => Sys2Proof.Machine.execEmergencyThrottle now s
  | .emergencyRelease now => Sys2Proof.Machine.execEmergencyRelease now s
  | .powerOnReset vdd done landed decay => Sys2Proof.Machine.execPowerOnReset vdd done landed decay s
  | .cold w both now => Sys2Proof.Machine.execCold w both now s
  | .fabric w now => Sys2Proof.Machine.execFabric w now s
  | .boot links spokes stks channels slots fails drives now => Sys2Proof.Machine.execBoot links spokes stks channels slots fails drives now s
  | .fwWrite w now => Sys2Proof.Machine.execFwWrite w now s
  | .fwWriteEnd bad now => Sys2Proof.Machine.execFwWriteEnd bad now s
  | .fwTry w now => Sys2Proof.Machine.execFwTry w now s
  | .confirm w now => Sys2Proof.Machine.execConfirm w now s
  | .activate w now => Sys2Proof.Machine.execActivate w now s
  | .burnSvn w now => Sys2Proof.Machine.execBurnSvn w now s
  | .i3cTransaction write wide off v now => Sys2Proof.Machine.execI3cTransaction write wide off v now s
  | .tapReset => Sys2Proof.Machine.execTapReset s
  | .extest balls cells => Sys2Proof.Machine.execExtest balls cells s
  | .idcode => Sys2Proof.Machine.execIdcode s
  | .samplePreload balls cells => Sys2Proof.Machine.execSamplePreload balls cells s
  | .clamp => Sys2Proof.Machine.execClamp s
  | .highz => Sys2Proof.Machine.execHighz s
  | .extestPulse balls cells => Sys2Proof.Machine.execExtestPulse balls cells s
  | .extestTrain balls cells => Sys2Proof.Machine.execExtestTrain balls cells s
  | .mbist status now => Sys2Proof.Machine.execMbist status now s
  | .scan chain now => Sys2Proof.Machine.execScan chain now s
  | .hbmWrap wrapper now => Sys2Proof.Machine.execHbmWrap wrapper now s
  | .fuse field prog now => Sys2Proof.Machine.execFuse field prog now s
  | .bypass => Sys2Proof.Machine.execBypass s
  | .driveLinkDrop d now => Sys2Proof.Machine.execDriveLinkDrop d now s
  | .alleyFrameCrcFail a => Sys2Proof.Machine.execAlleyFrameCrcFail a s
  | .vectorSendable v now => Sys2Proof.Machine.execVectorSendable v now s

end Sys2Proof.Machine
end

