-- ==== Sys2Proof/Safety.lean ====
section
/-! DEFINITION. What counts as a safe run of the block, and the words in which claims about its commands are stated: a command
that ends in a next state, and what it leaves unchanged. -/

namespace Sys2Proof

open Machine

/-- A step that answers a next state. -/
def safeStep (s : State) : Prop := ∃ t, Machine.step s = .next t

/-- The memories of the device in their canonical form: addresses strictly rising, no entry equal to what an unlisted address
reads as. -/
def Memory.wf (s : State) : Bool :=
  KMap.wf 0 s.mem && KMap.wf 0 s.hostMem && KMap.wf 0xFF s.flash && KMap.wf false s.badWords && KMap.wf false s.weakWords

/-- The command answers a next state of which `p` holds. -/
def Ends (i : Instr) (s : State) (p : State → Prop) : Prop := ∃ t, exec i s = .next t ∧ p t

/-- The command answers exactly this next state. -/
abbrev EndsAs (i : Instr) (s t : State) : Prop := exec i s = .next t

/-! ### What is left unchanged -/

/-- Only the control core `c` differs. -/
def CoreOnly (c : Nat) (s t : State) : Prop := { t with cores := s.cores } = s ∧ ∀ d, d ≠ c → t.core d = s.core d

/-- Only the Block `b`'s Sequencer differs. -/
def BlkOnly (b : Nat) (s t : State) : Prop := { t with blks := s.blks } = s ∧ ∀ x, x ≠ b → t.blk x = s.blk x

/-- Only the units of District `d` that `DistSt` holds differ. -/
def DistOnly (d : Nat) (s t : State) : Prop := { t with dists := s.dists } = s ∧ ∀ x, x ≠ d → t.dist x = s.dist x

/-- Only the control registers at the listed offsets differ. -/
def RegsOnly (l : List Nat) (s t : State) : Prop :=
  { t with regs := s.regs } = s ∧ ∀ a, a ∉ l → KMap.get 0 t.regs a = KMap.get 0 s.regs a

/-- Only bytes of device memory in `[a, a + n)` differ. -/
def BytesOnly (a n : Nat) (s t : State) : Prop :=
  { t with mem := s.mem } = s ∧ ∀ x, x < a ∨ a + n ≤ x → t.byte x = s.byte x

/-! ### The host -/

/-- The lines of a BAR2 read, one after another, from device `s` to `t`: the status of each with its address, and the bytes that they
give. -/
inductive HostReads : List (Nat × Nat) → State → List (Nat × Nat) → List Byte → State → Prop where
  | done (s : State) : HostReads [] s [] [] s
  | line {a n st : Nat} {rest sts : List (Nat × Nat)} {l m : List Byte} {s u t : State} :
      s.busRead hostIssuer .rd a n = (st, l, u) → HostReads rest u sts m t → HostReads ((a, n) :: rest) s ((a, st) :: sts) (l ++ m) t

/-- The lines of a BAR2 write of `data`, which goes to `a` on, one after another, from device `s` to `t`, with the status of each. -/
inductive HostWrites (a : Nat) (data : List Byte) : List (Nat × Nat) → State → List (Nat × Nat) → State → Prop where
  | done (s : State) : HostWrites a data [] s [] s
  | line {p n st : Nat} {rest sts : List (Nat × Nat)} {s u t : State} :
      s.busWrite hostIssuer .wr p ((data.drop (p - a)).take n) = (st, u) → HostWrites a data rest u sts t →
      HostWrites a data ((p, n) :: rest) s ((p, st) :: sts) t

/-! ### Control cores -/

/-- The core issues its next instruction and the fetch gives it; the fetch leaves the device in `s1`. -/
def CoreIssues (c : Nat) (s s1 : State) : Prop := s.canIssue c = true ∧ s.fetch c = (.ok, s1)

/-- The instruction retires with PC at `pc` and `v` in register `rd` (g0 discards it), and changes nothing else. -/
def CoreWrites (c rd : Nat) (v : W64) (pc : Nat) (s t : State) : Prop :=
  CoreOnly c s t ∧ (∀ i, (t.core c).reg i = if i = rd ∧ rd ≠ 0 then v else (s.core c).reg i) ∧
    t.core c = { s.core c with g := (t.core c).g, lastPc := (s.core c).pc, pc := pc, retired := (s.core c).retired + 1 }

/-- The instruction retires with PC at `pc` and changes nothing else. -/
def CoreRetires (c pc : Nat) (s t : State) : Prop :=
  CoreOnly c s t ∧ t.core c = { s.core c with lastPc := (s.core c).pc, pc := pc, retired := (s.core c).retired + 1 }

/-- The branch or jump retires with PC at `to_`, `link` in register `rd` (g0 discards it), and the predictor updated with where it
went; nothing else changes. -/
def CoreJumps (c rd : Nat) (link : W64) (to_ : Nat) (s t : State) : Prop :=
  let k := s.core c
  CoreOnly c s t ∧ (∀ i, (t.core c).reg i = if i = rd ∧ rd ≠ 0 then link else k.reg i) ∧
    t.core c = { k with g := (t.core c).g, lastPc := k.pc, pc := to_, retired := k.retired + 1,
                        branches := k.branches ++ [(k.pc, to_)] }

/-- The source of an ENQ at `a` is read part by part from device `s` with `got` read so far, to device `t` with `all` read. -/
inductive EnqReads (c rd func a n : Nat) : State → List Byte → State → List Byte → Prop where
  | done (s : State) (got : List Byte) : EnqReads c rd func a n s got s got
  | part {s u t : State} {got l all : List Byte} : got.length < n * enqSize func → l ≠ [] →
      s.enqPart c rd func a n got = (some (0, l), u) → EnqReads c rd func a n u (got ++ l) t all → EnqReads c rd func a n s got t all

/-! ### Blocks -/

/-- The Sequencer issues its next instruction, with no local interrupt due, and the fetch gives it; the fetch leaves the device in
`s1`. -/
def BlkIssues (b : Nat) (s s1 : State) : Prop := s.blkReady b = true ∧ (s.blk b).due = false ∧ s.blkFetch b = (some 0, s1)

/-- The instruction has issued: PC moves to `pc`, and of the Sequencer only what `f` changes is changed. -/
def BlkDoes (b : Nat) (pc : Nat) (f : BlkSt → BlkSt) (s t : State) : Prop :=
  BlkOnly b s t ∧ t.blk b = { f (s.blk b) with lastPc := (s.blk b).pc, pc := pc }

/-- The instruction writes scalar register `sd` (s0 discards it), the next one follows, and nothing else changes. -/
def BlkWrites (b sd : Nat) (v : W64) (s t : State) : Prop :=
  BlkOnly b s t ∧ (∀ i, (t.blk b).sreg i = if i = sd ∧ sd ≠ 0 then v else (s.blk b).sreg i) ∧
    t.blk b = { s.blk b with s := (t.blk b).s, lastPc := (s.blk b).pc, pc := ((s.blk b).pc + 8) % 2 ^ 64 }

/-- The vector instruction writes `n` lanes of `w` bits of `vd` under the mask register `mask`, each with what `f` gives for it,
adds the flags of the lanes written, with source 7 pending when one is new, and changes nothing else; the next one follows. -/
def VxWrites (b w n mask vd : Nat) (f : Nat → LaneOut) (s t : State) : Prop :=
  let k := s.blk b
  let k' := t.blk b
  let m := k.mask mask
  BlkOnly b s t ∧ (∀ r, r ≠ vd → k'.vreg r = k.vreg r) ∧
    (∀ i < n, (k'.vreg vd).lane w i = if m.getLsbD i then (f i).code % 2 ^ w else (k.vreg vd).lane w i) ∧
    (∀ i, w * n ≤ i → (k'.vreg vd).getLsbD i = (k.vreg vd).getLsbD i) ∧
    (∀ j < 4, k'.sticky.getLsbD j = (k.sticky.getLsbD j ||
      (List.range n).any fun i => m.getLsbD i && (f i).flags.testBit j)) ∧
    k'.pend = (if k'.sticky = k.sticky then k.pend else k.pend ||| 0x80) ∧
    k' = { k with v := k'.v, sticky := k'.sticky, pend := k'.pend, lastPc := k.pc, pc := (k.pc + 8) % 2 ^ 64 }

/-! ### DMA descriptors -/

/-- A channel has reserved pool space for the response of a read; a Block interface needs none. -/
def PoolOk (j : DmaJob) (n : Nat) (s : State) : Prop :=
  match j.owner with
  | .blk _ _ => True
  | .ch _ _ => ∃ x, s.job j.id = some x ∧ n ≤ x.reserved

/-- The pool space of a channel moves as `f` says. -/
def pooled (j : DmaJob) (f : DmaJob → DmaJob) (s : State) : State :=
  match j.owner with
  | .blk _ _ => s
  | .ch _ _ => s.updJob j.id f

/-- The requests of a descriptor read ranges that lie here, one after another, from device `s` to `t`, and give `l`. With `keep` their
bytes stay in a channel's pool. -/
inductive DmaReads (j : DmaJob) (keep : Bool) : List (Nat × Nat) → State → List Byte → State → Prop where
  | done (s : State) : DmaReads j keep [] s [] s
  | next {a n : Nat} {rest : List (Nat × Nat)} {s u t : State} {l m : List Byte} : farAddr a = false → PoolOk j n s →
      (pooled j (fun x => { x with reserved := x.reserved - n, held := x.held + n }) s).issue j.issuer .dmaRd j.key a n [] false =
        (some (0, l), u) →
      DmaReads j keep rest (if keep then u else pooled j (fun x => { x with held := x.held - n }) u) m t →
      DmaReads j keep ((a, n) :: rest) s (l ++ m) t

/-- The requests of a descriptor write `l`, which goes to `a` on, to ranges that lie here, one after another, from device `s` to `t`; a
REDUCE adds it there. Each counts its bytes. -/
inductive DmaWrites (j : DmaJob) (a : Nat) (l : List Byte) : List (Nat × Nat) → State → State → Prop where
  | done (s : State) : DmaWrites j a l [] s s
  | next {p n : Nat} {rest : List (Nat × Nat)} {s u t : State} : farAddr p = false →
      (j.reduce = 0 → s.issue j.issuer .dmaWr j.key p n ((l.drop (p - a)).take n) false = (some (0, []), u)) →
      (j.reduce ≠ 0 → s.reduceLine j.issuer j.reduce p ((l.drop (p - a)).take n) = (0, u)) →
      DmaWrites j a l rest (u.updJob j.id (fun x => { x with bytes := x.bytes + n, held := x.held - n })) t →
      DmaWrites j a l ((p, n) :: rest) s t

/-- The rows of a SKEW from row `r` on are read. -/
inductive DmaRows (j : DmaJob) : Nat → State → List (List Byte) → State → Prop where
  | done (s : State) : DmaRows j j.rows s [] s
  | next {r : Nat} {s u t : State} {l : List Byte} {m : List (List Byte)} : r < j.rows →
      DmaReads j false (requests false ((j.src + r * j.srcStride) % 2 ^ 64) j.rowBytes) s l u → DmaRows j (r + 1) u m t →
      DmaRows j r s (l :: m) t

/-- The addresses of row `r` at the source and the destination: plain rows, or those that the row's index chooses, which is read
from device `s` to `t`. -/
def DmaRowAt (j : DmaJob) (r src dst : Nat) (s t : State) : Prop :=
  let a := (j.src + r * j.srcStride) % 2 ^ 64
  let b := (j.dst + r * j.dstStride) % 2 ^ 64
  let m := if j.op = 3 then 4 else 16
  if j.op = 3 ∨ j.op = 4 then
    ∃ l, DmaReads j false (requests false ((j.indexAddr + m * (j.indexFirst + r)) % 2 ^ 64) m) s l t ∧
      let w := leNat (l.take (min m 8))
      if j.scatter then src = a ∧ dst = (j.dst + j.indexOff w j.dstStride) % 2 ^ 64
      else src = (j.src + j.indexOff w j.srcStride) % 2 ^ 64 ∧ dst = b
  else src = a ∧ dst = b ∧ t = s

/-- What a descriptor moves of a row, from byte `c` of it, which lies at `a`: the pattern of a FILL, else the bytes there. -/
def DmaData (j : DmaJob) (a c n : Nat) (s : State) (l : List Byte) (t : State) : Prop :=
  if j.op = 5 then l = j.fillBytes c n ∧ t = s else DmaReads j true (requests false a n) s l t

/-- The next unit of a ring transfer, `n` bytes, is put together from pieces of rows, with `got` so far. -/
inductive DmaUnit (j : DmaJob) (n : Nat) : State → List Byte → State → List Byte → Prop where
  | done {s : State} {got : List Byte} : n ≤ got.length → DmaUnit j n s got s got
  | next {s u v t : State} {got l all : List Byte} {src dst : Nat} : got.length < n → l ≠ [] →
      DmaRowAt j ((j.bytes + got.length) / j.rowBytes) src dst s u →
      DmaData j (src + (j.bytes + got.length) % j.rowBytes) ((j.bytes + got.length) % j.rowBytes)
        (min (j.rowBytes - (j.bytes + got.length) % j.rowBytes) (n - got.length)) u l v →
      DmaUnit j n v (got ++ l) t all → DmaUnit j n s got t all

/-- The indices of a scattering REDUCE are read from row `r` on: whether every row that they choose is a line in a Block scratchpad
window. -/
inductive DmaIndices (j : DmaJob) : Nat → State → Bool → State → Prop where
  | done (s : State) : DmaIndices j j.count s true s
  | next {r src dst : Nat} {s u t : State} {ok : Bool} : r < j.count → DmaRowAt j r src dst s u → DmaIndices j (r + 1) u ok t →
      DmaIndices j r s (inSpads dst j.rowBytes && dst % 128 == 0 && ok) t

/-- The descriptor is there and its next move begins: it has not ended, its step runs, its channel has come to it, and no part of it
waits. -/
def DmaGoes (id : Nat) (j : DmaJob) (s : State) : Prop :=
  s.job id = some j ∧ s.dmaRuns j = true ∧ j.log = [] ∧ j.ringUnit = none ∧ j.bytes < j.stream

/-- The command that moves up to `n` chunks of a descriptor, by its operation (R133). -/
def moveCmd (op id n now : Nat) : Instr :=
  if op = 1 then .dmaCopy id n now else if op = 2 then .dmaSkew id n now else if op = 3 then .dmaGather id n now
  else if op = 4 then .dmaDispatch id n now else .dmaFill id n now

/-- The descriptor's move has come to its end on device `t`: nothing of it waits, and a channel that works for no Tenancy has made its
register accesses. -/
def moveEnd (id : Nat) (t : State) : State := (t.updJob id fun x => { x with log := [] }).ctlServe id

/-! ### Engines -/

/-- The requests of an engine's read, one after another, are served here at once: together they give `l`, and leave the device in the
last state. -/
inductive ReadsOf (i : Issuer) (key : Nat) (comb : Bool) : List (Nat × Nat) → State → List Byte → State → Prop where
  | done (s : State) : ReadsOf i key comb [] s [] s
  | next {a n : Nat} {rest : List (Nat × Nat)} {s u t : State} {l m : List Byte} :
      s.issue i .rd key a n [] comb = (some (0, l), u) → ReadsOf i key comb rest u m t → ReadsOf i key comb ((a, n) :: rest) s (l ++ m) t

/-- The requests of an engine's write of `l` at `a`, one after another, are served here at once. -/
inductive WritesOf (i : Issuer) (key a : Nat) (l : List Byte) : List (Nat × Nat) → State → State → Prop where
  | done (s : State) : WritesOf i key a l [] s s
  | next {p n : Nat} {rest : List (Nat × Nat)} {s u t : State} :
      s.issue i .wr key p n ((l.drop (p - a)).take n) false = (some (0, []), u) → WritesOf i key a l rest u t →
      WritesOf i key a l ((p, n) :: rest) s t

/-- The engine's read gives `l` and leaves the device in `t`. -/
def Reads (i : Issuer) (key a n : Nat) (comb : Bool) (s : State) (l : List Byte) (t : State) : Prop :=
  ReadsOf i key comb (requests false a n) s l t

/-- The engine's write of `l` completes and leaves the device in `t`. -/
def Writes (i : Issuer) (key a : Nat) (l : List Byte) (s t : State) : Prop := WritesOf i key a l (requests true a l.length) s t

/-! ### Routing Engines -/

/-- The running job goes on: its engine works, it has not ended, nothing of it waits, and its work area holds no bit error. -/
def ReGoes (d : Nat) (r : ReRun) (s : State) : Prop :=
  (s.re d).running = some r ∧ s.reWorks r.job.ten = true ∧ r.ended = false ∧ r.log = [] ∧
    s.weakIn 8 (reBase d + r.work.1) r.work.2 = [] ∧ s.badIn 8 (reBase d + r.work.1) r.work.2 = []

/-- Demand entries, each with its index, are written in turn; each is counted, and passed to the Residency Manager under PUBLISH
(R197, R199). -/
inductive DemandsOf (d : Nat) (j : EngJob) : List (Planned × Nat) → State → State → Prop where
  | done (s : State) : DemandsOf d j [] s s
  | next {p : Planned} {n : Nat} {rest : List (Planned × Nat)} {s u v t : State} {w : List Nat} {l : List Byte} :
      w = demandEntry j n p.expert p.count p.shares.length p.disp p.seq →
      l = spoiled (s.spoilOf d) (j.w 8 + 32 * n) (w.flatMap (leBytes 8)) → Writes (reIssuer d j.ten) (reKey d) (j.w 8 + 32 * n) l s u →
      v = u.updReRun d (fun r => { r with count := r.count + 1 }) →
      DemandsOf d j rest
        (if RouteJob.publish j then
          v.publish d j.ten (elems 8 (spoiled (v.spoilOf d) (j.w 8 + 32 * n) (w.flatMap (leBytes 8)))) else v) t →
      DemandsOf d j ((p, n) :: rest) s t

/-- The dispatch entries of each expert are written, and then its EXPERT entries are held for CQ0 (R196, R200). -/
inductive DispatchesOf (d : Nat) (j : EngJob) (toks : List (List Asg)) : List (Planned × Nat) → State → State → Prop where
  | done (s : State) : DispatchesOf d j toks [] s s
  | next {p : Planned} {n : Nat} {rest : List (Planned × Nat)} {s u t : State} {l : List Byte} {es : List CqEntry} :
      l = (tokensOf toks p.expert).zipIdx.flatMap (fun q => (dispatchEntry j q.1.1 q.1.2 q.2).flatMap (leBytes 8)) →
      Writes (reIssuer d j.ten) (reKey d) (j.w 9 + 16 * p.disp) (spoiled (s.spoilOf d) (j.w 9 + 16 * p.disp) l) s u →
      es = (expertEntries j d n p).zipIdx.map (fun q => spoiledEntry (u.spoilOf d) (q.2 + p.seq) q.1) →
      DispatchesOf d j toks rest ((u.updReRun d fun r => { r with kept := r.kept + p.count, entries := r.entries + es.length }).updRe d
        fun x => { x with held := x.held ++ es }) t →
      DispatchesOf d j toks ((p, n) :: rest) s t

/-- The tokens of dispatch entries `idx` on, `n` of them, are read; with the clusters active so far they give those active at the
end (R208). -/
inductive TokensOf (d : Nat) (j : EngJob) (sketch : List Byte) (route : EngJob) :
    Nat → Nat → List Bool → State → List Bool → State → Prop where
  | done (idx : Nat) (on : List Bool) (s : State) : TokensOf d j sketch route idx 0 on s on s
  | next {idx n : Nat} {on all : List Bool} {e row : List Byte} {s u v t : State} :
      Reads (reIssuer d j.ten) (reKey d) (route.w 9 + 16 * idx) 16 false s e u →
      Reads (reIssuer d j.ten) (reKey d) (NeuronJob.rowAddr j (leNat (e.take 8))) (NeuronJob.rowBytes j) false u row v →
      TokensOf d j sketch route (idx + 1) n (List.zipWith (· || ·) on
        (if NeuronJob.mode j = 1 then prepassActive j sketch row else predictActive j sketch row)) v all t →
      TokensOf d j sketch route idx (n + 1) on s all t

/-- Demand entries `idx` on, `n` of them, are refined: each entry, its expert's sketch or head and its tokens are read, its mask and its
words 2 and 3 are written, and it is published when the job says so (R208). -/
inductive RefinesOf (d : Nat) (j route : EngJob) : Nat → Nat → State → State → Prop where
  | done (idx : Nat) (s : State) : RefinesOf d j route idx 0 s s
  | next {idx n a w0 w1 w3 x k : Nat} {e sk : List Byte} {on : List Bool} {s s1 s2 s3 s4 s5 t : State} {tail : List Byte} :
      a = route.w 8 + 32 * idx → Reads (reIssuer d j.ten) (reKey d) a 32 false s e s1 →
      w0 = ((elems 8 e)[0]?).getD 0 → w1 = ((elems 8 e)[1]?).getD 0 → w3 = ((elems 8 e)[3]?).getD 0 → x = bits w0 63 50 →
      Reads (reIssuer d j.ten) (reKey d) ((j.w 4 + x * j.w 5) % 2 ^ 64) (NeuronJob.sketchBytes j) false s1 sk s2 →
      TokensOf d j sk route (bits w1 63 32) (bits w0 49 33) (List.replicate (NeuronJob.clusters j) false) s2 on s3 →
      k = (on.filter id).length →
      Writes (reIssuer d j.ten) (reKey d) (j.w 6 + 32 * x) (spoiled (s3.spoilOf d) (j.w 6 + 32 * x) (leBytes 32 (bitsNat on))) s3 s4 →
      tail = leBytes 8 ((j.w 6 + 32 * x) % 2 ^ 64) ++ leBytes 8 (w3 - bits w3 47 39 * 2 ^ 39 + k * 2 ^ 39) →
      Writes (reIssuer d j.ten) (reKey d) (a + 16) (spoiled (s4.spoilOf d) (a + 16) tail) s4 s5 →
      RefinesOf d j route (idx + 1) n
        (let s6 := s5.updReRun d (fun r => { r with count := r.count + 1, kept := r.kept + k })
         if NeuronJob.publish j then
           s6.publish d j.ten (elems 8 (leBytes 8 w0 ++ leBytes 8 w1 ++ spoiled (s5.spoilOf d) (a + 16) tail)) else s6) t →
      RefinesOf d j route idx (n + 1) s t

/-! ### Residency Managers -/

/-- SIG_EN and IRQ of a Residency Manager job, by its word 0 (R227). -/
def rmSignalled (d w0 : Nat) (s : State) : State :=
  let t := if w0.testBit 57 then s.evcAdd d (bits w0 56 47) 1 else s
  if w0.testBit 46 then t.srcEvent (.priv d 5) else t

/-- The expert of an ask is looked up under a binding (R230): its directory entry is read and valid, its mask and its cluster table are
read where it has them, and it is served, which leaves the device in `t`. -/
def LookedUp (d : Nat) (a : Ask) (b : Binding) (s t : State) : Prop :=
  let i := rmIssuer d a.ten
  let key := b.dir + 32 * a.expert
  ∃ l m tab s1 s2 s3, Reads i (rmKey d) key 32 false s l s1 ∧
    let e := DirEntry.ofBytes l
    let all := List.range e.clusters
    let some_ := a.mask ≠ 0 ∧ e.neuron = true
    e.invalid = false ∧ (∀ w off, a.kind = .toGa w off → off + e.decK * 4096 ≤ 0x1000000) ∧
    (some_ → Reads i (rmKey d) a.mask 32 false s1 m s2) ∧ (¬ some_ → m = [] ∧ s2 = s1) ∧
    (e.hasTable = true → Reads i (rmKey d) e.table (4 * (e.clusters + 1)) false s2 tab s3 ∧ e.tableInvalid (elems 4 tab) = false) ∧
    (e.hasTable = false → tab = [] ∧ s3 = s2) ∧
    s3.serve d a b e (elems 4 tab)
      (if a.mask ≠ 0 ∧ e.neuron = true then all.filter (fun c => ((m[c / 8]?).getD 0).getLsbD (c % 8)) else all) = some t

/-! ### Control registers -/

/-- A write of `v` at offset `off` reaches the register `r` at `ix`, its value is admitted, and its writer holds the role that it
needs, with room in the journal for its entry. -/
def WriteTaken (w : Writer) (off : Nat) (r : RegName) (ix : List Nat) (v : Nat) (s : State) : Prop :=
  s.writesShut w off = false ∧ s.reach w off = some (r, ix, false) ∧ s.regVerdict r ix v = .ok ∧
    match s.roleNeeded w r v with
    | none => r.info.role = none
    | some role => s.holds w role = true ∧ s.journalRoom (r.entries v) = true

/-- The state in which an accepted write of TEN_CMD runs its command: the write is journaled, and BUSY is set. -/
def tenCmdState (w : Writer) (v t : Nat) (s : State) : State :=
  let old := (s.rget .TEN_CMD []).toNat
  (s.journal ((writerAgent w).getD 0) Role.operator.num 0 (s.roleSlot w .operator) 0 0 (regDevAddr .TEN_CMD []) old
    (RegName.written .TEN_CMD old v)).tenCmdBegin t

/-- The reads of CREATE end OK: the words of the descriptor, the mask of its Blocks, the region tables with their pointers, and
the state that the reads leave. -/
def CreateReads (s : State) (words mask : List Byte) (heads : List (Nat × Nat)) (t : State) : Prop :=
  ∃ s1 s2, s.busRead deviceIssuer .rd (s.rget .TEN_ARG []).toNat 128 = (0, words, s1) ∧
    s1.busRead deviceIssuer .rd (bodyWord words 1) 128 = (0, mask, s2) ∧ s2.readHeaders (bodyWord words 5) = (some heads, t)

end Sys2Proof
end

