-- ==== Sys2Proof/Certificates/Slice0/Obligations.lean ====
section
/-! DEFINITION. The statements about this model, grouped as the commands are. In each, a command's premises are on the state and its
operands, and its conclusion is that the command answers a next state of which something holds. -/

open Sys2Proof Sys2Proof.Machine

/-- A step takes the command at the front of the queue and answers what that command does to the state with the queue's rest. -/
def Obligations.StepRunsTheFrontCommand : Prop :=
  ∀ (s : State) (c : Instr) (rest : List Instr),
    Machine.step { s with pending := c :: rest } = exec c { s with pending := rest }

/-- With an empty queue the block idles (assumption 1: the model's own choice). -/
def Obligations.EmptyQueueIdles : Prop :=
 ∀ s : State, s.pending = [] → Machine.step s = .next s

/-- R83, R84, in the 64-bit form: each ALU function writes its result to rd and the instruction changes nothing else.

R83, R84, in the 32-bit form: the function on bits [31:0], sign-extended.

R83: FUNC[10:7] not zero and every unlisted function raise ILLEGAL_INSTR at the instruction.

R82: so does every word whose opcode, or whose function of SYS or EVC, is reserved. -/
def Obligations.AluFunctionsFollowTheTable : Prop :=
 (∀ (c : CoreId) (rd ra rb : Fin 32) (s s1 : State), CoreIssues c s s1 →
    let a := (s1.core c).reg ra
    let b := (s1.core c).reg rb
    let n := b.toNat % 64
    let does := fun (f : BitVec 11) (v : W64) => Ends (.alu c rd ra rb (1, f)) s (CoreWrites c rd v (s1.core c).next s1)
    (does 0x00 (a + b) ∧ does 0x01 (a - b) ∧ does 0x02 (a &&& b) ∧ does 0x03 (a ||| b) ∧ does 0x04 (a ^^^ b)) ∧
    (does 0x05 (a <<< n) ∧ does 0x06 (a >>> n) ∧ does 0x07 (a.sshiftRight n)) ∧
    (does 0x08 (if a.slt b then 1 else 0) ∧ does 0x09 (if a.ult b then 1 else 0) ∧ does 0x0A (if a.slt b then a else b) ∧
      does 0x0B (if a.slt b then b else a) ∧ does 0x0C (if a.ult b then a else b) ∧ does 0x0D (if a.ult b then b else a)) ∧
    (does 0x10 (a * b) ∧ does 0x11 ((a.signExtend 128 * b.signExtend 128).extractLsb' 64 64) ∧
      does 0x12 ((a.setWidth 128 * b.setWidth 128).extractLsb' 64 64)) ∧
    (does 0x13 (if b = 0 then BitVec.allOnes 64 else a.sdiv b) ∧ does 0x14 (if b = 0 then BitVec.allOnes 64 else a / b) ∧
      does 0x15 (if b = 0 then a else a.srem b) ∧ does 0x16 (if b = 0 then a else a % b)) ∧
    (∀ k ≤ 64, (∀ i < k, a.getMsbD i = false) → (k < 64 → a.getMsbD k = true) → does 0x18 (BitVec.ofNat 64 k)) ∧
    (∀ k ≤ 64, (∀ i < k, a.getLsbD i = false) → (k < 64 → a.getLsbD k = true) → does 0x19 (BitVec.ofNat 64 k)) ∧
    does 0x1A (BitVec.ofNat 64 ((List.range 64).countP a.getLsbD)) ∧
    (∀ v : W64, (∀ i < 8, v.extractLsb' (8 * i) 8 = a.extractLsb' (8 * (7 - i)) 8) → does 0x1B v) ∧
    (b = BitVec.allOnes 64 → a = BitVec.intMin 64 → does 0x13 a ∧ does 0x15 0)) ∧
 (∀ (c : CoreId) (rd ra rb : Fin 32) (s s1 : State), CoreIssues c s s1 →
    let a := ((s1.core c).reg ra).setWidth 32
    let b := ((s1.core c).reg rb).setWidth 32
    let n := ((s1.core c).reg rb).toNat % 64
    let does := fun (f : BitVec 11) (v : W32) =>
      Ends (.alu c rd ra rb (1, f)) s (CoreWrites c rd (v.signExtend 64) (s1.core c).next s1)
    (does 0x40 (a + b) ∧ does 0x41 (a - b) ∧ does 0x42 (a &&& b) ∧ does 0x43 (a ||| b) ∧ does 0x44 (a ^^^ b)) ∧
    (does 0x45 (a <<< n) ∧ does 0x46 (a >>> n) ∧ does 0x47 (a.sshiftRight n)) ∧
    (does 0x48 (if a.slt b then 1 else 0) ∧ does 0x49 (if a.ult b then 1 else 0) ∧ does 0x4A (if a.slt b then a else b) ∧
      does 0x4B (if a.slt b then b else a) ∧ does 0x4C (if a.ult b then a else b) ∧ does 0x4D (if a.ult b then b else a)) ∧
    (does 0x51 ((a.signExtend 64 * b.signExtend 64).extractLsb' 32 32) ∧
      does 0x52 ((a.setWidth 64 * b.setWidth 64).extractLsb' 32 32)) ∧
    (does 0x50 (a * b) ∧ does 0x53 (if b = 0 then BitVec.allOnes 32 else a.sdiv b) ∧
      does 0x54 (if b = 0 then BitVec.allOnes 32 else a / b) ∧ does 0x55 (if b = 0 then a else a.srem b) ∧
      does 0x56 (if b = 0 then a else a % b)) ∧
    (∀ k ≤ 32, (∀ i < k, a.getMsbD i = false) → (k < 32 → a.getMsbD k = true) → does 0x58 (BitVec.ofNat 32 k)) ∧
    (∀ k ≤ 32, (∀ i < k, a.getLsbD i = false) → (k < 32 → a.getLsbD k = true) → does 0x59 (BitVec.ofNat 32 k)) ∧
    does 0x5A (BitVec.ofNat 32 ((List.range 32).countP a.getLsbD)) ∧
    (∀ v : W32, (∀ i < 4, v.extractLsb' (8 * i) 8 = a.extractLsb' (8 * (3 - i)) 8) → does 0x5B v) ∧
    (b = BitVec.allOnes 32 → a = BitVec.intMin 32 → does 0x53 a ∧ does 0x55 0)) ∧
 (∀ (c : CoreId) (rd ra rb : Fin 32) (f : BitVec 11) (s s1 : State), CoreIssues c s s1 →
    (f.toNat / 128 ≠ 0 ∨ f.toNat % 64 ∈ [0x0E, 0x0F, 0x17] ∨ 0x1C ≤ f.toNat % 64) →
    EndsAs (.alu c rd ra rb (1, f)) s (s1.trap c .illegal (s1.core c).pc 0)) ∧
 (∀ (c : CoreId) (op : BitVec 6) (rd ra rb : Fin 32) (f : BitVec 11) (s s1 : State), CoreIssues c s s1 →
    op.toNat ∈ [0x00, 0x0B, 0x0C, 0x0D, 0x0E, 0x0F, 0x17, 0x1D, 0x1E, 0x1F, 0x26, 0x27, 0x2A, 0x2B, 0x2C, 0x2D, 0x2E, 0x2F, 0x35,
      0x36, 0x37, 0x3A, 0x3B, 0x3C, 0x3D, 0x3E, 0x3F] ∨ (op = 0x30 ∧ (f = 4 ∨ 7 ≤ f.toNat)) ∨ (op = 0x39 ∧ 3 ≤ f.toNat) →
    EndsAs (.alu c rd ra rb (op, f)) s (s1.trap c .illegal (s1.core c).pc 0))

/-- R82: the immediate forms.

R82: a must-be-zero field that is not zero, and an unlisted shift, raise ILLEGAL_INSTR at the instruction. -/
def Obligations.ImmediateFormsAndMalformedFields : Prop :=
 (∀ (c : CoreId) (rd ra : Fin 32) (imm : BitVec 16) (s s1 : State), CoreIssues c s s1 →
    let a := (s1.core c).reg ra
    let x := imm.signExtend 64
    let z := imm.setWidth 64
    let does := fun (i : Instr) (v : W64) => Ends i s (CoreWrites c rd v (s1.core c).next s1)
    does (.addi c rd ra imm) (a + x) ∧ does (.andi c rd ra imm) (a &&& z) ∧ does (.ori c rd ra imm) (a ||| z) ∧
    does (.xori c rd ra imm) (a ^^^ z) ∧ does (.slti c rd ra imm) (if a.slt x then 1 else 0) ∧
    does (.sltiu c rd ra imm) (if a.ult x then 1 else 0) ∧
    (∀ n : BitVec 6, does (.shifti c rd ra (n.setWidth 16)) (a <<< n.toNat) ∧
      does (.shifti c rd ra (n.setWidth 16 ||| 0x40)) (a >>> n.toNat) ∧
      does (.shifti c rd ra (n.setWidth 16 ||| 0x80)) (a.sshiftRight n.toNat)) ∧
    does (.lui c rd 0 imm) ((imm ++ (0 : BitVec 16)).signExtend 64) ∧
    (∀ h : Fin 4, ∃ v : W64, does (.insk c rd ⟨h.val, by omega⟩ imm) v ∧ v.extractLsb' (16 * h.val) 16 = imm ∧
      ∀ i < 64, i / 16 ≠ h.val → v.getLsbD i = ((s1.core c).reg rd).getLsbD i)) ∧
 (∀ (c : CoreId) (rd ra rb : Fin 32) (s s1 : State), CoreIssues c s s1 →
    let traps := fun (i : Instr) => EndsAs i s (s1.trap c .illegal (s1.core c).pc 0)
    (∀ imm : BitVec 16, 0xC0 ≤ imm.toNat → traps (.shifti c rd ra imm)) ∧
    (∀ imm : BitVec 16, ra ≠ 0 → traps (.lui c rd ra imm)) ∧
    (∀ imm : BitVec 16, 4 ≤ ra.val → traps (.insk c rd ra imm)) ∧
    (∀ imm : BitVec 16, ra ≠ 0 → traps (.csrr c rd ra imm)) ∧
    (∀ imm : BitVec 16, rd ≠ 0 → traps (.csrw c rd ra imm)) ∧
    (∀ (imm : BitVec 16) (e : Bool) (now : Nat) (s2 : State), 4 ≤ rd.val → CoreIssues c (s.at now) s2 →
      EndsAs (.cache c rd ra imm e now) s (s2.trap c .illegal (s2.core c).pc 0)) ∧
    ((rd ≠ 0 ∨ ra ≠ 0 ∨ rb ≠ 0) → traps (.syscall c rd ra rb) ∧ traps (.sret c rd ra rb) ∧ traps (.fence c rd ra rb) ∧
      traps (.wfi c rd ra rb) ∧ traps (.brk c rd ra rb)) ∧
    ((rd ≠ 0 ∨ rb ≠ 0) → traps (.stepend c rd ra rb)))

/-- R82: a branch whose registers compare as named goes to its own address plus four times its signed offset, and to the next
instruction otherwise; JAL and JALR write the return address and jump; a JALR target that is not 4 B aligned raises MISALIGNED (R85)
and writes nothing.

R88: when the predictor was right, nothing else changes. When it was wrong, the wrong path executes at most 24 instructions first,
adds their number to WRONG_PATH_FETCH and one to MISPREDICT, and the branch or jump then goes the same way. A wrong path that asks
for no line changes nothing else. -/
def Obligations.BranchesAndJumpsMoveThePc : Prop :=
 (∀ (c : CoreId) (rd ra rb : Fin 32) (off imm : BitVec 16) (far : BitVec 26) (wrong : Fin 25 × List Nat × List Nat) (s s1 : State),
    CoreIssues c s s1 →
    let k := s1.core c
    let a := k.reg ra
    let b := k.reg rb
    let to_ := (BitVec.ofNat 64 k.pc + off.signExtend 64 * 4).toNat
    let jumps := fun (i : Instr) (rd : Nat) (link : W64) (pc : Nat) =>
      Ends i s (CoreJumps c rd link pc
        (if Config.predicted k.branches k.pc = pc then s1 else s1.wrongPath c wrong.1 wrong.2.1 wrong.2.2))
    let goes := fun (cc : Fin 6) (p : Prop) =>
      (p → jumps (.branch c cc ra rb off wrong) 0 0 to_) ∧ (¬ p → jumps (.branch c cc ra rb off wrong) 0 0 k.next)
    goes 0 (a = b) ∧ goes 1 (a ≠ b) ∧ goes 2 (a.toInt < b.toInt) ∧ goes 3 (b.toInt ≤ a.toInt) ∧ goes 4 (a.toNat < b.toNat) ∧
    goes 5 (b.toNat ≤ a.toNat) ∧
    jumps (.jal c (far, wrong)) 31 (BitVec.ofNat 64 k.next) (BitVec.ofNat 64 k.pc + far.signExtend 64 * 4).toNat ∧
    ((a + imm.signExtend 64).toNat % 4 = 0 →
      jumps (.jalr c rd ra (imm, wrong)) rd (BitVec.ofNat 64 k.next) (a + imm.signExtend 64).toNat) ∧
    ((a + imm.signExtend 64).toNat % 4 ≠ 0 →
      EndsAs (.jalr c rd ra (imm, wrong)) s (s1.trap c .misaligned k.pc (a + imm.signExtend 64)))) ∧
 (∀ (c n : Nat) (s : State), CoreOnly c s (s.wrongPath c n [] []) ∧ (s.wrongPath c n [] []).core c = { s.core c with
    wrongPath := (s.core c).wrongPath + n, mispredict := (s.core c).mispredict + 1 })

/-- R76: SYSCALL of a defined call at L0 enters L1 at TVEC with EPC at the next instruction; every other SYSCALL is an exception
(R77). SRET above L0 restores the level and IE and resumes at EPC, in WFI where a DCC returns to L0 outside a step (R91); at L0 it
raises PRIVILEGE.

R76, R77: an exception of a DCC at L0 whose TVEC is aligned saves PC, level and IE, takes its cause and enters L1 at TVEC;
the service runtime ends the step as a discard with the cause code, unless the District had asked for another. An exception at L1 or
on a CCC latches the termination of the chip's jobs and leaves the core as it was.

R76, R453: a raised request is taken at an instruction boundary of a running core, at L0 always and above it with IE set: it enters
L1 (a CCC stays at L2) with EPC at the instruction that comes next. -/
def Obligations.LevelChangesAndTrapEntry : Prop :=
 (∀ (c : CoreId) (s s1 : State), CoreIssues c s s1 →
    let k := s1.core c
    let saved := { k.abort with ie := false, prevLevel := k.level, prevIe := true, epc := BitVec.ofNat 64 k.next, cause := 6,
                                badaddr := 0, pc := k.tvec.toNat, lastPc := k.pc, retired := k.retired + 1, wait := .none }
    (k.level = 0 → c.val < 4 → k.tvec.toNat % 4 = 0 → Config.syscallDefined (k.reg 10) = true →
      Ends (.syscall c 0 0 0) s fun t => CoreOnly c s1 t ∧ t.core c = { saved with level := 1 }) ∧
    ((k.level ≠ 0 ∨ 4 ≤ c.val ∨ k.tvec.toNat % 4 ≠ 0 ∨ Config.syscallDefined (k.reg 10) = false) →
      EndsAs (.syscall c 0 0 0) s (s1.trap c .syscall k.next 0)) ∧
    (k.level ≠ 0 → Ends (.sret c 0 0 0) s fun t => CoreOnly c s1 t ∧
        t.core c = { k with level := if 4 ≤ c.val then 2 else min k.prevLevel 1, ie := k.prevIe, pc := k.epc.toNat, lastPc := k.pc,
                            retired := k.retired + 1,
                            wait := if c.val < 4 ∧ k.prevLevel = 0 ∧ k.inStep = false then .wfi else .none }) ∧
    (k.level = 0 → EndsAs (.sret c 0 0 0) s (s1.trap c .privilege k.pc 0))) ∧
 (∀ (c : CoreId) (e : Exc) (epc : Nat) (bad : W64) (s : State),
    let k := s.core c
    (c.val < 4 → k.level = 0 → k.tvec.toNat % 4 = 0 → s.stepTakes k.ten = true → ∀ r0, s.run k.ten = some r0 →
      let t := s.trap c e epc bad
      (t.core c).level = 1 ∧ (t.core c).ie = false ∧ (t.core c).prevLevel = 0 ∧ (t.core c).prevIe = true ∧
      (t.core c).epc = BitVec.ofNat 64 epc ∧ (t.core c).cause = BitVec.ofNat 64 e.num ∧ (t.core c).badaddr = bad ∧
      (t.core c).pc = k.tvec.toNat ∧ (t.core c).inStep = false ∧ (t.core c).g = k.g ∧
      ∃ r, t.run k.ten = some r ∧ c.val ∈ r.stepends ∧
        KMap.get none r.discards c.val = some ((KMap.get none r0.discards c.val).getD e.num)) ∧
    ((4 ≤ c.val ∨ k.level ≠ 0) → s.fget F.RIDGE_STATUS_STATE [] ≠ 2 →
      (s.trap c e epc bad).ridge.terminate = true ∧ (s.trap c e epc bad).core c = k)) ∧
 (∀ (c : CoreId) (s : State),
    let k := s.core c
    s.fget F.CORE_CTRL_RUN [c.val] = 1 → s.stopped = false → s.tick.suspending = none → k.halted = false → k.wait ≠ .access →
    (s.winner c (s.fget F.THRESHOLD_LEVEL [c.val])).isSome = true → (k.level = 0 ∨ k.ie = true) → k.tvec.toNat % 4 = 0 →
    Ends (.interruptTake c) s fun t => CoreOnly c s t ∧
      t.core c = { k.abort with level := if c.val < 4 then 1 else 2, ie := false, prevLevel := k.level,
                                prevIe := k.ie || k.level == 0, epc := BitVec.ofNat 64 k.pc, cause := 0x10, badaddr := 0,
                                pc := k.tvec.toNat, wait := .none })

/-- R86, R91, R92, R77: FENCE goes on only when no access is outstanding, WFI waits, STEPEND ends the DCC's part of the step with
its status, and BREAK halts a DCC under HALT_REQ and is an exception elsewhere.

R82, R103: EVRD reads an event counter of the core's District, EVADD adds to it and saturates, and EVWAIT stalls until it
reaches rb. -/
def Obligations.WaitsStepEndAndEventCounters : Prop :=
 (∀ (c : CoreId) (ra : Fin 32) (s s1 : State), CoreIssues c s s1 →
    let k := s1.core c
    (k.reqs = [] → Ends (.fence c 0 0 0) s (CoreRetires c k.next s1)) ∧
    (k.reqs ≠ [] → EndsAs (.fence c 0 0 0) s s1) ∧
    (Ends (.wfi c 0 0 0) s fun t => CoreOnly c s1 t ∧
      t.core c = { k with lastPc := k.pc, pc := k.next, retired := k.retired + 1, wait := .wfi }) ∧
    (∀ r, c.val < 4 → k.level = 0 → k.reqs = [] → s1.run k.ten = some r →
      Ends (.stepend c 0 ra 0) s fun t => ∃ r', t.run k.ten = some r' ∧ c.val ∈ r'.stepends ∧ (t.core c).inStep = false ∧
        (t.core c).wait = .wfi ∧ (t.core c).pc = k.next ∧ t.mem = s1.mem ∧ t.regs = s1.regs ∧
        (k.reg ra = 0 → r'.discards = r.discards) ∧
        (k.reg ra ≠ 0 → KMap.get none r.discards c.val = none →
          KMap.get none r'.discards c.val = some ((k.reg ra).toNat % 2 ^ 16))) ∧
    ((4 ≤ c.val ∨ k.level ≠ 0) → EndsAs (.stepend c 0 ra 0) s (s1.trap c .privilege k.pc 0)) ∧
    (c.val < 4 → s1.fget F.CORE_CTRL_HALT_REQ [c.val] = 1 → Ends (.brk c 0 0 0) s fun t => CoreOnly c s1 t ∧
      t.core c = { k with halted := true }) ∧
    ((4 ≤ c.val ∨ s1.fget F.CORE_CTRL_HALT_REQ [c.val] ≠ 1) → EndsAs (.brk c 0 0 0) s (s1.trap c .brk k.pc 0))) ∧
 (∀ (c : CoreId) (rd ra rb : Fin 32) (s s1 : State), CoreIssues c s s1 → c.val < 4 →
    let k := s1.core c
    let i := (k.reg ra).toNat % 1024
    let n := (k.reg rb).toNat % 2 ^ 32
    let x := s1.fget F.EVC_VALUE [c.val, i]
    (Ends (.evrd c rd ra) s (CoreWrites c rd (BitVec.ofNat 64 x) k.next s1)) ∧
    (Ends (.evadd c ra rb) s fun t => t.fget F.EVC_VALUE [c.val, i] = min (x + n) (2 ^ 32 - 1) ∧
      CoreRetires c k.next s1 { t with regs := s1.regs } ∧
      ∀ a, a ≠ RegName.addr .EVC [c.val, i] → KMap.get 0 t.regs a = KMap.get 0 s1.regs a) ∧
    (n ≤ x → Ends (.evwait c ra rb) s (CoreRetires c k.next s1)) ∧
    (x < n → Ends (.evwait c ra rb) s fun t => CoreOnly c s1 t ∧ t.core c = { k with wait := .evwait i n }))

/-- R75: what CSRR reads from each core control register at the level that allows it, and ILLEGAL_INSTR elsewhere.

R75: what CSRW writes to each core control register, the exchange of CSRX, and ILLEGAL_INSTR where the level allows no write:
then the register is unchanged by the instruction. -/
def Obligations.CoreControlRegisterAccess : Prop :=
 (∀ (c : CoreId) (rd : Fin 32) (s s1 : State), CoreIssues c s s1 →
    let k := s1.core c
    let reads := fun (n : BitVec 16) (v : W64) =>
      Ends (.csrr c rd 0 n) s (CoreWrites c rd v k.next s1)
    (reads 0x000 (BitVec.ofNat 64 (k.level + (if k.ie ∨ k.level = 0 then 4 else 0) + k.prevLevel * 8 +
      (if k.prevIe then 32 else 0)))) ∧
    (k.level ≠ 0 → reads 0x001 k.tvec ∧ reads 0x002 k.epc ∧ reads 0x003 k.cause ∧ reads 0x004 k.badaddr ∧
      reads 0x005 k.scratch) ∧
    reads 0x006 (BitVec.ofNat 64 (k.errCount * 2 ^ 48 + k.errCode % 256 * 2 ^ 40 + k.errAddr % 2 ^ 40)) ∧
    (∀ v r, s1.tick.cur ≠ 0 → s1.ten s1.tick.cur = some v → s1.run s1.tick.cur = some r → c.val < 4 → c.val ∈ v.districts →
      r.entered = true → r.ended = none → reads 0x010 (BitVec.ofNat 64 s1.tick.cur)) ∧
    (s1.run s1.tick.cur = none → reads 0x010 0) ∧ reads 0x011 (BitVec.ofNat 64 k.step) ∧ reads 0x012 (BitVec.ofNat 64 k.batten) ∧
    reads 0x020 (BitVec.ofNat 64 ((s1.ridge.cycles - k.bornCycles) / 80)) ∧ reads 0x021 (BitVec.ofNat 64 k.retired) ∧ reads 0x022 (BitVec.ofNat 64 k.wrongPath) ∧
    reads 0x023 (BitVec.ofNat 64 k.mispredict) ∧ reads 0x024 (BitVec.ofNat 64 k.dmiss) ∧
    reads 0x025 (BitVec.ofNat 64 k.imiss) ∧ reads 0x030 (BitVec.ofNat 64 c.val) ∧
    (∀ n ∈ [(1 : BitVec 16), 2, 3, 4, 5], k.level = 0 → EndsAs (.csrr c rd 0 n) s (s1.trap c .illegal k.pc 0)) ∧
    (∀ n : BitVec 16, n.toNat % 4096 ∉ [0, 1, 2, 3, 4, 5, 6, 0x010, 0x011, 0x012, 0x020, 0x021, 0x022, 0x023, 0x024, 0x025, 0x030] →
      EndsAs (.csrr c rd 0 n) s (s1.trap c .illegal k.pc 0))) ∧
 (∀ (c : CoreId) (rd ra : Fin 32) (s s1 : State), CoreIssues c s s1 →
    let k := s1.core c
    let v := k.reg ra
    let goes := fun (k' : CoreSt) => { k' with lastPc := k.pc, pc := k.next, retired := k.retired + 1 }
    let writes := fun (n : BitVec 16) (k' : CoreSt) =>
      (Ends (.csrw c 0 ra n) s fun t => CoreOnly c s1 t ∧ t.core c = goes k') ∧
      (∀ old, s1.csr c n.toNat = some old → Ends (.csrx c rd ra n) s fun t => CoreOnly c s1 t ∧
        t.core c = { goes k' with g := (t.core c).g } ∧
        ∀ i, (t.core c).reg i = if i = rd.val ∧ rd.val ≠ 0 then old else k.reg i)
    let refuses := fun (n : BitVec 16) => EndsAs (.csrw c 0 ra n) s (s1.trap c .illegal k.pc 0) ∧
      EndsAs (.csrx c rd ra n) s (s1.trap c .illegal k.pc 0)
    (k.level ≠ 0 →
      writes 0x000 { k with ie := v.getLsbD 2, prevLevel := (v.extractLsb' 3 2).toNat, prevIe := v.getLsbD 5 } ∧
      writes 0x001 { k with tvec := v } ∧ writes 0x002 { k with epc := v } ∧ writes 0x003 { k with cause := v } ∧
      writes 0x004 { k with badaddr := v } ∧ writes 0x005 { k with scratch := v }) ∧
    ((k.level ≠ 0 ∨ v = 0) → writes 0x006 { k with
      errCount := v.toNat / 2 ^ 48, errCode := v.toNat / 2 ^ 40 % 256, errAddr := v.toNat % 2 ^ 40 }) ∧
    (k.level = 0 → v ≠ 0 → refuses 0x006) ∧
    (∀ n ∈ [(0x000 : BitVec 16), 0x001, 0x002, 0x003, 0x004, 0x005], k.level = 0 → refuses n) ∧
    (∀ n : BitVec 16, 7 ≤ n.toNat % 4096 → refuses n))

/-- R82, R85, R87: a load of a local place writes the bytes read, extended to 64 bits; one that fails there raises ACCESS_ERROR or
BOUNDS with rd unchanged; a misaligned one raises MISALIGNED and reads nothing. While an earlier access of the core to the line is
outstanding, or its line waits in the memory shaper, it is given again. A load beyond the device, or of T3 (R294), is sent and the core
waits; when its response comes it ends in the same way, and one that ends FENCED writes zero and is recorded in ERRSTAT.

R87: ERRSTAT keeps the status and address of the first failure and counts each one, saturating. -/
def Obligations.LoadsExtendAndRecordFailures : Prop :=
 (∀ (c : CoreId) (op : Fin 7) (rd ra : Fin 32) (imm : BitVec 16) (ecc : Fin 3) (now : Nat) (s s1 : State),
    CoreIssues c (s.at now) s1 →
    let k := s1.core c
    let a := (k.reg ra + imm.signExtend 64).toNat
    let n := [1, 1, 2, 2, 4, 4, 8][op.val]!
    let i := Instr.load c op rd ra imm ecc now
    let acc := CoreAcc.load rd a n (op.val ∈ [0, 2, 4, 6])
    (a % n ≠ 0 → EndsAs i s (s1.trap c .misaligned k.pc (BitVec.ofNat 64 a))) ∧
    (a % n = 0 → reqMeets k.reqs a n = true → EndsAs i s s1) ∧
    (a % n = 0 → reqMeets k.reqs a n = false →
      (∀ t ph s2, s1.check (s1.coreIssuer c) .rd a = (0, some (.mem t ph), s2) →
        (∀ l s3, s2.coreRead c t a ph n ecc acc = (some (0, l), s3) →
          Ends i s (CoreWrites c rd (if op.val ∈ [0, 2, 4] then (BitVec.ofNat (8 * n) (leNat l)).signExtend 64
            else (BitVec.ofNat (8 * n) (leNat l)).setWidth 64) (s3.core c).next s3)) ∧
        (∀ st l s3, s2.coreRead c t a ph n ecc acc = (some (st, l), s3) → st ≠ 0 → st ≠ 0x14 →
          EndsAs i s (s3.trap c (if st = 0x11 then .bounds else .access) (s3.core c).pc
            (BitVec.ofNat 64 (if st = 0x11 then a else st))))) ∧
      (∀ t ph s2 s3, s1.check (s1.coreIssuer c) .rd a = (0, some (.mem t ph), s2) → s2.coreRead c t a ph n ecc acc = (none, s3) →
        EndsAs i s s3) ∧
      (∀ pl s2, s1.check (s1.coreIssuer c) .rd a = (0, some pl, s2) → (∃ m o, pl = .rack m o ∨ pl = .beyond m o) →
        EndsAs i s (s2.coreSend c pl .read n [] (.load rd a n (op.val ∈ [0, 2, 4, 6])) true)) ∧
      (∀ off s2, s1.check (s1.coreIssuer c) .rd a = (0, some (.ctl off), s2) →
        let v := (s2.regRead (.core c) off n).1
        Ends i s (CoreWrites c rd (if op.val ∈ [0, 2, 4] then (BitVec.ofNat (8 * n) v).signExtend 64
          else (BitVec.ofNat (8 * n) v).setWidth 64) ((s2.regRead (.core c) off n).2.core c).next
          (s2.regRead (.core c) off n).2)) ∧
      (∀ s2, s1.check (s1.coreIssuer c) .rd a = (0x14, none, s2) →
        Ends i s (CoreWrites c rd 0 (s2.core c).next (s2.recordErr c 0x14 a))) ∧
      (∀ st p s2, s1.check (s1.coreIssuer c) .rd a = (st, p, s2) → st ≠ 0 → st ≠ 0x14 →
        EndsAs i s (s2.trap c (if st = 0x11 then .bounds else .access) (s2.core c).pc
          (BitVec.ofNat 64 (if st = 0x11 then a else st)))))) ∧
 (∀ (c : CoreId) (n now : Nat) (r : CoreReq) (id rd a m : Nat) (sg flash : Bool) (st : Nat) (l : List Byte) (s : State),
    let s0 := s.at now
    let gone := if flash then s0.nvmeDrop id else s0.fabDrop id
    let sd := (gone.updCore c (fun k => { k with reqs := k.reqs.eraseIdx n })).updCore c (fun k => { k with wait := .none })
    (s0.core c).reqs[n]? = some r → r.acc = .load rd a m sg → r.tag = (if flash then none else some id) →
    (flash = true → r.nvme = some id) → (if flash then s0.nvmeResult id else s0.fabResult id) = some (st, l) →
    (st = 0 → Ends (.coreAccessComplete c n now) s
      (CoreWrites c rd (extendLoad m sg (leNat (l.take m))) (sd.core c).next sd)) ∧
    (st = 0x14 → Ends (.coreAccessComplete c n now) s (CoreWrites c rd 0 (sd.core c).next (sd.recordErr c 0x14 a))) ∧
    (st ≠ 0 → st ≠ 0x14 → EndsAs (.coreAccessComplete c n now) s (sd.trap c (if st = 0x11 then .bounds else .access) (sd.core c).pc
      (BitVec.ofNat 64 (if st = 0x11 then a else st))))) ∧
 (∀ (c ph n : Nat) (acc : CoreAcc) (s s1 : State), (∀ x, s.t3Access (s.coreIssuer c) false ph n [] true = (.inl x, s1) →
      s.coreFlash c ph n acc = (some x, s1)) ∧
    ∀ id, s.t3Access (s.coreIssuer c) false ph n [] true = (.inr id, s1) → s.coreFlash c ph n acc = (none, s1.updCore c fun k => { k with
      reqs := k.reqs ++ [{ acc := acc, ten := (s.coreIssuer c).ten, tag := none, nvme := some id }], wait := .access })) ∧
 (∀ (c st a : Nat) (s : State), CoreOnly c s (s.recordErr c st a) ∧
    (s.recordErr c st a).core c = { s.core c with
      errCount := min ((s.core c).errCount + 1) 0xFFFF,
      errCode := if (s.core c).errCount = 0 then st else (s.core c).errCode,
      errAddr := if (s.core c).errCount = 0 then a % 2 ^ 40 else (s.core c).errAddr })

/-- R82, R85, R86: a store retires at once, and a misaligned one raises MISALIGNED. To a line that the data cache holds it changes that
line, which becomes dirty; elsewhere in local memory, where the cache does not take it, and in a control register it joins the
core's outstanding accesses until it completes; beyond the device it is sent. A bounds violation is an exception.

R86, R298: a posted access joins the outstanding accesses last, and asks the memory shaper of its Tenancy; one that is not shaped
waits for nothing.

R86, R87: an outstanding store that has left its memory shaper and that no earlier access to its line is before reaches its place, or
is recorded in ERRSTAT.

R258, R359: bytes written to an on-chip memory read back as written, and every other byte reads as before.

R258, R260: a store of T1 outside sealed ranges and agent-state pages, over good words of a slot in service, stores its bytes
and changes no other byte of memory. -/
def Obligations.StoresArePostedAndStoreTheirBytes : Prop :=
 (∀ (c : CoreId) (sz : Fin 4) (rd ra : Fin 32) (imm : BitVec 16) (ecc : Fin 3) (now : Nat) (s s1 : State),
    CoreIssues c (s.at now) s1 →
    let k := s1.core c
    let a := (k.reg ra + imm.signExtend 64).toNat
    let n := 2 ^ sz.val
    let v := k.reg rd
    let i := Instr.store c sz rd ra imm ecc now
    (a % n ≠ 0 → EndsAs i s (s1.trap c .misaligned k.pc (BitVec.ofNat 64 a))) ∧
    (a % n = 0 → ∀ t ph s2, s1.check (s1.coreIssuer c) .wr a = (0, some (.mem t ph), s2) → s2 = s1 ∧
      ((s1.cacheable c a = false ∨ reqMeets k.reqs a n = true ∨ (s1.findLine c a = none ∧ Config.storeAllocates s1.free = false)) →
        EndsAs i s (((s1.tickFree.ownLineOut c a).post c (.store a n v) (s1.coreIssuer c).ten t ph n).retire c k.next)) ∧
      (s1.cacheable c a = true → reqMeets k.reqs a n = false → s1.findLine c a = none → Config.storeAllocates s1.free = true →
        ∀ q, s1.coreShaped c t (lineOf ph) 128 false = (true, q) → EndsAs i s ((q.cacheStore c a n v ecc).retire c k.next)) ∧
      (∀ l, s1.cacheable c a = true → reqMeets k.reqs a n = false → s1.findLine c a = some l → ecc.val ≠ 2 →
        Ends i s fun u => CoreOnly c s1 u ∧ u.core c = { k with
          dcache := k.dcache.map (fun x => if x.line = l.line then x.put a (leBytes n v.toNat) else x),
          lastPc := k.pc, pc := k.next, retired := k.retired + 1 })) ∧
    (a % n = 0 → ∀ off s2, s1.check (s1.coreIssuer c) .wr a = (0, some (.ctl off), s2) → Ends i s fun u =>
        CoreOnly c s2 u ∧ u.core c = { s2.core c with
          reqs := (s2.core c).reqs ++ [{ acc := .store a n v, ten := (s2.coreIssuer c).ten, tag := none }], lastPc := (s2.core c).pc,
          pc := (s2.core c).next, retired := (s2.core c).retired + 1 }) ∧
    (a % n = 0 → ∀ pl s2, s1.check (s1.coreIssuer c) .wr a = (0, some pl, s2) → (∃ m o, pl = .rack m o ∨ pl = .beyond m o) →
      EndsAs i s ((s2.coreSend c pl .write n (leBytes n v.toNat) (.store a n v) false).retire c k.next)) ∧
    (a % n = 0 → ∀ s2, s1.check (s1.coreIssuer c) .wr a = (0x11, none, s2) →
      EndsAs i s (s2.trap c .bounds (s2.core c).pc (BitVec.ofNat 64 a)))) ∧
 (∀ (c : Nat) (acc : CoreAcc) (ten : Nat) (t : Tier) (ph n : Nat) (s : State),
    let q := s.shaped (s.coreIssuer c) t ph n true (2 ^ 54 + s.nextJob)
    ((s.post c acc ten t ph n).core c).reqs = (q.2.core c).reqs ++
      [{ acc := acc, ten := ten, tag := none, key := if q.1 then 0 else 2 ^ 54 + s.nextJob }] ∧
    (s.shapeBucket (s.coreIssuer c) t = none → q = (true, s))) ∧
 (∀ (c : CoreId) (n now a m : Nat) (r : CoreReq) (v : W64) (s : State),
    let s0 := s.at now
    let k := s0.core c
    let i : Issuer := { s0.coreIssuer c with ten := r.ten }
    let sd := (s0.shapeTaken r.key).updCore c (fun k => { k with reqs := k.reqs.eraseIdx n })
    k.reqs[n]? = some r → r.acc = .store a m v → r.tag = none → s0.stopped = false → reqMeets (k.reqs.take n) a m = false →
    s0.reqFree r = true →
    ∀ t ph s1, sd.check i .wr a = (0, some (.mem t ph), s1) →
    ∀ st s2, (s1.dropLine c a).tierWrite i t ph (leBytes m v.toNat) = (st, s2) →
      EndsAs (.coreAccessComplete c n now) s (if st = 0 then s2 else s2.recordErr c st a)) ∧
 (∀ (s : State) (i : Issuer) (t : Tier) (a : Nat) (l : List Byte),
    (match t with | .square _ => True | .spad _ => True | .ga _ => True | .resram _ => True | _ => False) →
    s.badIn 8 a l.length = [] → s.weakIn 8 a l.length = [] → ∃ u, s.tierWrite i t a l = (0, u) ∧ u.rawRead a l.length = l ∧
      (∀ x, x < a ∨ a + l.length ≤ x → u.byte x = s.byte x) ∧ u.regs = s.regs ∧ u.tens = s.tens ∧ u.cores = s.cores) ∧
 (∀ (s : State) (i : Issuer) (a : Nat) (l : List Byte), l ≠ [] →
    s.isSealed a l.length = false → s.regionOf a = none → s.regionPrivate a = false → a < t2Base →
    a < s.t1Top → s.t1.lost = [] → s.badIn 32 a l.length = [] → s.weakIn 32 a l.length = [] →
    ∃ u, s.tierWrite i .t1 a l = (0, u) ∧ u.rawRead a l.length = l ∧
      (∀ x, x < a ∨ a + l.length ≤ x → u.byte x = s.byte x) ∧ u.regs = s.regs ∧ u.cores = s.cores)

/-- R82: what each atomic stores, from the old value and its operand, and CAS.

R82, R85, R87: an AMO to local memory returns the old value and stores what the operation gives; CAS with another value in memory
stores nothing; protected memory refuses every one with READ_ONLY (R270, R285); that, or a failure of the read or the write, raises
ACCESS_ERROR, with rd unchanged. An AMO to a control register reads and
writes it. An AMO beyond the device is sent, and its response returns the old value. An operation that is not listed raises
ILLEGAL_INSTR, a misaligned address MISALIGNED. While an earlier access to the line is outstanding, the AMO waits in the memory
shaper, or the core's own line of it leaves the cache (assumption 21: the model's choice), the AMO is given again. -/
def Obligations.AtomicsReturnTheOldValue : Prop :=
 (∀ (n : Nat) (old v cmp : Nat), n = 4 ∨ n = 8 → old < 2 ^ (8 * n) → v < 2 ^ (8 * n) →
    let s := fun x : Nat => (BitVec.ofNat (8 * n) x).toInt
    atomicOp 0 n old v cmp = v ∧ atomicOp 1 n old v cmp = (old + v) % 2 ^ (8 * n) ∧ atomicOp 2 n old v cmp = old &&& v ∧
    atomicOp 3 n old v cmp = old ||| v ∧ atomicOp 4 n old v cmp = old ^^^ v ∧
    atomicOp 5 n old v cmp = (if s old ≤ s v then old else v) ∧ atomicOp 6 n old v cmp = (if s old ≤ s v then v else old) ∧
    atomicOp 7 n old v cmp = min old v ∧ atomicOp 8 n old v cmp = max old v ∧
    atomicOp 9 n old v cmp = (if old = cmp % 2 ^ (8 * n) then v else old)) ∧
 (∀ (c : CoreId) (rd ra rb : Fin 32) (op : Fin 10) (w : Bool) (now : Nat) (s s1 : State), CoreIssues c (s.at now) s1 →
    let k := s1.core c
    let a := (k.reg ra).toNat
    let n := if w then 4 else 8
    let f : BitVec 11 := BitVec.ofNat 11 (op.val + if w then 1024 else 0)
    let i := Instr.amo c rd ra rb f now
    let v := (k.reg rb).toNat
    let cmp := (k.reg rd).toNat
    let fails := fun (st : Nat) (u : State) => EndsAs i s (u.trap c (if st = 0x11 then .bounds else .access) (u.core c).pc
      (BitVec.ofNat 64 (if st = 0x11 then a else st)))
    (a % n ≠ 0 → EndsAs i s (s1.trap c .misaligned k.pc (BitVec.ofNat 64 a))) ∧
    (a % n = 0 → reqMeets k.reqs a n = true → EndsAs i s s1) ∧
    (a % n = 0 → reqMeets k.reqs a n = false →
      (∀ t ph s2, s1.check (s1.coreIssuer c) .atomic a = (0, some (.mem t ph), s2) →
        (∀ l, s2.findLine c a = some l → EndsAs i s (s2.ownLineOut c a)) ∧
        (s2.findLine c a = none → ∀ s3, s2.coreShaped c t ph n true = (false, s3) → EndsAs i s s3) ∧
        (s2.findLine c a = none → ∀ s3, s2.coreShaped c t ph n true = (true, s3) → s3.writeBarred (s1.coreIssuer c) t ph n = true →
          fails 0x17 (s3.protectedStore (s1.coreIssuer c).ten ph)) ∧
        (s2.findLine c a = none → ∀ s3, s2.coreShaped c t ph n true = (true, s3) → t ≠ .t3 →
          s3.writeBarred (s1.coreIssuer c) t ph n = false → ∀ st l s4, s3.tierRead (s1.coreIssuer c).ten t ph n = (st, l, s4) →
          let old := leNat l
          (st ≠ 0 → st ≠ 0x14 → fails st s4) ∧
          (st = 0 → op.val = 9 → old ≠ cmp % 2 ^ (8 * n) →
            Ends i s (CoreWrites c rd (BitVec.ofNat 64 old) (s4.core c).next s4)) ∧
          (st = 0 → (op.val ≠ 9 ∨ old = cmp % 2 ^ (8 * n)) →
            ∀ su s5, s4.tierWrite (s1.coreIssuer c) t ph (leBytes n (atomicOp op n old v cmp)) = (su, s5) →
              (su = 0 → Ends i s (CoreWrites c rd (BitVec.ofNat 64 old) (s5.core c).next s5)) ∧
              (su ≠ 0 → su ≠ 0x14 → fails su s5)))) ∧
      (∀ ph s2 s3 st s4, s1.check (s1.coreIssuer c) .atomic a = (0, some (.mem .t3 ph), s2) → s2.findLine c a = none →
        s2.coreShaped c .t3 ph n true = (true, s3) → s3.tierWrite (s1.coreIssuer c) .t3 ph (List.replicate n 0) = (st, s4) →
        fails st s4) ∧
      (∀ off s2, s1.check (s1.coreIssuer c) .atomic a = (0, some (.ctl off), s2) →
        let q := s2.regRead (.core c) off n
        let u := q.2.regWrite (.core c) off n (atomicOp op n q.1 v cmp)
        Ends i s (CoreWrites c rd (BitVec.ofNat 64 q.1) (u.core c).next u)) ∧
      (∀ pl s2, s1.check (s1.coreIssuer c) .atomic a = (0, some pl, s2) → (∃ m o, pl = .rack m o ∨ pl = .beyond m o) →
        EndsAs i s (s2.coreSend c pl (.atomic op) n (leBytes n v ++ (if op.val = 9 then leBytes n cmp else [])) (.amo rd a n) true)) ∧
      (∀ st p s2, s1.check (s1.coreIssuer c) .atomic a = (st, p, s2) → st ≠ 0 → st ≠ 0x14 → fails st s2)) ∧
    (∀ g : BitVec 11, g.toNat / 16 % 64 ≠ 0 ∨ 9 < g.toNat % 16 →
      EndsAs (.amo c rd ra rb g now) s (s1.trap c .illegal k.pc 0))) ∧
 (∀ (c : CoreId) (n now : Nat) (r : CoreReq) (id rd a m : Nat) (l : List Byte) (s : State),
    let s0 := s.at now
    let sd := ((s0.fabDrop id).updCore c (fun k => { k with reqs := k.reqs.eraseIdx n })).updCore c (fun k => { k with wait := .none })
    (s0.core c).reqs[n]? = some r → r.acc = .amo rd a m → r.tag = some id → s0.fabResult id = some (0, l) →
    Ends (.coreAccessComplete c n now) s (CoreWrites c rd (BitVec.ofNat 64 (leNat (l.take m))) (sd.core c).next sd))

/-- R72, R82: what CACHE does to the line of its address: a dirty line that is cleaned goes back to memory as a posted access.

R94 to R97: ENQ reads the entries of its source part by part and, when it has them all, accepts as many as its target has room for,
in order, and writes their number to rd; with none to take it writes zero. When a part waits, it keeps what it has read and is given
again; when a part fails, that is the exception. A target that the core may not name raises PRIVILEGE or ILLEGAL_INSTR.

R94, R95: the targets that each core may name. That the rule for a DCC at L0 holds at L1 as well, and what a CCC may name, is the
model's reading (assumption 22).

R95, R97: where an accepted entry goes: a command queue with TENANCY replaced by the running one, the Routing Engine's or the
Residency Manager's queue, a DMA channel, or a context of the collective engine. -/
def Obligations.CacheAndEnqueueInstructions : Prop :=
 (∀ (c : CoreId) (ra : Fin 32) (imm : BitVec 16) (bad : Bool) (now : Nat) (s s1 : State), CoreIssues c (s.at now) s1 →
    let k := s1.core c
    let a := (k.reg ra + imm.signExtend 64).toNat
    let goes := fun (x : CoreSt) => { x with lastPc := k.pc, pc := k.next, retired := k.retired + 1 }
    (Ends (.cache c 1 ra imm bad now) s fun t => CoreOnly c s1 t ∧
      t.core c = goes { k with dcache := k.dcache.filter (fun x => x.line != lineOf a) }) ∧
    (Ends (.cache c 3 ra imm bad now) s fun t => CoreOnly c s1 t ∧
      t.core c = goes { k with icache := k.icache.filter (· != lineOf a) }) ∧
    (s1.findLine c a = none → Ends (.cache c 0 ra imm bad now) s (CoreRetires c k.next s1) ∧
      Ends (.cache c 2 ra imm bad now) s (CoreRetires c k.next s1)) ∧
    (∀ l, s1.findLine c a = some l → l.dirty = true → bad = false →
      let gone := fun (t : State) => ∃ r : CoreReq, (t.core c).reqs = k.reqs ++ [r] ∧ r.acc = .back l.line l.data ∧
        (t.core c).pc = k.next ∧ t.mem = s1.mem
      (Ends (.cache c 0 ra imm bad now) s fun t => gone t ∧ t.findLine c a = some { l with dirty := false }) ∧
      (Ends (.cache c 2 ra imm bad now) s fun t => gone t ∧ t.findLine c a = none)) ∧
    (∀ l, s1.findLine c a = some l → l.dirty = true → bad = true →
      EndsAs (.cache c 2 ra imm bad now) s
        ((((s1.chipEv 0x57 (c.val % 4) k.ten).postBack c l).dropLine c a).retire c k.next)) ∧
    (∀ l, s1.findLine c a = some l → l.dirty = false →
      Ends (.cache c 0 ra imm bad now) s (fun t => CoreOnly c s1 t ∧ (t.core c).reqs = k.reqs ∧ t.findLine c a = some l ∧
        (t.core c).pc = k.next) ∧
      Ends (.cache c 2 ra imm bad now) s fun t => CoreOnly c s1 t ∧
        t.core c = goes { k with dcache := k.dcache.filter (fun x => x.line != lineOf a) })) ∧
 (∀ (c : CoreId) (rd ra rb : Fin 32) (f : BitVec 11) (now : Nat) (s s1 : State), CoreIssues c (s.at now) s1 →
    let k := s1.core c
    let a := (k.reg ra).toNat
    let i := Instr.enq c rd ra rb f now
    let e : EnqSt := k.enq.getD ⟨min (k.reg rb).toNat (s1.enqRoom c f.toNat), [], k.dmiss⟩
    let size := enqSize f.toNat
    (∀ x, s1.enqBad c f.toNat = some x → EndsAs i s (s1.trap c x k.pc 0)) ∧
    (s1.enqBad c f.toNat = none →
      (e.n = 0 → Ends i s (CoreWrites c rd 0 k.next s1)) ∧
      (e.n ≠ 0 → ∀ t l, EnqReads c rd f.toNat a e.n s1 e.got t l →
        (e.n * size ≤ l.length → Ends i s fun u =>
          let es := (enqWords size l).take (t.enqRoom c f.toNat)
          let t' := (es.foldl (fun s w => s.enqEntry c f.toNat w) t).updCore c (fun k => { k with enq := none })
          CoreWrites c rd (BitVec.ofNat 64 es.length) (t'.core c).next t' u) ∧
        (l.length < e.n * size → ∀ u, t.enqPart c rd f.toNat a e.n l = (none, u) →
          EndsAs i s (u.updCore c (fun k => { k with enq := some ⟨e.n, l, e.miss⟩ }))) ∧
        (l.length < e.n * size → ∀ st x u, t.enqPart c rd f.toNat a e.n l = (some (st, x), u) → st ≠ 0 →
          EndsAs i s ((u.updCore c (fun k => { k with enq := some ⟨e.n, l, e.miss⟩ })).accessTrap c st
            ((a + l.length) % 2 ^ 64)))))) ∧
 (∀ (c : CoreId) (ix : Nat) (s : State), ix < 256 →
    let l0 := (s.core c).level = 0
    (∀ g, 5 ≤ g → g < 8 → s.enqBad c (g * 256 + ix) = some .illegal) ∧
    (c.val < 4 →
      (s.enqBad c ix = none ↔ ix / 4 = c.val ∧ (ix % 4 = 1 ∨ ix % 4 = 2)) ∧
      (∀ v, s.ten (s.core c).ten = some v →
        (s.enqBad c (0x100 + ix) = none ↔ ix = c.val ∧ (l0 → v.desc.reMask.testBit ix = true))) ∧
      (s.enqBad c (0x200 + ix) = none ↔ ix = c.val) ∧ (s.enqBad c (0x300 + ix) = none ↔ ix < 64) ∧
      (s.enqBad c (0x400 + ix) = none ↔ ix < 16) ∧
      (∀ q < 4, (q = 0 ∨ q = 3) → s.enqBad c (4 * c.val + q) = some .privilege)) ∧
    (4 ≤ c.val → (s.enqBad c ix = none ↔ ix < 16 ∧ ix % 4 = 3) ∧ (s.enqBad c (0x100 + ix) = none ↔ ix < 4) ∧
      (s.enqBad c (0x200 + ix) = none ↔ ix < 4) ∧ (s.enqBad c (0x400 + ix) = none ↔ ix < 16))) ∧
 (∀ (c ix : Nat) (w : List Nat) (s : State), ix < 256 →
    let t := s.tick.cur
    (∀ e : CqEntry, e = ⟨ix / 4, bits (wordAt w 0) 63 48 * 2 ^ 48 + t % 64 * 2 ^ 42 + bits (wordAt w 0) 41 0, wordAt w 1,
        wordAt w 2, wordAt w 3, none⟩ → DistOnly (ix / 4) s (s.enqEntry c ix w) ∧
      KMap.get [] ((s.enqEntry c ix w).dist (ix / 4)).cq (ix % 4) = KMap.get [] (s.dist (ix / 4)).cq (ix % 4) ++ [e]) ∧
    (DistOnly ix s (s.enqEntry c (0x100 + ix) w) ∧
      ((s.enqEntry c (0x100 + ix) w).dist ix).re = { (s.dist ix).re with queue := (s.dist ix).re.queue ++ [⟨t, w⟩] }) ∧
    (DistOnly ix s (s.enqEntry c (0x200 + ix) w) ∧
      ((s.enqEntry c (0x200 + ix) w).dist ix).rm = { (s.dist ix).rm with items := (s.dist ix).rm.items ++ [.job ⟨t, w⟩] }) ∧
    (∃ j, (s.enqEntry c (0x300 + ix) w).dma = s.dma ++ [j] ∧ j.words = w ∧ j.ten = t ∧ j.owner = .ch c ix) ∧
    ((s.enqEntry c (0x400 + ix) w).coll ix = { s.coll ix with
      queue := (s.coll ix).queue ++ [⟨if c < 4 then c else 0, t, w⟩] }))

/-- R108, R146: the arithmetic forms of CT write their scalar register and change nothing else. That MIN and MAX compare signed values
is the model's reading (assumption 39).

R118, R146: a CT instruction whose bits [36:32] are not zero, and a word whose class, or whose opcode in its class, is reserved, end the
program with 0x60 at its PC. -/
def Obligations.CtArithmeticAndReservedBits : Prop :=
 (∀ (b : BlockId) (sd sa sb : Fin 32) (imm : BitVec 32) (s s1 : State), BlkIssues b s s1 →
    let k := s1.blk b
    let x := k.sreg sa
    let y := k.sreg sb
    let n := y.toNat % 64
    let does := fun (op : Fin 256) (v : W64) => Ends (.ctAlu b (5, op) sd sa sb 0) s (BlkWrites b sd v s1)
    (does 1 (x + y) ∧ does 2 (x - y) ∧ does 3 (x &&& y) ∧ does 4 (x ||| y) ∧ does 5 (x ^^^ y) ∧ does 6 (x <<< n) ∧
      does 7 (x >>> n) ∧ does 8 (x.sshiftRight n) ∧ does 9 (x * y) ∧ does 10 (if x.toInt < y.toInt then 1 else 0) ∧
      does 11 (if x.toNat < y.toNat then 1 else 0)) ∧
    (does 12 (if x.toInt ≤ y.toInt then x else y) ∧ does 13 (if x.toInt ≤ y.toInt then y else x)) ∧
    Ends (.ctAddi b sd sa 0 imm) s (BlkWrites b sd (x + imm.signExtend 64) s1) ∧
    Ends (.ctLi b sd 0 imm) s (BlkWrites b sd (imm.signExtend 64) s1) ∧
    Ends (.ctLih b sd 0 imm) s (BlkWrites b sd (imm ++ (k.sreg sd).extractLsb' 0 32) s1)) ∧
 (∀ (b : BlockId) (op : Fin 256) (cc : Fin 6) (sd sa sb z : Fin 32) (imm : BitVec 32) (s s1 : State), BlkIssues b s s1 → z ≠ 0 →
    let stops := fun i => EndsAs i s (s1.blkFault b 0x60 (s1.blk b).pc)
    (1 ≤ op.val → op.val ≤ 13 → stops (.ctAlu b (5, op) sd sa sb z)) ∧ stops (.ctAddi b sd sa z imm) ∧ stops (.ctLi b sd z imm) ∧
    stops (.ctLih b sd z imm) ∧ stops (.ctLd b sd sa z imm) ∧ stops (.ctSt b sa sb z imm) ∧ stops (.ctBranch b cc sa sb z imm) ∧
    stops (.ctJ b z imm) ∧ stops (.ctJr b sa z imm) ∧ stops (.ctEnd b z) ∧ stops (.ctIret b z) ∧ stops (.ctSetv b sa z imm) ∧
    stops (.ctIen b z imm) ∧ stops (.ctIclr b z imm) ∧ stops (.ctIe b z imm) ∧ stops (.ctTset b z imm) ∧
    stops (.ctRds b sd z imm)) ∧
 (∀ (b : BlockId) (cls : Fin 16) (op : Fin 256) (sd sa sb z : Fin 32) (s s1 : State), BlkIssues b s s1 →
    let o := op.val
    (cls = 0 ∨ 6 ≤ cls.val) ∨
      (cls = 2 ∧ ((8 ≤ o ∧ o < 0x10) ∨ (0x1B ≤ o ∧ o < 0x20) ∨ (0x22 ≤ o ∧ o < 0x28) ∨ (0x2D ≤ o ∧ o < 0x30) ∨ o = 0x32 ∨ o = 0x36 ∨
        o = 0x37 ∨ (0x3A ≤ o ∧ o < 0x40) ∨ 0x42 ≤ o)) ∨
      (cls = 3 ∧ (o = 0 ∨ 8 ≤ o)) ∨ (cls = 4 ∧ (o = 0 ∨ 5 ≤ o)) ∨
      (cls = 5 ∧ (o = 0 ∨ o = 0x0E ∨ o = 0x0F ∨ o = 0x13 ∨ (0x16 ≤ o ∧ o < 0x20) ∨ (0x28 ≤ o ∧ o < 0x30) ∨ 0x38 ≤ o)) →
    EndsAs (.ctAlu b (cls, op) sd sa sb z) s (s1.blkFault b 0x60 (s1.blk b).pc))

/-- R146: branches and jumps of CT move PC and change nothing else; a JR target that is not 8 B aligned is 0x61.

R146, R147, R148, R130: the forms of CT that change the Sequencer's interrupt state and timer, IRET, and what RDS reads; an unlisted
item of RDS is 0x60, which is the model's choice (assumption 40).

R147, R148: the running timer reaching zero stops it and sets PEND bit 8; with IE set and an enabled source pending no instruction
issues, and local interrupt entry saves the next instruction's address, clears IE and goes to the vector of the lowest-numbered such
source. -/
def Obligations.CtControlInterruptsAndTimer : Prop :=
 (∀ (b : BlockId) (sa sb : Fin 32) (imm : BitVec 32) (s s1 : State), BlkIssues b s s1 →
    let k := s1.blk b
    let x := k.sreg sa
    let y := k.sreg sb
    let next := (k.pc + 8) % 2 ^ 64
    let to_ := (BitVec.ofNat 64 k.pc + imm.signExtend 64 * 8).toNat
    let goes := fun (cc : Fin 6) (p : Prop) =>
      (p → Ends (.ctBranch b cc sa sb 0 imm) s (BlkDoes b to_ id s1)) ∧
      (¬ p → Ends (.ctBranch b cc sa sb 0 imm) s (BlkDoes b next id s1))
    goes 0 (x = y) ∧ goes 1 (x ≠ y) ∧ goes 2 (x.toInt < y.toInt) ∧ goes 3 (y.toInt ≤ x.toInt) ∧ goes 4 (x.toNat < y.toNat) ∧
    goes 5 (y.toNat ≤ x.toNat) ∧
    Ends (.ctJ b 0 imm) s (BlkDoes b to_ id s1) ∧
    ((x + imm.signExtend 64).toNat % 8 = 0 → Ends (.ctJr b sa 0 imm) s (BlkDoes b (x + imm.signExtend 64).toNat id s1)) ∧
    ((x + imm.signExtend 64).toNat % 8 ≠ 0 →
      EndsAs (.ctJr b sa 0 imm) s (s1.blkFault b 0x61 (x + imm.signExtend 64).toNat))) ∧
 (∀ (b : BlockId) (sd sa : Fin 32) (imm : BitVec 32) (s s1 : State), BlkIssues b s s1 →
    let k := s1.blk b
    let next := (k.pc + 8) % 2 ^ 64
    (Ends (.ctIret b 0) s (BlkDoes b (k.epc % 2 ^ 64) (fun x => { x with ie := true }) s1)) ∧
    ((k.sreg sa).toNat % 8 = 0 → Ends (.ctSetv b sa 0 imm) s fun t =>
      BlkDoes b next (fun x => { x with vec := (t.blk b).vec }) s1 t ∧
      ∀ i, KMap.get 0 (t.blk b).vec i = if i = imm.toNat % 16 then (k.sreg sa).toNat else KMap.get 0 k.vec i) ∧
    ((k.sreg sa).toNat % 8 ≠ 0 → EndsAs (.ctSetv b sa 0 imm) s (s1.blkFault b 0x61 (k.sreg sa).toNat)) ∧
    (Ends (.ctIen b 0 imm) s fun t => BlkDoes b next (fun x => { x with en := (t.blk b).en }) s1 t ∧
      ∀ i < 16, (t.blk b).en.getLsbD i = (imm.getLsbD i && KMap.get 0 k.vec i != 0)) ∧
    (Ends (.ctIclr b 0 imm) s fun t => BlkDoes b next (fun x => { x with pend := (t.blk b).pend, sticky := (t.blk b).sticky }) s1 t ∧
      (∀ i < 16, (t.blk b).pend.getLsbD i = (k.pend.getLsbD i && !imm.getLsbD i)) ∧
      (t.blk b).sticky = if imm.getLsbD 31 then 0 else k.sticky) ∧
    (Ends (.ctIe b 0 imm) s (BlkDoes b next (fun x => { x with ie := imm.getLsbD 0 }) s1)) ∧
    (Ends (.ctTset b 0 imm) s (BlkDoes b next (fun x => { x with timer := imm.toNat }) s1)) ∧
    (Ends (.ctRds b sd 0 1) s (BlkWrites b sd (BitVec.ofNat 64 k.issued) s1)) ∧
    (Ends (.ctRds b sd 0 2) s (BlkWrites b sd (k.sticky.setWidth 64) s1)) ∧
    (Ends (.ctRds b sd 0 3) s (BlkWrites b sd (k.pend.setWidth 64) s1)) ∧
    (∃ v : W64, Ends (.ctRds b sd 0 4) s (BlkWrites b sd v s1) ∧
      ∀ n < 64, v.getLsbD n = (decide (n < 8) && !s1.tagBusy b n)) ∧
    (Ends (.ctRds b sd 0 0) s (BlkWrites b sd (BitVec.ofNat 64 ((s1.ridge.cycles - k.bornCycles) / 80)) s1)) ∧
    (∀ i : BitVec 32, 4 < i.toNat % 256 → EndsAs (.ctRds b sd 0 i) s (s1.blkFault b 0x60 k.pc))) ∧
 (∀ (b : BlockId) (s : State),
    let k := s.blk b
    (k.timer ≠ 0 → Ends (.blockTimerZero b) s fun t => BlkOnly b s t ∧
      t.blk b = { k with timer := 0, pend := k.pend ||| 0x100 }) ∧
    (k.ie = true → k.pend &&& k.en ≠ 0 → ∀ act, s.blkInstr b act = .next s) ∧
    (∀ i < 16, (k.pend &&& k.en).getLsbD i = true → (∀ j < i, (k.pend &&& k.en).getLsbD j = false) → k.ie = true →
      s.blkReady b = true → Ends (.localInterruptEntry b) s fun t => BlkOnly b s t ∧
        t.blk b = { k with epc := k.pc, ie := false, pc := KMap.get 0 k.vec i }))

/-- R114, R146: LD reads eight bytes of the Block's own memory into a scalar register, ST writes them; an offset that is not 8 B
aligned or lies outside is 0x61.

R112: each waits for a pass in flight that writes the tile it reaches.

R114, R127: VX LD reads 256 bytes of the Block's own memory into lanes under the mask; VX ST writes the lanes of the mask,
little-endian, and no other byte; an offset that is not 128 B aligned or reaches outside is 0x61, and a TYPE that is not listed is 0x60.

R114: a read of the Block's own memory gives its bytes and a write replaces them, where no ECC word of it is in error. -/
def Obligations.BlockLoadsAndStores : Prop :=
 (∀ (b : BlockId) (sd sa sb : Fin 32) (imm : BitVec 32) (s s1 : State), BlkIssues b s s1 →
    let k := s1.blk b
    let a := (k.sreg sa + imm.signExtend 64).toNat
    let r := s1.spadRead b a 8
    (a + 8 ≤ 0x100000 ∧ a % 8 = 0 → s1.tileBusy b a 8 = false →
      Ends (.ctLd b sd sa 0 imm) s (BlkWrites b sd (BitVec.ofNat 64 (leNat r.1)) r.2) ∧
      Ends (.ctSt b sa sb 0 imm) s (BlkDoes b ((k.pc + 8) % 2 ^ 64) id (s1.spadWrite b a (leBytes 8 (k.sreg sb).toNat)))) ∧
    (a + 8 ≤ 0x100000 ∧ a % 8 = 0 → s1.tileBusy b a 8 = true → EndsAs (.ctLd b sd sa 0 imm) s s1 ∧ EndsAs (.ctSt b sa sb 0 imm) s s1) ∧
    (¬ (a + 8 ≤ 0x100000 ∧ a % 8 = 0) → EndsAs (.ctLd b sd sa 0 imm) s (s1.blkFault b 0x61 a) ∧
      EndsAs (.ctSt b sa sb 0 imm) s (s1.blkFault b 0x61 a))) ∧
 (∀ (b : BlockId) (ty : Fin 4) (mask : Fin 8) (vd vc : Fin 32) (imm : BitVec 26) (s s1 : State), BlkIssues b s s1 →
    let k := s1.blk b
    let w := tyBits ty
    let y : Fin 8 := ⟨ty.val, by omega⟩
    let a := (k.sreg vc + imm.setWidth 64).toNat
    let p := spadBase b + a
    let r := s1.spadRead b a 128
    let q := r.2.spadRead b (a + 128) 128
    (a + 256 ≤ 0x100000 → a % 128 = 0 → s1.tileBusy b a 256 = false →
      Ends (.vxLd b y mask vd vc imm) s (VxWrites b w (tyLanes ty) mask vd
        (fun i => ⟨leNat (((r.1 ++ q.1).drop (i * (w / 8))).take (w / 8)), 0⟩) q.2) ∧
      (∃ u, Ends (.vxSt b y mask vd vc imm) s (BlkDoes b ((k.pc + 8) % 2 ^ 64) id u) ∧
        (s1.badWords = [] → s1.weakWords = [] → { u with mem := s1.mem } = s1 ∧
          (∀ i < tyLanes ty, leNat (u.rawRead (p + i * (w / 8)) (w / 8)) =
            if (k.mask mask).getLsbD i then (k.vreg vd).lane w i else leNat (s1.rawRead (p + i * (w / 8)) (w / 8))) ∧
          ∀ x, x < p ∨ p + 256 ≤ x → u.byte x = s1.byte x))) ∧
    (a + 256 ≤ 0x100000 → a % 128 = 0 → s1.tileBusy b a 256 = true →
      EndsAs (.vxLd b y mask vd vc imm) s s1 ∧ EndsAs (.vxSt b y mask vd vc imm) s s1) ∧
    (¬ (a + 256 ≤ 0x100000 ∧ a % 128 = 0) → EndsAs (.vxLd b y mask vd vc imm) s (s1.blkFault b 0x61 a) ∧
      EndsAs (.vxSt b y mask vd vc imm) s (s1.blkFault b 0x61 a)) ∧
    (∀ bad : Fin 8, 3 < bad.val → EndsAs (.vxLd b bad mask vd vc imm) s (s1.blkFault b 0x60 k.pc) ∧
      EndsAs (.vxSt b bad mask vd vc imm) s (s1.blkFault b 0x60 k.pc))) ∧
 (∀ (b : BlockId) (a n : Nat) (l : List Byte) (s : State), s.badWords = [] → s.weakWords = [] →
    s.spadRead b a n = (s.rawRead (spadBase b + a) n, s) ∧
    { s.spadWrite b a l with mem := s.mem } = s ∧ (s.spadWrite b a l).rawRead (spadBase b + a) l.length = l ∧
    ∀ x, x < spadBase b + a ∨ spadBase b + a + l.length ≤ x → (s.spadWrite b a l).byte x = s.byte x)

/-- R99 to R101, R105: in one cclk every NOP or SIGNAL at the head of a queue whose wait is met completes or is rejected, and the first
eligible queue in the dispatcher's order delivers its entry to its Block's inbox or has it rejected, all in ascending order of the
queues; every other queue stands. The order is CQ3, then the others from the one after the last served.

R100, R101: what becomes of each: a rejected entry leaves its queue, sets ERR, is captured in CQ_ERR when that is empty, and its
SIG_EN takes effect; a completed NOP or SIGNAL leaves its queue with LAST_SEQ; a delivered entry joins the inbox of its Block and moves
the round robin, but for CQ3.

R102: the oldest entry in transit arrives.

R100: REASON of a malformed entry, by the first case that it falls under; a sound entry has none.

R113, R99: CT.END waits for the Block's passes, descriptors and posts, then completes its entry: SIG_EN adds one to the counter that
the entry names, saturating, and IRQ raises the Block-completion interrupt.

R150: a fault of a Block program ends the program. -/
def Obligations.EntriesAreDispatchedAndComplete : Prop :=
 ((∀ (d : Dist) (s : State), s.stopped = false →
    let pick := (cqOrder (s.dist d).rr).find? (s.cqEligible d)
    let takes := fun (q : Nat) (u : State) => match s.cqFront d q with
      | some e => if s.cqFree d q = true ∨ pick = some q then u.cqTake d q e (s.entryReason e) else u
      | none => u
    EndsAs (.dispatchEntry d) s (takes 3 (takes 2 (takes 1 (takes 0 s))))) ∧
  (∀ rr < 3, cqOrder rr = [3, (rr + 1) % 3, (rr + 2) % 3, rr]) ∧
  (∀ (d : Dist) (q : Nat) (e : CqEntry) (s : State), s.cqFront d q = some e →
    let work := e.kind = 1 ∨ e.kind = 2 ∨ 3 < e.kind
    (s.cqFree d q = true ↔ ¬ work ∧ s.entryWaitMet e = true) ∧
    (s.cqEligible d q = true ↔ work ∧ s.entryWaitMet e = true ∧
      (s.entryReason e ≠ 0 ∨ ∃ b, s.entryBlock e = some b ∧ (s.blk b).inbox.length < 16))) ∧
  (∀ (d : Dist) (q : Fin 4) (e : CqEntry) (rest : List CqEntry) (s : State), KMap.get [] (s.dist d).cq q = e :: rest →
    let t := s.cqTake d q e (s.entryReason e)
    KMap.get [] (t.dist d).cq q = rest ∧ (∀ p, p ≠ q.val → KMap.get [] (t.dist d).cq p = KMap.get [] (s.dist d).cq p) ∧
    (s.entryReason e = 0 → (e.kind = 0 ∨ e.kind = 3) → t.blks = s.blks ∧ t.mem = s.mem ∧ (t.dist d).rr = (s.dist d).rr ∧
      t.fget F.CQ_STATE_LAST_SEQ [d.val, q.val] = e.seq) ∧
    (s.entryReason e = 0 → ∀ b, (e.kind = 1 ∨ e.kind = 2) → s.entryBlock e = some b →
      t.blk b = { s.blk b with inbox := (s.blk b).inbox ++ [⟨e, false⟩] } ∧ t.mem = s.mem ∧
      (t.dist d).rr = (if q = 3 then (s.dist d).rr else q.val) ∧ t.fget F.CQ_STATE_LAST_SEQ [d.val, q.val] = e.seq) ∧
    (s.entryReason e ≠ 0 → t.fget F.CQ_STATE_ERR [d.val, q.val] = 1 ∧ t.fget F.CQ_ERR_VALID [d.val] = 1 ∧
      (s.fget F.CQ_ERR_VALID [d.val] = 0 → t.fget F.CQ_ERR_REASON [d.val] = s.entryReason e ∧
        t.fget F.CQ_ERR_QUEUE [d.val] = q.val ∧ t.fget F.CQ_ERR_SEQ [d.val] = e.seq))) ∧
  (∀ (b : BlockId) (e : CqEntry) (before rest : List InboxSlot) (s : State), (s.blk b).inbox = before ++ ⟨e, false⟩ :: rest →
    (∀ x ∈ before, x.arrived = true) →
    Ends (.inboxArrive b) s fun t => BlkOnly b s t ∧ t.blk b = { s.blk b with inbox := before ++ ⟨e, true⟩ :: rest })) ∧
 (∀ (s : State) (e : CqEntry),
    let work := e.kind = 1 ∨ e.kind = 2
    let fields := e.w0.testBit 58 = true ∨ bits e.w0 41 32 ≠ 0 ∨ bits e.w1 41 32 ≠ 0 ∨ (¬ work ∧ (e.w2 ≠ 0 ∨ e.w3 ≠ 0)) ∨
      (e.kind = 2 ∧ e.w3.testBit 32 = true)
    let tokens := e.kind = 2 ∧ (bits e.w3 49 33 = 0 ∨ 65536 < bits e.w3 49 33)
    (3 < e.kind → s.entryReason e = 1) ∧
    (e.kind ≤ 3 → fields → s.entryReason e = 2) ∧
    (e.kind ≤ 3 → ¬ fields → work → e.w2 % 8 ≠ 0 → s.entryReason e = 3) ∧
    (e.kind ≤ 3 → ¬ fields → (work → e.w2 % 8 = 0) → tokens → s.entryReason e = 4) ∧
    (e.kind ≤ 3 → ¬ fields → (work → e.w2 % 8 = 0) → ¬ tokens → work → s.entryBlock e = none → s.entryReason e = 5) ∧
    (e.kind ≤ 3 → ¬ fields → (work → e.w2 % 8 = 0) → ¬ tokens → (work → (s.entryBlock e).isSome = true) → s.entryReason e = 0)) ∧
 (∀ (b : BlockId) (s s1 : State), BlkIssues b s s1 →
    let k := s1.blk b
    let out := k.passes ≠ [] ∨ s1.dma.any (fun j => j.ofBlk b) = true ∨ s1.posts.any (fun p => p.src == b.val) = true
    (∀ e, k.running = some e → ¬ out → EndsAs (.ctEnd b 0) s
      (((s1.updBlk b (fun x => { x with lastPc := x.pc })).updBlk b (fun x => { x with running := none })).entryDone e)) ∧
    (out → EndsAs (.ctEnd b 0) s s1)) ∧
 (∀ (e : CqEntry) (s : State),
    (e.w1.testBit 52 = false → e.w0.testBit 59 = false → s.entryDone e = s) ∧
    (e.w1.testBit 52 = false → e.w0.testBit 59 = true → s.entryDone e = s.srcEvent (.priv e.dist 1)) ∧
    (e.w1.testBit 52 = true → e.dist < 4 → (s.entryDone e).fget F.EVC_VALUE [e.dist, bits e.w1 51 42] =
      min (s.fget F.EVC_VALUE [e.dist, bits e.w1 51 42] + 1) (2 ^ 32 - 1))) ∧
 (∀ (s : State) (b code addr : Nat) (d : Bool), ((s.blkFault b code addr d).blk b).running = none)

/-- R109: a Block program starts with its seven start registers; in the same cclk IE, EN, every vector, the timer and the partition
table are cleared, and nothing else of the Sequencer changes.

R102, R113: while no entry has arrived, a program runs, the Sequencer is halted or a suspend is under way, none starts. -/
def Obligations.ProgramStartLoadsItsRegisters : Prop :=
 (∀ (b : BlockId) (e : CqEntry) (rest : List InboxSlot) (v : Ten) (r : Run) (l : Nat) (s : State),
    (s.blk b).inbox = ⟨e, true⟩ :: rest → (s.blk b).running = none → (s.blk b).halted = false → s.tick.suspending = none →
    s.ten (s.runnerOfBlock b) = some v → s.run (s.runnerOfBlock b) = some r → v.logical b = some l →
    Ends (.blockProgramStart b) s fun t => BlkOnly b s t ∧
      let k := t.blk b
      k.running = some e ∧ k.inbox = rest ∧ k.pc = e.w2 ∧
      k.sreg 1 = BitVec.ofNat 64 e.w3 ∧ k.sreg 2 = BitVec.ofNat 64 l ∧ k.sreg 3 = BitVec.ofNat 64 e.seq ∧
      k.sreg 4 = BitVec.ofNat 64 (v.battenAddr r.step) ∧ k.sreg 5 = BitVec.ofNat 64 r.step ∧
      k.sreg 6 = BitVec.ofNat 64 e.kind ∧ (∀ i, i = 0 ∨ 7 ≤ i → k.sreg i = (s.blk b).sreg i) ∧
      k.ie = false ∧ k.en = 0 ∧ (∀ i, KMap.get 0 k.vec i = 0) ∧ k.timer = 0 ∧ (∀ i, k.part i = none) ∧
      k = { s.blk b with s := k.s, ie := k.ie, en := k.en, vec := k.vec, timer := k.timer, parts := k.parts, pc := k.pc,
                         running := k.running, inbox := k.inbox, bornCycles := k.bornCycles, fetching := none }) ∧
 (∀ (b : BlockId) (s : State), (s.blk b).inbox = [] ∨ (∃ x rest, (s.blk b).inbox = x :: rest ∧ x.arrived = false) ∨
    (s.blk b).running ≠ none ∨ (s.blk b).halted = true ∨ s.tick.suspending ≠ none → EndsAs (.blockProgramStart b) s s)

/-- R144, R145: SY.POST and SY.POSTF put a post on its way to the named Block, POSTF behind every descriptor the Block has issued;
SY.WAIT goes on when the counter has reached its value; SY.RDC reads it.

R144: bits [26:24] that are not zero end the program with 0x60.

R145, R147: a post that may arrive raises the counter of its target, saturating, and sets PEND bit 3 when the counter changes; one whose
target the Tenancy's map does not assign is dropped with 0x64, at its Block, or for a DMA channel at the first Block of its District,
which is the model's choice (assumption 36).

R144, R145: a post may arrive when no earlier one of its source to its target is on its way and the descriptors that it follows have
completed; until then nothing happens. -/
def Obligations.PostsReachTheirCounters : Prop :=
 (∀ (b : BlockId) (sd sb : Fin 32) (blk : Fin 1024) (useReg : Bool) (ctr : Fin 16) (v : BitVec 24) (s s1 : State),
    BlkIssues b s s1 →
    let k := s1.blk b
    let next := (k.pc + 8) % 2 ^ 64
    let target := if useReg then (k.sreg sb).toNat % 1024 else blk.val
    let c := s1.fget F.BLK_POST_VALUE [b.val, ctr.val]
    (Ends (.syPost b sb blk useReg ctr 0 v) s fun t => BlkDoes b next id s1 { t with posts := s1.posts } ∧
      t.posts = s1.posts ++ [⟨b, s1.runnerOfBlock b, target, ctr, v.toNat, []⟩]) ∧
    (Ends (.syPostf b sb blk useReg ctr 0 v) s fun t => BlkDoes b next id s1 { t with posts := s1.posts } ∧
      t.posts = s1.posts ++ [⟨b, s1.runnerOfBlock b, target, ctr, v.toNat,
        (s1.dma.filter (fun j => j.ofBlk b)).map DmaJob.id⟩]) ∧
    (v.toNat ≤ c → Ends (.syWait b ctr 0 v) s (BlkDoes b next id s1)) ∧
    (c < v.toNat → EndsAs (.syWait b ctr 0 v) s s1) ∧
    (Ends (.syRdc b sd ctr 0) s (BlkWrites b sd (BitVec.ofNat 64 c) s1)) ∧
    (∀ z : Fin 8, z ≠ 0 → let stops := fun i => EndsAs i s (s1.blkFault b 0x60 k.pc)
      stops (.syPost b sb blk useReg ctr z v) ∧ stops (.syPostf b sb blk useReg ctr z v) ∧ stops (.syWait b ctr z v) ∧
      stops (.syRdc b sd ctr z))) ∧
 (∀ (n : Nat) (p : Post) (s : State), s.posts[n]? = some p → s.postReady n p = true →
    (∀ v b, s.ten p.ten = some v → v.phys p.target = some b → Ends (.postArrive n) s fun t =>
      t.posts = s.posts.eraseIdx n ∧ t.fget F.BLK_POST_VALUE [b, p.ctr] =
        min (s.fget F.BLK_POST_VALUE [b, p.ctr] + p.value) (2 ^ 32 - 1) ∧
      t.blk b = { s.blk b with pend := (if t.fget F.BLK_POST_VALUE [b, p.ctr] = s.fget F.BLK_POST_VALUE [b, p.ctr] then
        (s.blk b).pend else (s.blk b).pend ||| 8) } ∧
      t.mem = s.mem ∧ t.tens = s.tens) ∧
    ((∀ v, s.ten p.ten = some v → v.phys p.target = none) →
      (p.src < 1024 → EndsAs (.postArrive n) s (({ s with posts := s.posts.eraseIdx n }).blkCapture p.src 0x64 p.target)) ∧
      (1024 ≤ p.src → EndsAs (.postArrive n) s
        (({ s with posts := s.posts.eraseIdx n }).blkEv 0x64 ((p.src - 1024) / 64 * 256) p.ten p.target)))) ∧
 (∀ (n : Nat) (p : Post) (s : State), s.posts[n]? = some p →
    (s.postReady n p = true ↔ (∀ i < n, ∀ q, s.posts[i]? = some q → ¬ (q.src = p.src ∧ q.target = p.target ∧ q.ten = p.ten)) ∧
      ∀ i ∈ p.after, ∀ j ∈ s.dma, j.id ≠ i) ∧
    (s.postReady n p = false → EndsAs (.postArrive n) s s))

/-- R117, R131, R140, R141: PART defines a ring partition, or waits while a ring transfer uses it; a base or size that is not legal or
meets another partition is 0x61. RAVAIL reads how many bytes of a partition are filled, RWAIT goes on when enough are or no transfer
uses it, REL frees bytes of it, at most those that are filled. That RAVAIL and REL of an undefined partition are 0x61 is the model's
choice (assumption 35).

R131, R132, R134: DM.GO reads the descriptor at its offset and accepts it on its tag, when the tag is free and no pass in flight writes
a tile that it moves; DM.WAIT goes on when its tags are free; DM.STAT reads the state of a tag. An offset that is misaligned or outside
is 0x61, a tag above 7 is 0x60, which for STAT is the model's reading (assumption 40), and so is bit [32].

R134: an accepted descriptor waits to move; a rejected one has ended with DESC_INVALID, as 0x62. -/
def Obligations.PartitionAndDescriptorInstructions : Prop :=
 (∀ (b : BlockId) (sd sa sb : Fin 32) (n : Fin 16) (imm : BitVec 32) (s s1 : State), BlkIssues b s s1 →
    let k := s1.blk b
    let next := (k.pc + 8) % 2 ^ 64
    let base := (k.sreg sa).toNat % 2 ^ 20
    let size := (k.sreg sb).toNat
    let part := fun (q : RingPart) (t : State) => BlkDoes b next (fun x => { x with parts := (t.blk b).parts }) s1 t ∧
      ∀ m, (t.blk b).part m = if m = n.val then some q else k.part m
    let legal := base % 4096 = 0 ∧ size % 4096 = 0 ∧ 0 < size ∧ base + size ≤ 0xC0000 ∧
      ∀ m < 16, m ≠ n.val → ∀ q, k.part m = some q → overlap base size q.base q.size = false
    (legal → s1.ringUses b n = false → Ends (.dmPart b sa sb n false) s (part ⟨base, size, 0, 0⟩)) ∧
    (legal → s1.ringUses b n = true → EndsAs (.dmPart b sa sb n false) s s1) ∧
    (¬ legal → EndsAs (.dmPart b sa sb n false) s (s1.blkFault b 0x61 base)) ∧
    (∀ q, k.part n = some q →
      (Ends (.dmRavail b sd n false) s (BlkWrites b sd (BitVec.ofNat 64 (q.wr - q.rd)) s1)) ∧
      (imm.toNat ≤ q.wr - q.rd → Ends (.dmRwait b n false imm) s (BlkDoes b next id s1)) ∧
      (q.wr - q.rd < imm.toNat → s1.ringUses b n = true → EndsAs (.dmRwait b n false imm) s s1) ∧
      (imm.toNat % 128 = 0 → imm.toNat ≤ q.wr - q.rd →
        Ends (.dmRel b n false imm) s (part { q with rd := q.rd + imm.toNat })) ∧
      (imm.toNat % 128 = 0 → q.wr - q.rd < imm.toNat → EndsAs (.dmRel b n false imm) s
        (((s1.blkCapture b 0x65 q.base).updBlk b (fun x => x.setPart n { q with rd := q.rd + (q.wr - q.rd) })).blkNext b)) ∧
      (imm.toNat % 128 ≠ 0 → EndsAs (.dmRel b n false imm) s (s1.blkFault b 0x61 q.base))) ∧
    (s1.ringUses b n = false → Ends (.dmRwait b n false imm) s (BlkDoes b next id s1)) ∧
    (k.part n = none → EndsAs (.dmRavail b sd n false) s (s1.blkFault b 0x61 0) ∧ EndsAs (.dmRel b n false imm) s (s1.blkFault b 0x61 0))) ∧
 (∀ (b : BlockId) (sd sa : Fin 32) (n : Fin 8) (imm : BitVec 32) (s s1 : State), BlkIssues b s s1 →
    let k := s1.blk b
    let next := (k.pc + 8) % 2 ^ 64
    let a := (k.sreg sa + imm.setWidth 64).toNat
    let tag : Fin 16 := ⟨n.val, by omega⟩
    let r := s1.spadRead b a 64
    let words := (List.range 8).map (fun i => leNat ((r.1.drop (8 * i)).take 8))
    let j : DmaJob := { id := 0, owner := .blk b n, ten := s1.runnerOfBlock b, off := a, words := words }
    (a + 64 ≤ 0x100000 → a % 64 = 0 →
      (s1.tagBusy b n = false → s1.dmaTileBusy b j = false →
        Ends (.dmGo b sa tag false imm) s (BlkDoes b (((r.2.dmaAccept j).blk b).pc + 8) id (r.2.dmaAccept j))) ∧
      (s1.tagBusy b n = true ∨ s1.dmaTileBusy b j = true → EndsAs (.dmGo b sa tag false imm) s s1)) ∧
    (¬ (a + 64 ≤ 0x100000 ∧ a % 64 = 0) → EndsAs (.dmGo b sa tag false imm) s (s1.blkFault b 0x61 a)) ∧
    ((∀ m < 8, imm.getLsbD m = true → s1.tagBusy b m = false) → Ends (.dmWait b false imm) s (BlkDoes b next id s1)) ∧
    ((∃ m < 8, imm.getLsbD m = true ∧ s1.tagBusy b m = true) → EndsAs (.dmWait b false imm) s s1) ∧
    (s1.tagBusy b n = false →
      Ends (.dmStat b sd tag false) s (BlkWrites b sd (BitVec.ofNat 64 (KMap.get 0 k.tagStat n)) s1)) ∧
    (∀ q, s1.dma.find? (fun q => q.owner == .blk b n) = some q →
      Ends (.dmStat b sd tag false) s (BlkWrites b sd (BitVec.ofNat 64 (q.bytes % 2 ^ 32 * 256 + 1)) s1))) ∧
 (∀ (b : BlockId) (sd sa sb : Fin 32) (n : Fin 16) (imm : BitVec 32) (s s1 : State), BlkIssues b s s1 →
    let stops := fun i => EndsAs i s (s1.blkFault b 0x60 (s1.blk b).pc)
    stops (.dmGo b sa n true imm) ∧ stops (.dmWait b true imm) ∧ stops (.dmStat b sd n true) ∧ stops (.dmPart b sa sb n true) ∧
    stops (.dmRavail b sd n true) ∧ stops (.dmRwait b n true imm) ∧ stops (.dmRel b n true imm) ∧
    (8 ≤ n.val → stops (.dmGo b sa n false imm) ∧ stops (.dmStat b sd n false))) ∧
 (∀ (j : DmaJob) (s : State),
    (s.descBad j = false → s.dmaAccept j =
      { s with dma := s.dma ++ [{ j with id := s.nextJob, status := none }], nextJob := s.nextJob + 1 }) ∧
    (s.descBad j = true →
      let x := { j with id := s.nextJob, status := some 0x10 }
      let u := { s with dma := s.dma ++ [x], nextJob := s.nextJob + 1 }
      (∀ b t, j.owner = .blk b t → s.dmaAccept j = u.blkCapture b 0x62 j.off) ∧
      ∀ d c, j.owner = .ch d c → s.dmaAccept j = u.distEv 0x62 d c j.ten))

/-- R126, R127, R130: the lane-wise operations write, under the mask, what their operation gives in each lane, with its flags. A lane
that PERM or MOVS names and the TYPE does not have gives a free value; AXPY rounds once, or after each of its two operations: which
of them is a free value (assumption 41).

R118, R126, R127: an OP that is not listed, and a TYPE that is not listed in any vector instruction, end the program with 0x60.

R127, R128: INT32 lanes give the exact result where it is in range; ABS and NEG of a floating-point lane act on its sign alone;
a NaN operand gives a NaN.

R128: the special inputs of LOG, RCP, RSQRT, SQRT, SIN and COS. -/
def Obligations.LaneOperationsWriteUnderTheMask : Prop :=
 (∀ (b : BlockId) (ty : Fin 4) (mask : Fin 8) (vd va vb vc : Fin 32) (s s1 : State), BlkIssues b s s1 →
    let k := s1.blk b
    let w := tyBits ty
    let n := tyLanes ty
    let y : Fin 8 := ⟨ty.val, by omega⟩
    let x := fun (r : Fin 32) (i : Nat) => (k.vreg r).lane w i
    let writes := fun (f : Nat → LaneOut) => VxWrites b w n mask vd f s1
    (∀ op : Fin 8, Ends (.vxArith b ⟨op.val, by omega⟩ y mask vd va vb vc) s
      (writes fun i => laneArith op.val ty (x va i) (x vb i) (x vc i))) ∧
    (∀ op : Fin 11, Ends (.vxFunction b op y mask vd va) s (writes fun i => laneFn (0x10 + op.val) ty (x va i))) ∧
    Ends (.vxMov b y mask vd va) s (writes fun i => ⟨x va i, 0⟩) ∧
    Ends (.bcast b y mask vd vc) s (writes fun _ => ⟨(k.sreg vc).toNat % 2 ^ w, 0⟩) ∧
    Ends (.rsum b y mask vd va) s (writes fun _ => treeSum ty 7 ((List.range n).map fun i => ⟨x va i, 0⟩)) ∧
    Ends (.perm b y mask vd va vb) s (fun t => ∃ f, writes f t ∧ ∀ i < n, x vb i < n → f i = ⟨x va (x vb i), 0⟩) ∧
    (∀ i : BitVec 26, (i.toNat % 128 < n → Ends (.movs b y vd va i) s (BlkWrites b vd (BitVec.ofNat 64 (x va (i.toNat % 128))) s1)) ∧
      ∃ v, Ends (.movs b y vd va i) s (BlkWrites b vd v s1)) ∧
    Ends (.axpy b y mask vd va vc) s (fun t => ∃ f, writes f t ∧ ∀ i < n,
      let c := (k.sreg vc).toNat % 2 ^ 32
      let p := laneNum ty (x va i)
      let q := fp32.decode c
      let r := laneNum ty (x vd i)
      let m := laneExact ty (p.mul q) [p, q] [0x40, ty, x va i, c]
      let a := laneArith 0 ty (x vd i) m.code 0
      f i = laneExact ty ((p.mul q).add r) [p, q, r] [0x40, ty, x va i, c, x vd i] ∨ f i = { a with flags := a.flags ||| m.flags })) ∧
 (∀ (b : BlockId) (o : Fin 256) (op : Fin 11) (ty bad mask : Fin 8) (vd va vb vc : Fin 32) (least : Bool) (imm : BitVec 26) (s s1 : State),
    BlkIssues b s s1 →
    let stops := fun i => EndsAs i s (s1.blkFault b 0x60 (s1.blk b).pc)
    ((8 ≤ o.val ∧ o.val < 0x10) ∨ (0x1B ≤ o.val ∧ o.val < 0x20) ∨ (0x22 ≤ o.val ∧ o.val < 0x28) ∨ (0x2D ≤ o.val ∧ o.val < 0x30) ∨
      o = 0x32 ∨ o = 0x36 ∨ o = 0x37 ∨ (0x3A ≤ o.val ∧ o.val < 0x40) ∨ 0x42 ≤ o.val → stops (.vxArith b o ty mask vd va vb vc)) ∧
    (3 < bad.val → (o.val < 8 → stops (.vxArith b o bad mask vd va vb vc)) ∧ stops (.vxFunction b op bad mask vd va) ∧
      stops (.vxCmp b bad mask vd va vb imm) ∧ stops (.vxMov b bad mask vd va) ∧ stops (.rsum b bad mask vd va) ∧
      stops (.rmaxRmin b least bad mask vd va) ∧ stops (.rargmax b bad mask vd va) ∧ stops (.sort b bad mask vd va vc) ∧
      stops (.bcast b bad mask vd vc) ∧ stops (.movs b bad vd va imm) ∧ stops (.perm b bad mask vd va vb) ∧
      stops (.cvt b bad mask vd va imm) ∧ stops (.mxq b bad mask vd va vb imm) ∧ stops (.axpy b bad mask vd va vc) ∧
      stops (.rand b bad mask vd vc))) ∧
 ((∀ a b c : BitVec 32,
    let r := fun (op : Nat) (z : Int) => -(2 ^ 31 : Int) ≤ z → z < 2 ^ 31 →
      laneArith op 3 a.toNat b.toNat c.toNat = ⟨(z % 2 ^ 32).toNat, 0⟩
    r 0 (a.toInt + b.toInt) ∧ r 1 (a.toInt - b.toInt) ∧ r 2 (a.toInt * b.toInt) ∧ r 3 (a.toInt * b.toInt + c.toInt) ∧
    r 4 (min a.toInt b.toInt) ∧ r 5 (max a.toInt b.toInt) ∧ r 6 |a.toInt| ∧ r 7 (-a.toInt)) ∧
  (∀ a b c : BitVec 32, laneArith 6 0 a.toNat b.toNat c.toNat = ⟨(a &&& 0x7FFFFFFF).toNat, 0⟩ ∧
    laneArith 7 0 a.toNat b.toNat c.toNat = ⟨(a ^^^ 0x80000000).toNat, 0⟩) ∧
  (∀ (op ty : Nat) (a b c : Nat), op < 6 → ty < 3 → laneNum ty a = .nan →
    laneNum ty (laneArith op ty a b c).code = .nan)) ∧
 (∀ (ty : Fin 3) (a : Nat), let x := laneNum ty a
    let num := fun op => laneNum ty (laneFn op ty a).code
    (x.isZero = true → num 0x11 = .inf true ∧ num 0x12 = .inf x.neg ∧ num 0x13 = .inf x.neg) ∧
    (x.isZero = false → x.isNan = false → x.neg = true → num 0x11 = .nan ∧ num 0x13 = .nan ∧ num 0x14 = .nan) ∧
    (x.isInf = true → num 0x19 = .nan ∧ num 0x1A = .nan))

/-- R127: CMP writes the lanes' results to its mask register under MASK; m0 discards it; VD[4:3] not zero is 0x60.

R127: RMAX and RMIN give a largest and a smallest lane, RARGMAX the first index of a largest one, to every lane. What they give when
a lane is a NaN is the model's reading or a free value (assumption 42).

R127, R130: CVT converts lanes to or from a format code, with the flags of its roundings; MXQ packs groups of 32 lanes with their scales
in bytes of v[VB], with the flags of its roundings.

R127: a format code that CVT and MXQ do not know is 0x60, which is the model's reading (assumption 40).

R127, R129: RAND writes FP32 values in [0, 1) that depend on the step seed, the logical ID, the scalar and the lane alone. -/
def Obligations.ComparesReductionsAndConversions : Prop :=
 (∀ (b : BlockId) (ty : Fin 4) (mask : Fin 8) (vd va vb : Fin 32) (imm : BitVec 26) (s s1 : State), BlkIssues b s s1 →
    let k := s1.blk b
    let w := tyBits ty
    let m := k.mask mask
    (vd.val < 8 → Ends (.vxCmp b ⟨ty.val, by omega⟩ mask vd va vb imm) s fun t =>
      BlkDoes b ((k.pc + 8) % 2 ^ 64) (fun x => { x with m := (t.blk b).m }) s1 t ∧
      (∀ r, r ≠ vd.val → (t.blk b).mask r = k.mask r) ∧
      (vd.val ≠ 0 → ∀ i < 128, ((t.blk b).mask vd).getLsbD i =
        if i < tyLanes ty ∧ m.getLsbD i = true then laneCmp (imm.toNat % 4) ty ((k.vreg va).lane w i) ((k.vreg vb).lane w i)
        else (k.mask vd).getLsbD i)) ∧
    (8 ≤ vd.val → EndsAs (.vxCmp b ⟨ty.val, by omega⟩ mask vd va vb imm) s (s1.blkFault b 0x60 k.pc))) ∧
 (∀ (b : BlockId) (ty : Fin 4) (mask : Fin 8) (vd va : Fin 32) (s s1 : State), BlkIssues b s s1 →
    let n := tyLanes ty
    let x := fun i => ((s1.blk b).vreg va).lane (tyBits ty) i
    let num := fun i => laneNum ty (x i)
    let y : Fin 8 := ⟨ty.val, by omega⟩
    let all := fun (v : Nat) => VxWrites b (tyBits ty) n mask vd (fun _ => ⟨v, 0⟩) s1
    let index := fun (v : Nat) => VxWrites b 32 64 mask vd (fun _ => ⟨v, 0⟩) s1
    ((∀ i < n, num i ≠ .nan) →
      (∃ j < n, (∀ i < n, (num j).lt (num i) = false) ∧ Ends (.rmaxRmin b false y mask vd va) s (all (x j))) ∧
      (∃ j < n, (∀ i < n, (num i).lt (num j) = false) ∧ Ends (.rmaxRmin b true y mask vd va) s (all (x j))) ∧
      (∃ j < n, (∀ i < n, (num j).lt (num i) = false) ∧ (∀ i < j, (num i).lt (num j) = true) ∧
        Ends (.rargmax b y mask vd va) s (index j))) ∧
    ((∃ i < n, num i = .nan) →
      (∀ least, ∃ v, laneNum ty v = .nan ∧ Ends (.rmaxRmin b least y mask vd va) s (all v)) ∧
      ∃ v, Ends (.rargmax b y mask vd va) s (index v))) ∧
 (∀ (b : BlockId) (ty : Fin 4) (mask : Fin 8) (vd va vb : Fin 32) (imm : BitVec 26) (s s1 : State), BlkIssues b s s1 →
    let k := s1.blk b
    let w := tyBits ty
    let n := tyLanes ty
    let y : Fin 8 := ⟨ty.val, by omega⟩
    let c := imm.toNat % 16
    let m := k.mask mask
    let num := fun i => laneNum ty ((k.vreg va).lane w i)
    (c ≤ 9 → imm.toNat.testBit 4 = true → Ends (.cvt b y mask vd va imm) s
      (VxWrites b w n mask vd (fun i => cvtFrom ty (elemNum c ((k.vreg va).lane (fmtBits c) i))) s1)) ∧
    (c ≤ 9 → imm.toNat.testBit 4 = false → Ends (.cvt b y mask vd va imm) s
      (VxWrites b (fmtBits c) n mask vd (fun i => cvtTo c (num i)) s1)) ∧
    (9 < c → EndsAs (.cvt b y mask vd va imm) s (s1.blkFault b 0x60 k.pc)) ∧
    (2 ≤ c → c ≤ 6 → Ends (.mxq b y mask vd va vb imm) s fun t =>
      let k' := t.blk b
      let scale := fun g => mxGroupScale c ((List.range 32).map fun i => num (32 * g + i))
      let out := fun i => mxOut c (scale (i / 32)) (num i)
      let packed := (k.vreg vd).write (fmtBits c) m ((List.range n).map fun i => (out i).code)
      BlkOnly b s1 t ∧ (∀ r, r ≠ vd → r ≠ vb → k'.vreg r = k.vreg r) ∧ (vd ≠ vb → k'.vreg vd = packed) ∧
      (∀ g < n / 32, (k'.vreg vb).lane 8 g = scale g % 256) ∧
      (∀ i, n / 4 ≤ i → (k'.vreg vb).getLsbD i = (if vd = vb then packed else k.vreg vb).getLsbD i) ∧
      (∀ j < 4, k'.sticky.getLsbD j = (k.sticky.getLsbD j || (List.range n).any fun i => m.getLsbD i && (out i).flags.testBit j)) ∧
      k'.pend = (if k'.sticky = k.sticky then k.pend else k.pend ||| 0x80) ∧
      k' = { k with v := k'.v, sticky := k'.sticky, pend := k'.pend, lastPc := k.pc, pc := (k.pc + 8) % 2 ^ 64 }) ∧
    (¬ (2 ≤ c ∧ c ≤ 6) → EndsAs (.mxq b y mask vd va vb imm) s (s1.blkFault b 0x60 k.pc)) ∧
    (let seed := match s1.run (s1.runnerOfBlock b) with | some r => r.seed | none => 0
     let logical := match s1.ten (s1.runnerOfBlock b) with | some v => (v.logical b).getD 0 | none => 0
     let f := fun i => Config.rand seed logical (k.sreg vb).toNat i % 0x3F800000
     Ends (.rand b y mask vd vb) s (VxWrites b 32 64 mask vd (fun i => ⟨f i, 0⟩) s1) ∧
       ∀ i < 64, f i < 0x3F800000))

/-- R127: SORT of FP32 lanes without a NaN puts them in descending order under the mask, keeps the order of equal ones, and gives each
lane's original index in v[VC]. With a NaN among them the order is a free value (assumption 42).

R127: SORT of another TYPE is 0x60. -/
def Obligations.SortIsStableAndDescending : Prop :=
  (∀ (b : BlockId) (mask : Fin 8) (vd va vc : Fin 32) (s s1 : State), BlkIssues b s s1 →
    let k := s1.blk b
    let m := k.mask mask
    let x := fun i => (k.vreg va).lane 32 i
    let num := fun i => fp32.decode (x i)
    let sorts := fun (f g : Nat → Nat) (t : State) =>
      BlkDoes b ((k.pc + 8) % 2 ^ 64) (fun k => { k with v := (t.blk b).v }) s1 t ∧
      (∀ r, r ≠ vd → r ≠ vc → (t.blk b).vreg r = k.vreg r) ∧
      (vd ≠ vc → ∀ i < 64, ((t.blk b).vreg vd).lane 32 i = if m.getLsbD i then f i % 2 ^ 32 else (k.vreg vd).lane 32 i) ∧
      ∀ i < 64, ((t.blk b).vreg vc).lane 32 i = if m.getLsbD i then g i % 2 ^ 32 else (k.vreg vc).lane 32 i
    ((∀ i < 64, num i ≠ .nan) → ∃ p : List Nat, p.Perm (List.range 64) ∧
      p.Pairwise (fun i j => (num i).lt (num j) = false ∧ ((num j).lt (num i) = false → i < j)) ∧
      Ends (.sort b 0 mask vd va vc) s (sorts (fun i => x ((p[i]?).getD 0)) (fun i => (p[i]?).getD 0))) ∧
    ((∃ i < 64, num i = .nan) → ∃ f g, (∀ i, g i < 64) ∧ Ends (.sort b 0 mask vd va vc) s (sorts f g))) ∧
  (∀ (b : BlockId) (ty mask : Fin 8) (vd va vc : Fin 32) (s s1 : State), BlkIssues b s s1 → ty ≠ 0 →
    EndsAs (.sort b ty mask vd va vc) s (s1.blkFault b 0x60 (s1.blk b).pc))

/-- R119 to R125, R153: an MM whose fields are legal, whose regions lie in the scratchpad and whose tiles exist issues its pass, once
passes may start, the stream of no pass in flight is still running and none writes one of its tiles; until then it waits. A
nonzero must-be-zero bit, an illegal combination, or a LEN or ROWS_M1 out of range is 0x60; a region or a tile out of range is 0x61.

R152, R170, R124, R172: the oldest pass of a Block ends: each element of its output takes its value, and no other byte of
memory changes; the pass leaves the array and source 4 becomes pending. A mismatch is reported as blkMismatch says.

R170: the sum of an integer pass is exact while its magnitude stays below 2^24, whatever the order of its terms.

R170: a product that is a NaN, or infinities of opposite sign, make the element the NaN 0x7FC00000, whatever it held.

R172: the tiles of a mismatching pass are poisoned, and source 5 is pending when one was not. -/
def Obligations.MatrixPassesIssueAndEnd : Prop :=
 (∀ (b : BlockId) (shape fa fb : Fin 16) (acc : Fin 64) (accum shingle : Bool) (sa sb sd : Fin 32) (ia ib : BitVec 12)
    (s s1 : State), BlkIssues b s s1 →
    let k := s1.blk b
    let desc := k.sreg sd
    let p := mmPass shape fa fb acc accum shingle (k.sreg sa + BitVec.ofNat 64 (ia.toNat * 32)).toNat
      (k.sreg sb + BitVec.ofNat 64 (ib.toNat * 32)).toNat desc.toNat
    let i := Instr.mm b shape fa fb acc accum shingle false sa sb sd ia ib
    let legal := desc.getLsbD 63 = false ∧ desc.getLsbD 22 = false ∧ mmLegal shape fa fb shingle = true ∧ 0 < p.len ∧
      p.len ≤ (if fa = 8 ∨ fa = 9 then 960 else 1920) ∧ (shape.val = 1 ∨ p.rows ≤ 32)
    let inside := fun (r : Nat × Nat) => r.1 % 32 = 0 ∧ r.1 + r.2 ≤ 0xC0000
    let free := s1.passAllowed = true ∧ (∀ q ∈ k.passes, q.len * (if q.fmtA = 8 ∨ q.fmtA = 9 then 2 else 1) + 32 ≤
        (s1.ridge.cycles - q.bornCycles) / 80) ∧ ∀ t ∈ p.tiles, s1.tileBusy b (0xC0000 + t * 0x1000) 0x1000 = false
    (legal → (∀ r ∈ p.regions, inside r) → (∀ t ∈ p.tiles, t ≤ 63) → free →
      Ends i s fun t => BlkDoes b ((k.pc + 8) % 2 ^ 64) (fun x => { x with
        passes := x.passes ++ [{ p with bad := s1.regionBads (spadBase b) p, bornCycles := s1.ridge.cycles,
                                        snap := KMap.slice s1.mem (spadBase b) 0xC0000 0 }],
        issued := x.issued + 1 }) s1 t) ∧
    (legal → (∀ r ∈ p.regions, inside r) → (∀ t ∈ p.tiles, t ≤ 63) → ¬ free → EndsAs i s s1) ∧
    (¬ legal → EndsAs i s (s1.blkFault b 0x60 k.pc)) ∧
    EndsAs (.mm b shape fa fb acc accum shingle true sa sb sd ia ib) s (s1.blkFault b 0x60 k.pc) ∧
    (∀ r ls rs, legal → p.regions = ls ++ r :: rs → (∀ q ∈ ls, inside q) → ¬ inside r → EndsAs i s (s1.blkFault b 0x61 r.1)) ∧
    (legal → (∀ r ∈ p.regions, inside r) → (∃ t ∈ p.tiles, 63 < t) →
      EndsAs i s (s1.blkFault b 0x61 (0xC0000 + acc.val * 0x1000)))) ∧
 (∀ (b : BlockId) (late : List Nat) (p : Pass) (rest : List Pass) (s : State), (s.blk b).passes = p :: rest →
    s.badWords = [] → p.bad = [] → p.shape ≤ 3 → p.cols ≤ 32 → (p.shape = 3 → p.rows ≤ 32) →
    let base := spadBase b + 0xC0000
    let rd := fun off n => (List.range n).map fun i =>
      if late.contains ((off + i) / 128) then s.byte (spadBase b + off + i) else KMap.get 0 p.snap (off + i)
    Ends (.passEnd b late none) s fun t =>
      (∀ i < p.outRows, ∀ n < p.cols, leNat (t.rawRead (base + p.outOff i n) 4) =
        passElem (p.terms rd i n) (leNat (s.rawRead (base + p.outOff i n) 4)) p.accum % 2 ^ 32) ∧
      (∀ x, (∀ i < p.outRows, ∀ n < p.cols, x < base + p.outOff i n ∨ base + p.outOff i n + 4 ≤ x) → t.byte x = s.byte x) ∧
      t.blk b = { s.blk b with passes := rest, pend := (s.blk b).pend ||| 16 } ∧ t.regs = s.regs ∧ t.tens = s.tens) ∧
 (∀ l : List Int, |l.sum| < 2 ^ 24 →
    (fp32.decode (passElem (l.map fun x => .fin (x < 0) x.natAbs 0) 0 false)).toInt = l.sum) ∧
 (∀ (l r : List Machine.Num) (old : Nat) (accum : Bool), passElem (l ++ .nan :: r) old accum = 0x7FC00000) ∧
 (∀ (b : Nat) (l : List Nat) (s : State),
    (∀ t ∈ l, t < 64 → (s.poisonTiles b l).rtest .BLK_POISON [b] t = true) ∧
    (∀ t < 64, t ∉ l → (s.poisonTiles b l).rtest .BLK_POISON [b] t = s.rtest .BLK_POISON [b] t) ∧
    (s.poisonTiles b l).mem = s.mem ∧
    ((∃ t ∈ l, s.rtest .BLK_POISON [b] t = false) → ((s.poisonTiles b l).blk b).pend.getLsbD 5 = true))

/-- R159, R163: a Great Array reads its list ahead in order, one published entry at a time and at most 16 ahead; a read that fails is
0x74 with reason 0x7 (for another status than DATA_ERROR the model's choice, assumption 49). A read that leaves the device waits for
its response.

R176: a retired Great Array gives its head entry to CQ1 as RUN entries, one for each Block of the Tenancy in the District, each with
the entry's wait; when the last of them has completed the entry's SEQ is reported and its signal made. A Tenancy with no Block there
gets 0x76.

R159, R160, R163: the head entry, once its wait is met and while the array is not halted, completes as a NOP, issues as a pass or as a
conversion, or is rejected with 0x74 and its signal made; until then it stays. A NOP is rejected only for a must-be-zero field.

R156, R162, R165: a pass issues once passes may start, no stream runs and no pass or conversion in flight uses its tiles; a conversion
once no other runs and no pass in flight uses its tiles.

R156, R161, R170, R172, R173: the oldest pass of a Great Array ends: each element of its output takes its value and no other byte of
memory changes, its SEQ is reported and its signal made. An uncorrectable operand line that it read, and a mismatch, poison its tiles;
a parity error in an old result poisons that result's tile.

R162: a conversion ends: every row is rounded to the output format and written with its scales, and no other byte of memory changes. -/
def Obligations.GreatArraysRunTheirLists : Prop :=
 (∀ (d : Dist) (now t : Nat) (c : GaCtl) (s s2 : State),
    let s0 := s.at now
    let g := s0.ga d
    let i := g.index + g.ahead.length
    let a := c.list + 64 * i
    let reads := i < c.entries ∧ i < s0.fget F.EVC_VALUE [d.val, c.feed] ∧ g.ahead.length < 16
    (s0.gaCtl d = none → EndsAs (.gaListFetch d now) s s0) ∧
    (s0.gaCtl d = some (t, c) →
      (¬ reads → s0.fget F.GA_STATUS_EMULATED [d.val] = 0 → EndsAs (.gaListFetch d now) s s0) ∧
      (¬ reads → s0.fget F.GA_STATUS_EMULATED [d.val] = 1 → EndsAs (.gaListFetch d now) s (s0.gaEmulate d)) ∧
      (reads → g.log = [] → requests false a 64 = [(a, 64)] → s2.fget F.GA_STATUS_EMULATED [d.val] = 0 →
        (∀ st l, st < farTag → s0.issue (gaIssuer d t) .rd (gaKey d) a 64 [] false = (some (st, l), s2) →
          (st = 0 → EndsAs (.gaListFetch d now) s
            (s2.updGa d fun g => { g with log := [], ahead := g.ahead ++ [⟨elems 8 l, 0⟩] })) ∧
          (st ≠ 0 → (s2.gaErr d 0x74 7 i t (st == 0x15)).fget F.GA_STATUS_EMULATED [d.val] = 0 → EndsAs (.gaListFetch d now) s
            ((s2.gaErr d 0x74 7 i t (st == 0x15)).updGa d fun g => { g with log := [], ahead := g.ahead ++ [⟨elems 8 l, st⟩] }))) ∧
        (s0.issue (gaIssuer d t) .rd (gaKey d) a 64 [] false = (none, s2) →
          EndsAs (.gaListFetch d now) s (s2.updGa d fun g => { g with log := [] })) ∧
        (∀ q, s0.issue (gaIssuer d t) .rd (gaKey d) a 64 [] false = (some (farTag + 2 * q, []), s2) → s2.fabResult q = none →
          EndsAs (.gaListFetch d now) s (s2.updGa d fun g => { g with log := [(farTag + 2 * q, [])] }))))) ∧
 (∀ (d t : Nat) (v : Ten) (e : GaEntry) (s s1 : State), s.gaHead d = (some (t, e), s1) → s1.ten t = some v →
    let i := (s1.ga d).index
    let l := s1.emuEntries d t e i
    let q := KMap.get [] (s1.dist d).cq 1
    (s1.gaReason e ≠ 0 → s.gaEmulate d = ((s1.gaPop d).gaSignal d (e.w 1)).gaErr d 0x74 (s1.gaReason e) i t) ∧
    (s1.gaReason e = 0 → (∀ p ∈ v.blocks, p.2 / 256 ≠ d) → s.gaEmulate d = (s1.gaPop d).gaErr d 0x76 0 i t) ∧
    (s1.gaReason e = 0 → l ≠ [] → q.length + l.length ≤ 1024 → s.gaEmulate d =
      ((s1.gaPop d).updDist d (fun x => { x with
        cq := KMap.set [] x.cq 1 (q ++ l), ga := { x.ga with emu := KMap.set none x.ga.emu i (some (e.w 0, e.w 1)) } })).updRun t (fun r => { r with emulated := true })) ∧
    (s1.gaReason e = 0 → l ≠ [] → 1024 < q.length + l.length → s.gaEmulate d = s1) ∧
    l.length = (v.blocks.filter (fun p => p.2 / 256 == d)).length ∧
    (t < 64 → (∀ p ∈ v.blocks, p.1 < 1024) → ∀ x ∈ l, x.emu = some i ∧ x.kind = 1 ∧ x.ten = t ∧ x.w1.testBit 52 = false ∧
      x.w1.testBit 63 = (e.w 1).testBit 63 ∧ bits x.w1 62 53 = bits (e.w 1) 62 53 ∧ bits x.w1 31 0 = bits (e.w 1) 31 0)) ∧
 (∀ (d i w0 w1 : Nat) (s : State), KMap.get none (s.dist d).ga.emu i = some (w0, w1) →
    (s.emuLeft d i = true → s.emuDone d (some i) = s) ∧
    (s.emuLeft d i = false → s.emuDone d (some i) =
      (s.updGa d (fun g => { g with emu := KMap.set none g.emu i none })).gaComplete d w0 w1)) ∧
 (∀ (d : Dist) (now t : Nat) (e : GaEntry) (s s1 : State), (s.at now).gaHead d = (some (t, e), s1) →
    let g := s1.ga d
    let p := gaPassOf e
    let popped := s1.gaPop d
    let goes := s1.gaWaitMet d e = true ∧ g.halted = false ∧ s1.fget F.GA_STATUS_EMULATED [d.val] ≠ 1
    let used := tilesMeet p.tiles (g.convTiles ++ g.passes.flatMap Pass.tiles)
    let rejected := (popped.gaSignal d (e.w 1)).gaErr d 0x74 (s1.gaReason e) g.index t
    (¬ goes → EndsAs (.gaNop d now) s s1 ∧ EndsAs (.gaPass d now) s s1 ∧ EndsAs (.gaConvert d now) s s1) ∧
    ((e.kind ≠ 0 → EndsAs (.gaNop d now) s s1) ∧ (e.kind = 0 ∨ e.kind = 2 → EndsAs (.gaPass d now) s s1) ∧
      (e.kind ≠ 2 → EndsAs (.gaConvert d now) s s1)) ∧
    (goes → s1.gaReason e ≠ 0 → (e.kind = 0 → EndsAs (.gaNop d now) s rejected) ∧
      (e.kind = 1 ∨ 3 ≤ e.kind → EndsAs (.gaPass d now) s rejected) ∧ (e.kind = 2 → EndsAs (.gaConvert d now) s rejected)) ∧
    (goes → s1.gaReason e = 0 →
      (e.kind = 0 → EndsAs (.gaNop d now) s (popped.gaComplete d (e.w 0) (e.w 1))) ∧
      (e.kind = 1 →
        let free := s1.passAllowed = true ∧ used = false ∧
          ∀ q ∈ g.passes, (s1.ridge.cycles - q.bornCycles) / 80 ≥ q.len * (if q.fmtA = 8 ∨ q.fmtA = 9 then 2 else 1) + 256
        (∀ q ∈ g.passes, 16 ≤ q.shape) →
        (free → EndsAs (.gaPass d now) s (popped.updGa d fun x => { x with passes := x.passes ++
          [{ p with bad := s1.regionBads (gaBase d) p, index := g.index, bornCycles := s1.ridge.cycles,
                    snap := KMap.slice s1.mem (gaBase d) 0x1000000 0 }] })) ∧
        (¬ free → EndsAs (.gaPass d now) s s1)) ∧
      (e.kind = 2 →
        let free := g.conv = none ∧ tilesMeet (gaConvOf e).tiles (g.passes.flatMap Pass.tiles) = false
        (free → EndsAs (.gaConvert d now) s (popped.updGa d fun x => { x with conv := some { gaConvOf e with index := g.index } })) ∧
        (¬ free → EndsAs (.gaConvert d now) s s1))) ∧
    (e.kind = 0 → (s1.gaReason e = 0 ↔ e.mbz = false))) ∧
 (∀ (d : Dist) (late : List Nat) (bad : Option (Option (Fin 256))) (now : Nat) (p : Pass) (rest : List Pass) (s : State),
    (s.ga d).passes = p :: rest → 16 ≤ p.shape → p.cols ≤ 256 → p.acc + cdiv p.len 256 ≤ 16 →
    let base := gaBase d + 0x1000000
    let rd := fun off n => (List.range n).map fun i =>
      if late.contains ((off + i) / 128) then s.byte (gaBase d + off + i) else KMap.get 0 p.snap (off + i)
    Ends (.gaPassEnd d late bad now) s fun t => (t.ga d).passes = rest ∧ (t.ga d).index = (s.ga d).index ∧
      t.fget F.GA_STATUS_LAST_SEQ [d.val] = bits p.w0 31 0 ∧
      (s.badWords = [] → ∀ i < p.outRows, ∀ n < p.cols, leNat (t.rawRead (base + p.outOff i n) 4) =
        passElem (p.terms rd i n) (leNat (s.rawRead (base + p.outOff i n) 4)) p.accum % 2 ^ 32) ∧
      (∀ x, (∀ i < p.outRows, ∀ n < p.cols, x < base + p.outOff i n ∨ base + p.outOff i n + 4 ≤ x) → t.byte x = s.byte x) ∧
      (bad.isSome = true ∨ s.passBads (gaBase d) p late ≠ [] → ∀ x ∈ p.tiles, t.rtest .GA_POISON [d.val] x = true) ∧
      (∀ x ∈ s.oldBads base p (p.results rd (fun off n => s.rawRead (base + off) n)),
        t.rtest .GA_POISON [d.val] ((x - base) / 0x40000) = true)) ∧
 (∀ (d : Dist) (now : Nat) (c : GaConv) (s : State), (s.ga d).conv = some c → c.cols ≤ 256 → c.fmt ≤ 9 →
    c.acc + cdiv c.len 256 ≤ 16 → c.out + c.len * c.pitch ≤ 0x1000000 → c.scale + c.len * c.groups ≤ 0x1000000 →
    let row := fun r => c.row ((elems 4 (s.rawRead (gaBase d + 0x1000000 + (c.acc + r / 256) * 0x40000 + r % 256 * 1024)
      (4 * c.cols))).map fp32.decode)
    let outAt := fun r => gaBase d + c.out + r * c.pitch
    let scaleAt := fun r => gaBase d + c.scale + r * c.groups
    Ends (.gaConvertEnd d now) s fun t => (t.ga d).conv = none ∧ (t.ga d).passes = (s.ga d).passes ∧
      t.fget F.GA_STATUS_LAST_SEQ [d.val] = bits c.w0 31 0 ∧
      (s.badWords = [] → c.out + c.len * c.pitch ≤ c.scale ∨ c.scale + c.len * c.groups ≤ c.out ∨ fmtMx c.fmt = false →
        ∀ r < c.len, t.rawRead (outAt r) (row r).1.length = (row r).1 ∧ t.rawRead (scaleAt r) (row r).2.length = (row r).2) ∧
      (∀ x, (∀ r < c.len, (x < outAt r ∨ outAt r + (row r).1.length ≤ x) ∧
        (x < scaleAt r ∨ scaleAt r + (row r).2.length ≤ x)) → t.byte x = s.byte x))

/-- R133: a command of `n` moves makes `n` moves of its descriptor, one after another; a move of a descriptor that has ended, whose turn
it is not, whose step does not run, or whose last unit its ring has not taken changes nothing.

R133, R136, R139, R143: a move of a COPY, GATHER, DISPATCH or FILL whose requests lie here takes the next piece of its stream, which
ends at the end of a row and at a multiple of 4 KiB: the index of the row is read where there is one, then the row, and what it gave
is written at the place of the row, or added there by a REDUCE; each request counts its bytes. A request of a read that fails ends
the descriptor with its status, as 0x63. A request that leaves the device is sent, and its response is written when it has come.

R134: before a REDUCE that its indices scatter moves anything, they are read; it is rejected, as 0x62, when one of them takes a row
out of the Block scratchpad windows or off a line (that they are read first is the model's reading, assumption 43).

R134, R137, R138, R142, R147, R151: a descriptor that has ended leaves, sends its post when POST_EN is set, and reports its bytes and
its status: a Block's in the status word of its tag, with source 0 pending by IRQ and source 1 by a failure; a channel's in
DMA_CH_STATUS, with the address that failed in DMA_CH_ERR and the DMA interrupt of its District by IRQ. One that has not ended is not
completed. That a rejected one is not captured in DMA_CH_ERR is the model's choice (assumption 38).

R143: the running descriptor of a channel reserves pool space when the pool has room, and PEAK_KIB follows; it reserves nothing when
there is no room.

R140: a ring transfer puts together units of 128 bytes, the last one less. A unit goes to the write position of its partition, padded
with zeros to 128 bytes, when that has room and it is the transfer's turn; source 2 becomes pending when AVAIL was zero.

R19, R21: with no link retired, a transfer to a neighbour crosses one link and a transfer to the opposite District two, at 32
fclk a hop; a retired direct link moves the path to the other direction.

R21, R22, R418: a link whose retries have reached its limit is retired, as RING_STATUS shows; a District out of reach
terminates the chip. -/
def Obligations.DescriptorsMoveTheirBytes : Prop :=
 (∀ (op id n now : Nat) (j : DmaJob) (s : State), 1 ≤ op → op ≤ 5 → (s.at now).job id = some j → j.op = op →
    EndsAs (moveCmd op id n now) s (Nat.repeat (fun t => (t.dmaMove id).ctlServe id) n (s.at now)) ∧
    ((s.at now).dmaRuns j = false ∨ j.ringUnit ≠ none ∨ j.stream ≤ j.bytes → (s.at now).dmaMove id = s.at now)) ∧
 (∀ (id now src dst : Nat) (j : DmaJob) (l : List Byte) (s s1 s2 t : State),
    let p := j.bytes
    let c := p % j.rowBytes
    let n := min (min (j.stream - p) (4096 - p % 4096)) (j.rowBytes - c)
    DmaGoes id j (s.at now) → 1 ≤ j.op → j.op ≤ 5 → j.op ≠ 2 → j.ring = false → j.skewed = none → j.unchecked = false →
    DmaRowAt j (p / j.rowBytes) src dst (s.at now) s1 → DmaData j (src + c) c n s1 l s2 →
    DmaWrites j (dst + c) l (requests true (dst + c) l.length) s2 t → EndsAs (moveCmd j.op id 1 now) s (moveEnd id t)) ∧
 (∀ (id now st a m : Nat) (j : DmaJob) (l : List Byte) (rest : List (Nat × Nat)) (s s1 : State),
    let c := j.bytes % j.rowBytes
    let n := min (min (j.stream - j.bytes) (4096 - j.bytes % 4096)) (j.rowBytes - c)
    let from_ := (j.src + j.bytes / j.rowBytes * j.srcStride) % 2 ^ 64 + c
    DmaGoes id j (s.at now) → j.op = 1 → j.ring = false → j.skewed = none → j.unchecked = false →
    requests false from_ n = (a, m) :: rest → PoolOk j m (s.at now) →
    let s0 := pooled j (fun x => { x with reserved := x.reserved - m, held := x.held + m }) (s.at now)
    (farAddr a = false → st ≠ 0 → st < farTag → s0.issue j.issuer .dmaRd j.key a m [] false = (some (st, l), s1) →
      EndsAs (.dmaCopy id 1 now) s (moveEnd id (s1.dmaFail id st a))) ∧
    (∀ (b tag q : Nat) (y : List Byte) (s2 t : State), j.owner = .blk b tag → farAddr a = true → rest = [] →
      s0.issue j.issuer .dmaRd j.key a m [] false = (some (farTag + 2 * q, []), s1) →
      (s1.fabResult q = none → EndsAs (.dmaCopy id 1 now) s
        ((s1.updJob id fun x => { x with log := [(farTag + 2 * q, [])] }).ctlServe id)) ∧
      (∀ u : State, (u.at now).job id = some { j with log := [(farTag + 2 * q, [])] } →
        (u.at now).dmaRuns { j with log := [(farTag + 2 * q, [])] } = true → (u.at now).fabResult q = some (0, y) →
        s2 = ((u.at now).fabDrop q).updJob id (fun x => { x with far := x.far + 1 }) →
        let to_ := (j.dst + j.bytes / j.rowBytes * j.dstStride) % 2 ^ 64 + c
        DmaWrites j to_ y (requests true to_ y.length) s2 t → EndsAs (.dmaCopy id 1 now) u (moveEnd id t)))) ∧
 (∀ (id now : Nat) (ok : Bool) (j : DmaJob) (s t : State), DmaGoes id j (s.at now) → j.op = 3 ∨ j.op = 4 → j.unchecked = true →
    DmaIndices j 0 (s.at now) ok t →
    (ok = true → EndsAs (moveCmd j.op id 1 now) s (moveEnd id (t.updJob id fun x => { x with checked := true }))) ∧
    (ok = false → EndsAs (moveCmd j.op id 1 now) s
      (moveEnd id ((t.updJob id fun x => { x with status := some 0x10, reserved := 0, held := 0 }).dmaReject j)))) ∧
 (∀ (id now : Nat) (j : DmaJob) (s : State),
    let s0 := s.at now
    let st := j.status.getD 0
    let gone := fun src => ({ s0 with dma := s0.dma.filter (fun x => x.id != id),
                                      posts := if (j.w 7).testBit 63 then s0.posts ++
                                        [⟨src, j.ten, bits (j.w 7) 62 53, bits (j.w 7) 52 49, 1, []⟩] else s0.posts } : State)
    s0.job id = some j →
    (j.status = none → j.bytes < j.stream ∨ j.ringUnit ≠ none ∨ j.log ≠ [] → EndsAs (.dmaDescriptorComplete id now) s s0) ∧
    (j.status ≠ none ∨ (j.stream ≤ j.bytes ∧ j.ringUnit = none ∧ j.log = []) →
      (∀ b tag, j.owner = .blk b tag →
        let s1 := (gone b).updBlk b (fun x => { x with tagStat := KMap.set 0 x.tagStat tag (j.bytes % 2 ^ 32 * 256 + st) })
        let s2 := if j.irq then s1.blkPend b 0 else s1
        EndsAs (.dmaDescriptorComplete id now) s (if st ≠ 0 then s2.blkPend b 1 else s2)) ∧
      (∀ d c, j.owner = .ch d c →
        ((s0.dma.find? (fun x => x.owner == .ch d c)).map DmaJob.id = some id →
          let s1 := (gone (1024 + d * 64 + c)).fsets [d, c] [(F.DMA_CH_STATUS_LAST_STATUS, st), (F.DMA_CH_STATUS_BYTES_DONE, j.bytes)]
          let s2 := if st = 0 ∨ st = 0x10 then s1 else s1.captureFirst F.DMA_CH_ERR_VALID [d, c] [(F.DMA_CH_ERR_ADDR, j.errAddr)]
          EndsAs (.dmaDescriptorComplete id now) s (if j.irq then s2.srcEvent (.priv d 2) else s2)) ∧
        ((s0.dma.find? (fun x => x.owner == .ch d c)).map DmaJob.id ≠ some id → EndsAs (.dmaDescriptorComplete id now) s s0)))) ∧
 (∀ (d : Dist) (c : Fin 64) (n now : Nat) (j : DmaJob) (s : State),
    (s.at now).dma.find? (fun x => x.owner == .ch d c) = some j →
    (j.status = none → 0 < n → n ≤ 4096 → (s.at now).poolRoom d c n = true →
      let t := (s.at now).updJob j.id fun x => { x with reserved := x.reserved + n }
      EndsAs (.dmaReadIssue d c n now) s (t.fset F.DMA_POOL_STATUS_PEAK_KIB [d]
        (max ((((List.range 64).map (fun k => t.poolUse d k)).sum + 1023) / 1024) (t.fget F.DMA_POOL_STATUS_PEAK_KIB [d])))) ∧
    (j.status ≠ none ∨ n = 0 ∨ 4096 < n ∨ (s.at now).poolRoom d c n = false → EndsAs (.dmaReadIssue d c n now) s (s.at now))) ∧
 (∀ (id now : Nat) (j : DmaJob) (l : List Byte) (s t : State), DmaGoes id j (s.at now) → 1 ≤ j.op → j.op ≤ 5 → j.ring = true →
    j.unchecked = false →
    let n := min 128 (j.stream - j.bytes)
    (j.op ≠ 2 → j.skewed = none → DmaUnit j n (s.at now) [] t l →
      EndsAs (moveCmd j.op id 1 now) s (moveEnd id (t.updJob id fun x => { x with ringUnit := some l }))) ∧
    (∀ y, j.skewed = some y → EndsAs (moveCmd j.op id 1 now) s
      (moveEnd id ((s.at now).updJob id fun x => { x with ringUnit := some ((y.drop j.bytes).take n) })))) ∧
 (∀ (id now b st : Nat) (j : DmaJob) (p : RingPart) (l : List Byte) (s s1 : State),
    let s0 := s.at now
    let a := j.dst + p.base + p.wr % p.size
    let unit := l ++ List.replicate (128 - l.length) 0
    s0.job id = some j → j.ringUnit = some l → s0.ringBlock j = some b → (s0.blk b).part j.part = some p →
    (p.size < p.avail + 128 ∨ s0.ringTurn b j = false → EndsAs (.ringUnitWrite id now) s s0) ∧
    (p.avail + 128 ≤ p.size → s0.ringTurn b j = true →
      (j.reduce = 0 → s0.issue j.issuer .dmaWr j.key a 128 unit false = (some (st, []), s1)) →
      (j.reduce ≠ 0 → s0.reduceLine j.issuer j.reduce a unit = (st, s1)) →
      (st ≠ 0 → EndsAs (.ringUnitWrite id now) s (s1.dmaFail id st a)) ∧
      (st = 0 →
        let s2 := s1.updBlk b (fun x => x.setPart j.part { p with wr := p.wr + 128 })
        let s3 := if p.avail = 0 then s2.blkPend b 2 else s2
        EndsAs (.ringUnitWrite id now) s (s3.updJob id fun x =>
          { x with ringUnit := none, bytes := x.bytes + l.length, held := x.held - l.length })))) ∧
 ((∀ (a b : Dist) (bit7 : Bool) (now : Nat) (s : State), (∀ l < 4, (s.at now).linkRetired l = false) →
    Ends (.ringTransfer a b bit7 [] now) s fun t => t.regs = s.regs ∧ t.mem = s.mem ∧
      t.out.value = 32 * (if a = b then 0 else if (b.val + 4 - a.val) % 4 = 2 then 2 else 1)) ∧
  (∀ (a : Dist) (bit7 : Bool) (now : Nat) (s : State), (∀ l < 4, (s.at now).linkRetired l = decide (l = a.val)) →
    Ends (.ringTransfer a (a + 1) bit7 [] now) s fun t => t.out.value = 32 * 3)) ∧
 ((∀ (l : Fin 4) (now : Nat) (s : State), (s.at now).linkRetired l = false → unitKey 6 l ∉ s.ridge.decided →
    s.fget F.RET_LIMITS2_RING_N [] ≤ KMap.get 0 s.ridge.counts (unitKey 6 l) →
    Ends (.ringLinkRetire l now) s fun t => t.linkRetired l = true ∧ unitKey 6 l ∈ t.ridge.decided ∧ t.mem = s.mem) ∧
  (∀ (d : Dist) (spoke : Bool) (links : List (Fin 4)) (now : Nat) (s : State), s.fget F.RIDGE_STATUS_STATE [] ≠ 2 →
    (spoke = true ∨ (d ∈ links ∧ d + 3 ∈ links) ∨
      (∃ l ∈ links, (l = d ∨ l = d + 3) ∧ ∃ m, m ≠ l ∧ s.linkRetired m.val = true)) →
    Ends (.districtUnreachable d (spoke, links) now) s fun t => t.ridge.terminate = true ∧ t.mem = s.mem ∧ t.tens = s.tens ∧
      (spoke = true → t.rtest .RING_STATUS [] (8 + d.val) = false) ∧ ∀ l ∈ links, t.rtest .RING_STATUS [] l.val = false))

/-- R135: the first move of a SKEW whose source lies here reads all its rows and skews them; each later one writes the next piece of the
skewed lines, which ends at a multiple of 4 KiB.

R135: the skewed form has S + L − 1 lines of the pitch of its lanes; lane l of each line holds the element of step line − l, of row
line − l, or with STEP_AXIS of row l, and zero where there is none. -/
def Obligations.SkewedLinesHoldTheirElements : Prop :=
 (∀ (id now : Nat) (j : DmaJob) (rows : List (List Byte)) (s t : State), DmaGoes id j (s.at now) → j.op = 2 → j.skewed = none →
    DmaRows j 0 (s.at now) rows t →
    EndsAs (.dmaSkew id 1 now) s (moveEnd id (t.updJob id fun x => { x with skewed := some (j.skewAll rows) }))) ∧
 (∀ (id now : Nat) (j : DmaJob) (l : List Byte) (s t : State), DmaGoes id j (s.at now) → j.op = 2 → j.ring = false →
    j.skewed = some l →
    let part := (l.drop j.bytes).take (min (j.stream - j.bytes) (4096 - j.bytes % 4096))
    DmaWrites j (j.dst + j.bytes) part (requests true (j.dst + j.bytes) part.length) (s.at now) t →
    EndsAs (.dmaSkew id 1 now) s (moveEnd id t)) ∧
 (∀ (j : DmaJob) (rows : List (List Byte)) (line l : Nat), line < j.skewLines → l < j.lanes → 0 < j.esize →
    let w := j.esize
    let pitch := 32 * ((j.lanes * w + 255) / 256)
    let row := if j.stepAxis then l else line - l
    let at_ := if j.stepAxis then line - l else l
    (j.skewAll rows).length = j.skewLines * pitch ∧
    bitField (j.skewAll rows) (line * pitch * 8 + l * w) w =
      (if l ≤ line ∧ line - l < j.steps ∧ (at_ + 1) * w ≤ j.rowBytes * 8 then bitField ((rows[row]?).getD []) (at_ * w) w else 0))

/-- R180, R182, R214: an idle engine whose head job's step runs starts it, with the queue moving up; a descriptor that fails a check
ends with status 0x10 and its reason; another takes its work area. A NOP ends at once, or is rejected for a field that must be zero.

R185, R186: ROUTE starts its job, and loads the biases and the mask that the job has; with neither a job goes on to selection.

R186 to R190: ROUTE_CHUNK_SELECT selects the tokens of the chunk in progress one by one; a token's row of scores is read once its
chunk is ready, what it selects is added, FREE_EVC is raised after the last token of a chunk, and selection ends after the last token
of the job. A read of scores that fails ends the job with 0x81.

R191 to R204: when every token is selected, ROUTE settles capacity, applies or predicts the limit, writes and publishes the demand
list, writes each expert's dispatch entries and then holds its EXPERT entries.

R196: a held EXPERT entry enters CQ0 when it has room.

R180, R182, R202: RE_JOB_COMPLETE writes the record of the ended job after its deferred list; then the job's counter is raised and its
interrupt made. A NOP writes no record.

R215: of two failures in one cclk the lower code is captured, and OVERFLOW set. -/
def Obligations.RoutingEngineRunsItsJobs : Prop :=
 (∀ (d op : Nat) (reason : State → EngJob → Nat) (use : State → EngJob → State) (s : State),
    let e := s.re d
    (e.running ≠ none ∨ e.queue = [] → s.reStart d op reason use = s) ∧
    (∀ j rest, e.running = none → e.queue = j :: rest →
      (s.reWorks j.ten = false ∨ (if 3 < j.op then 1 else j.op) ≠ op → s.reStart d op reason use = s) ∧
      (s.reWorks j.ten = true → (if 3 < j.op then 1 else j.op) = op →
        let c := s.ridge.cycles
        let t := s.updRe d fun x => { x with
          queue := rest, routes := (if j.op = 1 then x.routes + 1 else x.routes),
          running := some { job := j, index := s.fget F.RE_STATUS_JOBS [d], startCyc := c, selStart := c, selEnd := c } }
        (reason t j = 0 → s.reStart d op reason use = use t j) ∧
        (reason t j ≠ 0 → s.reStart d op reason use = t.reFail d 0x80 (reason t j) 0x10 0)))) ∧
 (∀ (d : Dist) (now : Nat) (s : State),
    let s0 := (s.at now).reStart d 0 (fun _ j => if reNopMbz j then 2 else 0) (fun s _ => s)
    ((s0.re d).running = none → EndsAs (.reNop d now) s s0) ∧
    (∀ r, (s0.re d).running = some r → (r.job.op ≠ 0 → EndsAs (.reNop d now) s s0) ∧
      (r.job.op = 0 → EndsAs (.reNop d now) s (s0.updReRun d fun r => { r with phase := 9, ended := true })))) ∧
 (∀ (d : Dist) (now : Nat) (s : State),
    let s0 := (s.at now).reStart d 1 (fun s j => s.routeReason j)
      (fun s j => s.useWork d (bits (j.w 12) 31 0) (6 * RouteJob.tokens j * RouteJob.k j + 16 * RouteJob.experts j))
    ((s0.re d).running = none → EndsAs (.route d now) s s0) ∧
    (∀ r, (s0.re d).running = some r → s0.reWorks r.job.ten = false ∨ r.ended = true ∨ r.job.op ≠ 1 ∨ r.phase ∉ [1, 3, 5] →
      EndsAs (.route d now) s s0) ∧
    (∀ r, ReGoes d r s0 → r.job.op = 1 →
      let j := r.job
      let i := reIssuer d j.ten
      (r.phase = 1 → ∀ b m s1 s2,
        (if RouteJob.biasEn j then Reads i (reKey d) (j.w 5) (4 * RouteJob.experts j) false s0 b s1 else b = [] ∧ s1 = s0) →
        (if RouteJob.maskEn j then Reads i (reKey d) (j.w 6) ((RouteJob.experts j + 7) / 8) false s1 m s2 else m = [] ∧ s2 = s1) →
        EndsAs (.route d now) s
          (s2.updReRun d fun r => { r with rows := [b, m], phase := 2, selStart := s2.ridge.cycles, log := [] })) ∧
      (r.phase = 3 →
        let x := settle j r.sel
        let bpe := match s0.ten j.ten with | some v => v.desc.blocksPerExpert | none => 1
        let top := fun toks => (blockLoads (placement j bpe (demandOrder j (keptCounts toks)))).foldl (fun m p => max m p.2) 0
        let lim := s0.routeLimit d j (top x.toks)
        let y := if lim.1 = 0xFFFFFFFF then x else deferForTime j bpe lim.1 x
        let plan := (planOf j (placement j bpe (demandOrder j (keptCounts y.toks)))).zipIdx
        ∀ s1 s2, DemandsOf d j plan (lim.2.routeCounts d j y lim.1 (top y.toks)) s1 →
          DispatchesOf d j y.toks plan (s1.updReRun d fun r => { r with phase := 5 }) s2 →
          EndsAs (.route d now) s (s2.updReRun d fun r => { r with phase := 9, ended := true, log := [] })))) ∧
 (∀ (d : Dist) (now : Nat) (s : State),
    let s0 := s.at now
    ((s0.re d).running = none → EndsAs (.routeChunkSelect d now) s s0) ∧
    (∀ r, (s0.re d).running = some r →
      let j := r.job
      let i := r.sel.length
      let c := i / RouteJob.chunk j
      let a := RouteJob.rowAddr j i
      let n := RouteJob.experts j * RouteJob.esz j
      (j.op ≠ 1 → EndsAs (.routeChunkSelect d now) s s0) ∧
      (j.op = 1 → EndsAs (.routeChunkSelect d now) s (Nat.repeat (fun t => t.chunkToken d c) (RouteJob.chunk j) s0)) ∧
      (r.phase ≠ 2 ∨ i = RouteJob.tokens j ∨ s0.chunkReady d j c = false → s0.chunkToken d c = s0) ∧
      (s0.chunkReady d j c = true ↔ RouteJob.readyEn j = false ∨
        bits (j.w 4) 63 32 + c + 1 ≤ s0.fget F.EVC_VALUE [d.val, RouteJob.readyEvc j]) ∧
      (ReGoes d r s0 → j.op = 1 → r.phase = 2 → i ≠ RouteJob.tokens j → s0.chunkReady d j c = true →
        (∀ l s1, Reads (reIssuer d j.ten) (reKey d) a n false s0 l s1 → (s1.re d).running = some r →
          let q := selectToken j (scoresOf j l) (elems 4 (r.rows.headD []))
            fun x => ((((r.rows[1]?).getD [])[x / 8]?).getD 0).getLsbD (x % 8)
          let s2 := s1.updReRun d fun r => { r with sel := r.sel ++ [q.1], bad := r.bad + q.2, log := [] }
          let last := decide (i + 1 = RouteJob.tokens j)
          let s3 := if (last || (i + 1) % RouteJob.chunk j = 0) && RouteJob.freeEn j then s2.evcAdd d (RouteJob.freeEvc j) 1 else s2
          s0.chunkToken d c = if last then s3.updReRun d (fun r => { r with phase := 3, selEnd := s3.ridge.cycles }) else s3) ∧
        (∀ p m rest st l s1, requests false a n = (p, m) :: rest → st ≠ 0 → st < farTag →
          s0.issue (reIssuer d j.ten) .rd (reKey d) p m [] false = (some (st, l), s1) → (s1.re d).running = some r →
          s0.chunkToken d c = (s1.reFail d 0x81 0 0x11 i (st = St.dataError)).updReRun d (fun r => { r with log := [] }))))) ∧
 (∀ (d : Dist) (now : Nat) (s : State),
    let s0 := s.at now
    let q := KMap.get [] (s0.dist d).cq 0
    ((s0.re d).held = [] → EndsAs (.expertEntryWrite d now) s s0) ∧
    (∀ x rest, (s0.re d).held = x :: rest → (1024 ≤ q.length → EndsAs (.expertEntryWrite d now) s s0) ∧
      (q.length < 1024 → EndsAs (.expertEntryWrite d now) s
        ((s0.updRe d fun y => { y with held := rest }).updDist d fun y => { y with cq := KMap.set [] y.cq 0 (q ++ [x]) })))) ∧
 (∀ (d : Dist) (now : Nat) (s : State),
    let s0 := s.at now
    ((s0.re d).running = none → EndsAs (.reJobComplete d now) s s0) ∧
    (∀ r, (s0.re d).running = some r → (r.ended = false ∨ s0.reWorks r.job.ten = false → EndsAs (.reJobComplete d now) s s0) ∧
      (r.ended = true → s0.reWorks r.job.ten = true → r.log = [] →
        let j := r.job
        let rec_ := (r.record ((r.selEnd - r.selStart) / 80) (s0.cclkSince r.startCyc)).flatMap (leBytes 8)
        let out := fun a l u v => Writes (reIssuer d j.ten) (reKey d) a (spoiled (s0.spoilOf d) a l) u v
        ∀ s1 s2, (if j.op = 0 ∨ r.deferred = [] then s1 = s0 else out (j.w 14 + 64) (r.deferred.flatMap (leBytes 4)) s0 s1) →
          (if j.op = 0 then s2 = s1 else out (j.w 14) rec_ s1 s2) →
          let s3 := if (j.w 15).testBit 13 then s2.evcAdd d (RouteJob.jobEvc j) 1 else s2
          let s4 := if (j.w 15).testBit 12 then s3.srcEvent (.priv d 3) else s3
          EndsAs (.reJobComplete d now) s (((s4.updRe d fun x => { x with running := none }).fadd F.RE_STATUS_JOBS [d.val] 1).fadd
            F.RE_ACTIVE_CCLK_COUNT [d.val] (s4.cclkSince r.startCyc))))) ∧
 (∀ (d code reason detail : Nat) (s : State), s.fget F.RE_ERR_VALID [d] = 1 → (s.re d).errNs = some s.now →
    code < s.fget F.RE_ERR_CODE [d] → reason < 16 →
    (s.reErr d code reason detail).fget F.RE_ERR_CODE [d] = code ∧ (s.reErr d code reason detail).fget F.RE_ERR_OVERFLOW [d] = 1 ∧
    (s.reErr d code reason detail).fget F.RE_ERR_VALID [d] = 1 ∧ (s.reErr d code reason detail).mem = s.mem)

/-- R191: no expert keeps more assignments than its capacity, whatever the overflow policy. -/
def Obligations.CapacityBoundsTheKeptAssignments : Prop :=
  ∀ (j : EngJob) (toks : List (List Asg)) (c x : Nat), RouteJob.capacity j = some c →
    (∀ l ∈ toks, l.length ≤ 16 ∧ ∀ (r : Nat) (a : Asg), l[r]? = some a → a.rank = r) →
    KMap.get 0 (keptCounts (settle j toks).toks) x ≤ c

/-- R210 to R213: RE_GATHER starts the head GATHER job; its IDs are read, and the distinct IDs in range are written in ascending order
with the inverse map; the job then goes on to its rows. GATHER_ROW_READ reads the next distinct row by one request where it is served
here, and writes it out; a row whose read fails is written as zeros, counted, logged as 0x85, and makes the job PARTIAL. A row that is
not here is asked for, and its response is taken when it has come. After the last row a job that pools goes on to its bags.

R212: GATHER_POOL pools the next bag from the rows of its lookups, with their weights; a breach of the offsets rejects the job with
0x87.

R207 to R209: NEURON starts its job, reads its ROUTE descriptor, is rejected when that published its list or its work area does not
fit, and refines each demand entry.

A command that finds no job of its kind in its phase changes nothing. -/
def Obligations.GatherAndNeuronJobs : Prop :=
 (∀ (d : Dist) (now : Nat) (s : State),
    let s0 := (s.at now).reStart d 2 (fun _ j => gatherReason j)
      (fun s j => s.useWork d (bits (j.w 12) 31 0) (16 * GatherJob.lookups j))
    ((s0.re d).running = none → EndsAs (.reGather d now) s s0) ∧
    (∀ r, (s0.re d).running = some r → s0.reWorks r.job.ten = false ∨ r.ended = true ∨ r.job.op ≠ 2 ∨ r.phase ≠ 1 →
      EndsAs (.reGather d now) s (s0.gatherRowsDone d)) ∧
    (∀ r, ReGoes d r s0 → r.job.op = 2 → r.phase = 1 → ∀ l s1 s2 s3,
      let j := r.job
      let ids := elems 8 l
      let uniq := sortedSet (ids.filter (· < j.w 4))
      let inv := ids.map fun x => match KMap.get 0 (placesOf uniq) x with | 0 => 0xFFFFFFFF | n + 1 => n
      let out := fun a l u v => Writes (reIssuer d j.ten) (reKey d) a (spoiled (u.spoilOf d) a l) u v
      Reads (reIssuer d j.ten) (reKey d) (j.w 1) (8 * GatherJob.lookups j) false s0 l s1 →
      out (j.w 11) (uniq.flatMap (leBytes 8)) s1 s2 → out (j.w 7) (inv.flatMap (leBytes 4)) s2 s3 →
      EndsAs (.reGather d now) s ((s3.updReRun d fun r => { r with
        uniq := uniq, inv := inv, count := uniq.length, phase := 7,
        dropped := (ids.filter (fun x => j.w 4 ≤ x)).length, log := [] }).gatherRowsDone d))) ∧
 (∀ (d : Nat) (s : State),
    ((s.re d).running = none → s.gatherRowsDone d = s) ∧
    (∀ r, (s.re d).running = some r →
      (r.job.op ≠ 2 ∨ r.phase ≠ 7 ∨ r.rows.length < r.uniq.length ∨ r.log ≠ [] → s.gatherRowsDone d = s) ∧
      (r.job.op = 2 → r.phase = 7 → r.uniq.length ≤ r.rows.length → r.log = [] → s.gatherRowsDone d = s.updReRun d fun r =>
        if GatherJob.pool r.job = 0 then { r with phase := 9, ended := true } else { r with phase := 8 }))) ∧
 (∀ (d : Dist) (now : Nat) (s : State),
    let s0 := (s.at now).gatherRowsDone d
    ((s0.re d).running = none → EndsAs (.gatherRowRead d now) s s0) ∧
    (∀ r, (s0.re d).running = some r → s0.reWorks r.job.ten = false ∨ r.ended = true ∨ r.job.op ≠ 2 ∨ r.phase ≠ 7 →
      EndsAs (.gatherRowRead d now) s s0) ∧
    (∀ r x, ReGoes d r s0 → r.job.op = 2 → r.phase = 7 → r.uniq[r.rows.length]? = some x →
      let j := r.job
      let a := (j.w 3 + x * GatherJob.stride j) % 2 ^ 64
      let n := GatherJob.rowBytes j
      let to_ := j.w 6 + r.rows.length * n
      let ends := fun (row : List Byte) (u v : State) => Writes (reIssuer d j.ten) (reKey d) to_ (spoiled (u.spoilOf d) to_ row) u v →
        EndsAs (.gatherRowRead d now) s ((v.updReRun d fun r => { r with rows := r.rows ++ [row], log := [] }).gatherRowsDone d)
      let lost := fun (u : State) =>
        let i := r.inv.idxOf r.rows.length
        let v := u.updReRun d fun r =>
          { r with failed := r.failed + 1, firstFailed := (if r.failed = 0 then x else r.firstFailed), status := 1 }
        (v.reErr d 0x85 0 i).distEv 0x85 d 0 j.ten i
      (lineAddr a = true → ∀ st l s1 s2, s0.issueLines (reIssuer d j.ten) (reKey d) a n = (some (st, l), s1) →
        (st = 0 → ends l s1 s2) ∧ (st ≠ 0 → ends (List.replicate n 0) (lost s1) s2)) ∧
      (lineAddr a = true → ∀ s1, s0.issueLines (reIssuer d j.ten) (reKey d) a n = (none, s1) →
        EndsAs (.gatherRowRead d now) s ((s1.updReRun d fun r => { r with log := [] }).gatherRowsDone d)) ∧
      (lineAddr a = false → requests false a n = [(a, n)] → ∀ q s1,
        s0.issue (reIssuer d j.ten) .rd (reKey d) a n [] true = (some (farTag + 2 * q, []), s1) → s1.fabResult q = none →
        EndsAs (.gatherRowRead d now) s
          ((s1.updReRun d fun r => { r with log := [(farTag + 2 * q, [])] }).gatherRowsDone d)))) ∧
 (∀ (d : Dist) (now : Nat) (s : State),
    let s0 := s.at now
    ((s0.re d).running = none → EndsAs (.gatherPool d now) s s0) ∧
    (∀ r, (s0.re d).running = some r → s0.reWorks r.job.ten = false ∨ r.ended = true ∨ r.job.op ≠ 2 ∨ r.phase ≠ 8 →
      EndsAs (.gatherPool d now) s s0) ∧
    (∀ r l s1, ReGoes d r s0 → r.job.op = 2 → r.phase = 8 →
      let j := r.job
      let b := r.kept
      let lo := leNat (l.take 4)
      let hi := leNat (l.drop 4)
      let good := (b = 0 → lo = 0) ∧ lo ≤ hi ∧ hi ≤ GatherJob.lookups j ∧ (b + 1 = GatherJob.bags j → hi = GatherJob.lookups j)
      let to_ := j.w 10 + b * 4 * GatherJob.width j
      Reads (reIssuer d j.ten) (reKey d) (j.w 8 + 4 * b) 8 false s0 l s1 →
      (¬ good → EndsAs (.gatherPool d now) s ((s1.reFail d 0x87 0xB 0x10 b).updReRun d fun r => { r with log := [] })) ∧
      (good → ∀ ws s2 s3,
        let w := elems 4 ws
        let rows := (List.range (hi - lo)).filterMap fun k =>
          ((r.inv[lo + k]?).bind fun u => r.rows[u]?).map fun x => (gatherElems j x, (w[k]?).getD 0)
        (if GatherJob.pool j = 2 ∧ lo < hi then Reads (reIssuer d j.ten) (reKey d) (j.w 9 + 4 * lo) (4 * (hi - lo)) false s1 ws s2
          else ws = [] ∧ s2 = s1) →
        Writes (reIssuer d j.ten) (reKey d) to_ (spoiled (s2.spoilOf d) to_ ((poolBag j rows).flatMap (leBytes 4))) s2 s3 →
        EndsAs (.gatherPool d now) s (s3.updReRun d fun r =>
          if b + 1 = GatherJob.bags j then { r with kept := b + 1, phase := 9, ended := true, log := [] }
          else { r with kept := b + 1, log := [] })))) ∧
 (∀ (d : Dist) (now : Nat) (s : State),
    let s0 := (s.at now).reStart d 3 (fun s j => s.neuronReason j) (fun s _ => s)
    ((s0.re d).running = none → EndsAs (.neuron d now) s s0) ∧
    (∀ r, (s0.re d).running = some r → s0.reWorks r.job.ten = false ∨ r.ended = true ∨ r.job.op ≠ 3 ∨ r.phase ∉ [1, 6] →
      EndsAs (.neuron d now) s s0) ∧
    (∀ r l s1, ReGoes d r s0 → r.job.op = 3 → r.phase = 1 →
      let j := r.job
      let off := bits (j.w 7) 31 0
      let route : EngJob := { ten := j.ten, words := elems 8 l }
      let n := 32 * RouteJob.experts route
      let shut := fun reason => EndsAs (.neuron d now) s ((s1.reFail d 0x80 reason 0x10 0).updReRun d fun r => { r with log := [] })
      Reads (reIssuer d j.ten) (reKey d) (j.w 1) 128 false s0 l s1 →
      (route.op ≠ 1 ∨ RouteJob.publish route = true → shut 8) ∧
      (route.op = 1 → RouteJob.publish route = false → workBad off n = true → shut 5) ∧
      (route.op = 1 → RouteJob.publish route = false → workBad off n = false → ∀ m s2 s3,
        Reads (reIssuer d j.ten) (reKey d) (route.w 14) 64 false
          ((s1.useWork d off n).updReRun d fun r => { r with phase := 6 }) m s2 →
        RefinesOf d j route 0 (leNat (m.take 4)) s2 s3 →
        EndsAs (.neuron d now) s (s3.updReRun d fun r => { r with phase := 9, ended := true, log := [] }))))

/-- R211: the distinct IDs stand in ascending order, each once, and the inverse map leads every lookup in range to its ID. -/
def Obligations.GatherDeduplicatesInOrder : Prop :=
  ∀ (ids : List Nat) (limit : Nat),
    let uniq := sortedSet (ids.filter (· < limit))
    uniq.Pairwise (· < ·) ∧ (∀ x, x ∈ uniq ↔ x ∈ ids ∧ x < limit) ∧
    ∀ x ∈ ids, match KMap.get 0 (placesOf uniq) x with
      | 0 => limit ≤ x
      | n + 1 => uniq[n]? = some x

/-- R226 to R229, R249: BIND adds its binding, RELEASE ends the keep of its expert's copy, and NOP signals only; each leaves the stream
and takes SIG_EN and IRQ; a job with a reason is rejected. A command that does not find a job of its kind at the head of the stream,
or whose step does not run, changes nothing.

R228, R230: a LOAD and a demand entry look their expert up and leave the stream, a demand entry counted; after a failure they are
served as FAILED; a demand for an unbound layer or an expert out of range is 0x91. A PREFETCH takes up the experts of its list, and
then looks each of them up when no demand entry or LOAD waits; it serves no placement entry.

R230, R238, R243 to R245: an expert with no wanted cluster is served as EMPTY; one with every wanted cluster present is a hit, whose
copy is held; one that finds no room is NO_ROOM for a LOAD, and fails with 0x96 for a demand entry; another is given its copy and
registers what is missing.

R236, R237: the fetch whose turn it is issues its next request, up to a multiple of 4 KiB; its bytes join their range, and a read that
fails stops the manager. A fetch whose turn it is not issues nothing.

R198, R238: the placement entry of a complete entry is written; the counter of a placed demand entry is raised, unless an earlier
entry on the same counter has not raised it.

R248: a failure is captured and logged, and stops the manager: its fetches end, and the failing entry and those after it show FAILED.
Of two failures in one cclk the lower code stands. -/
def Obligations.ResidencyManagerServesItsJobs : Prop :=
 (∀ (d : Dist) (now : Nat) (s : State),
    let s0 := s.at now
    let m := s0.rm d
    let idle := EndsAs (.bind d now) s s0 ∧ EndsAs (.releaseKeep d now) s s0 ∧ EndsAs (.rmNop d now) s s0 ∧ EndsAs (.loadExpert d now) s s0
    (m.items = [] → idle) ∧ (∀ t w rest, m.items = .demand t w :: rest → idle) ∧
    (∀ j rest, m.items = .job j :: rest →
      let why := s0.rmReason d j
      let gone := s0.updRm d fun x => { x with items := rest, log := [] }
      let shut := rmSignalled d (j.w 0) (gone.rmFail d j.ten 0x90 why (bits (j.w 0) 45 30) (bits (j.w 0) 29 16) none)
      (s0.rmWorks j.ten = false → idle) ∧
      (j.op ≠ 1 → j.op ≤ 4 → EndsAs (.bind d now) s s0) ∧ (j.op ≠ 4 → EndsAs (.releaseKeep d now) s s0) ∧
      (j.op ≠ 0 → EndsAs (.rmNop d now) s s0) ∧ (j.op ≠ 2 → EndsAs (.loadExpert d now) s s0) ∧
      (s0.rmWorks j.ten = true → why ≠ 0 → (j.op = 1 ∨ 4 < j.op → EndsAs (.bind d now) s shut) ∧
        (j.op = 4 → EndsAs (.releaseKeep d now) s shut) ∧ (j.op = 0 → EndsAs (.rmNop d now) s shut) ∧
        (j.op = 2 → EndsAs (.loadExpert d now) s shut) ∧
        (j.op = 3 → EndsAs (.prefetch d now) s ((shut.preServes d).preDone d))) ∧
      (s0.rmWorks j.ten = true → why = 0 →
        (j.op = 1 →
          let b : Binding := ⟨bits (j.w 0) 45 30, j.w 1, j.w 2, bits (j.w 3) 63 50 + 1⟩
          EndsAs (.bind d now) s (rmSignalled d (j.w 0) (gone.updRm d fun x => { x with binds := x.binds ++ [b] }))) ∧
        (j.op = 4 → ∀ b, s0.binding d (bits (j.w 0) 45 30) = some b →
          let t := (s0.updCopy d j.ten (b.dir + 32 * bits (j.w 0) 29 16) (fun c => { c with kept := false })).updRm d fun x =>
            { x with items := x.items.drop 1, log := [] }
          EndsAs (.releaseKeep d now) s (rmSignalled d (j.w 0) t)) ∧
        (j.op = 0 → EndsAs (.rmNop d now) s (rmSignalled d (j.w 0) gone)) ∧
        (j.op = 2 → ∀ b, s0.binding d (bits (j.w 0) 45 30) = some b →
          let w0 := j.w 0
          let a : Ask := { kind := if w0.testBit 58 then .toGa w0 (j.w 1) else .load w0, ten := j.ten, item := j.words,
                           layer := bits w0 45 30, expert := bits w0 29 16, keep := w0.testBit 59 }
          (m.failed = true → EndsAs (.loadExpert d now) s (((s0.addServe d (a.blank (some b) s0.free)).tickFree).rmPop d)) ∧
          (m.failed = false → m.log = [] → ∀ t, LookedUp d a b s0 t → EndsAs (.loadExpert d now) s (t.rmPop d))) ∧
        (j.op = 3 → ∀ b, s0.binding d (bits (j.w 0) 45 30) = some b →
          (m.failed = true → EndsAs (.prefetch d now) s (((rmSignalled d (j.w 0) gone).preServes d).preDone d)) ∧
          (m.failed = false → m.log = [] → ∀ l s1,
            Reads (rmIssuer d j.ten) (rmKey d) (j.w 1) (2 * (bits (j.w 2) 63 50 + 1)) false s0 l s1 →
            (∀ e ∈ elems 2 l, e < b.experts) →
            EndsAs (.prefetch d now) s ((((s1.updRm d fun x => { x with
              pre := x.pre ++ (elems 2 l).map (fun e => (bits (j.w 0) 45 30, e, x.preNext)),
              preJobs := x.preJobs ++ [(x.preNext, j.ten, j.w 0)], preNext := x.preNext + 1 }).rmPop d).preServes d).preDone d)))))) ∧
 (∀ (d : Dist) (now : Nat) (s : State),
    let s0 := s.at now
    let m := s0.rm d
    let ends := fun (t : State) => EndsAs (.prefetch d now) s ((t.preServes d).preDone d)
    (∀ j rest, m.items = .job j :: rest → j.op = 3 → s0.rmWorks j.ten = false → ends s0) ∧
    ((∀ j rest, m.items = .job j :: rest → j.op ≠ 3) →
      (m.pre = [] → ends s0) ∧
      (∀ layer e job rest p b, m.pre = (layer, e, job) :: rest → m.preJobs.find? (fun p => p.1 == job) = some p →
        s0.binding d layer = some b →
        let a : Ask := { kind := .prefetch job, ten := p.2.1, item := [], layer := layer, expert := e }
        ((∃ i ∈ m.items, (∃ t w, i = .demand t w) ∨ ∃ j, i = .job j ∧ j.op = 2) ∨ s0.rmWorks p.2.1 = false ∨
          s0.onlyPrefetch p.2.1 = true → ends s0) ∧
        ((∀ i ∈ m.items, (∀ t w, i ≠ .demand t w) ∧ ∀ j, i = .job j → j.op ≠ 2) → s0.rmWorks p.2.1 = true →
          s0.onlyPrefetch p.2.1 = false → m.preLog = [] → ∀ t, LookedUp d a b s0 t →
          ends (t.updRm d fun x => { x with pre := x.pre.drop 1, preLog := [] })) ∧
        a.blank (some b) 0 = { a.blank (some b) 0 with place := none }))) ∧
 (∀ (d : Dist) (now : Nat) (s : State),
    let s0 := s.at now
    let m := s0.rm d
    ((∀ t w rest, m.items ≠ .demand t w :: rest) → EndsAs (.demandEntry d now) s s0) ∧
    (∀ ten w rest, m.items = .demand ten w :: rest →
      let w0 := (w[0]?).getD 0
      let a : Ask := { kind := .demand (bits w0 32 23), ten := ten, item := w, layer := bits ((w[3]?).getD 0) 63 48,
                       expert := bits w0 63 50, mask := (w[2]?).getD 0 }
      let ends := fun (t : State) => EndsAs (.demandEntry d now) s
        (if ((t.rmPop d).rm d).items.length < m.items.length then (t.rmPop d).fsat F.RM_STATUS_ENTRIES [d.val] 1 else t.rmPop d)
      (s0.rmWorks ten = false → EndsAs (.demandEntry d now) s s0) ∧
      (s0.rmWorks ten = true →
        (m.failed = true → ends (s0.addServe d (a.blank (s0.binding d a.layer) s0.free)).tickFree) ∧
        (m.failed = false → (s0.binding d a.layer = none ∨ ∃ b, s0.binding d a.layer = some b ∧ b.experts ≤ a.expert) →
          ends (s0.serveFailed d a 0x91 0 none false)) ∧
        (m.failed = false → ∀ b, s0.binding d a.layer = some b → a.expert < b.experts → m.log = [] →
          ∀ t, LookedUp d a b s0 t → ends t)))) ∧
 (∀ (d : Nat) (a : Ask) (b : Binding) (e : DirEntry) (tab w : List Nat) (s : State),
    let key := b.dir + 32 * a.expert
    let x : Serve := { a.blank (some b) s.free (some e) with wanted := w, state := 1 }
    let used := s.useCopy d a.ten key
    (∀ c, s.copyOf d a.ten key = some c → c.gen = e.gen ∨ c.held = true) → (∀ sig off, a.kind ≠ .toGa sig off) →
    (w = [] → s.serve d a b e tab w = some (used.addServe d { x with state := 4 })) ∧
    (∀ c, s.copyOf d a.ten key = some c → w ≠ [] → (∀ k ∈ w, k ∈ c.present) → (a.keep = true → c.kept = true) →
      let t := used.updCopy d a.ten key (fun c => { c with kept := c.kept || a.keep })
      let u := if a.isDemand then t.fsat F.RM_HITS_HITS [d] 1 else t
      s.serve d a b e tab w = some (if a.isPrefetch then u else u.addServe d x)) ∧
    (∀ t, s.copyOf d a.ten key = none → w ≠ [] → a.keep = false → (s.rm d).fetches.length < 8 →
      s.makeCopy d a.ten key e.gen ((e.decK + 15) / 16) e.size = (false, t) →
      (a.isDemand = true → s.serve d a b e tab w = some (t.serveFailed d a 0x96 0 (some key) false (some e))) ∧
      (a.isPrefetch = true → s.serve d a b e tab w = some t) ∧
      (a.isDemand = false → a.isPrefetch = false →
        s.serve d a b e tab w = some ((t.rmFail d a.ten 0x97 0 a.layer a.expert none).addServe d { x with state := 3 }))) ∧
    (∀ t, s.copyOf d a.ten key = none → w ≠ [] → a.keep = false → (s.rm d).fetches.length < 8 →
      (∀ k ∈ w, k ∉ s.underWay d a.ten key) → s.makeCopy d a.ten key e.gen ((e.decK + 15) / 16) e.size = (true, t) →
      let u := (t.useCopy d a.ten key).updCopy d a.ten key (fun c => { c with kept := c.kept || a.keep })
      s.serve d a b e tab w =
        some (((if a.isDemand then u.fsat F.RM_HITS_MISSES [d] 1 else u).addServe d x).register d a e tab key w))) ∧
 (∀ (d : Dist) (n now : Nat) (s : State),
    let s0 := (s.at now).fetchLand d
    let m := s0.rm d
    (m.fetches[n]? = none → EndsAs (.fetchRequestIssue d n now) s s0) ∧
    (∀ f, m.fetches[n]? = some f →
      let goes := s0.rmWorks f.ten = true ∧ s0.fetchDue d = some n ∧ (m.fetches.flatMap Fetch.reqs).length < 1024
      (¬ goes → EndsAs (.fetchRequestIssue d n now) s s0) ∧ (goes → EndsAs (.fetchRequestIssue d n now) s (s0.fetchIssue d n)) ∧
      (m.turn = n → f.ranges ≠ [] → f.prefetch = false → s0.fetchDue d = some n) ∧
      (f.ranges = [] ∨ (f.prefetch = true ∧ s0.onlyPrefetch f.ten = true) → s0.fetchDue d ≠ some n))) ∧
 (∀ (d n : Nat) (f : Fetch) (r : RestRange) (rest : List RestRange) (st : Nat) (l : List Byte) (s s1 : State),
    (s.rm d).fetches = [f] → n = 0 → f.ranges = r :: rest → f.reqs = [] → f.parts = [] → f.asked = 0 → r.len ≠ 0 →
    s.rmWorks f.ten = true →
    let a := r.addr
    let k := min r.len (4096 - a % 4096)
    let q : FetchReq := { name := fetchKey d f.key + 2 ^ 128 * (f.sent + 1), cluster := r.cluster, off := 0, addr := a, len := k }
    let g : Fetch := { f with ranges := if k = r.len then rest else f.ranges, asked := if k = r.len then 0 else k, reqs := [q],
                              parts := [(r, [])], sent := f.sent + 1 }
    let sent := s.updRm d fun x => { x with turn := 1, fetches := [g] }
    lineAddr a = true → sent.issueLines (rmIssuer d f.ten) q.name a k = (some (st, l), s1) → l.length = k → (s1.rm d) = sent.rm d →
    (st = 0 → k < r.len → s.fetchIssue d n = s1.updRm d fun x => { x with fetches := [{ g with reqs := [], parts := [(r, [(0, l)])] }] }) ∧
    (st = 0 → k = r.len → k ≤ 4096 → s.fetchIssue d n =
      ((s1.updRm d fun x => { x with fetches := [{ g with reqs := [], parts := [] }] }).rangeRead d g r.cluster l).fetchEnd d f.ten f.key) ∧
    (st ≠ 0 → ∃ (t : State) (i : Nat × Nat), s.fetchIssue d n = t.rmFail d f.ten (if st = 0x15 then 0x92 else 0x93) 0 i.1 i.2 (some f.key) (st = 0x15) ∧
      t.mem = s1.mem)) ∧
 (∀ (d : Dist) (now : Nat) (s : State),
    let s0 := (s.at now).fetchLand d
    let l := List.range (s0.rm d).serves.length
    let t := l.foldl (fun s i => s.raiseServe d i) (l.foldl (fun s i => s.placeServe d i) s0)
    EndsAs (.arrivalRaise d now) s (((t.updRm d fun r => { r with serves := r.serves.filter (fun x => !x.raised) }).preServes d).preDone d)) ∧
 (∀ (d i : Nat) (x : Serve) (s : State), (s.rm d).serves[i]? = some x →
    let placed := fun (t : State) => t.updRm d fun r => { r with serves := r.serves.modify i fun x => { x with placed := true, log := [] } }
    let raised := s.updRm d fun r => { r with serves := r.serves.modify i fun x => { x with raised := true } }
    (x.placed = true ∨ s.rmWorks x.ten = false ∨ s.serveComplete d x = false → s.placeServe d i = s) ∧
    (∀ a t, x.placed = false → s.rmWorks x.ten = true → s.serveComplete d x = true → x.place = some a → x.log = [] →
      Writes (rmIssuer d x.ten) (rmKey d) a ((s.placeWords d x).flatMap (leBytes 8)) s t → s.placeServe d i = (placed t).tickFree) ∧
    (x.placed = false ∨ x.raised = true → s.raiseServe d i = s) ∧
    (x.placed = true → x.raised = false →
      (∀ evc, x.kind = .demand evc →
        ((∃ k < i, ∃ y, (s.rm d).serves[k]? = some y ∧ y.kind = .demand evc ∧ y.raised = false) → s.raiseServe d i = s) ∧
        ((∀ k < i, ∀ y, (s.rm d).serves[k]? = some y → y.kind = .demand evc → y.raised = true) →
          s.raiseServe d i = raised.evcAdd d evc 1)) ∧
      (∀ w0, x.kind = .load w0 → s.raiseServe d i = rmSignalled d w0 raised) ∧
      (∀ w0 off, x.kind = .toGa w0 off → s.raiseServe d i = rmSignalled d w0 raised))) ∧
 (∀ (d ten code reason layer expert : Nat) (key : Option Nat) (de : Bool) (s : State),
    let t := s.rmFail d ten code reason layer expert key de
    let u := (s.rmErr d code reason layer expert).distEv code d 0 ten (layer % 256 * 2 ^ 24 + expert % 2 ^ 14) de (key.getD 0)
    (code = 0x97 → t = u) ∧ (code ≠ 0x97 → t = (u.rmStop d key).dropLead d ten) ∧
    ((s.rmStop d key).rm d).fetches = [] ∧ ((s.rmStop d key).rm d).failed = true ∧
    (∀ (k : Nat) (x : Serve), (s.rm d).serves[k]? = some x → x.placed = false →
      (s.serveComplete d x = false ∨ ∃ j ≤ k, ∃ y : Serve, (s.rm d).serves[j]? = some y ∧ key = some y.key) →
      ((s.rmStop d key).rm d).serves[k]? = some { x with state := 5 }) ∧
    (s.fget F.RM_ERR_VALID [d] = 1 → (s.rm d).errNs = some s.now → code < s.fget F.RM_ERR_CODE [d] →
      (s.rmErr d code reason layer expert).fget F.RM_ERR_CODE [d] = code ∧
      (s.rmErr d code reason layer expert).fget F.RM_ERR_OVERFLOW [d] = 1))

/-- R256 to R258, R260, R268: a request of one line of T1 or T2 answers what the tier's read or write gives, with the state of the cells
or the link that it met; a tier that is stopped, and a request that is none, do nothing.

R260, R263, R265, R519: a read of T1 in service gives its bytes, and DATA_ERROR when a word is uncorrectable; its corrected words are
written back, each counted once in HBM_ECC and towards its row. Out of service, reads and writes end with TARGET_RETIRED.

R258: a write stores its bytes but in a word that it covers in part and whose read fails: that word keeps its contents, and the write
ends with DATA_ERROR. No other byte changes.

R268, R270 to R272: a read of T2 gives its bytes; a failing line of the data half is served from its copy and rewritten word by word, a
line on a retired channel is served from its copy; without one the read ends with DATA_ERROR or TARGET_RETIRED. A write to the data
half goes to both halves, or the surviving one; one to the copy half ends with READ_ONLY and logs 0xA7.

R258, R261, R262, R264, R271, R522: the scrub of a line counts and writes back its corrected words, and counts an uncorrectable line; a
temperature reading sets TEMP_C, HOT and CRIT, and logs 0xA3 once per crossing of 95 °C; a row that has reached ROW_CE takes its spare,
and without one its slot is retired; when a migration ends, each live page of the slot is served from its reserve page; a resync ends
with the copy half equal to the data half. -/
def Obligations.TiersServeAndKeepTheirLines : Prop :=
 (∀ (t : TenId) (wr : Bool) (a n : Nat) (data : List Byte) (e1 : Fin 3) (e2 : Fin 5) (now : Nat) (s : State),
    let s0 := s.at now
    let m := if wr then data.length else n
    let line := 0 < m ∧ a / 128 = (a + m - 1) / 128
    let p := if wr then s0.writeTarget (tierIssuer t) a m else s0.redirectRead t a
    let s1 := if e1 = 0 then s0 else s0.cellError 32 p (e1 = 2)
    let s2 := if e2 = 1 then s0.cellError 32 p false else if e2 = 2 then s0.cellError 32 p true
      else if e2 = 3 ∧ (wr = false ∨ ∃ x ∈ wordsOf 32 p m, partWord 32 p m x = true) then s0.fsat F.T2_ECC_CORRECTED [] 1 else s0
    let one := Instr.t1Request t wr a n data e1 now
    let two := Instr.t2Request t wr a n data e2 now
    let answers := fun (i : Instr) (st : Nat) (l : List Byte) (u : State) =>
      EndsAs i s { u with out := { s0.out with status := st, data := l } }
    (s0.stopped = true ∨ ¬ line ∨ inT1 a m = false → EndsAs one s s0) ∧ (s0.stopped = true ∨ ¬ line ∨ inT2 a m = false → EndsAs two s s0) ∧
    (s0.stopped = false → line → inT1 a m = true →
      (wr = false → ∀ st l u, s1.tierRead t .t1 a m = (st, l, u) → answers one st l u) ∧
      (wr = true → ∀ st u, s1.tierWrite (tierIssuer t) .t1 a data = (st, u) → answers one st [] u)) ∧
    (s0.stopped = false → line → inT2 a m = true →
      (wr = false → e2 ≠ 4 → ∀ st l u, s2.tierRead t .t2 a m = (st, l, u) → answers two st l u) ∧
      (wr = false → e2 = 4 → ∀ st l u, s2.t2Read t p m true = (st, l, u) → answers two st l u) ∧
      (wr = true → ∀ st u, s2.tierWrite (tierIssuer t) .t2 a data (e2 = 4) = (st, u) → answers two st [] u))) ∧
 (∀ (ten a n : Nat) (s : State),
    (s.t1Gone a = true → s.t1Read ten a n = (0x16, [], s) ∧ ∀ l, s.t1Write ten a l = (0x16, s)) ∧
    (s.t1Gone a = false →
      (s.badIn 32 a n = [] → s.t1Read ten a n = (0, s.rawRead a n, s.t1Corrected (s.weakIn 32 a n))) ∧
      (s.badIn 32 a n ≠ [] → ∃ l, s.t1Read ten a n = (0x15, l, (s.t1Corrected (s.weakIn 32 a n)).t1Error ten a)) ∧
      (∀ l : List Byte, ∃ u, s.t1Write ten a l = (if (s.badIn 32 a l.length).any (partWord 32 a l.length) then 0x15 else 0, u) ∧
        ∀ x, u.byte x = if a ≤ x ∧ x < a + l.length ∧
            ¬ (KMap.get false s.badWords (x / 32 * 32) = true ∧ partWord 32 a l.length (x / 32 * 32) = true)
          then (l[x - a]?).getD 0 else s.byte x)) ∧
    s.t1Corrected [] = s ∧
    (let h := s.t1Home a
     let ix := [t1Slot h / 64, t1Slot h / 32 % 2]
     let t := s.t1Corrected [a]
     t.mem = s.mem ∧ KMap.get false t.weakWords a = false ∧ (∀ x, x ≠ a → KMap.get false t.weakWords x = KMap.get false s.weakWords x) ∧
      t.fget F.HBM_ECC_CORRECTED ix = satAdd (2 ^ 32 - 1) (s.fget F.HBM_ECC_CORRECTED ix) 1 ∧
      KMap.get 0 t.t1.rows (t1RowOf h) = KMap.get 0 s.t1.rows (t1RowOf h) + 1)) ∧
 (∀ (ten a n : Nat) (s : State),
    let s1 := s.t2Corrected (s.weakIn 32 a n)
    (s.t2Gone a = false →
      (s.badIn 32 a n = [] → s.t2Read ten a n = (0, s.rawRead a n, s1)) ∧
      (∀ linkBad, (s.badIn 32 a n ≠ [] ∨ linkBad = true) →
        (s1.t2Copy a = none → ∃ l, s.t2Read ten a n linkBad = (0x15, l, s1.t2Error ten a false)) ∧
        (∀ c, s1.t2Copy a = some c → let u := s1.t2Corrected (s1.weakIn 32 (c / 128 * 128) 128)
          (u.badIn 32 c n = [] → s.t2Read ten a n linkBad = (0, u.rawRead c n, (u.t2Rewrite a c).t2Error ten a true)) ∧
          (u.badIn 32 c n ≠ [] → ∃ l, s.t2Read ten a n linkBad = (0x15, l, u.t2Error ten a false))))) ∧
    (s.t2Gone a = true → ∀ linkBad,
      (s.t2Copy a = none → s.t2Read ten a n linkBad = (0x16, [], s)) ∧
      (∀ c, s.t2Copy a = some c → let u := s.t2Corrected (s.weakIn 32 c n)
        (u.badIn 32 c n = [] → s.t2Read ten a n linkBad = (0, u.rawRead c n, u.fsat F.T2_ECC_UNCORRECTED [] 1)) ∧
        (u.badIn 32 c n ≠ [] → ∃ l, s.t2Read ten a n linkBad = (0x15, l, u.t2Error ten c false)))) ∧
    (∀ c, Memory.wf s = true → a % 128 = 0 → c % 128 = 0 → a + 128 ≤ c → ∀ x ∈ wordsOf 32 a 128, KMap.get false s.badWords (x - a + c) = false →
      KMap.get false (s.t2Rewrite a c).badWords x = false ∧ ∀ k < 32, (s.t2Rewrite a c).byte (x + k) = s.byte (x - a + c + k)) ∧
    (∀ (l : List Byte) (linkBad : Bool),
      let kept := fun (b : Nat) (x : Nat) => partWord 32 b l.length (x / 32 * 32) = true ∧
        (linkBad = true ∨ KMap.get false s.badWords (x / 32 * 32) = true)
      (s.t2Gone a = false → ∀ x, (s.t2Put a l linkBad).2.byte x = if a ≤ x ∧ x < a + l.length ∧ ¬ kept a x then (l[x - a]?).getD 0
        else s.byte x) ∧
      (s.t2Gone a = true → s.t2Put a l linkBad = (false, s)) ∧
      (s.mirrorOf (a - t2Base) = none → (s.t2Gone a = true → s.t2Write ten a l linkBad = (0x16, s)) ∧
        (s.t2Gone a = false → ∀ k u, s.t2Put a l linkBad = (k, u) →
          s.t2Write ten a l linkBad = if k then (0x15, u.t2Error ten a false) else (0, u))) ∧
      (∀ r o, s.mirrorOf (a - t2Base) = some (r, true, o) → s.t2Write ten a l linkBad = (0x17, s.protectedStore ten a)) ∧
      (∀ r o, s.mirrorOf (a - t2Base) = some (r, false, o) → (s.t2Gone a = false ∨ s.t2Gone (t2Base + o) = false) →
        ∀ k u j v, s.t2Put a l linkBad = (k, u) → u.t2Put (t2Base + o) l = (j, v) →
          s.t2Write ten a l linkBad =
            if k then (0x15, v.t2Error ten a false) else if j then (0x15, v.t2Error ten (t2Base + o) false) else (0, v)))) ∧
 (∀ (now : Nat) (s : State),
    let s0 := s.at now
    (∀ (a : Nat) (err : Fin 3), let b := a / 128 * 128
      let s1 := if err = 0 then s0 else s0.cellError 32 b (err = 2)
      let bad := (s1.badIn 32 b 128).any fun _ => true
      let ix := [s1.t1SlotNow b / 64, s1.t1SlotNow b / 32 % 2]
      (s0.stopped = false → inT1 b 128 = true → EndsAs (.idleScrub a err now) s
        ((s1.t1Corrected (s1.weakIn 32 b 128)).fsat F.HBM_ECC_UNCORRECTED ix bad.toNat)) ∧
      (s0.stopped = false → inT2 b 128 = true → s0.t2Gone b = false → EndsAs (.idleScrub a err now) s
        ((s1.t2Corrected (s1.weakIn 32 b 128)).fsat F.T2_ECC_UNCORRECTED [] bad.toNat)) ∧
      (s0.stopped = true ∨ (inT1 b 128 = false ∧ (inT2 b 128 = false ∨ s0.t2Gone b = true)) → EndsAs (.idleScrub a err now) s s0)) ∧
    (∀ (k : Fin 8) (temp corrected : Nat),
      let ix := [k.val / 2, k.val % 2]
      Ends (.hbmTempRead k temp corrected now) s fun t => t.fget F.HBM_STATUS_TEMP_C ix = min temp 255 ∧
        t.fget F.HBM_STATUS_HOT ix = (if 85 < temp then 1 else 0) ∧ t.fget F.HBM_STATUS_CRIT ix = (if 95 < temp then 1 else 0) ∧
        t.fget F.HBM_ECC_CORRECTED ix = satAdd (2 ^ 32 - 1) (s.fget F.HBM_ECC_CORRECTED ix) corrected ∧ t.mem = s.mem ∧
        ((temp ≤ 95 ∨ s.fget F.HBM_STATUS_CRIT ix = 1) → t.ridge = s0.ridge) ∧
        (95 < temp → s.fget F.HBM_STATUS_CRIT ix = 0 → s.fget F.HBM_ERR_VALID [k.val / 2] = 0 →
          t.fget F.HBM_ERR_VALID [k.val / 2] = 1 ∧ t.fget F.HBM_ERR_CODE [k.val / 2] = 0xA3 ∧ t.fget F.HBM_ERR_ADDR [k.val / 2] = 0)) ∧
    (∀ (k : Fin 8) (pc : Fin 64) (row : Nat) (spare : Bool),
      let r := rowKey k pc row
      let key := unitKey 4 (k.val * 32 + pc.val / 2)
      let due := s0.stopped = false ∧ s.fget F.RET_LIMITS_ROW_CE [] ≤ KMap.get 0 s.t1.rows r
      (¬ due → EndsAs (.rowRepair k pc row spare now) s s0) ∧
      (due → spare = true → Ends (.rowRepair k pc row spare now) s fun t => t.mem = s.mem ∧
        t.t1.repairs = s.t1.repairs ++ [(k.val, pc.val, row)] ∧ KMap.get 0 t.t1.rows r = 0 ∧
        t.fget F.HBM_STATUS_REPAIRS [k.val / 2, k.val % 2] = (s.fget F.HBM_STATUS_REPAIRS [k.val / 2, k.val % 2] + 1) % 2 ^ 16) ∧
      (due → spare = false → key ∈ s.ridge.decided → EndsAs (.rowRepair k pc row spare now) s s0) ∧
      (due → spare = false → key ∉ s.ridge.decided →
        Ends (.rowRepair k pc row spare now) s fun t => key ∈ t.ridge.decided ∧ t.mem = s.mem)) ∧
    ((s0.stopped = true ∨ s.t1.migrating = none) → EndsAs (.slotMigrationEnd now) s s0) ∧
    (∀ sl, s0.stopped = false → s.t1.migrating = some sl → unitKey 4 sl ∈ s.ridge.decided → s.t1.waiting = [] → Ends (.slotMigrationEnd now) s fun t =>
      t.t1.migrating = none ∧ t.fget F.T1_RESERVE_MIGRATING [] = 0 ∧ t.fget F.T1_RESERVE_PAGES_LEFT [] = 0 ∧ t.mem = s.mem ∧
      (∀ (i : Nat) (p q : Nat), (s.livePages sl)[i]? = some p → s.freeReserve[i]? = some q → KMap.get 0 t.t1.moved p = q + 1) ∧
      ∀ p, p ∉ s.livePages sl → KMap.get 0 t.t1.moved p = KMap.get 0 s.t1.moved p) ∧
    (∀ sl next rest, s0.stopped = false → s.t1.migrating = some sl → unitKey 4 sl ∈ s.ridge.decided → s.t1.waiting = next :: rest →
      Ends (.slotMigrationEnd now) s fun t => t.t1.migrating = some next ∧ t.t1.waiting = rest ∧
        t.fget F.T1_RESERVE_MIGRATING [] = 1 ∧ t.fget F.T1_RESERVE_SLOT [] = next % 256 ∧ t.mem = s.mem) ∧
    (∀ r : Fin 16, (s0.stopped = true ∨ s.fget F.T2_RANGE_BASE_RESYNC [r] = 0) → EndsAs (.resyncEnd r now) s s0) ∧
    (∀ r : Fin 16, Memory.wf s = true → s0.stopped = false → s.fget F.T2_RANGE_BASE_RESYNC [r] = 1 →
      let a := t2Base + s.fget F.T2_RANGE_BASE_BASE [r] * 4096
      let n := KMap.get 0 s.t2Len r * 4096
      Ends (.resyncEnd r now) s fun t => t.fget F.T2_RANGE_BASE_RESYNC [r] = 0 ∧
        (∀ k < n, t.byte (a + n + k) = s.byte (a + k)) ∧ ∀ x, x < a + n ∨ a + n + n ≤ x → t.byte x = s.byte x))

/-- R294 to R296: a T3 request outside the drives ends with ADDR_UNMAPPED, one to a failed drive with TARGET_RETIRED, and a write of a
part of a block with IO_ERROR; any other becomes one NVMe command, with FUA where FL_TEN asks for it, and a write without FUA is
recorded for the step.

R295, R296: a completion ends a command that has its turn: a read with the bytes of its block, a write with its data on the medium;
DATA_ERROR for an unrecovered read, IO_ERROR with 0xA8 for another status. A command that is overdue ends with IO_ERROR, and a third
timeout within 1 s resets the drive's controller. A drive whose link has stayed down for 1 s, or that failed its reset, fails: its
commands end with TARGET_RETIRED.

R286, R295: once the writes of an ended step have completed, one Flush goes to each drive that it wrote without FUA.

R297: a deallocation ends with BUSY 0, and ERR when a command of it failed; a block keeps its contents or reads as zeros, which the
manual leaves open. -/
def Obligations.FlashPortCommands : Prop :=
 (∀ (t : TenId) (wr : Bool) (a n : Nat) (data : List Byte) (now : Nat) (s : State),
    let s0 := s.at now
    let m := if wr then data.length else n
    let i := Instr.t3Request t wr a n data now
    let asked := s0.stopped = false ∧ 0 < m ∧ inT3 a m = true ∧ a / 4096 = (a + m - 1) / 4096
    let p := s0.t3Map (a - t3Base)
    let answers := fun (st : Nat) (u : State) => EndsAs i s { u with out := { s0.out with status := st, data := [] } }
    (¬ asked → EndsAs i s s0) ∧
    (asked →
      (s0.t3Mapped (a - t3Base) = false → answers 0x12 s0) ∧
      (s0.t3Mapped (a - t3Base) = true → s0.t3Failed a = true → answers 0x16 s0) ∧
      (s0.t3Mapped (a - t3Base) = true → s0.t3Failed a = false → wr = true → ¬ (a % 4096 = 0 ∧ m = 4096) →
        answers 0x18 (s0.flError 0xA8 p.1 0 (p.2 / 4096) t)) ∧
      (s0.t3Mapped (a - t3Base) = true → s0.t3Failed a = false → (wr = false ∨ (a % 4096 = 0 ∧ m = 4096)) → Ends i s fun u =>
        let fua := wr = true ∧ t.val ≠ 0 ∧ s.fget F.FL_TEN_FUA_ALL [t] = 1
        u.mem = s.mem ∧ u.regs = s.regs ∧ u.out.value = s.fl.nextId ∧ u.fl.nextId = s.fl.nextId + 1 ∧
        (∃ c : NvmeCmd, u.fl.cmds = s.fl.cmds ++ [c] ∧ c.id = s.fl.nextId ∧ c.op = (if wr then .write else .read) ∧ c.drive = p.1 ∧
          c.lba = p.2 / 4096 ∧ c.addr = s0.t3Phys a ∧ c.len = m ∧ c.data = data ∧ c.issueNs = s0.now ∧ c.ten = t.val ∧
          (c.fua = true ↔ fua) ∧ c.waits = false ∧ c.result = none) ∧
        (wr = true → ¬ fua → ∀ r, s.run t = some r → ∃ q, u.run t = some q ∧ p.1 ∈ q.drives)))) ∧
 (∀ (id now : Nat) (nvme : Fin 32768) (landed : Bool) (s : State),
    let s0 := s.at now
    let done := Instr.nvmeCompletion id nvme landed now
    let late := Instr.nvmeTimeout id landed now
    (s0.nvmeCmd id = none → EndsAs done s s0 ∧ EndsAs late s s0) ∧
    (∀ c, s0.nvmeCmd id = some c →
      let st := if nvme.val = 0 then 0 else if c.op = .read ∧ nvme.val % 2048 = 0x281 then 0x15 else 0x18
      (s0.nvmeReady c = false ∨ s.fget F.FL_DRIVE_FAILED [c.drive] = 1 → EndsAs done s s0) ∧
      (s0.nvmeReady c = true → s.fget F.FL_DRIVE_FAILED [c.drive] = 0 →
        EndsAs done s ((s0.driveAnswers c.drive).nvmeFinish c st nvme landed)) ∧
      (s0.nvmeReady c = true → s.fget F.FL_CFG_EN [] = 1 ∧ s.fget F.FL_DRIVE_QUEUES [c.drive] ≠ 0 ∧ c.result = none) ∧
      (let past := c.issueNs + s.fget F.FL_TIMEOUT_TIMEOUT_MS [] * 1000000 ≤ s0.now
       let recent := s0.now :: (KMap.get [] s.fl.timeouts c.drive).filter (fun t => s0.now ≤ t + 1000000000)
       (s0.waited c = false ∨ ¬ past → EndsAs late s s0) ∧
       (s0.waited c = true → past → Ends late s fun t => ∃ u : State, t = u.nvmeFinish c 0x18 0x7FFF landed ∧ u.mem = s.mem ∧
         u.fl.cmds = s.fl.cmds ∧ KMap.get [] u.fl.timeouts c.drive = (if 3 ≤ recent.length then [] else recent) ∧
         (recent.length < 3 → u.fl.resets = s.fl.resets ∧ u.regs = s.regs) ∧
         (3 ≤ recent.length → c.drive ∈ u.fl.resets ∧ u = { s0 with fl := u.fl }.driveUp c.drive))))) ∧
 (∀ (c : NvmeCmd) (st nvme : Nat) (landed : Bool) (s : State), s.nvmeCmd c.id = some c →
    let t := s.nvmeFinish c st nvme landed
    (c.op = .read → t.mem = s.mem ∧ (c.waits = true → t.nvmeResult c.id = some (st, if st = 0 then s.rawRead c.addr c.len else [])) ∧
      (c.waits = false → t.nvmeCmd c.id = none ∧ t.out.status = st ∧ t.out.value = c.id)) ∧
    (c.op = .write → t.mem = (if st = 0 ∨ landed = true then (s.rawWrite c.addr c.data).mem else s.mem) ∧
      (c.waits = true → t.nvmeResult c.id = some (st, [])) ∧ (c.waits = false → t.nvmeCmd c.id = none ∧ t.out.status = st)) ∧
    (st = 0 → t.ridge = s.ridge)) ∧
 (∀ (d : Fin 8) (now : Nat) (s : State),
    let s0 := s.at now
    let down := ∃ at_, KMap.get none s.fl.linkDrop d = some at_ ∧ at_ + 1000000000 ≤ s0.now
    (s.fget F.FL_DRIVE_PRESENT [d] = 0 ∨ s.fget F.FL_DRIVE_FAILED [d] = 1 → EndsAs (.driveLinkDrop d now) s s0) ∧
    (s.fget F.FL_DRIVE_PRESENT [d] = 1 → s.fget F.FL_DRIVE_FAILED [d] = 0 → Ends (.driveLinkDrop d now) s fun t =>
      t.fget F.FL_DRIVE_READY [d] = 0 ∧ KMap.get none t.fl.linkDrop d = some s0.now ∧ t.fl.cmds = s.fl.cmds ∧ t.mem = s.mem) ∧
    (s.fget F.FL_DRIVE_FAILED [d] = 1 ∨ (¬ down ∧ d.val ∉ s.fl.resets) → EndsAs (.driveFailed d now) s s0) ∧
    (s.fget F.FL_DRIVE_FAILED [d] = 0 → (down ∨ d.val ∈ s.fl.resets) →
      EndsAs (.driveFailed d now) s ((s0.flError 0xA9 d 0 0 0).driveGone d)) ∧
    (let t := s.driveGone d
     t.fget F.FL_DRIVE_FAILED [d] = 1 ∧ t.fget F.FL_DRIVE_READY [d] = 0 ∧ t.mem = s.mem ∧
      (∀ c ∈ t.fl.cmds, c.drive = d → c.result ≠ none) ∧
      ∀ c ∈ s.fl.cmds, c.drive ≠ d.val → (∀ x ∈ s.fl.cmds, x.drive = d.val → x.id ≠ c.id) → c ∈ t.fl.cmds)) ∧
 (∀ (t : TenId) (now : Nat) (s : State),
    let s0 := s.at now
    (s.run t = none → EndsAs (.nvmeFlush t now) s s0) ∧
    (∀ r, s.run t = some r →
      let due := s0.stopped = false ∧ r.stepEnded = true ∧ r.flushed = false ∧ s.fget F.FL_TEN_FLUSH_AT_COMMIT [t] = 1 ∧
        ∀ c ∈ s.fl.cmds, c.ten = t.val → c.op = .read ∨ c.result ≠ none
      (¬ due → EndsAs (.nvmeFlush t now) s s0) ∧
      (due → r.drives = [] → EndsAs (.nvmeFlush t now) s (s0.updRun t fun r => { r with flushed := true })) ∧
      (due → r.drives ≠ [] → Ends (.nvmeFlush t now) s fun u => u.fl.cmds.take s.fl.cmds.length = s.fl.cmds ∧
        u.fl.cmds.length = s.fl.cmds.length + r.drives.length ∧ u.regs = s.regs ∧ u.mem = s.mem ∧
        ∀ (k : Nat) (d : Nat), r.drives[k]? = some d → ∃ c, u.fl.cmds[s.fl.cmds.length + k]? = some c ∧ c.op = .flush ∧ c.drive = d ∧
          c.ten = t.val ∧ c.id = s.fl.nextId + k))) ∧
 (∀ (drive : Fin 8) (nvme : Fin 32768) (now : Nat) (s : State),
    let s0 := s.at now
    (s.fl.trim = none → EndsAs (.trimDone (drive, nvme) now) s s0) ∧
    (∀ a n, Memory.wf s = true → s.fl.trim = some (a, n) → Ends (.trimDone (drive, nvme) now) s fun t => t.fl.trim = none ∧
      t.fget F.FL_TRIM_CTL_BUSY [] = 0 ∧
      t.fget F.FL_TRIM_CTL_ERR [] = (if nvme.val ≠ 0 ∧ (s0.trimLba a n drive).isSome = true then 1 else 0) ∧
      ∀ x, t.byte x = s.byte x ∨ (t3Base ≤ x ∧ s0.t3Holds a n x = true ∧ t.byte x = 0)))

/-- R298, R299: a request outside any Tenancy, of a Tenancy whose SHAPER_SET is 0, or that entered by an Oplith port is not shaped; any
other issues at once, and is charged, when none waits before it and the count is zero or more, and otherwise joins its queue. The head
of a queue issues when its bucket holds no debt, and is charged a unit for each 64 bytes begun; a bucket that does not shape charges
nothing. A refill adds a sixteenth of RATE, keeping the remainder and never passing BURST.

R300: a configuration sets the count to BURST or zero, keeps the requests that wait, and holds the count for that cclk.

R301: a sample records the peaks of its interval and starts them again. -/
def Obligations.ShapersHoldTheirRates : Prop :=
 (∀ (i : Issuer) (t : Tier) (a n key : Nat) (wr : Bool) (s : State),
    (i.ten = 0 ∨ i.src = 7 ∨ (∀ v, s.ten i.ten = some v → v.desc.shaper = 0) → s.shaped i t a n wr key = (true, s)) ∧
    (∀ v q, i.ten ≠ 0 → i.src ≠ 7 → s.ten i.ten = some v → v.desc.shaper ≠ 0 → (t = .t1 ∧ q = 0 ∨ t = .t2 ∧ q = 1 ∨ t = .t3 ∧ q = 2) →
      (∀ p ∈ s.shp.issued, p.1 ≠ key) → (∀ r ∈ s.shp.waiting, r.key ≠ key) →
      let b := Bucket.mem v.desc.shaper q
      let bytes := s.shapeBytes i t a n wr
      let r : ShapedReq := { set := v.desc.shaper, queue := q, bytes := bytes, ten := i.ten, enterNs := s.now, key := key }
      (s.shapeQueue v.desc.shaper q = [] ∧ s.bucketOpen b = true → s.shaped i t a n wr key = (true, s.bucketCharge b ((bytes + 63) / 64))) ∧
      (s.shapeQueue v.desc.shaper q ≠ [] ∨ s.bucketOpen b = false → ∃ u, s.shaped i t a n wr key = (false, u) ∧
        u.shp.waiting = s.shp.waiting ++ [r] ∧ u.shp.issued = s.shp.issued ∧ u.regs = s.regs ∧ u.mem = s.mem)) ∧
    s.shapeBytes i .t1 a n wr = n ∧ s.shapeBytes i .t2 a n false = n ∧
    s.shapeBytes i .t3 a n wr = 4096 * ((a + n + 4095) / 4096 - a / 4096) ∧
    (∀ o, s.regionOf a = none → s.regionPrivate a = false → s.mirrorOf (a - t2Base) = some o → s.shapeBytes i .t2 a n true = 2 * n)) ∧
 (∀ (set : Fin 64) (q : Fin 3) (now : Nat) (s : State),
    let s0 := s.at now
    let b := Bucket.mem set q
    (s.shapeQueue set q = [] ∨ s.bucketOpen b = false → EndsAs (.shaperIssue set q now) s s0) ∧
    (∀ r rest, s.shapeQueue set q = r :: rest → s.bucketOpen b = true → Ends (.shaperIssue set q now) s fun t =>
      t.shp.waiting = s.shp.waiting.erase r ∧ t.shp.issued = s.shp.issued ++ [(r.key, r.ten)] ∧ t.mem = s.mem ∧ t.tens = s.tens ∧
      (s.bucketEn b = true → s0.bucketFixed b = false → -(2 ^ 30 : Int) ≤ s.tokens b → r.bytes < 2 ^ 30 →
        t.tokens b = s.tokens b - ((r.bytes + 63) / 64 : Nat)) ∧
      (s.bucketEn b = false ∨ s0.bucketFixed b = true → t.regs = s.regs))) ∧
 (∀ (now : Nat) (s : State),
    EndsAs (.shaperRefill now) s ((allBuckets.foldl (fun s b => s.bucketRefill b) (s.at now)).fabPump)) ∧
 (∀ (b : Bucket) (s : State), let rate := s.fget ⟨b.cfg, 43, 20⟩ b.ix
    let f := KMap.get 0 s.shp.frac b.key + rate
    (rate = 0 ∨ s.bucketFixed b = true → s.bucketRefill b = s) ∧
    (rate ≠ 0 → s.bucketFixed b = false →
      (s.bucketRefill b).tokens b = min (s.tokens b + (f / 16 : Nat)) (s.fget ⟨b.cfg, 19, 0⟩ b.ix) ∧
      KMap.get 0 (s.bucketRefill b).shp.frac b.key = f % 16)) ∧
 (∀ (b : Bucket) (v : Nat) (s : State), let t := s.bucketConfig b v
    t.tokens b = (if v.testBit 45 then v % 2 ^ 20 else 0 : Nat) ∧ t.bucketFixed b = true ∧ t.shp.waiting = s.shp.waiting ∧
    t.shp.issued = s.shp.issued ∧ t.mem = s.mem) ∧
 (∀ (opm : Bool) (now : Nat) (s : State),
    let here := fun (b : Bucket) => (match b with | .mem _ _ => true | _ => false) != opm
    EndsAs (.shaperSample opm now) s ((allBuckets.filter here).foldl (fun s b => s.bucketSample b (s.bucketWaiting b)) (s.at now))) ∧
 (∀ (b : Bucket) (n : Nat) (s : State), let t := s.bucketSample b n
    t.fget ⟨b.sample, 63, 48⟩ b.ix = min 0xFFFF (KMap.get 0 s.shp.peak b.key) ∧
    t.fget ⟨b.sample, 47, 32⟩ b.ix = min 0xFFFF n ∧ t.fget ⟨b.sample, 31, 0⟩ b.ix = min 0xFFFFFFFF (KMap.get 0 s.shp.delay b.key) ∧
    KMap.get 0 t.shp.peak b.key = n ∧ KMap.get 0 t.shp.delay b.key = 0)

/-- R44, R59: a tick that is due starts: the running configuration is that of TICK_CONFIG, TICK_COUNT counts it, and its work is
selected; with EN clear no tick follows.

R43, R47 to R49, R61 to R63: the Eave begins at its time; a reference edge, the exchange of times and their limits act on the
alignment; a switch ends with its Tenancy resident; an early switch goes to the Tenancy of the next slot.

R74, R91: at step entry each participating DCC starts the step code at L0 with its entry registers. -/
def Obligations.TicksRunTheSchedule : Prop :=
 (∀ (now due : Nat) (s : State), s.tickDue = some due → due ≤ max s.now now → s.fget F.RIDGE_STATUS_STATE [] ≠ 4 →
    (s.fget F.TICK_CTRL_EN [] = 1 → Ends (.tickStart now) s fun t => ∃ u : State, t = u.selectWork.srcEvent (.priv 4 1) ∧
      u.tick.active = true ∧ u.tick.startNs = due ∧ u.tick.eave = false ∧ u.tick.waiting = false ∧
      u.rget .TICK_ACTIVE [] = s.rget .TICK_CONFIG [] ∧
      (s.tick.loading = none → u.fget F.TICK_COUNT_COUNT [] = (s.fget F.TICK_COUNT_COUNT [] + 1) % 2 ^ 64)) ∧
    (s.fget F.TICK_CTRL_EN [] = 0 → Ends (.tickStart now) s fun t => t.tick.active = false ∧
      t.fget F.TICK_COUNT_COUNT [] = s.fget F.TICK_COUNT_COUNT [])) ∧
 (∀ (now : Nat) (s : State),
    let s0 := s.at now
    (s.tick.active = true → s.tick.eave = false → s.fget F.TICK_CTRL_EN [] = 1 →
      s.tick.startNs + (s.fget F.TICK_ACTIVE_PERIOD_US [] - s.fget F.TICK_ACTIVE_EAVE_US []) * 1000 ≤ s0.now →
      Ends (.eaveStart now) s fun t => t.tick = { s.tick with eave := true } ∧ t.mem = s.mem ∧ t.tens = s.tens) ∧
    (s.alignMode = 1 → s.fget F.TICK_CTRL_EN [] = 1 → let ref := s0.now + s.fget F.ALIGN_CONFIG_TICK_IN_DELAY_NS []
      (s.tick.waiting = true → Ends (.tickInEdge now) s fun t => t.tick.refStart = some (s.tick.refStart.getD ref) ∧
        t.fget F.ALIGN_STATUS_HOLDOVER [] = 0 ∧ t.mem = s.mem) ∧
      (s.tick.waiting = false → s.tick.loading = none → let a : Int := s.tick.startNs - ref
        let b : Int := s.tick.endNs - ref
        let o := if a.natAbs ≤ b.natAbs then a else b
        Ends (.tickInEdge now) s fun t => t.fget F.ALIGN_STATUS_OFFSET_NS [] = (o % 2 ^ 32).toNat ∧
          (o.natAbs ≤ s.fget F.ALIGN_CONFIG_STEP_US [] * 1000 → t.tick.slew = -o ∧ t.tick.stepTo = none) ∧
          (s.fget F.ALIGN_CONFIG_STEP_US [] * 1000 < o.natAbs → t.tick.slew = 0 ∧ t.tick.stepTo = some (ref, none, 0)))) ∧
    (s.alignMode = 1 ∨ s.alignMode = 2 → s.tick.lost = false → s.fget F.ALIGN_CONFIG_HOLDOVER_TICKS [] ≤ s.tick.holdTicks →
      Ends .holdoverLost s fun t => t.tick.lost = true ∧ t.fget F.ALIGN_STATUS_LOST [] = 1 ∧ t.mem = s.mem) ∧
    (let p := s.fget F.ALIGN_CONFIG_SYNC_PORT []; s.alignMode = 2 → s.fget F.TICK_CTRL_EN [] = 1 → p < 36 → s.fget F.PORT_STATUS_STATE [p] = Pst.active →
      s.tick.active = true → s.tick.sentExchange = false → s.tick.startNs + 100000 ≤ s0.now →
      Ends (.timeExchangeSend now) s fun t => t.tick.exchange = some s0.now ∧ t.tick.sentExchange = true ∧
        ∃ q, t.fab.sw = s.fab.sw ++ [q] ∧ q.pkt.opcode = 0xF0 ∧ q.pkt.vc = 0 ∧ q.out = some p) ∧
    (∀ t1, s.tick.exchange = some t1 → t1 + 50000 < s0.now →
      Ends (.timeExchangeVoid now) s fun t => t.tick = { s.tick with exchange := none } ∧ t.regs = s.regs) ∧
    (∀ w, s.tick.switch = some w → w.startNs + s.switchNs w ≤ s0.now → s.arraysIdle = true → (s.ten w.incoming).isSome = true →
      Ends (.switchEnd now) s fun t => t.tick.switch = none ∧ w.incoming ∈ t.tick.resident) ∧
    (∀ u, s.fget F.TICK_CTRL_EARLY_SWITCH [] = 1 → s.fget F.TICK_CTRL_EN [] = 1 → s.tick.active = true → s.tick.cur = 0 →
      s.fget F.SCHED_STATUS_LAST_WORK [] ≠ 0 → s.run (s.fget F.SCHED_STATUS_LAST_TENANCY []) = none → s.tick.switch = none →
      s.tick.replays = [] → s.tick.extend = 0 → s.tick.urgent = none → s.stopped = false →
      s.fget F.SCHED_CTRL_SWAP_PENDING [] = 0 → let x := (s.fadd F.TICK_COUNT_COUNT [] 1).slotNow
      s.fget F.SCHED_SLOT_TENANCY [x.1, x.2.1] = u → s.slotIdle u = false → u ∉ s.tick.resident →
      Ends (.earlySwitchStart now) s fun t => t.regs = s.regs ∧ t.mem = s.mem ∧
        ∃ w, t.tick = { s.tick with switch := some w } ∧ w.incoming = u ∧ w.startNs = s0.now)) ∧
 (∀ (now c : Nat) (v : Ten) (r : Run) (s : State), s.tick.cur = c → s.ten c = some v → s.run c = some r → v.stash = none →
    r.batten = true → r.entered = false → r.ended = none → r.discards = [] → s.tick.switch = none → s.tick.suspending = none →
    s.stopped = false → s.arraysIdle = true → (∀ d, (s.core d).dcache = []) →
    Ends (.stepEntry now) s fun t => (∃ q, t.run c = some q ∧ q.entered = true ∧ q.step = r.step ∧ q.attempt = r.attempt) ∧
      (∀ d ∈ v.districts, let k := t.core d
        k.pc = v.desc.entry ∧ k.level = 0 ∧ k.ie = true ∧ k.ten = c ∧ k.inStep = true ∧ k.wait = .none ∧
        k.reg 1 = BitVec.ofNat 64 (v.battenAddr r.step) ∧ k.reg 2 = BitVec.ofNat 64 d ∧ k.reg 3 = BitVec.ofNat 64 r.step ∧
        k.reg 4 = BitVec.ofNat 64 c ∧ k.reg 5 = BitVec.ofNat 64 r.kind ∧ ∀ i, 5 < i → i < 32 → k.reg i = 0) ∧
      ∀ d, d ∉ v.districts → t.core d = s.core d)

/-- R65 to R67, R91, R92, R283, R286: a finished step waits for its flip, or is discarded when a District asked for it; the flip
moves the committed pointer to the attempt; at its deadline an unfinished step under EXTEND is in overrun and goes on, and under
SUSPEND is brought to its suspend point; there it is suspended.

R441 to R443: the record of an ended step whose channel is enabled enters the channel's store, with the next sequence number, and
the step is gone; without a channel, or with one that is disabled, only the step is gone. The record has the words of R442. -/
def Obligations.StepsEndAndLeaveTheirRecords : Prop :=
 (∀ (now c : Nat) (v : Ten) (r : Run) (s : State), s.tick.cur = c → s.ten c = some v → s.run c = some r → c ≠ 0 → c < 64 →
    r.ended = none → r.mark = none → s.stopped = false →
    let s0 := s.at now
    (r.entered = true → r.stepEnded = false → s0.stepDone c v r = true → (∀ d, (s.core d).dcache = []) →
      (r.discardCode = none → Ends (.stepEnd now) s fun t => t.run c = some { r with stepEnded := true } ∧ t.mem = s.mem ∧
        t.tick = s.tick) ∧
      (∀ x ch, r.discardCode = some x → r.channel = some ch → Ends (.stepEnd now) s fun t => t.tick.cur = 0 ∧
        ∃ q, t.run c = some q ∧ q.ended = some (.discard x) ∧ q.step = r.step)) ∧
    (r.stepEnded = true → r.discardCode = none → s0.flushDue c r = false →
      (s0.deviceWrite (v.battenAddr r.step + 40) (r.attempt % 2 ^ 16 * 2 ^ 48 + r.step % 2 ^ 48)).1 = 0 →
      Ends (.commitFlip now) s fun t => t.tick.cur = 0 ∧ t.fget F.TEN_STATE_STEP [c] = r.step % 2 ^ 48 ∧
        ∃ u, t.ten c = some u ∧ u.cStep = r.step ∧ u.cAtt = r.attempt ∧ ∀ q, u.run = some q → q.ended = some .commit) ∧
    (s.tick.active = true → s0.deadline r.budget < s0.now → r.stepEnded = false → r.overrun = false →
      satAdd 255 (s.fget F.TEN_STATE_OVERRUNS [c]) 1 < v.desc.maxOver →
      let met := fun (t : State) => t.fget F.TEN_STATE_OVERRUNS [c] = satAdd 255 (s.fget F.TEN_STATE_OVERRUNS [c]) 1 ∧
        t.run c = some { r with overrun := true, overruns := r.overruns + 1 } ∧ t.mem = s.mem
      (v.desc.policy = 1 → Ends (.stepDeadline now) s fun t => met t ∧ t.tick = { s.tick with extend := c }) ∧
      (v.desc.policy = 2 → Ends (.stepDeadline now) s fun t => met t ∧
        t.tick = { s.tick with suspending := some (s.tick.suspending.getD 0) })) ∧
    (s.tick.suspending = some 0 → s.tick.switch = none → r.stepEnded = false → s0.atSuspendPoint c v = true →
      s.tst c ≠ TSt.draining.num → (∀ d, (s.core d).dcache = []) →
      Ends (.suspendPoint now) s fun t => t.tst c = TSt.suspended.num ∧ t.tick = { s.tick with cur := 0, extend := 0, suspending := none } ∧
        t.run c = some { r with suspended := true, entered := false, overrun := false } ∧ t.mem = s.mem)) ∧
 (∀ (t : TenId) (now : Nat) (v : Ten) (s : State), s.ten t = some v →
    let s0 := s.at now
    let gone := s0.updTen t (fun v => { v with run := none })
    (v.run = none → EndsAs (.resultRecordBuild t now) s s0) ∧
    (∀ r, v.run = some r → r.ended = none → EndsAs (.resultRecordBuild t now) s s0) ∧
    (∀ r e, v.run = some r → r.ended = some e → r.channel = none → EndsAs (.resultRecordBuild t now) s gone) ∧
    (∀ r e ch st l s1, v.run = some r → r.ended = some e → r.channel = some ch → ch < 64 →
      gone.busRead deviceIssuer .rd (v.desc.ctx + 0xD00) 32 = (st, l, s1) →
      (l.length ≠ 32 → EndsAs (.resultRecordBuild t now) s (s1.storeRecord ch (s1.recordWords t v r e
        ((List.range 32).map (Config.contextByte s1.free)))).tickFree) ∧
      (l.length = 32 → s1.fget F.RES_CH_CFG_EN [ch] = 0 → EndsAs (.resultRecordBuild t now) s s1) ∧
      (l.length = 32 → s1.fget F.RES_CH_CFG_EN [ch] = 1 → Ends (.resultRecordBuild t now) s fun u =>
        let seq := s1.fget F.RES_CH_PI_NEXT_SEQ [ch]
        { u with regs := s1.regs, hif := s1.hif, ic := s1.ic } = s1 ∧
          u.resHeld ch = s1.resHeld ch ++ [s1.recordWords t v r e l ++ [2 ^ 63 + ch * 2 ^ 32 + seq]] ∧
          u.fget F.RES_CH_PI_NEXT_SEQ [ch] = (if seq + 1 < 2 ^ 32 then seq + 1 else 1) ∧
          (s1.fget F.RES_CH_CFG_MODE [ch] = 0 → u.ic = s1.ic) ∧
          (s1.fget F.RES_CH_CFG_MODE [ch] = 1 → u.fget F.SRC_SH_EVENTS [256 + ch] = satAdd 0xFFFF (s1.fget F.SRC_SH_EVENTS [256 + ch]) 1)))) ∧
 (∀ (t : TenId) (now : Nat) (s : State), s.ten t = none → EndsAs (.resultRecordBuild t now) s (s.at now)) ∧
 (∀ (t : TenId) (v : Ten) (r : Run) (e : Ending) (area : List Byte) (s : State),
    let l := s.recordWords t v r e area
    let w := fun (k : Nat) => (l[k]?).getD 0
    l.length = 15 ∧
      bits (w 0) 63 56 = (match e with | .commit => 0 | .discard _ => 1 | .abandon _ => 2) ∧
      bits (w 0) 55 48 = (match e with | .abandon c => c % 256 | _ => 0) ∧ bits (w 0) 47 42 = t.val ∧ bits (w 0) 41 40 = 0 ∧
      bits (w 0) 39 32 = r.kind % 256 ∧ bits (w 0) 31 16 = (match e with | .discard c => c % 2 ^ 16 | _ => 0) ∧
      bits (w 0) 15 0 = r.attempt % 2 ^ 16 ∧ w 1 = r.step % 2 ^ 48 ∧ w 2 = r.endTick % 2 ^ 64 ∧ w 3 = r.firstNs % 2 ^ 64 ∧
      w 4 = r.endNs % 2 ^ 64 ∧ w 5 = leNat (area.take 8) ∧ w 6 = leNat ((area.drop 8).take 8) ∧
      bits (w 7) 63 56 = min 255 r.overruns ∧ (w 7).testBit 55 = r.warn ∧ (w 7).testBit 54 = r.emulated ∧
      bit (w 7) 53 = s.fget F.TEN_STATE_DEGRADED [t] ∧ (w 7).testBit 52 = v.desc.fixedOrder ∧ (w 7).testBit 51 = r.digestValid ∧
      (w 7) % 2 ^ 51 = 0 ∧ (∀ i < 4, w (8 + i) = r.digest / 2 ^ (64 * (3 - i)) % 2 ^ 64) ∧ w 12 = 0 ∧ w 13 = 0 ∧ w 14 = 0)

/-- R50 to R52, R55, R56, R64, R524: an accepted TEN_CMD starts its command: CREATE checks its descriptor's address first and leaves
a created Tenancy DEFINED; DESTROY of one that does not exist gives NO_TENANCY, and a running one becomes DRAINING; URGENT is
refused with the generator off; an OP that is not listed gives BAD_DESCRIPTOR. CREATE of a descriptor that meets none of the
conditions of R51 gives OK: the Tenancy is DEFINED, with the Blocks of its mask in ascending order as its logical Blocks and its
spares, and its committed pointer the smallest of its regions (R287). A command with its result completes, and a
teardown leaves no Tenancy. -/
def Obligations.TenancyCommands : Prop :=
  ∀ (w : Writer) (t : TenId) (now : Nat) (s : State),
    let s0 := s.at now
    let taken := fun v => WriteTaken w (RegName.addr .TEN_CMD []) .TEN_CMD [] v s0
    let gives := fun (r : Option Nat) (u : State) => u.tick.cmd = some ⟨t, r⟩ ∧ u.fget F.TEN_STATUS_BUSY [] = 1
    (taken (2 ^ 28 + t.val) →
      ((s.rget .TEN_ARG []).toNat % 8 ≠ 0 → Ends (.create w t now) s fun u => gives (some 1) u ∧ u.tens = s.tens ∧ u.mem = s.mem) ∧
      Ends (.create w t now) s fun u => ∃ r, gives (some r) u ∧
        (r = 0 → u.tst t = TSt.defined.num ∧ (u.ten t).isSome = true ∧ s.ten t = none)) ∧
    (∀ words mask heads s3, taken (2 ^ 28 + t.val) →
      let s1 := tenCmdState w (2 ^ 28 + t.val) t s0
      let da := (s.rget .TEN_ARG []).toNat
      let d := Desc.ofWords (bodyWord words)
      let m := maskBlocks mask
      let named := m.take (m.length - d.spareBlocks)
      let v : Ten := { desc := d, mask := m, bmap := named.map some, spares := m.drop (m.length - d.spareBlocks) }
      let image := ([0, 1, 2, 3].map (v.imageLen v.bmap)).sum
      let p := smallestPointer (heads.map Prod.snd)
      da % 8 = 0 → s1.inT1Service da 128 = true → CreateReads s1 words mask heads s3 → s3.tenDescBad t (bodyWord words) = false →
      d.spareBlocks < m.length → s3.ten t = none → bits (bodyWord words 9) 63 48 = s.fuses.part →
      bits (bodyWord words 9) 47 40 = s.fuses.stepping → s3.blocksUnavailable m = false → s3.quotaExceeded d = false →
      image ≤ 2 ^ 31 → 8192 + image ≤ d.ctxLen →
      Ends (.create w t now) s fun u => gives (some 0) u ∧ u.tst t = TSt.defined.num ∧ u.fget F.TEN_STATE_STEP [t] = p % 2 ^ 48 ∧
        u.ten t = some { v with cStep := p % 2 ^ 48, cAtt := p / 2 ^ 48 } ∧ ∀ x, x ≠ t.val → u.ten x = s3.ten x) ∧
    (taken (2 * 2 ^ 28 + t.val) →
      (s.ten t = none → Ends (.destroy w t now) s fun u => gives (some 3) u ∧ u.tens = s.tens ∧ u.mem = s.mem) ∧
      ((s.ten t).isSome = true → s.tick.cur = t.val → s.tst t = TSt.running.num →
        Ends (.destroy w t now) s fun u => gives none u ∧ u.tst t = TSt.draining.num ∧ u.tens = s.tens ∧ u.mem = s.mem)) ∧
    (taken (3 * 2 ^ 28 + t.val) →
      (s.fget F.TICK_CTRL_EN [] = 0 → Ends (.urgent w t now) s fun u => gives (some 9) u ∧ u.tick.urgent = s.tick.urgent) ∧
      (s.fget F.TICK_CTRL_EN [] = 1 → (s.ten t).isSome = true → s.tst t ≠ TSt.running.num → s.tst t ≠ TSt.suspended.num →
        s.tick.urgent = none → (s.resTen t).testBit 31 = false →
        Ends (.urgent w t now) s fun u => gives (some 0) u ∧ u.tick.urgent = some t.val)) ∧
    (∀ op : Fin 16, op.val = 0 ∨ 3 < op.val → taken (op.val * 2 ^ 28 + t.val) →
      Ends (.tenCmdInvalidOp w op t now) s fun u => gives (some 1) u ∧ u.tens = s.tens ∧ u.mem = s.mem) ∧
    (∀ u r, s.tick.cmd = some ⟨u, some r⟩ → u < 64 → r < 256 → s.stopped = false →
      Ends (.tenCmdComplete now) s fun x => x.tick.cmd = none ∧ x.fget F.TEN_STATUS_BUSY [] = 0 ∧
        x.fget F.TEN_STATUS_RESULT [] = r ∧ x.fget F.TEN_STATUS_TENANCY [] = u ∧ x.tens = s.tens ∧ x.mem = s.mem) ∧
    (s.tick.cmd = some ⟨t, none⟩ → s.tick.cur ≠ t.val → s.inSwitch t = false → (s.ten t).isSome = true → t.val ≠ 0 →
      Ends (.teardown now) s fun u => u.ten t = none ∧ u.tick.cmd = none ∧ u.fget F.TEN_STATUS_BUSY [] = 0 ∧
        u.fget F.TEN_STATUS_RESULT [] = 0 ∧ t.val ∉ u.tick.resident)

/-- R9 and R10: an access of the control register space that is not 4 or 8 bytes, aligned, has no effect but fault code 0x32, and such a
read returns 0xFFFF_FFFF; one of an unassigned offset reads zero, or has no effect but 0x33. In the grave state writes have no
effect at all, and neither have the host's to the Districts in re-entry (R428, R429, R438). -/
def Obligations.MisalignedAndUnassignedAccesses : Prop :=
  ∀ (s : State) (w : Writer) (off len v : Nat),
    ((len ≠ 4 ∧ len ≠ 8) ∨ off % len ≠ 0 → s.regRead w off len = (0xFFFFFFFF, s.chipEv 0x32) ∧
      (s.writesShut w off = false → s.regWrite w off len v = s.chipEv 0x32)) ∧
    (len = 4 ∨ len = 8 → off % len = 0 → assigned off = false → (len = 8 → assigned (off + 4) = false) →
      s.fget F.RIDGE_STATUS_STATE [] ≠ 2 → s.fget F.RIDGE_STATUS_STATE [] ≠ 4 →
      s.regRead w off len = (0, s) ∧ s.regWrite w off len v = s.chipEv 0x33) ∧
    (s.writesShut w off = true ↔ s.fget F.RIDGE_STATUS_STATE [] = 4 ∨
      (w = .host ∧ s.fget F.RIDGE_STATUS_STATE [] = 2 ∧ 0x2000000 ≤ off)) ∧
    (s.writesShut w off = true → s.regWrite w off len v = s)

/-- R7: what a write leaves in each field, by its access code: RW and RWL fields take the value, RO fields stay, W1S bits are set and
W1C bits cleared where the value has ones, and WO fields hold nothing.

R7, R9 to R11, R475: a write that is not 4 or 8 aligned bytes logs 0x32, one to an unassigned word 0x33, and neither has another effect;
a lower half waits for its upper half, which writes both, and eight bytes write a register or two; KICK needs no role. A
write whose writer lacks the role that the register asks for logs 0x31; one whose value is not admitted is answered as its
chapter says; one with no room in the journal is dropped and counted; otherwise it is journaled and acts.

Every row that is a write of one register is the write of that register's offset, in its width. -/
def Obligations.RegisterWritesActByAccessCode : Prop :=
 (∀ (r : RegName) (f : FieldRow) (old v : W64), f ∈ r.info.fields →
    let new := BitVec.ofNat 64 (r.written old.toNat v.toNat)
    ∀ i, f.lo ≤ i → i ≤ f.hi → new.getLsbD i = match f.acc with
      | .ro => old.getLsbD i
      | .rw => v.getLsbD i
      | .rwl => v.getLsbD i
      | .w1s => old.getLsbD i || v.getLsbD i
      | .w1c => old.getLsbD i && !v.getLsbD i
      | .wo => false) ∧
 (∀ (w : Writer) (off len : Nat) (v : BitVec 64) (now : Nat) (s : State),
    let s0 := s.at now
    let i := Instr.regWrite w off len v now
    let x := v.toNat % 2 ^ 32
    let y := v.toNat / 2 ^ 32
    (s0.writesShut w off = true → EndsAs i s s0) ∧
    (s0.writesShut w off = false →
      ((len ≠ 4 ∧ len ≠ 8) ∨ off % len ≠ 0 → EndsAs i s (s0.chipEv 0x32)) ∧
      (len = 4 → off % 4 = 0 →
        (s0.unassigned w off = true → EndsAs i s (s0.chipEv 0x33)) ∧
        (s0.unassigned w off = false → s0.reach w off = none → EndsAs i s s0) ∧
        (∀ r ix up, s0.reach w off = some (r, ix, up) →
          (r.info.w64 = false → EndsAs i s (s0.regSet w r ix x)) ∧
          (r.info.w64 = true → up = false → EndsAs i s (s0.holdHalf w r ix (some x))) ∧
          (r.info.w64 = true → up = true →
            let stay := (s.rget r ix).toNat % 2 ^ 32 &&& r.bitsOf (fun a => a == .rw || a == .rwl || a == .ro)
            EndsAs i s ((s0.holdHalf w r ix none).regSet w r ix
              (x * 2 ^ 32 + (KMap.get none s.halves (heldKey w r ix)).getD stay))))) ∧
      (len = 8 → off % 8 = 0 →
        (s0.unassigned w off = true → s0.unassigned w (off + 4) = true → EndsAs i s (s0.chipEv 0x33)) ∧
        (s0.reach w off = none → s0.unassigned w off = false ∨ s0.unassigned w (off + 4) = false →
          EndsAs i s (s0.tryWord w (off + 4) y)) ∧
        (∀ r ix up, s0.reach w off = some (r, ix, up) →
          (up = false → r.info.w64 = true → EndsAs i s ((s0.holdHalf w r ix none).regSet w r ix v.toNat)) ∧
          (up = true ∨ r.info.w64 = false → EndsAs i s ((s0.putWord w (r, ix, up) x).tryWord w (off + 4) y)))))) ∧
 (∀ (w : Writer) (r : RegName) (ix : List Nat) (v : Nat) (s : State),
    let old := (s.rget r ix).toNat
    let same := v % 2 ^ 31 = old % 2 ^ 31
    (∀ c, kickOf r ix = some c → v.testBit 31 = true →
      (same → s.regSet w r ix v = s.kick c) ∧ (¬ same → s.regSet w r ix v = (s.kick c).regPut w r ix (v % 2 ^ 31))) ∧
    (kickOf r ix = none ∨ v.testBit 31 = false → s.regSet w r ix v = s.regPut w r ix v)) ∧
 (∀ (w : Writer) (r : RegName) (ix : List Nat) (v : Nat) (s : State),
    let old := (s.rget r ix).toNat
    let put := s.regPut w r ix v
    (s.roleNeeded w r v = none →
      (s.regVerdict r ix v = .bad → put = s.regReject r ix v) ∧
      (s.regVerdict r ix v = .ok → put = if r.info.role.isSome then s else s.regAct w r ix v (r.written old v)) ∧
      (∀ x, s.regVerdict r ix v = .part x →
        let idle := r.written old x = old ∧ x &&& r.bitsOf (· == .wo) = 0
        (idle → put = s.regReject r ix v) ∧ (¬ idle → put = if r.info.role.isSome then s else (s.regAct w r ix x (r.written old x)).regReject r ix v))) ∧
    (∀ role, s.roleNeeded w r v = some role →
      let entry := s.journal ((writerAgent w).getD 0) role.num 0 (s.roleSlot w role) 0 0 (regDevAddr r ix) old v
      let room := s.journalRoom (r.entries v) = true
      let dropped := s.fsat F.AUD_STATUS_DROPPED [] 1
      (s.holds w role = false → put = s.chipEv 0x31) ∧
      (s.holds w role = true →
        (s.regVerdict r ix v = .bad → put = s.regReject r ix v) ∧
        (s.regVerdict r ix v = .ok → put = if room then
          (entry.regAct w r ix v (r.written old v)).noteSettings r ix else dropped) ∧
        (∀ x, s.regVerdict r ix v = .part x →
          let new := r.written old x
          let idle := new = old ∧ x &&& r.bitsOf (· == .wo) = 0
          (idle → put = s.regReject r ix v) ∧
          (¬ idle → put = if room then ((entry.regAct w r ix x new).noteSettings r ix).regReject r ix v
            else dropped))))) ∧
 (∀ (w : Writer) (now : Nat) (s : State),
    let s0 := s.at now
    let row := fun (c : Instr) (off n v : Nat) => EndsAs c s (s0.regWrite w off n v)
    row (.fabric w now) (RegName.addr .RST_CTRL []) 4 1 ∧ row (.fwWrite w now) (RegName.addr .FW_CTL []) 4 (1 * 2 ^ 28) ∧
    row (.fwTry w now) (RegName.addr .FW_CTL []) 4 (2 * 2 ^ 28) ∧
    row (.confirm w now) (RegName.addr .FW_CTL []) 4 (3 * 2 ^ 28) ∧
    row (.activate w now) (RegName.addr .FW_CTL []) 4 (4 * 2 ^ 28) ∧ row (.burnSvn w now) (RegName.addr .FW_FUSE []) 4 1 ∧
    (∀ (e : Fin 2),
      row (.epochCommit w e now) (RegName.addr .EPOCH_CTRL []) 4 (2 ^ (e.val + 1) + s0.fget F.EPOCH_CTRL_SRC_EPOCH []) ∧
      row (.srcEpochWrite w e now) (RegName.addr .EPOCH_CTRL []) 4 e.val) ∧
    (∀ (on : Bool),
      row (.transit w on now) (RegName.addr .FAB_ROLE []) 4 on.toNat) ∧
    (∀ (t : TenId),
      row (.create w t now) (RegName.addr .TEN_CMD []) 4 (2 ^ 28 + t.val) ∧
      row (.destroy w t now) (RegName.addr .TEN_CMD []) 4 (2 * 2 ^ 28 + t.val) ∧
      row (.urgent w t now) (RegName.addr .TEN_CMD []) 4 (3 * 2 ^ 28 + t.val)) ∧
    (∀ (both : Bool),
      row (.cold w both now) (RegName.addr .RST_CTRL []) 4 (2 + both.toNat)) ∧
    (∀ (slot : Fin 8),
      row (.keyGo w slot now) (RegName.addr .KEY_CTL []) 4 (2 ^ 31 + slot.val)) ∧
    (∀ (v : BitVec 32),
      row (.tickCtrlWrite w v now) (RegName.addr .TICK_CTRL []) 4 v.toNat ∧
      row (.tickConfigWrite w v now) (RegName.addr .TICK_CONFIG []) 4 v.toNat ∧
      row (.swap w v now) (RegName.addr .SCHED_CTRL []) 4 (v.toNat ||| 2 ^ 31) ∧
      row (.graveForce w v now) (RegName.addr .GRAVE_FORCE []) 4 v.toNat ∧
      row (.retClear w v now) (RegName.addr .RET_CLEAR []) 4 v.toNat ∧
      row (.cccWdogKick w v now) (RegName.addr .CCC_WDOG []) 4 (v.toNat ||| 2 ^ 31) ∧
      row (.release w v now) (RegName.addr .RIDGE_CTRL []) 4 (v.toNat ||| 2 ^ 5)) ∧
    (∀ (v : BitVec 64),
      row (.alignConfigWrite w v now) (RegName.addr .ALIGN_CONFIG []) 8 v.toNat ∧
      row (.cmdTxGo w v now) (RegName.addr .CMD_TX_CTL []) 8 (v.toNat ||| 2 ^ 63)) ∧
    (∀ (seq : BitVec 32),
      row (.audRead w seq now) (RegName.addr .AUD_READ []) 8 seq.toNat) ∧
    (∀ (pages : BitVec 32),
      row (.trim w pages now) (RegName.addr .FL_TRIM_CTL []) 8 pages.toNat) ∧
    (∀ (t : TenId) (n : Fin 16),
      row (.seal w t n now) (RegName.addr .DG_CMD []) 4 (2 ^ 28 + t.val * 16 + n.val) ∧
      row (.unseal w t n now) (RegName.addr .DG_CMD []) 4 (2 * 2 ^ 28 + t.val * 16 + n.val)) ∧
    (∀ (op : Fin 16) (t : TenId),
      row (.tenCmdInvalidOp w op t now) (RegName.addr .TEN_CMD []) 4 (op.val * 2 ^ 28 + t.val)) ∧
    (∀ (d : Dist) (v : BitVec 32),
      row (.gaHaltReq w d v now) (RegName.addr .GA_CTRL [d.val]) 4 v.toNat ∧
      row (.dfuWdogKick w d v now) (RegName.addr .DFU_WDOG [d.val]) 4 (v.toNat ||| 2 ^ 31)) ∧
    (∀ (n : Fin 4) (v : BitVec 64),
      row (.ridgeForce w n v now) (RegName.addr .RIDGE_FORCE [n.val]) 8 v.toNat) ∧
    (∀ (c : CoreId) (n : BitVec 32),
      row (.intComplete w c n now) (RegName.addr .COMPLETE [c.val]) 4 n.toNat) ∧
    (∀ (c : CoreId) (v : BitVec 32),
      row (.coreHaltReq w c v now) (RegName.addr .CORE_CTRL [c.val]) 4 v.toNat ∧
      row (.soft w c v now) (RegName.addr .SOFT [c.val]) 4 v.toNat) ∧
    (∀ (n : Fin 64) (v : BitVec 64),
      row (.bar2XlatWrite w n v now) (RegName.addr .BAR2_XLAT [n.val]) 8 v.toNat) ∧
    (∀ (r : Fin 16) (v : BitVec 64),
      row (.t2RangeBaseWrite w r v now) (RegName.addr .T2_RANGE_BASE [r.val]) 8 v.toNat) ∧
    (∀ (b : BlockId) (v : BitVec 32),
      row (.blkSoftInt w b v now) (RegName.addr .BLK_SOFT_INT [b.val]) 4 v.toNat ∧
      row (.blkHaltReq w b v now) (RegName.addr .BLK_CTRL [b.val]) 4 v.toNat) ∧
    (∀ (ch : Fin 64) (v : BitVec 32),
      row (.resChCiWrite w ch v now) (RegName.addr .RES_CH_CI [ch.val]) 4 v.toNat) ∧
    (∀ (ch : Fin 64) (v : BitVec 64),
      row (.resChCfgWrite w ch v now) (RegName.addr .RES_CH_CFG [ch.val]) 8 v.toNat) ∧
    (∀ (role : Fin 4) (slot : Fin 8),
      row (.roleGo w role slot now) (RegName.addr .ROLE_REQ [0]) 4 (2 ^ 31 + role.val * 2 ^ 8 + slot.val) ∧
      row (.roleVerify w role slot now) (RegName.addr .ROLE_REQ [0]) 4 (2 ^ 30 + role.val * 2 ^ 8 + slot.val) ∧
      row (.roleDrop w role slot now) (RegName.addr .ROLE_REQ [0]) 4 (2 ^ 29 + role.val * 2 ^ 8 + slot.val)) ∧
    (∀ (ch : Fin 64) (seq : BitVec 32),
      row (.resultAck w ch seq now) (RegName.addr .RESULT_ACK [ch.val]) 4 seq.toNat) ∧
    (∀ (d : Dist) (n : Fin 4) (v : BitVec 64),
      row (.dfuForce w d n v now) (RegName.addr .DFU_FORCE [d.val, n.val]) 8 v.toNat) ∧
    (∀ (t : TenId) (q : Fin 2) (v : BitVec 64),
      row (.sshpCfgWrite w t q v now) (RegName.addr .SSHP_CFG [t.val, q.val]) 8 v.toNat) ∧
    (∀ (t : TenId) (q : Fin 3) (v : BitVec 64),
      row (.shpCfgWrite w t q v now) (RegName.addr .SHP_CFG [t.val, q.val]) 8 v.toNat) ∧
    (∀ (b : BlockId) (n : Fin 4) (v : BitVec 64),
      row (.blkForce w b n v now) (RegName.addr .BLK_FORCE [b.val, n.val]) 8 v.toNat) ∧
    (∀ (e : Fin 2) (k : Fin 128) (v : BitVec 64),
      row (.routeTableWrite w e k v now) (RegName.addr .ROUTE [e.val, k.val]) 8 v.toNat) ∧
    (∀ (p : PortId) (vc : Fin 4) (v : BitVec 64),
      row (.pshpCfgWrite w p vc v now) (RegName.addr .PSHP_CFG [p.val, vc.val]) 8 v.toNat) ∧
    (∀ (c : CoreId) (n : Fin 512) (v : BitVec 64),
      row (.srcCfgWrite w c n v now) (if n.val < 64 then RegName.addr .SRC_PRIV [c.val, n.val] else RegName.addr .SRC_SH [n.val]) 8 v.toNat) ∧
    (∀ (p : PortId) (v : BitVec 32), row (.retrain w false p v now) (RegName.addr .PORT_CTRL [p.val]) 4 (v.toNat ||| 4)))

/-- R41, R44 to R46, R57: accepted writes of TICK_CTRL, TICK_CONFIG and ALIGN_CONFIG set their fields, and EN arms the first tick; a
period or Eave out of range leaves TICK_CONFIG as it is; SWAP stands until a tick start.

R75, R147, R175, R269, R297, R300: accepted writes halt and release cores, Blocks and Great Arrays, raise a Block's software
source, set a T2 range with its length, start a deallocation, and start a shaper at BURST or at zero. -/
def Obligations.TickHaltMemoryAndShaperWrites : Prop :=
 (∀ (w : Writer) (now : Nat) (s : State),
    let s0 := s.at now
    (∀ v : BitVec 32, WriteTaken w (RegName.addr .TICK_CTRL []) .TICK_CTRL [] v.toNat s0 →
      Ends (.tickCtrlWrite w v now) s fun t => t.fget F.TICK_CTRL_EN [] = bit v.toNat 0 ∧ t.alignMode = bits v.toNat 6 4 ∧
        (bit v.toNat 0 = 1 → s.fget F.TICK_CTRL_EN [] = 0 → s.tick.active = false → t.tick.waiting = true ∧ t.tick.waitNs = s0.now) ∧
        (bit v.toNat 0 = 1 ∨ s.tick.eave = false → t.mem = s.mem ∧ t.tens = s.tens)) ∧
    (∀ v : BitVec 32, WriteTaken w (RegName.addr .TICK_CONFIG []) .TICK_CONFIG [] v.toNat s0 →
      Ends (.tickConfigWrite w v now) s fun t => t.fget F.TICK_CONFIG_PERIOD_US [] = bits v.toNat 13 0 ∧
        t.fget F.TICK_CONFIG_EAVE_US [] = bits v.toNat 26 16 ∧ t.rget .TICK_ACTIVE [] = s.rget .TICK_ACTIVE [] ∧ t.tick = s.tick) ∧
    (∀ v : BitVec 32, tickConfigOk v.toNat = false → s0.writesShut w (RegName.addr .TICK_CONFIG []) = false →
      s0.reach w (RegName.addr .TICK_CONFIG []) = some (.TICK_CONFIG, [], false) → s0.holds w .operator = true →
      EndsAs (.tickConfigWrite w v now) s (s0.chipEv 0x40)) ∧
    (∀ v : BitVec 64, WriteTaken w (RegName.addr .ALIGN_CONFIG []) .ALIGN_CONFIG [] v.toNat s0 →
      Ends (.alignConfigWrite w v now) s fun t => t.fget F.ALIGN_CONFIG_SYNC_PORT [] = bits v.toNat 31 24 ∧
        t.fget F.ALIGN_CONFIG_SLEW_NS [] = bits v.toNat 12 0 ∧ t.tick = s.tick ∧ t.mem = s.mem) ∧
    (∀ v : BitVec 32, WriteTaken w (RegName.addr .SCHED_CTRL []) .SCHED_CTRL [] (v.toNat ||| 2 ^ 31) s0 →
      Ends (.swap w v now) s fun t => t.fget F.SCHED_CTRL_SWAP_PENDING [] = 1 ∧ t.bankLen 0 = bits v.toNat 17 9 ∧
        t.bankLen 1 = bits v.toNat 26 18 ∧ t.fget F.SCHED_CTRL_ACTIVE_BANK [] = s.fget F.SCHED_CTRL_ACTIVE_BANK [] ∧ t.tick = s.tick)) ∧
 (∀ (w : Writer) (now : Nat) (s : State),
    let s0 := s.at now
    let taken := fun r ix v => WriteTaken w (RegName.addr r ix) r ix v s0
    (∀ (c : CoreId) (v : BitVec 32), taken .CORE_CTRL [c.val] v.toNat → Ends (.coreHaltReq w c v now) s fun t =>
      t.core c = (if v.getLsbD 0 then { s.core c with halted := v.getLsbD 1 } else if c.val < 4 then {} else { level := 2 }) ∧
        ∀ d, d ≠ c.val → t.core d = s.core d) ∧
    (∀ (b : BlockId) (v : BitVec 32), taken .BLK_CTRL [b.val] v.toNat → s.fuseEnabled b = true → Ends (.blkHaltReq w b v now) s fun t =>
      t.blk b = { s.blk b with halted := v.getLsbD 0 } ∧ ∀ d, d ≠ b.val → t.blk d = s.blk d) ∧
    (∀ (d : Dist) (v : BitVec 32), taken .GA_CTRL [d.val] v.toNat → Ends (.gaHaltReq w d v now) s fun t =>
      (t.dist d).ga = { (s.dist d).ga with halted := v.getLsbD 0 } ∧ t.mem = s.mem) ∧
    (∀ (b : BlockId) (v : BitVec 32), taken .BLK_SOFT_INT [b.val] v.toNat → s.fuseEnabled b = true → Ends (.blkSoftInt w b v now) s fun t =>
      t.blk b = (if v.getLsbD 0 then { s.blk b with pend := (s.blk b).pend ||| 512 } else s.blk b) ∧ t.mem = s.mem) ∧
    (∀ (r : Fin 16) (v : BitVec 64), taken .T2_RANGE_BASE [r.val] v.toNat → Ends (.t2RangeBaseWrite w r v now) s fun t =>
      t.fget F.T2_RANGE_BASE_BASE [r] = bits v.toNat 40 12 ∧ t.fget F.T2_RANGE_BASE_EN [r] = bit v.toNat 0 ∧
        t.fget F.T2_RANGE_BASE_MIRROR [r] = bit v.toNat 2 ∧ t.fget F.T2_RANGE_BASE_RETAINED [r] = bit v.toNat 1 ∧
        KMap.get 0 t.t2Len r = s.fget F.T2_RANGE_LEN_LEN [r] ∧ t.mem = s.mem) ∧
    (∀ pages : BitVec 32, pages ≠ 0 → taken .FL_TRIM_CTL [] pages.toNat → Ends (.trim w pages now) s fun t =>
      t.fget F.FL_TRIM_CTL_BUSY [] = 1 ∧ t.fl.trim = some ((s.rget .FL_TRIM_ADDR []).toNat, pages.toNat) ∧ t.mem = s.mem) ∧
    (∀ (t : TenId) (q : Fin 3) (v : BitVec 64), taken .SHP_CFG [t.val, q.val] v.toNat → Ends (.shpCfgWrite w t q v now) s fun u =>
      u.tokens (.mem t q) = (if v.getLsbD 45 then (bits v.toNat 19 0 : Nat) else 0) ∧ u.bucketEn (.mem t q) = v.getLsbD 44 ∧
        u.mem = s.mem))





/-- R305 to R307, R318: a port that carries frames sends the next frame of a resend, or a new one, which takes the due CREDIT, link packets
and packets up to 20 slots and is kept; or an idle frame: when there is nothing to send, after 4,095 frames that were not idle, and with
128 frames unacknowledged. A port whose width changes, or that is to retrain, begins no packet. A TIME_RESP takes the time at which its
first slot leaves (R323).

R307: a frame that 15 symbols or fewer leave correctable frees what its ACK names and has the rest resent at a NAK, and is taken when it
is the next in order; any other asks for a resend once, and again every 1 µs.

R304: what a frame carries is read back from its message symbols.

R322, R327: CREDIT gives back what its cumulative counts have gained since the last one. -/
def Obligations.LinkFramesCarryAndReplay : Prop :=
 (∀ (p : PortId) (now : Nat) (s : State),
    let s0 := s.at now
    let x := s0.port p
    let width := s0.fget F.PORT_STATUS_WIDTH [p.val]
    let send := fun (t : State) => EndsAs (.frameSend p now) s t
    let new := x.resend = 0 ∨ x.buffer[x.buffer.length - x.resend]? = none
    (s0.portFrames p = false ∨ s0.pins.silent = true → send s0) ∧
    (s0.portFrames p = true → s0.pins.silent = false →
      (∀ f : TxFrame, 0 < x.resend → x.buffer[x.buffer.length - x.resend]? = some f →
        (4095 ≤ x.sinceIdle → send (s0.updPort p fun _ => { x with
          nak := false, sinceIdle := 0, last := some ⟨x.ctl f.fseq true, [], width⟩ })) ∧
        (x.sinceIdle < 4095 → send (s0.updPort p fun _ => { x with
          resend := x.resend - 1, nak := false, sinceIdle := x.sinceIdle + 1, last := some ⟨x.ctl f.fseq false, f.slots, width⟩ }))) ∧
      (new → 4095 ≤ x.sinceIdle ∨ 128 ≤ x.buffer.length →
        let u := s0.atBoundary p x.txNext true
        send (u.updPort p fun _ => { u.port p with
          nak := false, sinceIdle := 0, last := some ⟨(u.port p).ctl x.txNext true, [], u.fget F.PORT_STATUS_WIDTH [p.val]⟩ })) ∧
      (new → x.sinceIdle < 4095 → x.buffer.length < 128 → send (s0.sendNew p)))) ∧
 (∀ (p : Nat) (s : State),
    let x := s.port p
    let y := (s.sendNew p).port p
    let width := s.fget F.PORT_STATUS_WIDTH [p]
    let sent := fun (l : List (BitVec 256)) =>
      y.buffer = x.buffer ++ [{ fseq := x.txNext, slots := l }] ∧ y.txNext = (x.txNext + 1) % 256 ∧ y.sinceIdle = x.sinceIdle + 1 ∧
        y.last = some ⟨x.ctl x.txNext false, l, width⟩
    let idle := y.buffer = x.buffer ∧ y.txNext = x.txNext ∧ y.sinceIdle = 0 ∧ y.last = some ⟨x.ctl x.txNext true, [], width⟩
    x.widthTx = none → x.versionTx = none →
      (∀ l ls, x.creditDue = false → x.packets = [] → x.links = l :: ls → ls.length < 20 → sent (l :: ls)) ∧
      (x.creditDue = true → x.packets = [] → x.links = [] → sent [creditSlot x]) ∧
      (x.creditDue = false → x.packets = [] → x.links = [] → idle) ∧
      (∀ q ps, x.creditDue = false → x.links = [] → x.packets = (q, q.pkt.slots) :: ps → s.portActive p = false → idle) ∧
      (∀ q n, x.creditDue = false → x.links = [] → x.packets = [(q, n)] → s.portActive p = true → 0 < n →
        x.tx.length = n → q.inp.isSome = true ∨ q.pkt.opcode ≠ 0xF1 → sent (x.tx.take 20) ∧ y.tx = x.tx.drop 20) ∧
      (∀ q, x.creditDue = false → x.links = [] → x.packets = [(q, q.pkt.slots)] → s.portActive p = true → 0 < q.pkt.slots →
        q.pkt.slots ≤ 20 → x.tx = q.pkt.toSlots → q.inp = none → q.pkt.opcode = 0xF1 →
        sent (({ q.pkt with body := q.pkt.body.take 8 ++ leBytes 8 s.timeNow ++ q.pkt.body.drop 16 } : Packet).sealed.toSlots))) ∧
 (∀ (p : PortId) (err : Fin 545) (ctl : BitVec 20) (slots : List (BitVec 256)) (now : Nat) (s : State),
    let s0 := s.at now
    let u := s0.updPort p (fun x => { x with lastNs := s0.now })
    let good := if err.val = 0 then u else u.fsat F.PORT_FEC_CORRECTED [p.val] 1
    let w := (good.updPort p (fun x => { x with badRun := 0 })).takeAck p ctl.toNat
    let fseq := ctl.toNat / 2 ^ 12
    let b := w.atBoundary p fseq false
    let takes := fun (t : State) => EndsAs (.frameReceive p err ctl slots now) s t
    (s0.portFrames p = false → takes s0) ∧
    (s0.portFrames p = true →
      (15 < err.val → takes ((u.fsat F.PORT_FEC_UNCORRECTED [p.val] 1).updPort p (fun x => { x.reject u.now with badRun := x.badRun + 1 }))) ∧
      (err.val ≤ 15 → fseq ≠ (w.port p).rxNext → takes (w.updPort p (fun x => x.reject w.now))) ∧
      (err.val ≤ 15 → fseq = (w.port p).rxNext → ctl.getLsbD 2 = true →
        takes ((w.updPort p (fun x => { x with nak := false, nakNs := 0 })).atBoundary p fseq false)) ∧
      (err.val ≤ 15 → fseq = (w.port p).rxNext → ctl.getLsbD 2 = false → takes (b.updPort p (fun x => { x with
        rx := x.rx ++ (slots.take 20).map (fun y => { bits := y, ns := b.now }), rxNext := (fseq + 1) % 256, ackValid := true,
        nak := false, nakNs := 0 }))))) ∧
 (∀ (x : PortSt) (now : Nat), (x.nakNs ≠ 0 → x.reject now = x) ∧ (x.nakNs = 0 → x.reject now = { x with nak := true, nakNs := now + 1 })) ∧
 (∀ (p ctl : Nat) (s : State) (done left : List TxFrame),
    let x := s.port p
    let ack := ctl / 16 % 256
    x.buffer = done ++ left →
    (ctl.testBit 1 = false ∧ done = []) ∨ (ctl.testBit 1 = true ∧ done = [] ∧ ∀ f ∈ x.buffer, f.fseq ≠ ack) ∨
      (ctl.testBit 1 = true ∧ ∃ old f, done = old ++ [f] ∧ f.fseq = ack ∧ ∀ g ∈ old, g.fseq ≠ ack) →
    let u := s.updPort p (fun x => { x with buffer := left, resend := min x.resend left.length })
    let v := (u.updPort p (fun x => { x with
      buffer := left.map (fun f => { f with replays := f.replays + 1 }), resend := left.length })).fsat F.PORT_LINK_REPLAYS [p] 1
    (ctl.testBit 3 = false ∨ left = [] → s.takeAck p ctl = u) ∧
    (ctl.testBit 3 = true → left ≠ [] → s.takeAck p ctl =
      if (v.port p).loggedMs = v.now / 1000000 + 1 then v
      else (v.updPort p (fun x => { x with loggedMs := v.now / 1000000 + 1 })).portErr p 0xB0 0 0 p)) ∧
 (∀ f : SentFrame, f.ctl < 2 ^ 20 → frameOf f.message = (f.ctl, f.body)) ∧
 (∀ (p : PortId) (now : Nat) (s : State),
    let s0 := s.at now
    let x := s0.port p
    (s0.portFrames p = true → x.nakNs ≠ 0 → x.nakNs + 999 ≤ s0.now →
      EndsAs (.nakRepeat p now) s (s0.updPort p fun y => { y with nak := true, nakNs := s0.now + 1 })) ∧
    (s0.portFrames p = false ∨ x.nakNs = 0 ∨ s0.now < x.nakNs + 999 → EndsAs (.nakRepeat p now) s s0)) ∧
 (∀ (p : PortId) (s : State),
    let x := s.port p
    (s.linkHead p 1 = none → EndsAs (.credit p) s s) ∧
    (∀ v, s.linkHead p 1 = some v → Ends (.credit p) s fun t =>
      let gained := fun (f : Fld) (m k cum : Nat) =>
        t.fget f [p.val] = (s.fget f [p.val] + (cum + 65536 - KMap.get 0 x.seen k) % 65536) % 2 ^ m ∧ KMap.get 0 (t.port p).seen k = cum
      gained F.PORT_CREDIT_VC0 12 0 (bits v 79 64) ∧ gained F.PORT_CREDIT_VC1 12 1 (bits v 95 80) ∧
      gained F.PORT_CREDIT_VC2 12 2 (bits v 111 96) ∧ gained F.PORT_CREDIT_VC3 12 3 (bits v 127 112) ∧
      gained F.PORT_CREDIT_SHARED 16 4 (bits v 31 16) ∧
      t.port p = { x with rx := (trimSlots x.rx).drop 1, seen := (t.port p).seen } ∧ (∀ o, o ≠ p.val → t.port o = s.port o) ∧
      { t with ports := s.ports, regs := s.regs } = s ∧ ∀ a, a ≠ RegName.addr .PORT_CREDIT [p] → KMap.get 0 t.regs a = KMap.get 0 s.regs a))


/-- R308 to R310, R314: a port that is DOWN, or whose RETRAIN_REQ has left, begins to train; one that trains ends it. It stays without
traffic with its own token, or a version that does not fit; it takes the largest width that both ends' limits and the lanes good at
both ends allow, with the credits of the other end's PORT_VC_CFG; and one that cannot train at width 1 is retired.

R308, R340: a cause takes a port down, with its replay buffer; what waited for it goes another way.

R312: a lane that is not good is marked, counted and left out of the width.

R311, R314 to R317: retrain, width and version requests of the other end are taken. -/
def Obligations.PortsTrainAndFail : Prop :=
 (∀ (p : PortId) (quickOk : Bool) (id : BitVec 16) (port : PortId) (token : W64) (ver order : Byte) (good their : BitVec 4) (max_ : Fin 3)
    (vc : W64) (now : Nat) (s : State),
    let s0 := s.at now
    let x := s0.port p
    let st := s0.portState p
    let goes := fun (t : State) => EndsAs (.portTrain p quickOk id port token ver (order, good) their max_ vc now) s t
    let asks := ∃ l ∈ x.links, l.toNat % 256 = 0x23
    (s0.fget F.PORT_CTRL_EN [p.val] = 0 ∨ s0.fget F.PORT_CTRL_TEST_LOOP [p.val] ≠ 0 → goes s0) ∧
    (s0.fget F.PORT_CTRL_EN [p.val] ≠ 0 → s0.fget F.PORT_CTRL_TEST_LOOP [p.val] = 0 →
      (st = Pst.down → s0.now < x.downNs + 1000 ∨ asks → goes s0) ∧
      (st = Pst.down → x.downNs + 1000 ≤ s0.now → ¬ asks →
        goes ((s0.updPort p (fun x => { x with full := !s0.quickAllowed p })).setPortState p Pst.training)) ∧
      (st = Pst.retraining → x.asked ≠ none → asks → goes s0) ∧
      (st = Pst.retraining → x.asked ≠ none → ¬ asks → goes (s0.updPort p (fun x => { x with asked := none }))) ∧
      (st = Pst.training ∨ (st = Pst.retraining ∧ x.asked = none) →
        goes ((s0.updPort p (fun x => { x with full := x.full || !quickOk })).portTrain p id.toNat port token.toNat ver.toNat order.toNat
          good.toNat their.toNat max_ vc.toNat)) ∧
      (st ≠ Pst.down → st ≠ Pst.training → st ≠ Pst.retraining → goes s0))) ∧
 (∀ (p id port token ver order good their max_ vc : Nat) (s : State),
    let e := s.exchangeParams p id port token good their order
    let limit := max (max (e.fget F.PORT_CTRL_MAX_WIDTH [p]) max_) (e.port p).widthCap
    let width := widthOf limit (e.goodLanes p &&& their)
    let ends := fun (t : State) => s.portTrain p id port token ver order good their max_ vc = t
    (e.linkToken = token → ends ((e.setPortState p Pst.selfLoop).portErr p 0xB8 0 0 p)) ∧
    (e.linkToken ≠ token → e.fab.version + 1 < ver ∨ ver + 1 < e.fab.version →
      ends ((e.setPortState p Pst.version).portErr p 0xB8 0 0 p)) ∧
    (e.linkToken ≠ token → ver ≤ e.fab.version + 1 → e.fab.version ≤ ver + 1 →
      (width = none → ends ((e.portErr p 0xB3 0 0 p).rerouteFrom p)) ∧
      (∀ w g, width = some (w, g) → ends (e.trainingDone p w g ver vc)))) ∧
 (∀ limit good : Nat, limit ≤ 2 → good < 16 →
    (widthOf limit good = none ↔ good = 0) ∧
    ∀ w g, widthOf limit good = some (w, g) → limit ≤ w ∧ w ≤ 2 ∧ g &&& good = g ∧
      (w = 0 → g = 15) ∧ (w = 1 → (g = 3 ∨ g = 12) ∧ ¬ (limit = 0 ∧ good = 15)) ∧
      (w = 2 → (∃ l < 4, g = 2 ^ l ∧ ∀ k < l, good.testBit k = false) ∧ (limit ≤ 1 → good % 4 ≠ 3 ∧ good / 4 ≠ 3))) ∧
 (∀ (p w g ver vc : Nat) (s : State), p < 36 → w ≤ 2 → g < 16 → ¬ ((s.port p).wantFull = true ∧ (s.port p).full = false) →
    let t := s.trainingDone p w g ver vc
    t.portState p = Pst.active ∧ t.fget F.PORT_STATUS_WIDTH [p] = w ∧ t.fget F.PORT_STATUS_LANES_ACTIVE [p] = g ∧
    t.fget F.PORT_CREDIT_SHARED [p] = bits vc 63 48 ∧ t.fget F.PORT_CREDIT_VC3 [p] = bits vc 47 36 ∧
    t.fget F.PORT_CREDIT_VC2 [p] = bits vc 35 24 ∧ t.fget F.PORT_CREDIT_VC1 [p] = bits vc 23 12 ∧
    t.fget F.PORT_CREDIT_VC0 [p] = bits vc 11 0 ∧ (t.port p).freed = [] ∧ (t.port p).seen = [] ∧
    (s.portState p ≠ Pst.retraining → (t.port p).txNext = 0 ∧ (t.port p).rxNext = 0 ∧ (t.port p).buffer = []) ∧
    (s.portState p = Pst.retraining → (t.port p).txNext = (s.port p).txNext ∧ (t.port p).rxNext = (s.port p).rxNext ∧
      (t.port p).buffer = (s.port p).buffer) ∧ t.mem = s.mem) ∧
 (∀ (p : PortId) (now : Nat) (s : State),
    let s0 := s.at now
    let x := s0.port p
    let st := s0.portState p
    let up := st = Pst.active ∨ st = Pst.width ∨ st = Pst.retraining
    (∀ reason : Fin 5,
      let cause := reason = 1 ∨ (reason = 2 ∧ x.lastNs + 1000 ≤ s0.now) ∨ (reason = 3 ∧ ∃ f ∈ x.buffer, 8 ≤ f.replays) ∨
        (reason = 4 ∧ 32 ≤ x.badRun)
      let w := wholeSlots x.rx.length x.rx
      let u := ((s0.setPortState p Pst.down).fsat F.PORT_LINK_LINK_DOWNS [p.val] 1).updPort p
        (fun y => { y.linkLost with rx := w.1, downNs := s0.now })
      let v := if w.2 = true then (u.fsat F.PORT_DROPS_ROUTE [p.val] 1).fabErr 0xB5 p 5 0 0 else u
      (up → cause → EndsAs (.portDown p reason now) s ((v.rerouteFrom p).portEvent p 0xB1 0 reason p)) ∧
      (¬ up ∨ ¬ cause → EndsAs (.portDown p reason now) s s0)) ∧
    (up → Ends (.portDown p 1 now) s fun t =>
      (t.portState p = Pst.down ∨ t.portState p = Pst.retired) ∧ (t.port p).buffer = [] ∧ (t.port p).tx = [] ∧
        (s.fget F.PORT_LINK_LINK_DOWNS [p] < 65535 →
          t.fget F.PORT_LINK_LINK_DOWNS [p] = s.fget F.PORT_LINK_LINK_DOWNS [p] + 1) ∧ t.mem = s.mem)) ∧
 (∀ (p : PortId) (s : State),
    let x := s.port p
    let st := s.portState p
    let fails := st = Pst.down ∨ st = Pst.training ∨ st = Pst.retraining
    (fails → EndsAs (.portRetire p) s ((s.portErr p 0xB3 0 0 p).rerouteFrom p)) ∧ (¬ fails → EndsAs (.portRetire p) s s) ∧
    (st = Pst.down → unitKey 8 p ∉ s.ridge.decided → Ends (.portRetire p) s fun t =>
      t.portState p = Pst.retired ∧ unitKey 8 p ∈ t.ridge.decided ∧ t.mem = s.mem) ∧
    (∀ l : Fin 4,
      let carries := st = Pst.active ∧ (s.fget F.PORT_STATUS_LANES_ACTIVE [p.val]).testBit l = true
      let u := (s.fset F.LANE_STATUS_GOOD [p.val, l.val] 0).countEvent { code := 0xB2, unit := p * 4 + l } (unitKey 7 (p * 4 + l))
        F.RET_LIMITS_LANE_N
      let retires := s.fget F.LANE_STATUS_RETIRED [p.val, l.val] = 0 ∧ u.fget F.LANE_STATUS_RETIRED [p.val, l.val] = 1
      (¬ carries → EndsAs (.laneNotGood p l) s s) ∧
      (carries → retires → EndsAs (.laneNotGood p l) s ((u.portCapture p 0xB2 (2 ^ l.val) 0).narrowPort p)) ∧
      (carries → ¬ retires → EndsAs (.laneNotGood p l) s (u.narrowPort p))) ∧
    (∀ w g, widthOf (s.fget F.PORT_STATUS_WIDTH [p.val]) (s.goodLanes p &&& x.theirGood) = some (w, g) →
      s.narrowPort p = s.updPort p (fun y => { y with widthAsk := some w, links := y.links ++
        [BitVec.ofNat 256 (0x33 + w * 2 ^ 8 + s.goodLanes p * 2 ^ 12 + s.linkToken * 2 ^ 64)] })) ∧
    (widthOf (s.fget F.PORT_STATUS_WIDTH [p.val]) (s.goodLanes p &&& x.theirGood) = none → s.narrowPort p = s)) ∧
 (∀ (p : PortId) (w : Writer) (v : BitVec 32) (now : Nat) (s : State),
    let s0 := s.at now
    (s0.portState p = Pst.active → s0.pins.silent = false → EndsAs (.retrain w true p v now) s (s0.startRetrain p 0)) ∧
    (s0.portState p ≠ Pst.active ∨ s0.pins.silent = true → EndsAs (.retrain w true p v now) s s0) ∧
    EndsAs (.retrain w false p v now) s (s0.ctlWrite w .PORT_CTRL [p.val] (v.toNat ||| 4)) ∧
    (∀ reason, s.startRetrain p reason =
      ((s.updPort p (fun x => { x.foldWidth with asked := some (!s.quickAllowed p, s.now), full := !s.quickAllowed p, links := x.links ++
        [BitVec.ofNat 256 (0x23 + (!s.quickAllowed p).toNat * 2 ^ 8 + reason * 2 ^ 16 + s.linkToken * 2 ^ 64)] })).fsat
        F.PORT_LINK_RETRAINS [p.val] 1).setPortState p Pst.retraining)) ∧
 (∀ (p : PortId) (now : Nat) (s : State),
    let s0 := s.at now
    let u := (s0.takeHead p).updPort p PortSt.foldWidth
    let takes := fun (t : State) => EndsAs (.retrainReq p now) s t
    (s0.linkHead p 2 = none → takes s0) ∧
    (∀ v, s0.linkHead p 2 = some v →
      ((s0.takeHead p).portFrames p = false → takes (s0.takeHead p)) ∧
      ((s0.takeHead p).portFrames p = true →
        ((u.port p).asked = none → takes (((u.updPort p (fun x => { x with full := v.testBit 8 || !u.quickAllowed p })).fsat
          F.PORT_LINK_RETRAINS [p.val] 1).setPortState p Pst.retraining)) ∧
        (∀ mine since, (u.port p).asked = some (mine, since) →
          (u.now ≤ since + 1000 ∧ u.fget F.PORT_STATUS_LEADER [p.val] = 0 → takes (u.updPort p (fun x => { x with
            asked := none, full := v.testBit 8, wantFull := mine && !v.testBit 8,
            links := x.links.filter (fun y => y.toNat % 256 != 0x23) }))) ∧
          (¬ (u.now ≤ since + 1000 ∧ u.fget F.PORT_STATUS_LEADER [p.val] = 0) →
            takes (u.updPort p (fun x => { x with asked := none }))))))) ∧
 (∀ (p : PortId) (s : State),
    (s.linkHead p 3 = none → EndsAs (.widthReq p) s s) ∧ (s.linkHead p 4 = none → EndsAs (.widthAck p) s s) ∧
    (s.linkHead p 5 = none → EndsAs (.version p) s s) ∧
    (∀ v, s.linkHead p 3 = some v →
      let u := (s.takeHead p).updPort p (fun x => { x with theirGood := bits v 15 12 })
      let x := u.port p
      (u.portState p = Pst.retraining →
        EndsAs (.widthReq p) s (u.updPort p (fun x => { x with widthCap := max x.widthCap (bits v 9 8) }))) ∧
      (u.portState p ≠ Pst.retraining → x.widthAsk ≠ none → u.fget F.PORT_STATUS_LEADER [p.val] = 0 → EndsAs (.widthReq p) s u) ∧
      (u.portState p ≠ Pst.retraining → x.widthAsk = none ∨ u.fget F.PORT_STATUS_LEADER [p.val] ≠ 0 → ∀ own,
        own = ((widthOf (u.fget F.PORT_STATUS_WIDTH [p.val]) (u.goodLanes p &&& x.theirGood)).map Prod.fst).getD 2 →
        let w := max (max (bits v 9 8) own) (x.widthAsk.getD 0)
        EndsAs (.widthReq p) s ((u.updPort p (fun y => { y with
          widthAsk := none, widthTx := some ((x.txNext + 1) % 256, w),
          links := BitVec.ofNat 256 (0x43 + w * 2 ^ 8 + (x.txNext + 1) % 256 * 2 ^ 16) :: y.links })).setPortState p Pst.width))) ∧
    (∀ v, s.linkHead p 4 = some v →
      let u := s.takeHead p
      ((u.port p).widthAsk = none ∨ u.portState p ≠ Pst.active → EndsAs (.widthAck p) s u) ∧
      ((u.port p).widthAsk ≠ none → u.portState p = Pst.active → EndsAs (.widthAck p) s ((u.updPort p (fun x => { x with
        widthAsk := none, widthRx := some (bits v 23 16, bits v 9 8) })).setPortState p Pst.width))) ∧
    (∀ v, s.linkHead p 5 = some v →
      let u := s.takeHead p
      let x := u.port p
      let ver := bits v 31 24
      let low := min ver u.fab.version
      let fits := ver ≤ u.fab.version + 1 ∧ u.fab.version ≤ ver + 1
      let mismatch := fun (t : State) => (t.setPortState p Pst.version).portErr p 0xB8 0 0 p
      let quiet := u.updPort p (fun x => { x with versionAsk := false })
      let f := (x.txNext + 1) % 256
      let answered := u.updPort p (fun x => { x with
        versionAsk := false,
        links := BitVec.ofNat 256 (0x153 + f * 2 ^ 16 + u.fab.version * 2 ^ 24 + u.linkToken * 2 ^ 64) :: x.links })
      let yields := x.versionAsk = true ∧ u.fget F.PORT_STATUS_LEADER [p.val] = 0
      (u.portFrames p = false → EndsAs (.version p) s u) ∧
      (u.portFrames p = true →
        (v.testBit 8 = true → fits →
          EndsAs (.version p) s (quiet.updPort p (fun x => { x with versionRx := some (bits v 23 16, low) }))) ∧
        (v.testBit 8 = true → ¬ fits → EndsAs (.version p) s (mismatch quiet)) ∧
        (v.testBit 8 = false → yields → fits → EndsAs (.version p) s u) ∧
        (v.testBit 8 = false → yields → ¬ fits → EndsAs (.version p) s (mismatch u)) ∧
        (v.testBit 8 = false → ¬ yields → fits →
          EndsAs (.version p) s (answered.updPort p (fun x => { x with versionTx := some (f, low) }))) ∧
        (v.testBit 8 = false → ¬ yields → ¬ fits → EndsAs (.version p) s (mismatch answered))))) ∧
 (∀ (p fseq : Nat) (tx : Bool) (s : State),
    let x := s.port p
    let w := if tx = true then x.widthTx else x.widthRx
    let v := if tx = true then x.versionTx else x.versionRx
    (w = none → v = none → s.atBoundary p fseq tx = s) ∧
    (∀ c, w = some (fseq, c) → v = none → s.atBoundary p fseq tx =
      (s.updPort p (fun x => { x with widthTx := none, widthRx := none })).applyWidth p c) ∧
    (∀ n, w = none → v = some (fseq, n) → s.atBoundary p fseq tx =
      (s.updPort p (fun x => { x with versionTx := none, versionRx := none })).fset F.PORT_STATUS_VERSION [p] n) ∧
    (∀ code, s.applyWidth p code = ((s.fset F.PORT_STATUS_WIDTH [p] code).fset F.PORT_STATUS_LANES_ACTIVE [p]
      ((laneGroup code (s.goodLanes p &&& x.theirGood)).getD (s.fget F.PORT_STATUS_LANES_ACTIVE [p]))).setPortState p Pst.active))


/-- R324, R331 to R334, R337, R339: the packet at the head of a port's slots is taken once it is whole. One of an undefined class, opcode or
length, with no hops left, of an epoch that is not READY, or with no route, is discarded with 0xB5 and its reason; one whose key the
port does not admit, with 0xB4. The others go to this device where DST_ID is its own (a time packet always), or to the output of their
route with one hop less, where their key is tested too.

R321, R339, R344, R371: what is addressed to this device is taken only with a key that LOCAL admits and a check that holds; in Transit a
VC1 request is answered DEVICE_UNAVAILABLE and VC2 and VC3 are discarded; a Void, but a PUT's, is discarded.

R327 to R329, R374, R378: a packet is granted by an ACTIVE port that has begun all but the last frame of its slots, for its credits, when
its shaper's count is zero or more, VC0 first and VC1 to VC3 in turn by their weights, inputs round robin and each in its order.

R334, R336, R344: a packet that stayed too long leaves; epochs, route tables and Transit follow their registers. -/
def Obligations.PacketsCrossTheSwitch : Prop :=
 (∀ (p : PortId) (shared : Bool) (now : Nat) (s : State),
    let s0 := s.at now
    let l := trimSlots (s0.port p).rx
    let goes := fun (t : State) => EndsAs (.packetArrive p shared now) s t
    (l = [] → goes s0) ∧
    (∀ h rest, l = h :: rest → h.bits.toNat % 16 = 3 ∨ rest.length + 1 < headLen h.bits → goes s0) ∧
    (∀ h rest, l = h :: rest → h.bits.toNat % 16 ≠ 3 → headLen h.bits ≤ rest.length + 1 →
      let k := Packet.parse ((l.take (headLen h.bits)).map RxSlot.bits)
      let e := (s0.takeHead p).freeEarly { pkt := k, inp := some p.val, shared := shared, holds := h.holds, out := none, sinceNs := h.ns }
      let q := e.1
      let u := e.2
      let gone := fun (reason : Nat) => goes (((u.freeSlots q).fsat F.PORT_DROPS_ROUTE [p.val] 1).fabErr 0xB5 p reason k.src k.pkey)
      let known := (k.cls = 1 ∨ k.cls = 2) ∧ opcodeDefined k.cls k.opcode = true ∧ (k.cls = 2 → k.vc ≠ 0 ∧ 0 < k.bytes ∧ k.bytes ≤ 512)
      let time := k.opcode = 0xF0 ∨ k.opcode = 0xF1
      (¬ known → gone 5) ∧
      (known → u.keyAt k.pkey p = false → goes (((u.freeSlots q).fsat F.PORT_DROPS_PKEY [p.val] 1).fabErr 0xB4 p 0 k.src k.pkey)) ∧
      (known → u.keyAt k.pkey p = true →
        (k.hops = 0 → gone 2) ∧
        (k.hops ≠ 0 → time → goes (u.deliver q)) ∧
        (k.hops ≠ 0 → ¬ time → u.epochReady k.epoch = false → gone 4) ∧
        (k.hops ≠ 0 → ¬ time → u.epochReady k.epoch = true →
          (k.dst = u.fabId → goes (u.deliver q)) ∧
          (k.dst ≠ u.fabId → u.route k.epoch k.src k.dst k.pathKey (some p.val) = none → gone 3) ∧
          (∀ o, k.dst ≠ u.fabId → u.route k.epoch k.src k.dst k.pathKey (some p.val) = some o →
            (u.keyAt k.pkey o = true → goes (u.swAdd { q with pkt := { k with hops := k.hops - 1 }, out := some o })) ∧
            (u.keyAt k.pkey o = false →
              goes (((u.freeSlots q).fsat F.PORT_DROPS_PKEY [o] 1).fabErr 0xB4 o 0 k.src k.pkey))))))) ∧
 (∀ (q : SwPkt) (s : State),
    let p := q.pkt
    let ends := fun (t : State) => s.deliver q = t
    (s.keyLocal p.pkey = false → ends (((s.freeSlots q).countDrop q.inp F.PORT_DROPS_PKEY).fabErr 0xB4 0x3F 0 p.src p.pkey)) ∧
    (s.keyLocal p.pkey = true →
      (p.checkOk = false → ends ((s.freeSlots q).fabErr 0xB6 0x3F 0 p.src p.pkey)) ∧
      (p.checkOk = true →
        (s.inTransit = true → p.vc = 2 ∨ p.vc = 3 → ends (s.freeSlots q)) ∧
        (s.inTransit = true → p.vc = 1 → ends ((s.freeSlots q).answer p St.unavailable none)) ∧
        (s.inTransit = false ∨ 4 ≤ p.vc ∨ p.vc = 0 → p.void = true → p.opcode ≠ 0x40 → ends (s.freeSlots q)) ∧
        (s.inTransit = false ∨ 4 ≤ p.vc ∨ p.vc = 0 → p.void = false ∨ p.opcode = 0x40 → ends (s.swAdd q)))) ∧
    (p.void = false → s.freeEarly q = (q, s)) ∧
    (p.void = true → s.freeEarly q = ({ q with early := p.credits - 1 }, s.freeSome q (p.credits - 1)))) ∧
 (∀ (p : PortId) (n now : Nat) (s : State),
    let s0 := s.at now
    (s0.fab.sw[n]? = none → EndsAs (.packetGrant p n now) s s0) ∧
    (∀ q, s0.fab.sw[n]? = some q →
      let chosen := s0.grantable p n q = true ∧ (q.pkt.vc = 0 ∨ (s0.readyInputs p 0 = [] ∧ s0.turnVc p = some q.pkt.vc)) ∧
        nextInput (KMap.get 0 (s0.port p).rr q.pkt.vc) (s0.readyInputs p q.pkt.vc) = some q.input
      (chosen → EndsAs (.packetGrant p n now) s (s0.grant p n).fabPump) ∧ (¬ chosen → EndsAs (.packetGrant p n now) s s0))) ∧
 (∀ (p n : Nat) (q : SwPkt) (s : State),
    let x := s.port p
    (s.grantable p n q = true ↔ q.out = some p ∧ s.portState p = Pst.active ∧ x.tx.length < 20 ∧
      (∀ r ∈ s.fab.sw.take n, ¬ (r.out = some p ∧ r.input = q.input ∧ r.pkt.vc = q.pkt.vc)) ∧
      (q.pkt.credits ≤ s.fget (creditFld q.pkt.vc) [p] ∨ q.pkt.credits ≤ s.fget F.PORT_CREDIT_SHARED [p]) ∧
      (q.pkt.vc = 0 ∨ s.bucketOpen (.port p q.pkt.vc) = true) ∧
      (q.pkt.vc = 0 → q.inp = none → (x.vc0.filter (fun t => s.now < t + 1000)).length < 2)) ∧
    (let ready := fun (v : Nat) => !(s.readyInputs p v).isEmpty
     (ready x.turn = true → x.spent < s.vcQuantum p x.turn → s.turnVc p = some x.turn) ∧
     (ready x.turn = false ∨ s.vcQuantum p x.turn ≤ x.spent →
       s.turnVc p = [x.turn % 3 + 1, (x.turn + 1) % 3 + 1, (x.turn + 2) % 3 + 1].find? ready)) ∧
    (s.fab.sw[n]? = some q → q.pkt.vc ≤ 3 → p < 36 →
      let t := s.grant p n
      let v := q.pkt.vc
      let k := q.pkt.credits
      t.fab.sw = s.fab.sw.eraseIdx n ∧ (t.port p).tx = x.tx ++ q.pkt.toSlots ∧
      (t.port p).packets = x.packets ++ [({ q with grantNs := some s.now, past := false }, q.pkt.slots)] ∧ KMap.get 0 (t.port p).rr v = q.input ∧
      (k ≤ s.fget (creditFld v) [p] → t.fget (creditFld v) [p] = s.fget (creditFld v) [p] - k ∧
        t.fget F.PORT_CREDIT_SHARED [p] = s.fget F.PORT_CREDIT_SHARED [p]) ∧
      (s.fget (creditFld v) [p] < k → t.fget (creditFld v) [p] = s.fget (creditFld v) [p] ∧
        t.fget F.PORT_CREDIT_SHARED [p] = s.fget F.PORT_CREDIT_SHARED [p] - k) ∧
      (v ≠ 0 → ((v = x.turn ∧ x.spent < s.vcQuantum p v) → (t.port p).turn = x.turn ∧ (t.port p).spent = x.spent + q.pkt.slots) ∧
        (¬ (v = x.turn ∧ x.spent < s.vcQuantum p v) → (t.port p).turn = v ∧ (t.port p).spent = q.pkt.slots)) ∧
      (∀ r x, q.req = some r → s.fabReq r = some x → t.fabReq r = some { x with granted := true }) ∧ t.mem = s.mem)) ∧
 (∀ (n now : Nat) (s : State),
    let s0 := s.at now
    (s0.fab.sw[n]? = none → EndsAs (.residenceTimeout n now) s s0) ∧
    (∀ q, s0.fab.sw[n]? = some q →
      (s0.now ≤ q.sinceNs + q.residUs * 1000 → EndsAs (.residenceTimeout n now) s s0) ∧
      (q.sinceNs + q.residUs * 1000 < s0.now → EndsAs (.residenceTimeout n now) s
        (((s0.swDrop n).countDrop q.inp F.PORT_DROPS_RESIDENCE).fabErr 0xB5 (portOr q.inp) 1 q.pkt.src q.pkt.pkey) ∧
        (s0.swDrop n).fab.sw = s0.fab.sw.eraseIdx n))) ∧
 (∀ (e : Fin 2) (now : Nat) (s : State),
    let s0 := s.at now
    let idle := s0.fget F.EPOCH_CTRL_SRC_EPOCH [] ≠ e.val ∧ s0.fab.epochNs + s0.fget F.FAB_TIMERS_EPOCH_HOLD_US [] * 1000 ≤ s0.now ∧
      s0.inflight e = 0
    (idle → EndsAs (.epochLiveClear e now) s (s0.fset (if e.val = 0 then F.EPOCH_STATUS_LIVE0 else F.EPOCH_STATUS_LIVE1) [] 0)) ∧
    (¬ idle → EndsAs (.epochLiveClear e now) s s0)) ∧
 (∀ (w : Writer) (e : Fin 2) (now : Nat) (s : State),
    let s0 := s.at now
    let taken := fun r ix v => WriteTaken w (RegName.addr r ix) r ix v s0
    let now_ := s.fget F.EPOCH_CTRL_SRC_EPOCH []
    (taken .EPOCH_CTRL [] (2 ^ (e.val + 1) + now_) → Ends (.epochCommit w e now) s fun t =>
      t.epochReady e = true ∧ t.fget F.EPOCH_CTRL_SRC_EPOCH [] = now_ ∧ t.mem = s.mem) ∧
    (taken .EPOCH_CTRL [] e.val → Ends (.srcEpochWrite w e now) s fun t =>
      t.fget F.EPOCH_CTRL_SRC_EPOCH [] = e ∧
        (now_ ≠ e → t.fget (if e.val = 0 then F.EPOCH_STATUS_LIVE0 else F.EPOCH_STATUS_LIVE1) [] = 1) ∧ t.mem = s.mem) ∧
    (∀ (k : Fin 128) (v : BitVec 64), taken .ROUTE [e.val, k.val] v.toNat → Ends (.routeTableWrite w e k v now) s fun t =>
      t.fget F.ROUTE_VALID [e, k] = bit v.toNat 63 ∧ t.fget F.ROUTE_PORTS [e, k] = bits v.toNat 35 0 ∧
        t.epochReady e = false ∧ t.mem = s.mem) ∧
    (∀ on : Bool, taken .FAB_ROLE [] on.toNat → Ends (.transit w on now) s fun t =>
      t.inTransit = (on || s.fget F.RIDGE_STATUS_STATE [] == 2 || s.fget F.RIDGE_STATUS_STATE [] == 3) ∧
        t.fget F.FAB_ROLE_TRANSIT [] = on.toNat ∧ t.mem = s.mem))


/-- R344, R355, R358, R365 to R367: a READ that passes the target's checks is answered with the bytes at its place: alone, or through a
combining entry, which it opens or joins; one that fails a check is answered with its status. R290: while local memory is closed, READ,
WRITE and atomics wait.

R342, R359, R368: a WRITE or atomic is executed once, recorded, and answered from its record when it comes again; atomics that combine are
executed one after another in their order. Records end with their time.

R341, R361: a response ends the request that it answers with its data or status, and one that answers nothing is dropped; a request
without a response is sent again after RETRY_US, up to RETRY_MAX times, and then ends as FABRIC_TIMEOUT, by the timers of its last
attempt (R348). -/
def Obligations.RequestsAndResponsesMeet : Prop :=
 (∀ (n now : Nat) (s : State),
    let s0 := s.at now
    let goes := fun (t : State) => EndsAs (.read n now) s t
    (s0.delivered n [0x01] = none → goes s0) ∧
    (∀ q, s0.delivered n [0x01] = some q →
      let p := q.pkt
      let s1 := s0.swDrop n
      let addr := bodyWord p.body 0
      let ward := bodyWord p.body 1 / 2 ^ 32
      let len := bodyWord p.body 1 % 2 ^ 13
      (s0.inTransit = true → goes (s1.answer p St.unavailable none)) ∧
      (s0.inTransit = false → s0.ridge.powerFail = true → goes s0) ∧
      (s0.inTransit = false → s0.ridge.powerFail = false →
        (len = 0 ∨ 4096 < addr % 4096 + len → goes (s1.answer p St.unmapped none)) ∧
        (0 < len → addr % 4096 + len ≤ 4096 → ∀ c1 phys u, s1.targetCheck addr len p.pkey ward p.src = (c1, phys, u) →
          (c1 ≠ 0 → goes (u.answer p c1 none)) ∧
          (c1 = 0 → u.readGone phys len ≠ 0 → goes (u.answer p (u.readGone phys len) none)) ∧
          (c1 = 0 → u.readGone phys len = 0 →
            let open_ := fun (e : CombEntry) => !e.closed && e.addr == addr && e.len == len && e.pkey == p.pkey && e.ward == ward
            let combines_ := p.comb = true ∧ u.fget F.OPM_CTRL_COMBINE_EN [] ≠ 0
            let me : CombMember := ⟨p.src, p.tag, p.pathKey, false⟩
            (¬ combines_ ∨ (u.fab.comb.find? open_ = none ∧ 1024 ≤ u.fab.comb.length) → ∀ st l v,
              u.serveRead q.portNo phys len = (st, l, v) → goes (v.answerRead p.src p.tag p.pathKey p.pkey addr st l none)) ∧
            (combines_ → u.fab.comb.find? open_ = none → u.fab.comb.length < 1024 → goes (u.updFab fun f => { f with
              nextComb := f.nextComb + 1, comb := f.comb ++ [{ id := f.nextComb, addr := addr, len := len, pkey := p.pkey, ward := ward,
                                                               phys := phys, openNs := u.now, members := [me] }] })) ∧
            (∀ e, combines_ → u.fab.comb.find? open_ = some e →
              let again := p.retry = true ∧ ∃ m ∈ e.members, m.src = p.src ∧ m.tag = p.tag
              let v := (u.updComb e.id (fun e => { e with members := e.members ++ [me] })).fsat F.OPM_COUNTS_JOINED_READS [] 1
              (again → goes u) ∧ (¬ again → e.data.isSome = true → goes (v.combReply e.id)) ∧
              (¬ again → e.data = none → goes v))))))) ∧
 (∀ (n now : Nat) (s : State),
    let s0 := s.at now
    (s0.delivered n [0x02] = none → EndsAs (.write n now) s s0) ∧
    (s0.delivered n atomicOps = none → EndsAs (.atomic n now) s s0) ∧
    (∀ q, s0.delivered n [0x02] = some q →
      let p := q.pkt
      (s0.inTransit = true → EndsAs (.write n now) s ((s0.swDrop n).answer p St.unavailable none)) ∧
      (s0.inTransit = false → s0.ridge.powerFail = true → EndsAs (.write n now) s s0) ∧
      (s0.inTransit = false → s0.ridge.powerFail = false → EndsAs (.write n now) s (s0.once n q fun u =>
        let c := if 4096 < p.addr % 4096 + p.bytes then (St.unmapped, 0, u) else u.targetCheck p.addr p.bytes p.pkey p.aux p.src
        if c.1 != 0 then (c.1, none, c.2.2) else let r := c.2.2.serveWrite q.portNo c.2.1 p.body; (r.1, none, r.2)))) ∧
    (∀ q, s0.delivered n atomicOps = some q →
      let l := s0.atomicMembers q.pkt
      (s0.inTransit = true → EndsAs (.atomic n now) s ((s0.swDrop n).answer q.pkt St.unavailable none)) ∧
      (s0.inTransit = false → s0.ridge.powerFail = true → EndsAs (.atomic n now) s s0) ∧
      (s0.inTransit = false → s0.ridge.powerFail = false → s0.fget F.OPM_CTRL_ATOMIC_COMBINE_EN [] ≠ 1 ∨ l.length ≤ 1 →
        EndsAs (.atomic n now) s (s0.atomicOnce n q)) ∧
      (∀ a b i k u, s0.inTransit = false → s0.ridge.powerFail = false → s0.fget F.OPM_CTRL_ATOMIC_COMBINE_EN [] = 1 → l = [a, b] →
        s0.fab.sw.findIdx? (fun x => x == a) = some i → u = s0.atomicOnce i a → u.fab.sw.findIdx? (fun x => x == b) = some k →
        EndsAs (.atomic n now) s (if (s0.recordOf a.pkt).isNone && (u.recordOf b.pkt).isNone then
          (u.atomicOnce k b).fsat F.OPM_COUNTS_JOINED_ATOMICS [] 1 else u.atomicOnce k b)))) ∧
 (∀ (n : Nat) (q : SwPkt) (run : State → Nat × Option Nat × State) (s : State),
    let p := q.pkt
    let u := s.updFab (fun f => { f with records := f.records.filter (fun r => s.now < r.untilNs) })
    (∀ r, s.recordOf p = some r → r ∈ s.fab.records ∧ r.src = p.src ∧ r.tag = p.tag ∧ s.now < r.untilNs ∧
      s.once n q run = (s.swDrop n).answer p r.status (if r.opcode = 0x02 then none else some r.old)) ∧
    (s.recordOf p = none → (∀ r ∈ s.fab.records, r.src = p.src → r.tag = p.tag → r.untilNs ≤ s.now) ∧
      (65536 ≤ u.fab.records.length → s.once n q run = u) ∧
      (u.fab.records.length < 65536 → ∀ st old v, run (u.swDrop n) = (st, old, v) → s.once n q run =
        (v.updFab (fun f => { f with records := f.records ++
          [⟨p.src, p.tag, p.opcode, st, old.getD 0, u.now + u.fget F.FAB_TIMERS_TAG_HOLD_US [] * 1000⟩] })).answer p st old))) ∧
 (∀ (n : Nat) (q : SwPkt) (s : State),
    let p := q.pkt
    let w := if p.opcode = 0x19 then p.bytes / 2 else p.bytes
    let bad := !(w = 4 || w = 8) || (p.opcode = 0x19 && p.bytes % 2 = 1)
    s.atomicOnce n q = s.once n q fun u =>
      let c := if bad then (St.unmapped, 0, u) else u.targetCheck p.addr w p.pkey p.aux p.src
      if c.1 != 0 then (c.1, none, c.2.2)
      else
        let r := c.2.2.serveAtomic (portIssuer q.portNo) c.2.1 (p.opcode - 0x10) w (leNat (p.body.take w)) (leNat (p.body.drop w))
        (r.1, some r.2.1, r.2.2)) ∧
 (∀ (i : Issuer) (phys op w v cmp : Nat) (s : State),
    (phys % w ≠ 0 → s.serveAtomic i phys op w v cmp = (St.unmapped, 0, s)) ∧
    (∀ st pl u, phys % w = 0 → s.check i .atomic phys = (st, pl, u) → st ≠ 0 → s.serveAtomic i phys op w v cmp = (st, 0, u)) ∧
    (∀ t ph u, phys % w = 0 → s.check i .atomic phys = (0, some (.mem t ph), u) →
      s.serveAtomic i phys op w v cmp = u.coreAtomic i t ph w op v cmp)) ∧
 (∀ (n now : Nat) (s : State),
    let s0 := s.at now
    (∀ r, s0.fab.records[n]? = some r →
      (r.untilNs ≤ s0.now → EndsAs (.recordExpiry n now) s (s0.updFab fun f => { f with records := f.records.eraseIdx n })) ∧
      (s0.now < r.untilNs → EndsAs (.recordExpiry n now) s s0)) ∧
    (s0.fab.records[n]? = none → EndsAs (.recordExpiry n now) s s0) ∧
    (s0.fab.comb.find? (fun e => e.id == n) = none → EndsAs (.combineHoldEnd n now) s s0) ∧
    (∀ e, s0.fab.comb.find? (fun e => e.id == n) = some e →
      let waits := s0.ridge.powerFail = true ∨ e.data.isSome = true ∨ s0.now < e.openNs + s0.fget F.OPM_CTRL_HOLD_NS [] ∨
        s0.storeSize < s0.storeUsed + (e.len + 31) / 32
      (waits → EndsAs (.combineHoldEnd n now) s s0) ∧
      (¬ waits → ∀ st l u, s0.serveRead 0 e.phys e.len = (st, l, u) →
        EndsAs (.combineHoldEnd n now) s (u.updComb n fun e => { e with data := some (st, l) }))) ∧
    EndsAs (.combineReply n) s (s.combReply n) ∧
    (∀ e, s.fab.comb.find? (fun e => e.id == n) = some e → e.data = none → s.combReply n = s) ∧
    (∀ e st d, s.fab.comb.find? (fun e => e.id == n) = some e → e.data = some (st, d) → s.combReply n =
      ((((e.members.filter (fun m => !m.replied)).foldl (fun u m => u.answerRead m.src m.tag m.pathKey e.pkey e.addr st d (some n))
        s).updComb n (fun e => { e with members := e.members.map (fun m => { m with replied := true }) })).freeComb n))) ∧
 (∀ (n now : Nat) (s : State),
    let s0 := s.at now
    let s1 := s0.swDrop n
    (s0.delivered n [0x20] = none → EndsAs (.readData n now) s s0) ∧ (s0.delivered n [0x21] = none → EndsAs (.complete n now) s s0) ∧
    (s0.delivered n [0x22] = none → EndsAs (.atomicData n now) s s0) ∧
    (∀ q, s0.delivered n [0x20] = some q →
      (s1.answers q.pkt = none → EndsAs (.readData n now) s s1) ∧
      (∀ r, s1.answers q.pkt = some r →
        let got := KMap.set [] r.got (q.pkt.aux % 8192) q.pkt.body
        let parts := (List.range ((r.len + 511) / 512)).map (fun i => KMap.get [] got (512 * i))
        (r.kind ≠ .read → EndsAs (.readData n now) s s1) ∧
        (r.kind = .read → q.pkt.status ≠ 0 → EndsAs (.readData n now) s (s1.fabEnd r.id q.pkt.status [])) ∧
        (r.kind = .read → q.pkt.status = 0 → (∀ x ∈ parts, x ≠ []) →
          EndsAs (.readData n now) s (s1.fabEnd r.id 0 (parts.flatten.take r.len))) ∧
        (r.kind = .read → q.pkt.status = 0 → (∃ x ∈ parts, x = []) →
          EndsAs (.readData n now) s (s1.updReq r.id (fun x => { x with got := got }))))) ∧
    (∀ q, s0.delivered n [0x21] = some q →
      (s1.answers q.pkt = none → EndsAs (.complete n now) s s1) ∧
      (∀ r, s1.answers q.pkt = some r →
        (r.kind = .write ∨ q.pkt.status ≠ 0 → EndsAs (.complete n now) s (s1.fabEnd r.id q.pkt.status [])) ∧
        (r.kind ≠ .write → q.pkt.status = 0 → EndsAs (.complete n now) s s1))) ∧
    (∀ q, s0.delivered n [0x22] = some q →
      (s1.answers q.pkt = none → EndsAs (.atomicData n now) s s1) ∧
      (∀ r, s1.answers q.pkt = some r →
        (∀ op, r.kind = .atomic op → EndsAs (.atomicData n now) s (s1.fabEnd r.id q.pkt.status (q.pkt.body.take 8))) ∧
        ((∀ op, r.kind ≠ .atomic op) → EndsAs (.atomicData n now) s s1)))) ∧
 (∀ (k : Packet) (s : State),
    (∀ r, s.answers k = some r → r ∈ s.fab.reqs ∧ r.tag = some k.tag ∧ r.dst = k.src ∧ r.result = none ∧ r.attempts ≠ 0) ∧
    (s.answers k = none → ∀ r ∈ s.fab.reqs, ¬ (r.tag = some k.tag ∧ r.dst = k.src ∧ r.result = none ∧ r.attempts ≠ 0))) ∧
 (∀ (r : FabReq) (st : Nat) (d : List Byte) (s : State), s.fabReq r.id = some r →
    let t := s.fabFinish r.id st d
    (r.orphan = false → t.fabResult r.id = some (if r.missed.isSome && st = 0 then 0x1E else st, d)) ∧
    (r.orphan = true → t.fabReq r.id = none) ∧
    (∀ g, r.tag = some g → (r.dst, g, r.sentNs + timerOf F.FAB_TIMERS_TAG_HOLD_US r.timers * 1000) ∈ t.fab.tagHeld) ∧
    t.mem = s.mem ∧ t.regs = s.regs) ∧
 (∀ (n now : Nat) (s : State),
    let s0 := s.at now
    (s0.fab.reqs[n]? = none → EndsAs (.e2eRetry n now) s s0) ∧
    (∀ r, s0.fab.reqs[n]? = some r →
      let due := r.attempts ≠ 0 ∧ r.result = none ∧ r.sentNs + timerOf F.FAB_TIMERS_RETRY_US r.timers * 1000 ≤ s0.now
      (¬ due → EndsAs (.e2eRetry n now) s s0) ∧
      (due → timerOf F.FAB_TIMERS_RETRY_MAX r.timers < r.attempts → EndsAs (.e2eRetry n now) s
        (((s0.fsat F.FAB_E2E_TIMEOUTS [] 1).fabErr 0xB7 0x3F 0 s0.fabId r.pkey r.ten).fabEnd r.id St.fabricTimeout [])) ∧
      (due → r.attempts ≤ timerOf F.FAB_TIMERS_RETRY_MAX r.timers →
        (s0.srcGate r.ten 0 = .goes → EndsAs (.e2eRetry n now) s (s0.injectReq r)) ∧
        (s0.srcGate r.ten 0 = .waits → EndsAs (.e2eRetry n now) s s0) ∧
        (s0.srcGate r.ten 0 = .policed → EndsAs (.e2eRetry n now) s
          ((s0.fabFinish r.id St.policed []).policedEvent r.ten)))) ∧
    (∀ r tag, r.tag = some tag →
      let x := { r with attempts := r.attempts + 1, sentNs := s.now, timers := (s.rget .FAB_TIMERS []).toNat }
      let u := s.updReq r.id (fun _ => x)
      let e := u.fget F.EPOCH_CTRL_SRC_EPOCH []
      let path := u.route e u.fabId r.dst r.pathKey none
      (u.epochReady e = false ∨ u.inTransit = true ∨ path = none → s.injectReq r = u) ∧
      (∀ o, u.epochReady e = true → u.inTransit = false → path = some o →
        (u.keyAt r.pkey o = false → s.injectReq r = (u.fabFinish r.id St.pkeyDenied []).fabErr 0xB4 0x3F 0 s.fabId r.pkey r.ten) ∧
        (u.keyAt r.pkey o = true → u.srcBucket r.ten 0 = none → 0 < r.attempts → s.injectReq r =
          (u.fsat F.FAB_E2E_RESENDS [] 1).swAdd { pkt := x.packet u.fabId e (u.fget F.FAB_TIMERS_HOP_LIMIT []), inp := none, out := some o,
                                                  sinceNs := u.now, req := some r.id }))))



/-- R369, R386, R392 to R394, R402: the next descriptor of a context starts when the command names its operation, nothing runs in the
context and its Tenancy's step runs: it is CANCELLED when its Tenancy is stopped, rejected for a bad field, FENCED without a held Ward,
ended by a group table that cannot be read, and otherwise it runs with its group; a NOP completes at once. CANCEL ends what its Tenancy
has in the named context, queued or running.

R394, R397, R399: a collective moves on when a stage or a round has arrived; a stream whose END_ACK is missing after RETRY_US is sent again
whole with ATTEMPT raised, and its peer fails after RETRY_MAX; peers that have not come within TIMEOUT_US have failed.

R398 to R402: a collective that has ended leaves its record, its counter and its interrupt; lost peers end it as GROUP_FAILED, a REFORM
that succeeds drops the older generations of its group, and an ALL_TO_ALL of variable counts writes them; a rejected descriptor leaves
its reason. -/
def Obligations.CollectivesStartAndEnd : Prop :=
 (∀ (c : Fin 16) (now : Nat) (s : State),
    let s0 := s.at now
    let starts := fun (i : Instr) (mine : Nat → Prop) =>
      (s0.collReady c = none → EndsAs i s s0) ∧
      (∀ j, s0.collReady c = some j → ¬ mine j.op → EndsAs i s s0) ∧
      (∀ j, s0.collReady c = some j → mine j.op →
        let s1 := s0.updColl c (fun x => { x with queue := x.queue.drop 1 })
        let fresh : CollRun := { job := j, startNs := s0.now }
        let stopped := s1.rtest .STOP_TRAFFIC [] j.ten = true
        let early := s1.collReason j [] []
        let bad := early = 1 ∨ early = 2 ∨ early = 3 ∨ early = 7
        (stopped → EndsAs i s (s1.collFinish c fresh St.cancelled)) ∧
        (¬ stopped → bad → EndsAs i s (s1.collReject c j early)) ∧
        (¬ stopped → ¬ bad → j.op = 0 → EndsAs i s (s1.collFinish c fresh 0)) ∧
        (¬ stopped → ¬ bad → j.op ≠ 0 → s1.wardOk j.ten = false → EndsAs i s (s1.collFinish c fresh St.fenced)) ∧
        (¬ stopped → ¬ bad → j.op ≠ 0 → s1.wardOk j.ten = true → ∀ st table ranks failed s2,
          s1.readGroup c j = (st, table, ranks, failed, s2) →
          (st ≠ 0 → EndsAs i s (s2.collFinish c fresh st)) ∧
          (st = 0 → s2.collReason j table ranks ≠ 0 → EndsAs i s (s2.collReject c j (s2.collReason j table ranks))) ∧
          (st = 0 → s2.collReason j table ranks = 0 →
            let q := if j.op = 7 then (0, s2) else s2.takeSeq j
            let r : CollRun := { job := j, startNs := s2.now, algo := j.resolve ranks, ranks := ranks, seq := q.1, failed := failed }
            let s3 := q.2.updColl c (fun x => { x with running := some r })
            (j.op = 6 ∨ j.op = 7 → 0 < barrierRounds j.size → EndsAs i s ((s3.sendBarrier c r 0).collAdvance c)) ∧
            (j.op = 6 ∨ j.op = 7 → barrierRounds j.size = 0 → EndsAs i s (s3.collAdvance c)) ∧
            (j.op ≠ 6 → j.op ≠ 7 → EndsAs i s (((s3.selfBlocks c j).stageSend c r 0).collAdvance c)))))
    starts (.allToAll c now) (fun x => x = 1) ∧ starts (.allGather c now) (fun x => x = 2) ∧ starts (.reduceScatter c now) (fun x => x = 3) ∧
    starts (.allReduce c now) (fun x => x = 4) ∧ starts (.broadcast c now) (fun x => x = 5) ∧ starts (.collBarrier c now) (fun x => x = 6) ∧
    starts (.reform c now) (fun x => x = 7) ∧ starts (.collNop c now) (fun x => x = 0 ∨ 8 < x)) ∧
 (∀ (c : Nat) (s : State) (j : CollJob),
    (s.collReady c = some j ↔ (s.coll c).running = none ∧ (s.coll c).queue.head? = some j ∧ s.tick.cur = j.ten ∧
      s.tick.suspending = none ∧ s.ridge.powerFail = false) ∧
    (∀ table ranks, s.collReason j table ranks = 0 →
      let w0 := j.w 0
      let grouped := j.op ≠ 0 ∧ j.op ≠ 8
      j.op ≤ 8 ∧ bits w0 59 58 ≠ 3 ∧ j.redop ≠ 3 ∧ bits w0 52 48 = 0 ∧ bits w0 23 16 = 0 ∧ (∀ i < 5, j.w (9 + i) = 0) ∧ j.w 14 % 64 = 0 ∧
      (1 ≤ j.op → j.op ≤ 5 → j.src % 128 = 0 ∧ j.dst % 128 = 0 ∧ j.stage % 128 = 0 ∧ j.bytes % 128 = 0 ∧
        ∃ n < 9, j.chunk = 4096 * 2 ^ n) ∧
      (grouped → ∃ f, (s.ten j.ten).bind Ten.fab = some f ∧ j.group ≠ 0 ∧ j.size ≤ f.ranksM1 + 1 ∧ j.me < j.size ∧
        (j.op = 5 → j.root < j.size) ∧ table[j.me]? = some f.ownRank ∧ (∀ e ∈ table, bits e 31 20 = 0) ∧
        (1 ≤ j.op → j.op ≤ 5 → ∀ e ∈ j.extents, e.1 + e.2 ≤ f.exportPages * 4096) ∧
        (bits w0 59 58 = 2 → (j.op = 2 ∨ j.op = 4 ∨ j.op = 5) ∧ (regularM (ranks.map (fun r => rackOf r.2))).isSome = true) ∧
        (j.op = 7 → (KMap.get (0, 0) s.fab.gens (j.ten * 65536 + j.group)).1 ≠ j.gen + 1))) ∧
    (∀ r st, s.collFinish c r st =
      let s1 := if r.job.op = 0 then s
        else (s.busWrite (collIssuer c r.job.ten) .wr (r.job.w 14) ((s.collRecord r st).flatMap (leBytes 8))).2
      let s2 := if (r.job.w 15).testBit 13 then s1.evcAdd r.job.dist (bits (r.job.w 15) 23 14) 1 else s1
      if (r.job.w 15).testBit 12 then s2.srcEvent (.priv r.job.dist 6) else s2) ∧
    (∀ reason, s.collReject c j reason =
      (((s.collFinish c { job := j, startNs := s.now, algo := 0, reason := reason, status := St.descInvalid } St.descInvalid).opmErr
        0xC6 reason j.ten 0 j.group).askDiscard j.ten j.dist 0xFBC6)) ∧
    (∀ r st, (s.collRecord r st).length = 8 ∧ (s.collRecord r st).head? = some (st * 2 ^ 56 + r.algo * 2 ^ 54 + r.reason * 2 ^ 32 + r.failed.length) ∧
      (s.collRecord r st)[1]? = some r.sent ∧
      (s.collRecord r st)[4]? = some (r.resends % 2 ^ 32 * 2 ^ 32 + (s.now - r.startNs) % 2 ^ 32))) ∧
 (∀ (c : Fin 16) (past : List (PortId × Nat)) (now : Nat) (s : State),
    let s0 := s.at now
    ((s0.coll c).queue.find? (fun k => k.op == 8) = none → EndsAs (.cancel c past now) s s0) ∧
    (∀ j, (s0.coll c).queue.find? (fun k => k.op == 8) = some j →
      let s1 := (s0.grantedBefore past).updColl c (fun x => { x with queue := x.queue.erase j })
      let x := j.root % 16
      let s2 := s1.updColl x (fun y => { y with queue := y.queue.filter (fun k => k.ten != j.ten) })
      let s3 := ((s1.coll x).queue.filter (fun k => k.ten == j.ten)).foldl
        (fun u k => u.collFinish x { job := k, startNs := now } St.cancelled) s2
      let done := fun (u : State) => u.collFinish c { job := j, startNs := now } 0
      (s1.collReason j [] [] ≠ 0 → EndsAs (.cancel c past now) s (s1.collReject c j (s1.collReason j [] []))) ∧
      (s1.collReason j [] [] = 0 →
        ((s3.coll x).running = none → EndsAs (.cancel c past now) s (done s3)) ∧
        (∀ r, (s3.coll x).running = some r → r.job.ten ≠ j.ten ∨ r.status ≠ 0 → EndsAs (.cancel c past now) s (done s3)) ∧
        (∀ r removed voided u, (s3.coll x).running = some r → r.job.ten = j.ten → r.status = 0 →
          s3.cancelColl x = (removed, voided, u) →
          EndsAs (.cancel c past now) s (done (u.collStatus x (r.cancelled false removed voided))))))) ∧
 (∀ (c : Fin 16) (s : State),
    ((s.coll c).running = none → s.collMove c = s) ∧
    (∀ r, (s.coll c).running = some r →
      (r.status ≠ 0 ∨ s.ridge.powerFail = true → s.collMove c = s) ∧
      (r.status = 0 → s.ridge.powerFail = false →
        (r.job.op = 6 ∨ r.job.op = 7 →
          let arrived := r.round < barrierRounds r.job.size ∧ s.barrierSeen r r.round = true
          let u := s.updCollRun c (fun x => { x with round := x.round + 1 })
          (¬ arrived → s.collMove c = s) ∧
          (arrived → r.round + 1 < barrierRounds r.job.size → s.collMove c = u.sendBarrier c r (r.round + 1)) ∧
          (arrived → barrierRounds r.job.size ≤ r.round + 1 → s.collMove c = u)) ∧
        (r.job.op ≠ 6 → r.job.op ≠ 7 →
          (¬ (r.done < r.stages ∧ s.stageArrived r r.done = true) → s.collMove c = s) ∧
          (r.done < r.stages → s.stageArrived r r.done = true →
            let u := (if r.failed = [] then s.stageDone c r r.done else s).updCollRun c (fun x => { x with done := x.done + 1 })
            (r.stages ≤ r.done + 1 → s.collMove c = u) ∧
            (∀ x, r.done + 1 < r.stages → (u.coll c).running = some x → s.collMove c = u.stageSend c x x.done))))) ∧
    (s.collMove c = s → s.collAdvance c = s)) ∧
 (∀ (c : Fin 16) (peer now : Nat) (s : State),
    let s0 := s.at now
    ((s0.coll c).running = none → EndsAs (.streamResend c peer now) s s0 ∧ EndsAs (.collTimeout c now) s s0 ∧ EndsAs (.collComplete c now) s s0) ∧
    (∀ r, (s0.coll c).running = some r →
      (r.outs.find? (fun o => o.peer == peer) = none → EndsAs (.streamResend c peer now) s s0) ∧
      (∀ o, r.outs.find? (fun o => o.peer == peer) = some o →
        let due := r.status = 0 ∧ o.ended = true ∧ o.acked = false ∧ peer ∉ r.failed ∧
          ∃ t, o.endNs = some t ∧ t + timerOf F.FAB_TIMERS_RETRY_US o.timers * 1000 ≤ now
        let o' := { o with attempt := o.attempt + 1, endNs := none }
        let u := s0.updCollRun c (fun x => { x with resends := x.resends + 1, outs := x.outs.map (fun y => if y.peer = peer then o' else y) })
        (¬ due → EndsAs (.streamResend c peer now) s s0) ∧
        (due → timerOf F.FAB_TIMERS_RETRY_MAX o.timers ≤ o.attempt → EndsAs (.streamResend c peer now) s (s0.peerFailed c peer)) ∧
        (due → o.attempt < timerOf F.FAB_TIMERS_RETRY_MAX o.timers → EndsAs (.streamResend c peer now) s
          ((o.parts.foldl (fun v p => v.sendPut c r peer (o.attempt + 1) p.1 p.2) u).sendEnd c r o'))) ∧
      (now < r.startNs + r.job.timeoutNs ∨ r.ended = true → EndsAs (.collTimeout c now) s s0) ∧
      (r.startNs + r.job.timeoutNs ≤ now → r.ended = false →
        (r.job.op = 6 ∨ r.job.op = 7 → EndsAs (.collTimeout c now) s (s0.peerFailed c (r.before r.round))) ∧
        (r.job.op ≠ 6 → r.job.op ≠ 7 →
          let late := fun (p : Nat) => p ≠ r.job.me ∧ match r.expectsBy (r.stages - 1) p, s0.rxFrom r p with
            | some n, some x => n ≠ 0 ∧ x.count < n
            | some n, none => n ≠ 0
            | none, some x => x.total ≠ some x.count
            | none, none => True
          ∀ l : List Nat, l.Pairwise (· < ·) → (∀ p, p ∈ l ↔ p < r.job.size ∧ late p) →
            EndsAs (.collTimeout c now) s (l.foldl (fun u p => u.peerFailed c p) s0))) ∧
      (∀ p u, u = s0.updCollRun c (fun r => if r.failed.contains p then r else { r with failed := r.failed ++ [p] }) →
        s0.peerFailed c p = u.collAdvance c ∧ ∃ q, (u.coll c).running = some q ∧ p ∈ q.failed ∧ q.job = r.job) ∧
      (r.ended = false ∨ s0.ridge.powerFail = true → EndsAs (.collComplete c now) s s0) ∧
      (r.ended = true → s0.ridge.powerFail = false →
        let st := if r.status ≠ 0 then r.status else if r.failed = [] then 0 else St.groupFailed
        let done := fun (u : State) => EndsAs (.collComplete c now) s ((u.collFinish c r st).updColl c (fun x => { x with running := none }))
        (st = St.groupFailed → done ((s0.collUndefined c r).opmErr 0xC5 0 r.job.ten 0 r.job.group)) ∧
        (st = 0 → r.job.op = 7 → done (s0.updFab fun f => { f with
          gens := KMap.set (0, 0) f.gens (r.job.ten * 65536 + r.job.group) (r.job.gen + 1, 0),
          streams := f.streams.filter (fun x => !(x.ten == r.job.ten && x.ident / 2 ^ 12 == r.job.group &&
            genNewer r.job.gen (x.ident / 16 % 256))) })) ∧
        (∀ counts u, st = 0 → r.job.op = 1 → r.job.var = true → s0.sendCounts c r.job = (counts, u) →
          done (u.busWrite (collIssuer c r.job.ten) .wr (r.job.w 8) (((List.range r.job.size).map (fun p =>
            if p = r.job.me then (counts[p]?).getD 0 else ((s0.rxFrom r p).map RxStream.count).getD 0)).flatMap (leBytes 4))).2) ∧
        (st ≠ St.groupFailed → ¬ (st = 0 ∧ (r.job.op = 7 ∨ (r.job.op = 1 ∧ r.job.var = true))) → done s0))))

/-- R394, R395: what the first stage of each operation sends, under FLAT to every other member, under HIER ALL_REDUCE within the
rack: block or shard of the peer or of this member, at the place that the operation table names. -/
def Obligations.CollectiveBlocksGoToTheirPlaces : Prop :=
  ∀ (c : Nat) (r : CollRun) (s : State) (x : Send),
    let j := r.job
    let n := j.size
    let i := j.me
    let b := j.bytes
    let sh := shard b n
    x ∈ (s.stageSends c r 0).1 →
    (r.algo = 1 → 1 ≤ j.op → j.op ≤ 5 → x.peer ≠ i ∧ x.peer < n) ∧
    (j.op = 1 → x.off = j.dst + i * b) ∧
    (j.op = 2 → x.off = j.dst + i * b) ∧
    (j.op = 3 → x.off = j.stage + i * b) ∧
    (j.op = 4 → r.algo = 1 → x.off = j.stage + i * sh) ∧
    (j.op = 4 → r.algo = 2 → x.peer / r.m = i / r.m ∧ x.off = j.stage + i % r.m * shard b r.m) ∧
    (j.op = 5 → i = j.root ∧ x.off = j.dst)



/-- R356, R358, R371, R397, R398, R400: a PUT waits while the receive table has no room for its stream or local memory is closed; one of an
old generation or an earlier attempt, or that fails a check of the target, is dropped; otherwise its payload is stored and its bytes
counted in its stream, those of a Void as cancelled. PUT_END gives the stream its length and is answered with END_ACK, which carries the
bytes counted; END_ACK with all bytes acknowledges the stream, with fewer it has the stream sent again, and one that says DEVICE_UNAVAILABLE
fails the peer. BARRIER counts towards its round.

R47, R48, R323: a time request is answered with the device's times by a master and by a locked follower on another port than SYNC_PORT; a
response that comes in time on SYNC_PORT gives the path delay and the offset, and sets the tick that waits for it. -/
def Obligations.StreamPacketsAreCounted : Prop :=
 (∀ (n now : Nat) (s : State),
    let s0 := s.at now
    let s1 := s0.swDrop n
    let goes := fun (t : State) => EndsAs (.put n now) s t
    (s0.delivered n [0x40] = none → goes s0) ∧
    (∀ q, s0.delivered n [0x40] = some q →
      let p := q.pkt
      let ten := bits p.addr 63 58
      let ident := p.aux / 16
      let attempt := p.aux % 16
      let known := s0.fab.streams.find? (fun x => x.ten == ten && x.src == p.src && x.idx == p.tag && x.ident == ident)
      let waits := s0.ridge.powerFail = true ∨ (known = none ∧ 4096 ≤ s0.fab.streams.length)
      let old := s1.genOlder ten ident = true ∨ ∃ x, known = some x ∧ attempt < x.attempt
      (waits → goes s0) ∧
      (¬ waits → old → goes s1) ∧
      (¬ waits → ¬ old → p.addr.testBit 57 = false → goes s1) ∧
      (¬ waits → ¬ old → p.addr.testBit 57 = true → ∀ st a u, s1.targetCheck p.addr p.bytes p.pkey 0 p.src = (st, a, u) →
        (st ≠ 0 → goes u) ∧
        (st = 0 → p.void = true → goes ((u.noteGen ten ident).updStream ten p.src p.tag ident
          (fun x => { x.see attempt with cancelled := (x.see attempt).cancelled + p.bytes }))) ∧
        (st = 0 → p.void = false → ∀ w v, (u.noteGen ten ident).serveWrite q.portNo a p.body = (w, v) →
          (w = 0 → goes ((v.updStream ten p.src p.tag ident
            (fun x => { x.see attempt with count := (x.see attempt).count + p.bytes })).collsAdvance ten)) ∧
          (w ≠ 0 → goes ((v.updStream ten p.src p.tag ident (fun x => x.see attempt)).collsAdvance ten)))))) ∧
 (∀ (ten src idx ident : Nat) (g : RxStream → RxStream) (s : State),
    let mine := fun (x : RxStream) => x.ten == ten && x.src == src && x.idx == idx && x.ident == ident
    let t := s.updStream ten src idx ident g
    (s.fab.streams.find? mine = none → t.fab.streams = s.fab.streams ++ [g { ten := ten, src := src, idx := idx, ident := ident }]) ∧
    (∀ x, s.fab.streams.find? mine = some x → t.fab.streams = s.fab.streams.map (fun y => if mine y then g y else y)) ∧
    (∀ (x : RxStream) (a : Nat), (x.attempt < a → x.see a = { x with attempt := a, count := 0, cancelled := 0, total := none }) ∧
      (a ≤ x.attempt → x.see a = x)) ∧
    (let k := ten * 65536 + ident / 2 ^ 12
     let now_ := (KMap.get (0, 0) s.fab.gens k).1
     let newer_ := now_ = 0 ∨ genNewer (ident / 16) (now_ - 1) = true
     (newer_ → KMap.get (0, 0) (s.noteGen ten ident).fab.gens k = (ident / 16 % 256 + 1, 0)) ∧ (¬ newer_ → s.noteGen ten ident = s) ∧
     (s.genOlder ten ident = true ↔ now_ ≠ 0 ∧ genNewer (now_ - 1) (ident / 16) = true)) ∧
    (∀ a b : Nat, genNewer a b = true ↔ 1 ≤ (a % 256 + 256 - b % 256) % 256 ∧ (a % 256 + 256 - b % 256) % 256 ≤ 127)) ∧
 (∀ (n now : Nat) (s : State),
    let s0 := s.at now
    let s1 := s0.swDrop n
    let goes := fun (t : State) => EndsAs (.putEnd n now) s t
    (s0.delivered n [0x41] = none → goes s0) ∧
    (∀ q, s0.delivered n [0x41] = some q →
      let p := q.pkt
      let w1 := bodyWord p.body 1
      let idx := w1 % 2 ^ 32
      let ident := w1 / 2 ^ 36
      let attempt := w1 / 2 ^ 32 % 16
      (s0.streamTen p.pkey p.src idx ident = none → goes s1) ∧
      (∀ t, s0.streamTen p.pkey p.src idx ident = some t →
        let mine := fun (x : RxStream) => x.ten == t && x.src == p.src && x.idx == idx && x.ident == ident
        let waits := 4096 ≤ s0.fab.streams.length ∧ s0.fab.streams.any mine = false
        (s0.genOlder t ident = true → goes s1) ∧
        (s0.genOlder t ident = false → waits → goes s0) ∧
        (s0.genOlder t ident = false → ¬ waits →
          let u := (s1.noteGen t ident).updStream t p.src idx ident (fun x =>
            let x := x.see attempt; if x.attempt = attempt then { x with total := some (bodyWord p.body 0) } else x)
          (∃ x, u.fab.streams.find? mine = some x) ∧
          ∀ x, u.fab.streams.find? mine = some x → 
            let ack : Packet := {
              cls := 1, opcode := 0x42, pkey := p.pkey, src := u.fabId, dst := p.src, epoch := 0, vc := 3, pathKey := p.pathKey
              tag := p.tag, hops := 0, bytes := 2, body := leBytes 8 x.count ++ leBytes 24 w1 }
            goes ((u.emit ack now).collsAdvance t))))) ∧
 (∀ (n now : Nat) (s : State),
    let s0 := s.at now
    let s1 := s0.swDrop n
    let goes := fun (t : State) => EndsAs (.endAck n now) s t
    (s0.delivered n [0x42] = none → goes s0) ∧
    (∀ q, s0.delivered n [0x42] = some q →
      let p := q.pkt
      let w1 := bodyWord p.body 1
      let sends := fun (c : Nat) (r : CollRun) => (s1.coll c).running = some r ∧ r.ident = w1 / 2 ^ 36 ∧ r.job.me = w1 % 2 ^ 32
      let open_ := fun (r : CollRun) => r.outs.find? (fun o => o.ended && !o.acked && o.attempt % 16 == w1 / 2 ^ 32 % 16 &&
        (r.ranks[o.peer]?).map Prod.snd == some p.src)
      ((∀ c < 16, ∀ r, sends c r → open_ r = none) → goes s1) ∧
      (∀ c r o, c < 16 → sends c r → open_ r = some o → (∀ d < c, ∀ x, sends d x → open_ x = none) →
        (p.status = St.unavailable → goes (s1.peerFailed c o.peer)) ∧
        (p.status ≠ St.unavailable → bodyWord p.body 0 = o.total → goes (s1.updCollRun c (fun r =>
          { r with outs := r.outs.map (fun y => if y.peer = o.peer then { y with acked := true } else y) }))) ∧
        (p.status ≠ St.unavailable → bodyWord p.body 0 ≠ o.total → goes (s1.resendStream c o.peer))))) ∧
 (∀ (n now : Nat) (s : State),
    let s0 := s.at now
    let s1 := s0.swDrop n
    (s0.delivered n [0x44] = none → EndsAs (.barrier n now) s s0) ∧
    (∀ q, s0.delivered n [0x44] = some q →
      let p := q.pkt
      let w := bodyWord p.body 0
      (s1.streamTen p.pkey p.src p.tag (w / 2 ^ 36) = none → EndsAs (.barrier n now) s s1) ∧
      (∀ t, s1.streamTen p.pkey p.src p.tag (w / 2 ^ 36) = some t →
        (s1.genOlder t (w / 2 ^ 36) = true → EndsAs (.barrier n now) s s1) ∧
        (s1.genOlder t (w / 2 ^ 36) = false → EndsAs (.barrier n now) s
          ((s1.updFab (fun f => { f with barriers := f.barriers ++ [⟨t, p.src, w / 2 ^ 36, w % 256⟩] })).collsAdvance t))))) ∧
 (∀ (n now : Nat) (s : State),
    let s0 := s.at now
    let s1 := s0.swDrop n
    (s0.delivered n [0xF0] = none → EndsAs (.timeReq n now) s s0) ∧
    (s0.delivered n [0xF1] = none → EndsAs (.timeResp n now) s s0) ∧
    (∀ q, s0.delivered n [0xF0] = some q →
      let answers := s1.alignMode = 3 ∨ (s1.alignMode = 2 ∧ s1.fget F.ALIGN_STATUS_LOCKED [] = 1 ∧
        q.portNo ≠ s1.fget F.ALIGN_CONFIG_SYNC_PORT [])
      (¬ answers → EndsAs (.timeReq n now) s s1) ∧
      (answers → EndsAs (.timeReq n now) s (s1.sendTime q.portNo 0xF1 q.pkt.src 2
        [s1.timeOf q.sinceNs, s1.timeNow, s1.fget F.TICK_COUNT_COUNT [], s1.timeOf s1.tick.startNs]))) ∧
    (∀ q, s0.delivered n [0xF1] = some q →
      (s1.tick.exchange = none → EndsAs (.timeResp n now) s s1) ∧
      (∀ sent, s1.tick.exchange = some sent →
        let takes := s1.alignMode = 2 ∧ q.portNo = s1.fget F.ALIGN_CONFIG_SYNC_PORT [] ∧ q.sinceNs ≤ sent + 50000
        (¬ takes → EndsAs (.timeResp n now) s s1) ∧
        (takes →
          let w := bodyWord q.pkt.body
          let t1 : Int := s1.timeOf sent
          let t4 : Int := s1.timeOf q.sinceNs
          let t2 : Int := w 0
          let t3 : Int := w 1
          let offset := ((t4 - t3) - (t2 - t1) - toSigned 12 (s1.fget F.ALIGN_CONFIG_ASYM_NS [])) / 2
          let path := ((t4 - t3) + (t2 - t1)) / 2
          let ref := (((w 3 : Nat) : Int) + offset - s1.timeOff).toNat
          let s2 := s1.referenceSeen.fset F.ALIGN_STATUS_PATH_DELAY_NS [] (path % 2 ^ 24).toNat
          let s3 := { s2 with tick := { s2.tick with exchange := none } }.correctOffset offset offset ref (some (w 2)) (-offset)
          (s3.tick.waiting = false → EndsAs (.timeResp n now) s s3) ∧
          (s3.tick.waiting = true → ∀ start count, nextReference ref s3.now (s3.fget F.TICK_CONFIG_PERIOD_US [] * 1000) = (start, count) →
            EndsAs (.timeResp n now) s { s3 with tick := { s3.tick with
              slew := 0, stepTo := none, refStart := some start,
              loading := some (some (((w 2 : Nat) : Int) + count).toNat, -offset) } })))))



/-- R376, R379 to R383: a command that a CMD_ALLOW entry or its Alley port admits and whose body is in range is executed once by its SEQ:
a repeated one is acknowledged again, a stale one is answered 1, a refused one 2. STOP stops the named Tenancies' traffic and, at step
scope, ends the running step; START lifts it; FENCE fences the Ward; SHAPE and the configuration registers set a bucket, but not one
enabled with no rate; each is journaled, acknowledged by the path it came, and counted as an event.

R382: the held command leaves under the next SEQ on its paths, or is applied here when it names this device; while BUSY, GO is ignored; it
ends with its acknowledgement, is sent again after RETRY_US, and ends as FABRIC_TIMEOUT after RETRY_MAX.

R370: a request that a cancel meets before the fclk of its grant ends as CANCELLED, in it as a Void and CANCELLED_LATE, and after it goes on;
a fence reports FENCED for both. That a command names the packets granted earlier in its nanosecond is the model's (assumption 158). -/
def Obligations.CommandsActOnce : Prop :=
 (∀ (n now : Nat) (s : State),
    let s0 := s.at now
    (s0.delivered n [0xC0] = none → EndsAs (.cmd n now) s s0) ∧
    (∀ q, s0.delivered n [0xC0] = some q →
      let p := q.pkt
      let c : AccCmd := ⟨bodyWord p.body 0, bodyWord p.body 1, bodyWord p.body 2, p.src, none, true⟩
      let admitted := p.pkey = 0xFFFF ∧ p.vc = 0 ∧ p.bytes = 3 ∧
        ∃ i < 8, s0.fget F.CMD_ALLOW_VALID [i] = 1 ∧ s0.fget F.CMD_ALLOW_FAB_ID [i] = p.src
      (admitted → EndsAs (.cmd n now) s ((s0.swDrop n).acceptCmd c true p.pkey)) ∧
      (¬ admitted → EndsAs (.cmd n now) s ((s0.swDrop n).acceptCmd c false p.pkey)))) ∧
 (∀ (c : AccCmd) (admitted : Bool) (key : Nat) (s : State),
    let seq := bits c.w0 47 32
    let ok := admitted = true ∧ cmdOk c.w0 c.w1 c.w2 = true
    let u := match c.alley with | some a => s.fsat F.ALLEY_STATUS_COMMANDS [a] 1 | none => s
    let last := u.fab.seqs.find? (fun x => x.1 == c.src)
    (¬ ok → s.acceptCmd c admitted key = s.refuseCmd c key) ∧
    (ok → s.journalRoom = false → s.acceptCmd c admitted key = s.ackCmd c 2) ∧
    (ok → s.journalRoom = true →
      (last = none ∨ (∃ y, last = some y ∧ newer seq y.2 = true ∧ seq ≠ y.2) →
        s.acceptCmd c admitted key = (u.noteSeq c.src seq).updFab (fun f => { f with cmds := f.cmds ++ [c] })) ∧
      (∀ y, last = some y → seq = y.2 → s.acceptCmd c admitted key = (u.noteSeq c.src y.2).ackCmd c 0) ∧
      (∀ y, last = some y → seq ≠ y.2 → newer seq y.2 = false → s.acceptCmd c admitted key = (u.noteSeq c.src y.2).ackCmd c 1)) ∧
    (s.noteSeq c.src seq).fab.seqs = ((c.src, seq) :: s.fab.seqs.filter (fun x => x.1 != c.src)).take 64 ∧
    (c.alley = none → s.refuseCmd c key = (s.opmErr 0xC3 0 0 c.src key).ackCmd c 2) ∧
    (∀ a, c.alley = some a → s.refuseCmd c key = (s.alleyCapture 0xC3 a).chipEv 0xC3) ∧
    (∀ result, (c.reply = false → s.ackCmd c result = s) ∧
      (c.reply = true → c.alley = none → s.ackCmd c result = s.sendVc0 0xC1 c.src 1 [seq * 2 ^ 48 + result]) ∧
      (∀ a, c.reply = true → c.alley = some a → s.ackCmd c result = s.alleySend a 3 (leBytes 8 (seq * 2 ^ 48 + result)))) ∧
    (cmdOk c.w0 c.w1 c.w2 = true →
      let cmd := bits c.w0 63 56
      let scope := bits c.w0 55 48
      1 ≤ cmd ∧ cmd ≤ 4 ∧ (cmd ≤ 2 → 1 ≤ scope ∧ scope ≤ 4 ∧ (3 ≤ scope → bits c.w0 31 16 = 0) ∧ bits c.w0 15 0 = 0 ∧ c.w1 = 0) ∧
      (cmd = 3 → scope = 0 ∧ c.w1 = 0) ∧
      (cmd = 4 → scope = 0 ∧ ((∃ p < 36, ∃ v < 4, 1 ≤ v ∧ shapeBucket c = .port p v) ∨ ∃ t < 64, ∃ q < 2, 1 ≤ t ∧ shapeBucket c = .src t q)))) ∧
 (∀ (past : List (PortId × Nat)) (now : Nat) (s : State),
    let s0 := s.at now
    let named := fun (c : AccCmd) => s0.tenIds.filter (fun t => 3 ≤ bits c.w0 55 48 || KMap.get 0 s0.fab.pkeys t == bits c.w0 31 16)
    (s0.nextCmd 1 = none → EndsAs (.stop past now) s s0) ∧ (s0.nextCmd 2 = none → EndsAs (.start now) s s0) ∧
    (s0.nextCmd 3 = none → EndsAs (.fenceCommand past now) s s0) ∧ (s0.nextCmd 4 = none → EndsAs (.shape now) s s0) ∧
    (∀ c, s0.nextCmd 1 = some c → EndsAs (.stop past now) s
      (((named c).foldl (fun u t => u.stopTen t c.src c.stepScope) ((s0.grantedBefore past).journalCmd c 0 0 0)).cmdDone c)) ∧
    (∀ c, s0.nextCmd 2 = some c → EndsAs (.start now) s
      (((named c).foldl (fun u t =>
        let u := if bits c.w0 55 48 = 2 ∨ bits c.w0 55 48 = 4 then u.rbit .STOP_STEP [] t false else u
        if u.rtest .STOP_STEP [] t then u else u.rbit .STOP_TRAFFIC [] t false) (s0.journalCmd c 0 0 0)).cmdDone c)) ∧
    (∀ c, s0.nextCmd 3 = some c →
      let id := bits c.w0 31 16
      let u := (s0.grantedBefore past).journalCmd c 0 0 0
      (id = 0 → EndsAs (.fenceCommand past now) s (u.cmdDone c)) ∧
      (id ≠ 0 → EndsAs (.fenceCommand past now) s
        (((u.tenIds.filter (fun t => u.wardId t == id)).foldl (fun u t => u.wardFence t (bits c.w0 15 0)) u).cmdDone c))) ∧
    (∀ c, s0.nextCmd 4 = some c →
      let b := shapeBucket c
      let v := b.mask c.w2
      (shaperOk v = true → EndsAs (.shape now) s
        ((((s0.journalCmd c (regDevAddr b.cfg b.ix) (s0.rget b.cfg b.ix).toNat v).bucketConfig b v).fabPump).cmdDone c)) ∧
      (shaperOk v = false → EndsAs (.shape now) s
        ((s0.opmErr 0xC8 0 0 c.src (if c.reply = true ∧ c.alley = none then 0xFFFF else 0)).cmdDone c))) ∧
    (∀ k c, s0.nextCmd k = some c ↔ s0.fab.cmds.head? = some c ∧ bits c.w0 63 56 = k) ∧
    (∀ v, shaperOk v = false ↔ v.testBit 44 = true ∧ bits v 43 20 = 0)) ∧
 (∀ (t src : Nat) (step : Bool) (c : AccCmd) (s : State),
    let u := (s.rbit .STOP_TRAFFIC [] t true).opmErr 0xC4 0 t src (KMap.get 0 s.fab.pkeys t)
    let v := (u.cancelColls t false).cancelWith (fun r => r.ten == t) false
    let w := v.rbit .STOP_STEP [] t true
    (step = false → s.stopTen t src step = v) ∧
    (step = true → w.tick.cur = t → s.stopTen t src step = w.endStep t (.abandon 4)) ∧
    (step = true → w.tick.cur ≠ t → s.stopTen t src step = w) ∧
    (let x := s.updFab (fun f => { f with cmds := f.cmds.drop 1 })
     (c.reply = true → s.cmdDone c = (x.ackCmd c 0).srcEvent (.shared 78)) ∧ (c.reply = false → s.cmdDone c = x.txDone 0)) ∧
    (let own := s.fget F.WARD_STATE_EPOCH [t]
     ∀ epoch, s.fget F.WARD_STATE_STATE [t] ≠ 2 → s.wardFence t epoch =
       ((((((s.fset F.WARD_STATE_STATE [t] 2).fset F.WARD_STATE_FENCE_EPOCH [t] (if newer epoch own then epoch else own)).opmErr
         0xC0 0 t 0 (s.wardId t))).srcEvent (.shared 77)).cancelColls t true).cancelWith (fun r => r.ten == t) true)) ∧
 (∀ (r : FabReq) (fence : Bool) (s : State),
    let late := s.voidMsgs (fun q => q.req == some r.id)
    let u := s.updFab (fun f => { f with sw := f.sw.filter (fun q => q.req != some r.id) })
    (r.result.isSome = true → s.cancelReq r fence = s) ∧
    (r.result = none → r.granted = false → s.cancelReq r fence =
      (u.fabFinish r.id (if fence then 0x14 else 0x1C) []).fsat F.CANCEL_COUNTS_CANCELLED [] 1) ∧
    (r.result = none → r.granted = true →
      (late.1 ≠ 0 → s.cancelReq r fence = late.2.2.fabFinish r.id (if fence then 0x14 else 0x1D) []) ∧
      (late.1 = 0 → s.cancelReq r fence =
        (s.updReq r.id (fun q => { q with missed := some fence })).fsat F.CANCEL_COUNTS_MISSED [] 1))) ∧
 (∀ (q : SwPkt) (past : List (PortId × Nat)) (s : State),
    (s.grantedNow q = true ↔ q.grantNs = some s.now ∧ q.past = false ∧ q.inp = none ∧ q.pkt.void = false) ∧
    s.grantedBefore [] = s ∧ (s.grantedBefore past).fab = s.fab ∧ (s.grantedBefore past).regs = s.regs ∧
    (s.grantedBefore past).mem = s.mem ∧ (s.grantedBefore past).tens = s.tens ∧
    ∀ (p : PortId) (n : Nat) (x : SwPkt × Nat), (p, n) ∈ past → ((s.grantedBefore past).port p).packets[n]? = some x → x.1.past = true) ∧
 (∀ (w : Writer) (now : Nat) (s : State),
    let s0 := s.at now
    let taken := fun r ix v => WriteTaken w (RegName.addr r ix) r ix v s0
    (∀ (p : PortId) (vc : Fin 4) (v : BitVec 64), taken .PSHP_CFG [p.val, vc.val] v.toNat → Ends (.pshpCfgWrite w p vc v now) s
      fun t => t.bucketEn (.port p vc) = v.getLsbD 44 ∧
        (t.tokens (.port p vc) = if v.getLsbD 45 then (bits v.toNat 19 0 : Nat) else 0) ∧ t.fab = s.fab ∧ t.mem = s.mem) ∧
    (∀ (x : TenId) (q : Fin 2) (v : BitVec 64), taken .SSHP_CFG [x.val, q.val] v.toNat → Ends (.sshpCfgWrite w x q v now) s
      fun t => t.bucketEn (.src x q) = v.getLsbD 44 ∧ t.mem = s.mem) ∧
    (∀ v : BitVec 64, taken .CMD_TX_CTL [] (v.toNat ||| 2 ^ 63) →
      (s.fget F.CMD_TX_CTL_BUSY [] = 0 → bits v.toNat 15 0 ≠ s.fabId → Ends (.cmdTxGo w v now) s fun t =>
        t.fget F.CMD_TX_CTL_BUSY [] = 1 ∧ t.fab.txSeq = (s.fab.txSeq + 1) % 65536 ∧ t.mem = s.mem ∧
          ∃ x, t.fab.tx = some x ∧ x.seq = s.fab.txSeq ∧ x.attempts = 1 ∧ x.sentNs = s0.now ∧ x.vc0 = v.getLsbD 60) ∧
      (s.fget F.CMD_TX_CTL_BUSY [] = 1 → Ends (.cmdTxGo w v now) s fun t => t.fab = s.fab ∧ t.mem = s.mem)) ∧
    (s.fget F.CMD_TX_CTL_BUSY [] = 1 → s.cmdTxGo = s.opmErr 0xC8 0 0 0 0) ∧
    (s.fget F.CMD_TX_CTL_BUSY [] ≠ 1 →
      let seq := s.fab.txSeq
      let u := (s.updFab (fun f => { f with txSeq := (seq + 1) % 65536 })).fset ⟨.CMD_TX_BODY, 47, 32⟩ [0] seq
      let word := fun (i : Nat) => (u.rget .CMD_TX_BODY [i]).toNat
      let path := u.fget F.CMD_TX_CTL_PATH []
      let x : TxCmd := { seq := seq, words := [word 0, word 1, word 2], attempts := 1, sentNs := u.now, timers := (u.rget .FAB_TIMERS []).toNat, vc0 := path.testBit 0 }
      let v := (u.updFab (fun f => { f with tx := some x })).fset F.CMD_TX_CTL_BUSY [] 1
      let dst := v.fget F.CMD_TX_CTL_DST_ID []
      let sent := if path.testBit 0 then v.sendVc0 0xC0 dst 3 x.words else v
      (dst = v.fabId → cmdOk (word 0) (word 1) (word 2) = true →
        s.cmdTxGo = v.updFab (fun f => { f with cmds := f.cmds ++ [⟨word 0, word 1, word 2, v.fabId, none, false⟩] })) ∧
      (dst = v.fabId → cmdOk (word 0) (word 1) (word 2) = false → s.cmdTxGo = (v.opmErr 0xC3 0 0 v.fabId 0).txDone 2) ∧
      (dst ≠ v.fabId → path.testBit 1 = false → s.cmdTxGo = sent) ∧
      (dst ≠ v.fabId → path.testBit 1 = true →
        s.cmdTxGo = sent.alleySend (sent.fget F.CMD_TX_CTL_ALLEY_PORT []) 2 (x.words.flatMap (leBytes 8))))) ∧
 (∀ (n now : Nat) (s : State),
    let s0 := s.at now
    (s0.delivered n [0xC1] = none → EndsAs (.cmdAck n now) s s0) ∧
    (∀ q, s0.delivered n [0xC1] = some q → EndsAs (.cmdAck n now) s ((s0.swDrop n).cmdAcked (bodyWord q.pkt.body 0))) ∧
    (∀ word, (s.fab.tx = none → s.cmdAcked word = s) ∧
      (∀ x, s.fab.tx = some x → (x.seq = bits word 63 48 → s.cmdAcked word = s.txDone (bits word 7 0)) ∧
        (x.seq ≠ bits word 63 48 → s.cmdAcked word = s))) ∧
    (∀ result, let t := s.txDone result
      t.fab.tx = none ∧ t.fget F.CMD_TX_CTL_BUSY [] = 0 ∧ t.fget F.CMD_TX_CTL_RESULT [] = result % 256 ∧ t.mem = s.mem) ∧
    (s0.fab.tx = none → EndsAs (.cmdRetry now) s s0) ∧
    (∀ x, s0.fab.tx = some x →
      let due := x.vc0 = true ∧ s0.fget F.CMD_TX_CTL_DST_ID [] ≠ s0.fabId ∧
        x.sentNs + timerOf F.FAB_TIMERS_RETRY_US x.timers * 1000 ≤ now
      (¬ due → EndsAs (.cmdRetry now) s s0) ∧
      (due → timerOf F.FAB_TIMERS_RETRY_MAX x.timers < x.attempts → EndsAs (.cmdRetry now) s (s0.txDone 0xFF)) ∧
      (due → x.attempts ≤ timerOf F.FAB_TIMERS_RETRY_MAX x.timers → EndsAs (.cmdRetry now) s
        (let again := { x with attempts := x.attempts + 1, sentNs := now, timers := (s0.rget .FAB_TIMERS []).toNat }
         (s0.updFab (fun f => { f with tx := some again })).sendVc0 0xC0 (s0.fget F.CMD_TX_CTL_DST_ID []) 3 x.words))))

/-- R384, R385: an enabled Alley port takes HELLO, commands and acknowledgements, counts a frame whose CRC fails, says HELLO when it has
been idle for 10 µs, and is down after 30 µs without a valid frame; a port that is not enabled takes nothing.

R386 to R390: a LEASE of the Ward's authority with a new epoch holds the Ward, one of the epoch held renews it, one of an old epoch changes
nothing, and it is answered with the least advanced state of the Tenancies it reaches; answers are counted by their authority; an authority
sends its next LEASE when it is due, and starts a new period with the counts of the last shown; a Ward whose lease has run out fences. -/
def Obligations.AlleyPortsAndWardLeases : Prop :=
 (∀ (a : Fin 31) (now : Nat) (s : State),
    let s0 := s.at now
    let on := s0.alleyOn a = true
    let heard := s0.updAlley a (fun x => { x with rxNs := s0.now })
    (¬ on → (∀ id port token, EndsAs (.alleyHello a id port token now) s s0) ∧
      (∀ src w0 w1 w2, EndsAs (.alleyCmd a src w0 w1 w2 now) s s0) ∧ (∀ word, EndsAs (.alleyAck a word now) s s0) ∧
      (s.alleyOn a = false → EndsAs (.alleyFrameCrcFail a) s s)) ∧
    (on →
      (∀ (id : BitVec 16) (port : Byte) (token : W64), Ends (.alleyHello a id port token now) s fun t =>
        t.fget F.ALLEY_STATUS_UP [a] = 1 ∧ t.fget F.ALLEY_STATUS_NBR_ID [a] = id.toNat ∧
          t.fget F.ALLEY_STATUS_MISMATCH [a] = (if s.fget F.PORT_STATUS_NBR_ID [a] = id.toNat then 0 else 1) ∧
          (t.alleySt a).rxNs = s0.now ∧ t.fab = s.fab ∧ t.mem = s.mem) ∧
      (∀ (src : BitVec 16) (w0 w1 w2 : W64), EndsAs (.alleyCmd a src w0 w1 w2 now) s
        (heard.acceptCmd ⟨w0.toNat, w1.toNat, w2.toNat, src.toNat, some a.val, true⟩ ((s0.fget F.ALLEY_CMD_EN_PORT []).testBit a))) ∧
      (∀ word : W64, EndsAs (.alleyAck a word now) s (heard.cmdAcked word.toNat))) ∧
    (s.alleyOn a = true → EndsAs (.alleyFrameCrcFail a) s (s.fsat F.ALLEY_STATUS_CRC_ERRORS [a] 1)) ∧
    (now < (s0.alleySt a).txNs + 10000 → EndsAs (.alleyHelloSend a now) s s0) ∧
    ((s0.alleySt a).txNs + 10000 ≤ now →
      (¬ on ∨ s0.pins.silent = true → EndsAs (.alleyHelloSend a now) s s0) ∧
      (on → s0.pins.silent = false → EndsAs (.alleyHelloSend a now) s (s0.updAlley a (fun x => { x with
        txNs := s0.now, last := alleyFrame 1 s0.fabId (leBytes 4 a.val ++ leBytes 8 s0.linkToken) })))) ∧
    (let out := s0.fget F.ALLEY_STATUS_UP [a] = 1 ∧ (s0.alleySt a).rxNs + 30000 ≤ now
     (¬ out → EndsAs (.alleyDown a now) s s0) ∧
     (out → EndsAs (.alleyDown a now) s
       ((((s0.fset F.ALLEY_STATUS_UP [a] 0).alleyCapture 0xC9 a).chipEv 0xC9 a).srcEvent (.shared (132 + a)))))) ∧
 (∀ (t epoch : Nat) (s : State),
    let st := s.fget F.WARD_STATE_STATE [t]
    let own := s.fget F.WARD_STATE_EPOCH [t]
    let held := fun (u : State) => (u.updFab (fun f => { f with leaseNs := KMap.set 0 f.leaseNs t u.now })).fset F.WARD_STATE_STATE [t] 1
    let later := newer epoch own = true ∧ newer epoch (s.fget F.WARD_STATE_FENCE_EPOCH [t]) = true
    (st = 0 → epoch = 0 → s.applyLease t epoch = s) ∧
    (st = 0 → epoch ≠ 0 → s.applyLease t epoch = held (s.fset F.WARD_STATE_EPOCH [t] epoch)) ∧
    (st = 1 → epoch = own → s.applyLease t epoch = held s) ∧
    (st ≠ 0 → ¬ (st = 1 ∧ epoch = own) → later → s.applyLease t epoch = held (s.fset F.WARD_STATE_EPOCH [t] epoch)) ∧
    (st ≠ 0 → ¬ (st = 1 ∧ epoch = own) → ¬ later → s.applyLease t epoch = s)) ∧
 (∀ (n now : Nat) (s : State),
    let s0 := s.at now
    let s1 := s0.swDrop n
    (s0.delivered n [0xC4] = none → EndsAs (.lease n now) s s0) ∧ (s0.delivered n [0xC5] = none → EndsAs (.leaseAck n now) s s0) ∧
    (∀ q, s0.delivered n [0xC4] = some q →
      let w := bodyWord q.pkt.body 0
      let id := bits w 63 48
      let l := s1.tenIds.filter (fun t => match (s1.ten t).bind Ten.fab with
        | some f => f.wardId == id && id != 0 && f.authId == q.pkt.src
        | none => false)
      let u := l.foldl (fun u t => u.applyLease t (bits w 47 32)) s1
      (l = [] → EndsAs (.lease n now) s s1) ∧
      (l ≠ [] → ∃ t ∈ l, (∀ x ∈ l, leaseRank (u.fget F.WARD_STATE_STATE [t]) ≤ leaseRank (u.fget F.WARD_STATE_STATE [x])) ∧
        EndsAs (.lease n now) s (u.sendVc0 0xC5 q.pkt.src 1 [id * 2 ^ 48 + u.fget F.WARD_STATE_EPOCH [t] * 2 ^ 32 +
          u.fget F.WARD_STATE_FENCE_EPOCH [t] * 2 ^ 16 + u.fget F.WARD_STATE_STATE [t] * 2 ^ 14]))) ∧
    (∀ q, s0.delivered n [0xC5] = some q →
      let w := bodyWord q.pkt.body 0
      let mine := fun (a : Nat) => s1.fget F.AUTH_CTL_VALID [a] = 1 ∧ s1.fget F.AUTH_CTL_WARD_ID [a] = bits w 63 48
      let fenced := bits w 15 14 = 2
      let held := fun (a : Nat) => bits w 15 14 = 1 ∧ bits w 47 32 = s1.fget F.AUTH_CTL_EPOCH [a]
      Ends (.leaseAck n now) s fun t => { t with fab := s1.fab } = s1 ∧ { t.fab with auth := s1.fab.auth } = s1.fab ∧ ∀ a < 16,
        (let x := s1.authSt a
         (mine a → fenced → t.authSt a = { x with fenced := min 4096 (x.fenced + 1) }) ∧
         (mine a → held a → t.authSt a = { x with acked := min 4096 (x.acked + 1) }) ∧
         (¬ mine a ∨ (¬ fenced ∧ ¬ held a) → t.authSt a = x)))) ∧
 (∀ (a : Fin 16) (now : Nat) (s : State),
    let s0 := s.at now
    let period := s0.fget F.AUTH_CTL_PERIOD_MS [a] * 1000000
    let count := s0.fget F.AUTH_LIST_COUNT_M1 [a] + 1
    let x := s0.authSt a
    let next : AuthSt := { startNs := x.startNs + period, next := 0, acked := 0, fenced := 0 }
    let u := if now < x.startNs + period then s0 else (s0.updAuth a (fun _ => next)).fsets [a.val]
      [(F.AUTH_COUNTS_ACKED, x.acked), (F.AUTH_COUNTS_FENCED, x.fenced), (F.AUTH_CTL_ACKED, min 4095 x.acked),
        (F.AUTH_CTL_FENCED, min 4095 x.fenced)]
    let y := u.authSt a
    let due := y.next < count ∧ y.startNs + y.next * period / count ≤ now
    (s0.fget F.AUTH_CTL_VALID [a] = 0 → EndsAs (.leaseSend a now) s s0) ∧
    (s0.fget F.AUTH_CTL_VALID [a] ≠ 0 → ¬ due → EndsAs (.leaseSend a now) s u) ∧
    (s0.fget F.AUTH_CTL_VALID [a] ≠ 0 → due → ∀ st l v,
      u.busRead deviceIssuer .rd (u.fget F.AUTH_LIST_ADDR [a] + 2 * y.next) 2 = (st, l, v) →
      let v1 := v.updAuth a (fun x => { x with next := x.next + 1 })
      (st ≠ 0 → EndsAs (.leaseSend a now) s v1) ∧
      (st = 0 → EndsAs (.leaseSend a now) s (v1.sendVc0 0xC4 (leNat l) 1
        [v1.fget F.AUTH_CTL_WARD_ID [a] * 2 ^ 48 + v1.fget F.AUTH_CTL_EPOCH [a] * 2 ^ 32])))) ∧
 (∀ (x : TenId) (past : List (PortId × Nat)) (now : Nat) (s : State),
    let s0 := s.at now
    let out := s0.fget F.WARD_STATE_STATE [x] = 1 ∧ (s0.ten x).isSome = true ∧
      KMap.get 0 s0.fab.leaseNs x + s0.fget F.LEASE_CFG_LEASE_TTL_MS [] * 1000000 ≤ now
    (¬ out → EndsAs (.leaseTtlExpiry x past now) s s0) ∧
    (out → EndsAs (.leaseTtlExpiry x past now) s ((s0.grantedBefore past).wardFence x (s0.fget F.WARD_STATE_EPOCH [x]))))

/-- R404 to R412, R417 to R420, R423, R427: an event of R406 that a unit has captured is entered in the history at its place among those of
its fclk, or merged into the entry before that place, and frozen as the first one; it takes its action: it marks, discards or
abandons the running step, decides a retirement, terminates, holds or stops the device for good; and a counted one counts towards
its unit's retirement, which it decides at the limit. Of 0xBA, the packet met goes on with a check that
fails. What is no event of R406 reaches nothing (assumption 116).

R407, R408, R418, R422, R423: an accepted write of a force register raises its event as forced, one of GRAVE_FORCE its grave code;
RET_CLEAR takes a unit off the record; KICK restarts a watchdog whoever writes it, and one that expires logs its event and starts
again; a window's end starts its counts again, and nothing else does. -/
def Obligations.EventsReachTheRidge : Prop :=
 (∀ (e : Event) (forced : Bool) (act : Nat) (run : Option Run) (s : State),
    let t := s.enterHistory e forced act run
    let n := s.fget F.RIDGE_STATUS_HIST_COUNT []
    let m := s.entriesAfter e forced
    let j := n + 32 - m
    let first := s.fget F.RIDGE_STATUS_FIRST_VALID [] = 0 ∨ ∃ i < m, (s.hist (j + i) 0).testBit 50 = true
    let step := match run with | some r => r.step | none => 0
    let rep := match run with | some r => r.attempt != 0 | none => false
    { t with regs := s.regs } = s ∧
    ((first ∨ s.mergesWith e forced (j + 31) = false) →
      t.fget F.RIDGE_STATUS_HIST_COUNT [] = (n + 1) % 2 ^ 32 ∧
        (∀ w < 4, t.hist j w = entryWord e forced (decide first) rep s.timeNow step act w % 2 ^ 64) ∧
        (∀ i < m, ∀ w < 4, t.hist (j + i + 1) w =
          if w = 0 ∧ (s.hist (j + i) 0).testBit 50 = true then s.hist (j + i) 0 - 2 ^ 50 else s.hist (j + i) w) ∧
        (∀ k < 31 - m, ∀ w < 4, t.hist (n + 1 + k) w = s.hist (n + 1 + k) w) ∧
        (first → t.fget F.RIDGE_STATUS_FIRST_VALID [] = 1 ∧ ∀ w < 4, (t.rget .FIRST [w]).toNat = t.hist j w)) ∧
    (¬ first → ∀ w < 4, t.rget .FIRST [w] = s.rget .FIRST [w]) ∧
    (¬ first → s.mergesWith e forced (j + 31) = true →
      t.fget F.RIDGE_STATUS_HIST_COUNT [] = n ∧
        bits (t.hist (j + 31) 3) 47 40 = min 255 (bits (s.hist (j + 31) 3) 47 40 + 1) ∧
        (∀ k < 32, ∀ w < 4, (k, w) ≠ ((j + 31) % 32, 3) → t.hist k w = s.hist k w)) ∧
    (s.mergesWith e forced (j + 31) = true ↔ codeClass e.code ≠ 2 ∧ bits (s.hist (j + 31) 0) 63 56 = e.code ∧
      bits (s.hist (j + 31) 3) 63 48 = e.unit ∧ 0 < s.hist (j + 31) 0 ∧ s.timeNow ≤ s.hist (j + 31) 1 + 1000000 ∧
      ¬ (s.hist (j + 31) 1 = s.timeNow % 2 ^ 64 ∧ (s.hist (j + 31) 0).testBit 51 ≠ forced)) ∧
    (m ≤ min n 31 ∧ ∀ i < m, s.hist (n + 31 - i) 1 = s.timeNow % 2 ^ 64 ∧
      let code := bits (s.hist (n + 31 - i) 0) 63 56
      let unit := bits (s.hist (n + 31 - i) 3) 63 48
      (e.unit < 2 ^ 16 → e.code < code ∨ (e.code = code ∧ (e.unit < unit ∨
        (e.unit = unit ∧ forced = false ∧ (s.hist (n + 31 - i) 0).testBit 51 = true)))))) ∧
 (∀ (e : Event) (now : Nat) (s : State),
    let s0 := s.at now
    let act := s0.resolveAct e
    (s0.eventNamed e = false → EndsAs (.faultLog e now) s s0) ∧
    (s0.eventNamed e = true → e.code = 0xBA → (s.fab.sw[e.aux]?).isSome = true → EndsAs (.faultLog e now) s (s0.poolError e.aux)) ∧
    (s0.eventNamed e = true → (e.code = 0xBA → s.fab.sw[e.aux]? = none) → EndsAs (.faultLog e now) s (s0.raiseEv e)) ∧
    (s0.eventNamed e = true → e.code ≠ 0xBA →
      (act = .log → countedUnit e = none → EndsAs (.faultLog e now) s
        (if codeClass e.code = 0 then (s0.enterHistory e false 0 (s0.run e.ten)).setPend 59
         else s0.enterHistory e false 0 (s0.run e.ten))) ∧
      (∀ r, act = .replay → s.tick.cur = e.ten → s.run e.ten = some r →
        let r' : Run := { r with mark := some (r.mark.getD e.code), marks := if r.mark.isNone then r.marks + 1 else r.marks }
        (r'.marks < s.fget F.RET_LIMITS2_REPLAY_MAX [] → Ends (.faultLog e now) s fun t => t.mem = s.mem ∧
          ∃ x : Run, t.run e.ten = some { r' with units := x.units, badDirs := x.badDirs } ∧
            (e.code ≠ 0x92 → x.badDirs = r.badDirs) ∧ (e.code = 0x92 → x.badDirs = e.aux :: r.badDirs) ∧
            (∀ k l, countedUnit e = some (k, l) → x.units = k :: r.units)) ∧
        (s.fget F.RET_LIMITS2_REPLAY_MAX [] ≤ r'.marks → Ends (.faultLog e now) s fun t => t.tick.cur = 0) ∧
        (s.fget F.RET_LIMITS2_REPLAY_MAX [] ≤ r'.marks → r.channel.isSome = true → Ends (.faultLog e now) s fun t =>
          ∃ x : Run, t.run e.ten = some x ∧ x.ended = some (.abandon 3))) ∧
      (∀ c r, act = .discard c → s.run e.ten = some r → Ends (.faultLog e now) s fun t => t.mem = s.mem ∧
        ∃ r', t.run e.ten = some r' ∧ KMap.get none r'.discards (s.discardDist e) =
          some ((KMap.get none r.discards (s.discardDist e)).getD c)) ∧
      (∀ k, act = .retire → retireKey e = some k → k ∉ s.ridge.decided → Ends (.faultLog e now) s fun t =>
        k ∈ t.ridge.decided ∧ (k / 2 ^ 16 ≤ 4 → k ∈ t.ridge.record) ∧ t.rtest .RIDGE_STATUS [] 58 = true ∧ t.mem = s.mem ∧
          (e.code = 0xD0 → t.rtest .RING_STATUS [] (4 + e.unit) = true)) ∧
      (∀ l, e.code = 0xD0 → l < 4 → l ≠ e.unit → s.rtest .RING_STATUS [] (4 + l) = true → unitKey 6 e.unit ∉ s.ridge.decided →
        s.fget F.RIDGE_STATUS_STATE [] ≠ 2 → Ends (.faultLog e now) s fun t => t.ridge.terminate = true) ∧
      (act = .terminate → s.fget F.RIDGE_STATUS_STATE [] ≠ 2 → Ends (.faultLog e now) s fun t =>
        t.ridge.terminate = true ∧ t.ridge.grave = s.ridge.grave ∧ t.tens = s.tens ∧ t.mem = s.mem) ∧
      (act = .terminate → s.fget F.RIDGE_STATUS_STATE [] = 2 → Ends (.faultLog e now) s fun t =>
        t.ridge.terminate = false ∧ t.ridge.grave = some 0xDD ∧ t.mem = s.mem) ∧
      (act = .held → Ends (.faultLog e now) s fun t => t.tens = s.tens ∧ t.mem = s.mem ∧
        if s.fget F.RIDGE_STATUS_STATE [] ∈ [0, 1, 5] then t.ridge.terminate = true ∧ t.ridge.hold = true else t.ridge = s0.ridge) ∧
      (act = .grave → Ends (.faultLog e now) s fun t => t.ridge.grave = some e.code ∧ t.tens = s.tens ∧ t.mem = s.mem) ∧
      (∀ k l, countedUnit e = some (k, l) → Ends (.faultLog e now) s fun t =>
        let was := KMap.get 0 s.ridge.counts k
        KMap.get 0 t.ridge.counts k = (if k ∈ s.ridge.decided then was else was + 1) ∧
          (s.fget l [] ≤ was + 1 → k ∈ t.ridge.decided) ∧
          (∀ r, (k / 2 ^ 16 = 1 ∨ k / 2 ^ 16 = 2) → s.run e.ten = some r → act = .replay → r.isReplay = true → k ∈ r.prevUnits →
            k ∈ t.ridge.decided)))) ∧
 (∀ (now : Nat) (s : State),
    let s0 := s.at now
    let first := fun (t : State) (c u : Nat) => t.fget F.RIDGE_STATUS_FIRST_VALID [] = 1 ∧
      bits (t.rget .FIRST [0]).toNat 63 56 = c ∧ (t.rget .FIRST [0]).getLsbD 51 = true ∧ bits (t.rget .FIRST [3]).toNat 63 48 = u ∧
      (codeAct c 0 = .log → c ∉ [0x43, 0xB1] → t.mem = s.mem)
    (∀ w : Writer,
      let taken := fun r ix v => WriteTaken w (RegName.addr r ix) r ix v s0
      (∀ (n : Fin 4) (v : BitVec 64) (c : Nat), s.fget F.RIDGE_STATUS_FIRST_VALID [] = 0 →
        (taken .RIDGE_FORCE [n.val] v.toNat → forcedCodes 2 n v.toNat = [c] →
          (c = 0xA9 → ∀ x ∈ s.fl.cmds, x.result.isSome = true) → Ends (.ridgeForce w n v now) s fun t =>
          first t c (s.fget F.FORCE_UNIT_UNIT [])) ∧
        (∀ d : Dist, taken .DFU_FORCE [d.val, n.val] v.toNat → forcedCodes 1 n v.toNat = [c] → Ends (.dfuForce w d n v now) s fun t =>
          first t c (d * 2 ^ 14 + s.fget F.DFU_FORCE_UNIT_SUB [d])) ∧
        (∀ b : BlockId, taken .BLK_FORCE [b.val, n.val] v.toNat → forcedCodes 0 n v.toNat = [c] → Ends (.blkForce w b n v now) s
          fun t => first t c b)) ∧
      (∀ v : BitVec 32, taken .GRAVE_FORCE [] v.toNat → Ends (.graveForce w v now) s fun t =>
        t.ridge.grave = some (bits v.toNat 7 0) ∧ t.mem = s.mem) ∧
      (∀ v : BitVec 32, taken .RET_CLEAR [] v.toNat → Ends (.retClear w v now) s fun t =>
        t.ridge.record = s.ridge.record.filter (· != unitKey (bits v.toNat 31 28) (bits v.toNat 15 0)) ∧
          t.ridge.decided = s.ridge.decided ∧ t.mem = s.mem) ∧
      (∀ (d : Dist) (v : BitVec 32), s0.writesShut w (RegName.addr .DFU_WDOG [d.val]) = false →
        s0.reach w (RegName.addr .DFU_WDOG [d.val]) = some (.DFU_WDOG, [d.val], false) →
        v.toNat % 2 ^ 31 = (s.rget .DFU_WDOG [d]).toNat % 2 ^ 31 → Ends (.dfuWdogKick w d v now) s fun t =>
          KMap.get 0 t.ridge.wdog d = 0 ∧ t.regs = s.regs ∧ t.sec = s.sec) ∧
      (∀ v : BitVec 32, s0.writesShut w (RegName.addr .CCC_WDOG []) = false →
        s0.reach w (RegName.addr .CCC_WDOG []) = some (.CCC_WDOG, [], false) →
        v.toNat % 2 ^ 31 = (s.rget .CCC_WDOG []).toNat % 2 ^ 31 → Ends (.cccWdogKick w v now) s fun t =>
          KMap.get 0 t.ridge.wdog 4 = 0 ∧ t.regs = s.regs ∧ t.sec = s.sec)) ∧
    (∀ d : Dist,
      let due := s.fget F.DFU_WDOG_EN [d] = 1 ∧ s.fget F.DFU_WDOG_LIMIT_US [d] * 1000 < KMap.get 0 s0.ridge.wdog d
      (due → EndsAs (.dfuWdogExpiry d now) s ((s0.kick d).chipEv 0x58 d)) ∧ (¬ due → EndsAs (.dfuWdogExpiry d now) s s0) ∧
      (due → s.fget F.RIDGE_STATUS_STATE [] ≠ 2 → Ends (.dfuWdogExpiry d now) s fun t =>
        t.ridge.terminate = true ∧ KMap.get 0 t.ridge.wdog d = 0 ∧ t.mem = s.mem)) ∧
    (let due := s.fget F.CCC_WDOG_EN [] = 1 ∧ s.fget F.CCC_WDOG_LIMIT_US [] * 1000 < KMap.get 0 s0.ridge.wdog 4
     (due → EndsAs (.cccWdogExpiry now) s ((s0.kick 4).chipEv 0xD2)) ∧ (¬ due → EndsAs (.cccWdogExpiry now) s s0) ∧
      (due → s.fget F.RIDGE_STATUS_STATE [] ≠ 2 → Ends (.cccWdogExpiry now) s fun t =>
        t.ridge.terminate = true ∧ KMap.get 0 t.ridge.wdog 4 = 0 ∧ t.mem = s.mem)) ∧
    (∀ (w : Fin 4) (len : Nat) (kinds : List Nat), windows[w.val]? = some (len, kinds) →
      (s0.now % len ≠ 0 → EndsAs (.retirementWindowEnd w now) s s0) ∧
      (s0.now % len = 0 → Ends (.retirementWindowEnd w now) s fun t =>
        { t with ridge := { t.ridge with counts := s.ridge.counts }, t1 := { t.t1 with rows := s.t1.rows } } = s0 ∧
        (∀ k, KMap.get 0 t.ridge.counts k = if k / 2 ^ 16 ∈ kinds then 0 else KMap.get 0 s.ridge.counts k) ∧
        t.t1.rows = if w.val = 1 then [] else s.t1.rows)))

/-- R424 to R428: termination ends every Tenancy and all work, then re-enters through the fabric-preserving reset, which keeps the tiers,
or holds the device with 0xD7; RELEASE lets a held device re-enter; the last stage zeroes T1 and runs, or stays in BOOT with no slot to
boot; nothing runs under power fail; the grave state stops and silences the device, once. -/
def Obligations.TerminationReentersOrHolds : Prop :=
  ∀ (now : Nat) (s : State),
    let s0 := s.at now
    let st := s.fget F.RIDGE_STATUS_STATE []
    (∀ fails : List Nat,
      let limit := s.ridge.why = 4 ∧ (s.fget F.RIDGE_CTRL_AUTO_REENTRY [] = 0 ∨
        s.fget F.RET_LIMITS2_REENTRY_MAX [] ≤ s0.recentReentries.length)
      let held := (s0.setRidge 3).fset F.FAB_ROLE_TRANSIT_NOW [] 1
      (s.ridge.powerFail = true → EndsAs (.termination fails now) s s0) ∧
      (s.ridge.powerFail = false →
        (st = 0 ∨ st = 5 → s.ridge.terminate = true → EndsAs (.termination fails now) s (s0.terminateNow 4)) ∧
        (st = 0 ∨ st = 5 → s.ridge.terminate = false → EndsAs (.termination fails now) s s0) ∧
        (st = 1 → s.ridge.hold = true → EndsAs (.termination fails now) s held) ∧
        (st = 1 → s.ridge.hold = false → limit → EndsAs (.termination fails now) s (held.chipEv 0xD7)) ∧
        (st = 1 → s.ridge.hold = false → ¬ limit → EndsAs (.termination fails now) s s0.reenter) ∧
        (st = 2 → EndsAs (.termination fails now) s (s0.reentryEnd fails)) ∧
        (st = 3 ∨ st = 4 → EndsAs (.termination fails now) s s0))) ∧
    (∀ why : Nat, let t := s0.terminateNow why
      t.fget F.RIDGE_STATUS_STATE [] = 1 ∧ t.ridge.terminate = false ∧ t.ridge.why = why ∧ t.tick.cur = 0 ∧
        ((∀ x ∈ s.tenIds, x < 64) → ∀ x, t.ten x = none) ∧ t.blks = [] ∧ t.dists = [] ∧ t.dma = [] ∧ t.posts = [] ∧
        t.rtest .RIDGE_STATUS [] 57 = true ∧ t.ridge.reentries = s.ridge.reentries) ∧
    (let t := s0.reenter
     t.fget F.RIDGE_STATUS_STATE [] = 2 ∧ t.inTransit = true ∧ t.fget F.RST_CAUSE_KIND [] = 3 ∧
        t.fget F.RST_CAUSE_SOURCE [] = s.ridge.why % 16 ∧ t.cores = [] ∧ t.fab.reqs = [] ∧ t.fab.records = [] ∧
        t.ridge.terminate = false ∧ t.ridge.hold = false ∧ t.ridge.wdog = [] ∧ t.ridge.counts = s.ridge.counts ∧
        t.ridge.record = s.ridge.record ∧ t.ridge.decided = s.ridge.decided ∧
        t.ridge.reentries = (if s.ridge.why = 4 then s0.now :: s0.recentReentries else s.ridge.reentries) ∧
        (∀ k < 32, ∀ w < 4, t.hist k w = s.hist k w) ∧ (∀ w < 4, t.rget .FIRST [w] = s.rget .FIRST [w]) ∧
        (∀ a, a < squareBase 0 ∨ t3Base ≤ a → t.byte a = s.byte a) ∧ (∀ a, squareBase 0 ≤ a → a < t3Base → t.byte a = 0)) ∧
    (∀ fails : List Nat, let t := s0.reentryEnd fails
      ((∀ x, s.ten x = none) → ∀ a < 0x6000000000, t.byte a = 0) ∧
      (s0.chooseSlot.1 = 0 → t.fget F.RIDGE_STATUS_STATE [] = 5) ∧
      (s0.chooseSlot.1 ≠ 0 →
        t.fget F.RIDGE_STATUS_STATE [] = 0 ∧ (∀ c < 6, t.fget F.CORE_CTRL_RUN [c] = 1 ∧ t.fget F.CORE_CTRL_HALT_REQ [c] = 0) ∧
          (∀ d < 4, t.fget F.DFU_WDOG_EN [d] = 1) ∧ t.fget F.CCC_WDOG_EN [] = 1 ∧
          t.fget F.FAB_ROLE_TRANSIT_NOW [] = t.fget F.FAB_ROLE_TRANSIT [] ∧ t.rtest .RIDGE_STATUS [] 56 = true ∧
          (∀ k ∈ fails, 1 ≤ k / 2 ^ 16 → k / 2 ^ 16 ≤ 3 → (k / 2 ^ 16 = 1 → s.fuseEnabled (k % 2 ^ 16) = true) →
            k ∈ t.ridge.decided))) ∧
    (∀ (w : Writer) (v : BitVec 32), WriteTaken w (RegName.addr .RIDGE_CTRL []) .RIDGE_CTRL [] (v.toNat ||| 2 ^ 5) s0 → st = 3 →
      s.ridge.powerFail = false → Ends (.release w v now) s fun t =>
        t.fget F.RIDGE_STATUS_STATE [] = 2 ∧ t.inTransit = true ∧ t.fget F.RST_CAUSE_KIND [] = 3 ∧
          (∀ a, a < squareBase 0 ∨ t3Base ≤ a → t.byte a = s.byte a)) ∧
    (∀ saved,
      let stop := { s0 with ridge := { s0.ridge with grave := none, terminate := false } }
      (s.ridge.grave = none → EndsAs (.graveEvent saved now) s s0) ∧
      (s.ridge.grave ≠ none → st = 4 → EndsAs (.graveEvent saved now) s stop) ∧
      (∀ c, s.ridge.grave = some c → c < 256 → st ≠ 4 → Ends (.graveEvent saved now) s fun t =>
        t.fget F.RIDGE_STATUS_STATE [] = 4 ∧ t.fget F.RIDGE_STATUS_GRAVE_CODE [] = c ∧ t.pins.silent = true ∧
          t.ridge.grave = none ∧ t.ridge.terminate = false ∧ t.ridge.graveN = false ∧ t.mem = s.mem ∧
          t.ridge.snap = (if saved then some t.snapshot else s.ridge.snap)))

/-- R434 to R438: a BAR2 request that the translation admits reads or writes device memory line by line as the host; lines that fail
end it as R436 says, with the first of them captured; one that is not admitted is captured and has no effect; an endpoint reset
clears what the host has set up, and the function configured again sends what waits, in order. A range that is no PCIe request, and a
request to a device whose work has stopped, have no effect (assumptions 124, 127).

R439, R443 to R449: a RING channel's oldest record goes to its place in the ring and PI advances, or waits while the function may
not send; a PORT channel's presented record counts its reads and leaves with RESULT_ACK of its SEQ, and any other write of it is
counted; CI and the configuration take what is written, or are refused, and a channel that is disabled drops its records. -/
def Obligations.HostRequestsAndResultChannels : Prop :=
 (∀ (off now : Nat) (s : State),
    let s0 := s.at now
    let win := off / 2 ^ 30
    let a := s.bar2Addr off
    let line := off / 128 * 128
    (∀ n, bar2Request off n 4096 = false ∨ s.stopped = true → EndsAs (.bar2Read off n now) s s0) ∧
    (∀ n, bar2Request off n 4096 = true → s.stopped = false →
      (s.fget F.BAR2_XLAT_VALID [win] = 0 →
        EndsAs (.bar2Read off n now) s { s0.hifErr 1 0 line with out := { status := 2, data := [] } }) ∧
      (s.fget F.BAR2_XLAT_VALID [win] = 1 → ∀ sts l s1, HostReads (pieces a n) s0 sts l s1 →
        ((∀ x ∈ sts, x.2 = 0) → EndsAs (.bar2Read off n now) s { s1 with out := { status := 0, data := l } }) ∧
        (∀ ok p st rest, sts = ok ++ (p, st) :: rest → (∀ x ∈ ok, x.2 = 0) → st ≠ 0 →
          let t := s1.hifErr 3 st ((off + (p - a)) / 128 * 128)
          ((∀ x ∈ sts, x.2 = 0 ∨ x.2 = St.dataError) →
            EndsAs (.bar2Read off n now) s { t with out := { status := 1, data := List.replicate n 0xFF } }) ∧
          ((∃ x ∈ sts, x.2 ≠ 0 ∧ x.2 ≠ St.dataError) →
            EndsAs (.bar2Read off n now) s { t with out := { status := 3, data := [] } })))) ∧
    (∀ (data : List (BitVec 8)) (poisoned : Bool),
      (bar2Request off data.length 512 = false ∨ s.stopped = true → EndsAs (.bar2Write off data poisoned now) s s0) ∧
      (bar2Request off data.length 512 = true → s.stopped = false →
        (s.fget F.BAR2_XLAT_VALID [win] = 0 → EndsAs (.bar2Write off data poisoned now) s (s0.hifErr 1 0 line)) ∧
        (s.fget F.BAR2_XLAT_VALID [win] = 1 → s.fget F.BAR2_XLAT_WRITE [win] = 0 →
          EndsAs (.bar2Write off data poisoned now) s (s0.hifErr 2 0 line)) ∧
        (s.fget F.BAR2_XLAT_VALID [win] = 1 → s.fget F.BAR2_XLAT_WRITE [win] = 1 →
          (poisoned = true → EndsAs (.bar2Write off data poisoned now) s (s0.hifErr 4 0 line)) ∧
          (poisoned = false → ∀ sts s1, HostWrites a data (pieces a data.length) s0 sts s1 →
            ((∀ x ∈ sts, x.2 = 0) → EndsAs (.bar2Write off data poisoned now) s s1) ∧
            (∀ ok p st rest, sts = ok ++ (p, st) :: rest → (∀ x ∈ ok, x.2 = 0) → st ≠ 0 →
              EndsAs (.bar2Write off data poisoned now) s (s1.hifErr 3 st ((off + (p - a)) / 128 * 128))))))) ∧
    (∀ kind st o : Nat, kind < 16 → st < 256 → o < 2 ^ 36 → let t := s.hifErr kind st o
      { t with regs := s.regs } = s ∧
      (s.fget F.HIF_ERR_VALID [] = 0 → t.fget F.HIF_ERR_VALID [] = 1 ∧ t.fget F.HIF_ERR_KIND [] = kind ∧
        t.fget F.HIF_ERR_STATUS [] = st ∧ t.fget F.HIF_ERR_WINDOW [] = o / 2 ^ 30 ∧ t.fget F.HIF_ERR_OFFSET [] = o) ∧
      (s.fget F.HIF_ERR_VALID [] = 1 → t = s.fset F.HIF_ERR_OVERFLOW [] 1)) ∧
    (∀ (w : Writer) (n : Fin 64) (v : BitVec 64), WriteTaken w (RegName.addr .BAR2_XLAT [n.val]) .BAR2_XLAT [n.val] v.toNat s0 →
      Ends (.bar2XlatWrite w n v now) s fun t => t.fget F.BAR2_XLAT_VALID [n] = bit v.toNat 63 ∧
        t.fget F.BAR2_XLAT_WRITE [n] = bit v.toNat 62 ∧ t.fget F.BAR2_XLAT_TARGET [n] = bits v.toNat 55 30 ∧ t.mem = s.mem) ∧
    (∀ (w : Writer) (n : Fin 64) (v : BitVec 64), s0.writesShut w (RegName.addr .BAR2_XLAT [n.val]) = false →
      s0.reach w (RegName.addr .BAR2_XLAT [n.val]) = some (.BAR2_XLAT, [n.val], false) → s0.holds w .installer = true →
      v.getLsbD 63 = true →
      (∀ k d, winOf (bits v.toNat 55 30 * 2 ^ 30) ≠ .t1 ∧ winOf (bits v.toNat 55 30 * 2 ^ 30) ≠ .t2 ∧
        winOf (bits v.toNat 55 30 * 2 ^ 30) ≠ .square k d ∧ winOf (bits v.toNat 55 30 * 2 ^ 30) ≠ .spad k d ∧
        winOf (bits v.toNat 55 30 * 2 ^ 30) ≠ .ga k d ∧ winOf (bits v.toNat 55 30 * 2 ^ 30) ≠ .resram k d) →
      EndsAs (.bar2XlatWrite w n v now) s ((s0.holdHalf w .BAR2_XLAT [n.val] none).fset F.HIF_STATUS_CFG_REJECT [] 1)) ∧
    (∀ kind : Fin 3, Ends (.endpointReset kind now) s fun t =>
      t.fget F.HIF_STATUS_BME [] = 0 ∧ t.fget F.HIF_STATUS_MSIX_EN [] = 0 ∧ t.fget F.HIF_STATUS_FN_MASK [] = 0 ∧
        t.fget F.HIF_STATUS_FLR_SEEN [] = 1 ∧ (∀ n < 64, (t.rget .BAR2_XLAT [n]).toNat = 0) ∧
        (∀ ch < 64, t.rget .RES_CH_CFG [ch] = RegName.rst .RES_CH_CFG [ch] ∧ (t.rget .RES_CH_BASE [ch]).toNat = 0 ∧ t.resHeld ch = [] ∧
          t.resReserved ch = 0) ∧
        (∀ v < 2048, t.rget .MSIX_ADDR [v] = RegName.rst .MSIX_ADDR [v] ∧ t.rget .MSIX_DATA [v] = RegName.rst .MSIX_DATA [v] ∧
          t.rget .MSIX_CTL [v] = RegName.rst .MSIX_CTL [v] ∧ t.rtest .MSIX_PBA [v / 64] (v % 64) = false) ∧
        t.hif.outq = [] ∧ (t.agentSt 0).sessions = (s.agentSt 0).sessions.map (fun y => y.endAt s0.now) ∧ (kind = 2 → t.fget F.HIF_STATUS_LINK_UP [] = 0) ∧
        (kind ≠ 2 → t.fget F.HIF_STATUS_LINK_UP [] = s.fget F.HIF_STATUS_LINK_UP []) ∧
        t.mem = s.mem ∧ t.hostMem = s.hostMem ∧ t.fab = s.fab ∧ t.blks = s.blks ∧ t.cores = s.cores ∧
        ∀ x v, s.ten x = some v → ∃ u : Ten, t.ten x = some u ∧ { u with run := v.run } = v) ∧
    (∀ (gen : Fin 6) (lanes : Fin 5) (bme en mask : Bool), ∃ s1 : State,
      s1.fget F.HIF_STATUS_LINK_UP [] = 1 ∧ s1.fget F.HIF_STATUS_SPEED [] = gen + 1 ∧ s1.fget F.HIF_STATUS_WIDTH [] = 2 ^ lanes.val ∧
      s1.fget F.HIF_STATUS_BME [] = bme.toNat ∧ s1.fget F.HIF_STATUS_MSIX_EN [] = en.toNat ∧
      s1.fget F.HIF_STATUS_FN_MASK [] = mask.toNat ∧ { s1 with regs := s.regs } = s0 ∧
      EndsAs (.busMasterEnable gen lanes bme en mask now) s s1.drainOut) ∧
    ((s.canSend = false → s.drainOut = s) ∧ (s.hif.outq = [] → s.drainOut = s) ∧
      (∀ x rest, s.canSend = true → s.hif.outq = x :: rest →
        let t := { s with hif := { s.hif with outq := rest } }
        s.drainOut = (match x with | .ring ch => t.ringWrite ch | .msi v => t.sendPending v).drainOut))) ∧
 (∀ (w : Writer) (ch : Fin 64) (now : Nat) (s : State),
    let s0 := s.at now
    let taken := fun r v => WriteTaken w (RegName.addr r [ch.val]) r [ch.val] v s0
    let free := fun r => s0.writesShut w (RegName.addr r [ch.val]) = false ∧
      s0.reach w (RegName.addr r [ch.val]) = some (r, [ch.val], false)
    let queued := (s.hif.outq.filter (· == OutWrite.ring ch)).length
    let ready := s.fget F.RES_CH_CFG_EN [ch] ≠ 0 ∧ s.fget F.RES_CH_CFG_MODE [ch] ≠ 1 ∧ queued < (s.resHeld ch).length ∧
      s.ringRoom ch queued = true
    let pi := s.fget F.RES_CH_PI_PI [ch]
    (¬ ready → EndsAs (.ringRecordWrite ch now) s s0) ∧
    (ready → s.canSend = true → queued = 0 → EndsAs (.ringRecordWrite ch now) s (s0.ringWrite ch)) ∧
    (ready → s.canSend = false ∨ queued ≠ 0 →
      EndsAs (.ringRecordWrite ch now) s { s0 with hif := { s0.hif with outq := s.hif.outq ++ [.ring ch] } }) ∧
    (s.ringRoom ch queued = true ↔
      (pi + 2 ^ 32 - s.fget F.RES_CH_CI_CI [ch]) % 2 ^ 32 + queued < 2 ^ s.fget F.RES_CH_CFG_LOG2_SIZE [ch]) ∧
    (∀ x rest, s.resHeld ch = x :: rest → let t := s.ringWrite ch
      t.hostMem = (s.hostWrite (s.fget F.RES_CH_BASE_BASE [ch] * 4096 + 128 * (pi % 2 ^ s.fget F.RES_CH_CFG_LOG2_SIZE [ch]))
        (x.flatMap (leBytes 8))).hostMem ∧ t.resHeld ch = rest ∧ t.fget F.RES_CH_PI_PI [ch] = (pi + 1) % 2 ^ 32 ∧
        t.fget F.SRC_SH_EVENTS [256 + ch] = satAdd 0xFFFF (s.fget F.SRC_SH_EVENTS [256 + ch]) 1 ∧
        { t with hostMem := s.hostMem, hif := s.hif, regs := s.regs, ic := s.ic } = s ∧
        (∀ c, c ≠ ch.val → t.resHeld c = s.resHeld c)) ∧
    (s0.bar0Shut w (RegName.addr .RP_STATUS [ch.val]) = none →
      s0.reach w (RegName.addr .RP_STATUS [ch.val]) = some (.RP_STATUS, [ch.val], false) →
      (s.presented ch = none → Ends (.rpStatusRead w ch now) s fun t => t.out.value = 0xFFFFFFFF ∧ { t with out := s0.out } = s0) ∧
      (∀ x, s.presented ch = some x → x.length = 16 → Ends (.rpStatusRead w ch now) s fun t => ∃ y, t.presented ch = some y ∧
        y.take 15 = x.take 15 ∧ bits ((y[15]?).getD 0) 47 40 = min 255 (bits ((x[15]?).getD 0) 47 40 + 1) ∧
        bits ((y[15]?).getD 0) 39 0 = bits ((x[15]?).getD 0) 39 0 ∧
        t.out.value = bits ((y[15]?).getD 0) 47 40 * 2 ^ 16 + bits ((x[15]?).getD 0) 15 0 ∧
        { t with hif := s0.hif, out := s0.out } = s0 ∧ ∀ c, c ≠ ch.val → t.resHeld c = s.resHeld c)) ∧
    (∀ v, s0.bar0Shut w (RegName.addr .RP_STATUS [ch.val]) = some v →
      EndsAs (.rpStatusRead w ch now) s { s0 with out := { status := 0, value := v } }) ∧
    (s0.bar0Shut w (RegName.addr .RP_STATUS [ch.val]) = none → s0.reach w (RegName.addr .RP_STATUS [ch.val]) = none →
      EndsAs (.rpStatusRead w ch now) s { s0 with out := { status := 0, value := 0 } }) ∧
    (∀ seq : BitVec 32, taken .RESULT_ACK seq.toNat →
      (∀ x : Rec, s.presented ch = some x → bits ((x[15]?).getD 0) 31 0 = seq.toNat → Ends (.resultAck w ch seq now) s fun t =>
        t.resHeld ch = (s.resHeld ch).drop 1 ∧ { t with hif := s0.hif } = s0) ∧
      (s.presented ch = none ∨ (∃ x : Rec, s.presented ch = some x ∧ bits ((x[15]?).getD 0) 31 0 ≠ seq.toNat) →
        EndsAs (.resultAck w ch seq now) s (s0.fsat F.HIF_STATUS_ACK_STALE [] 1))) ∧
    (∀ v : BitVec 32, free .RES_CH_CI →
      let fits := (pi + 2 ^ 32 - v.toNat) % 2 ^ 32 ≤ 2 ^ s.fget F.RES_CH_CFG_LOG2_SIZE [ch]
      (fits → EndsAs (.resChCiWrite w ch v now) s (s0.rset .RES_CH_CI [ch] (BitVec.ofNat 64 v.toNat))) ∧
      (¬ fits → EndsAs (.resChCiWrite w ch v now) s (s0.fset F.HIF_STATUS_CFG_REJECT [] 1))) ∧
    (∀ v : BitVec 64, taken .RES_CH_CFG v.toNat → Ends (.resChCfgWrite w ch v now) s fun t =>
      t.fget F.RES_CH_CFG_EN [ch] = bit v.toNat 63 ∧ t.fget F.RES_CH_CFG_MODE [ch] = bit v.toNat 62 ∧
        t.fget F.RES_CH_CFG_LOG2_SIZE [ch] = bits v.toNat 56 52 ∧ t.fget F.RES_CH_CFG_SLOTS [ch] = bits v.toNat 44 32 ∧ t.mem = s.mem ∧
        (s.fget F.RES_CH_CFG_EN [ch] = 0 → v.getLsbD 63 = true → t.fget F.RES_CH_PI_NEXT_SEQ [ch] = 1) ∧
        (s.fget F.RES_CH_CFG_EN [ch] = 1 → v.getLsbD 63 = false → t.resHeld ch = [] ∧ t.resReserved ch = 0)) ∧
    (∀ v : BitVec 64, free .RES_CH_CFG → s0.holds w .operator = true → s.fget F.RES_CH_CFG_EN [ch] = 1 → v.getLsbD 63 = true →
      6 ≤ bits v.toNat 56 52 → bits v.toNat 56 52 ≤ 16 → 1 ≤ bits v.toNat 44 32 → bits v.toNat 44 32 ≤ 4096 →
      bit v.toNat 62 ≠ s.fget F.RES_CH_CFG_MODE [ch] ∨ bits v.toNat 56 52 ≠ s.fget F.RES_CH_CFG_LOG2_SIZE [ch] ∨
        bits v.toNat 44 32 ≠ s.fget F.RES_CH_CFG_SLOTS [ch] →
      EndsAs (.resChCfgWrite w ch v now) s ((s0.holdHalf w .RES_CH_CFG [ch.val] none).fset F.HIF_STATUS_CFG_REJECT [] 1)))

/-- R450 to R458: a source counts its events and is pending as R452 says, at the latest when its coalescing time has passed; CLAIM by the
owning core makes the winner active and returns it with its events, and by any other agent returns 0; COMPLETE ends it, with a
configuration write that waited for it; SOFT raises one; a source for the host sends its message or sets its pending bit, which is
sent once it can be; a sensed line takes a level held long enough, and a shorter pulse is counted. -/
def Obligations.InterruptsAreDelivered : Prop :=
 (∀ (x : Src) (s : State),
    (s.srcPending x = true ↔ x.listed = true ∧ s.fget (x.f 63 63) x.ix = 1 ∧ s.fget (x.f 23 23) x.ix = 0 ∧ 0 < s.fget (x.f 15 0) x.ix ∧
      (s.fget (x.f 45 38) x.ix ≤ s.fget (x.f 15 0) x.ix ∨
        (s.fget (x.f 37 24) x.ix ≠ 0 ∧ KMap.get 0 s.ic.firstT x.addr + s.fget (x.f 37 24) x.ix * 1000 ≤ s.now + 1))) ∧
    (let t := s.srcEvent x
     t.fget (x.f 15 0) x.ix = min 0xFFFF (s.fget (x.f 15 0) x.ix + 1) ∧
       (s.fget (x.f 15 0) x.ix = 0 → KMap.get 0 t.ic.firstT x.addr = s.now + 1) ∧
       (s.fget (x.f 15 0) x.ix ≠ 0 → t.ic = s.ic) ∧ { t with regs := s.regs, ic := s.ic } = s) ∧
    (∀ (c thr : Nat) (y : Src), s.winner c thr = some y →
      y ∈ s.claimable c ∧ s.srcPending y = true ∧ thr < s.fget (y.f 48 46) y.ix ∧
        ∀ z ∈ s.claimable c, s.srcPending z = true → s.fget (z.f 48 46) z.ix ≤ s.fget (y.f 48 46) y.ix) ∧
    (∀ (c thr : Nat), s.winner c thr = none →
      ∀ z ∈ s.claimable c, s.srcPending z = true → s.fget (z.f 48 46) z.ix ≤ thr)) ∧
 (∀ (c : CoreId) (n : Fin 512) (now : Nat) (s : State),
    let s0 := s.at now
    let src := fun (m : Nat) => if m < 64 then Src.priv c m else Src.shared m
    let x := src n
    let us := s.fget (x.f 37 24) x.ix
    let counts := x.listed = true ∧ us ≠ 0 ∧ s.fget (x.f 15 0) x.ix ≠ 0
    (¬ counts → EndsAs (.coalTimeout c n) s s) ∧
    (counts → EndsAs (.coalTimeout c n) s (s.at (KMap.get 0 s.ic.firstT x.addr - 1 + us * 1000))) ∧
    (counts → s.fget (x.f 63 63) x.ix = 1 → s.fget (x.f 23 23) x.ix = 0 →
      Ends (.coalTimeout c n) s fun t => t.srcPending x = true ∧ t.regs = s.regs ∧ t.mem = s.mem) ∧
    (s0.bar0Shut (.core c) (RegName.addr .CLAIM [c.val]) = none ∧
      s0.reach (.core c) (RegName.addr .CLAIM [c.val]) = some (.CLAIM, [c.val], false) →
      (s0.winner c 0 = none → Ends (.claim (.core c) c now) s fun t => t.out.value = 0 ∧ { t with out := s0.out } = s0) ∧
      (∀ m, m < 512 → s0.winner c 0 = some (src m) → Ends (.claim (.core c) c now) s fun t =>
        t.out.value = s.fget ((src m).f 15 0) (src m).ix * 2 ^ 16 + m ∧ t.fget ((src m).f 23 23) (src m).ix = 1 ∧
          t.fget ((src m).f 15 0) (src m).ix = 0 ∧ { t with out := s0.out, regs := s0.regs, ic := s0.ic } = s0)) ∧
    (∀ w : Writer, w ≠ .core c → s0.bar0Shut w (RegName.addr .CLAIM [c.val]) = none →
      Ends (.claim w c now) s fun t => t.out.value = 0 ∧ { t with out := s0.out } = s0) ∧
    (∀ (w : Writer) (v : Nat), s0.bar0Shut w (RegName.addr .CLAIM [c.val]) = some v →
      EndsAs (.claim w c now) s { s0 with out := { status := 0, value := v } }) ∧
    (∀ v : BitVec 32, WriteTaken (.core c) (RegName.addr .COMPLETE [c.val]) .COMPLETE [c.val] v.toNat s0 → bits v.toNat 15 0 = n →
      let mine := x.listed = true ∧ s.fget (x.f 23 23) x.ix = 1 ∧ (64 ≤ n.val → s.fget F.SRC_SH_TARGET [n] = c)
      (¬ mine → EndsAs (.intComplete (.core c) c v now) s s0) ∧
      (mine → KMap.get none s.ic.deferred x.addr = none → EndsAs (.intComplete (.core c) c v now) s (s0.fset (x.f 23 23) x.ix 0)) ∧
      (∀ y, mine → KMap.get none s.ic.deferred x.addr = some y → Ends (.intComplete (.core c) c v now) s fun t =>
        t.fget (x.f 23 23) x.ix = 0 ∧ t.fget (x.f 15 0) x.ix = s.fget (x.f 15 0) x.ix ∧
          t.fget (x.f 63 63) x.ix = bit y.toNat 63 ∧ t.fget (x.f 37 24) x.ix = bits y.toNat 37 24 ∧
          t.fget (x.f 48 46) x.ix = max 1 (bits y.toNat 48 46) ∧ t.fget (x.f 45 38) x.ix = max 1 (bits y.toNat 45 38) ∧
          (64 ≤ n.val → t.fget F.SRC_SH_TARGET [n] = bits y.toNat 62 60 ∧ t.fget F.SRC_SH_VECTOR [n] = bits y.toNat 59 49) ∧
          KMap.get none t.ic.deferred x.addr = none ∧ { t with regs := s0.regs, ic := s0.ic } = s0)) ∧
    (∀ v : BitVec 32, WriteTaken (.core c) (RegName.addr .COMPLETE [c.val]) .COMPLETE [c.val] v.toNat s0 → 512 ≤ bits v.toNat 15 0 →
      EndsAs (.intComplete (.core c) c v now) s s0) ∧
    (∀ (w : Writer) (v : BitVec 32), w ≠ .core c → WriteTaken w (RegName.addr .COMPLETE [c.val]) .COMPLETE [c.val] v.toNat s0 →
      EndsAs (.intComplete w c v now) s s0) ∧
    (∀ (w : Writer) (v : BitVec 32), WriteTaken w (RegName.addr .SOFT [c.val]) .SOFT [c.val] v.toNat s0 →
      (v.getLsbD 0 = true → EndsAs (.soft w c v now) s (s0.srcEvent (.priv c 8))) ∧
      (v.getLsbD 0 = false → EndsAs (.soft w c v now) s s0)) ∧
    (∀ (w : Writer) (v : BitVec 64), WriteTaken w (x.reg.addr x.ix) x.reg x.ix v.toNat s0 →
      (s.fget (x.f 23 23) x.ix = 0 → Ends (.srcCfgWrite w c n v now) s fun t =>
        t.fget (x.f 63 63) x.ix = bit v.toNat 63 ∧ t.fget (x.f 37 24) x.ix = bits v.toNat 37 24 ∧
          t.fget (x.f 48 46) x.ix = max 1 (bits v.toNat 48 46) ∧ t.fget (x.f 45 38) x.ix = max 1 (bits v.toNat 45 38) ∧
          t.fget (x.f 15 0) x.ix = s.fget (x.f 15 0) x.ix ∧
          (64 ≤ n.val → t.fget F.SRC_SH_TARGET [n] = bits v.toNat 62 60 ∧ t.fget F.SRC_SH_VECTOR [n] = bits v.toNat 59 49) ∧
          t.mem = s.mem ∧ t.ic = s.ic) ∧
      (s.fget (x.f 23 23) x.ix = 1 → Ends (.srcCfgWrite w c n v now) s fun t =>
        (∃ y, KMap.get none t.ic.deferred x.addr = some y ∧ ∀ i, 24 ≤ i → i < 64 → (i < 49 ∨ i = 63 ∨ 64 ≤ n.val) →
            y.getLsbD i = v.getLsbD i) ∧
          t.rget x.reg x.ix = s.rget x.reg x.ix ∧ t.mem = s.mem)) ∧
    (let sent := 64 ≤ n.val ∧ s.fget F.SRC_SH_TARGET [n] = 6 ∧ s0.srcPending (.shared n) = true
     let v := s.fget F.SRC_SH_VECTOR [n]
     let t := (s0.srcClear (.shared n)).rbit .MSIX_PBA [v / 64] (v % 64) true
     (¬ sent → EndsAs (.msiXSend n now) s s0) ∧
     (sent → s.sendable v = true → EndsAs (.msiXSend n now) s ((s0.srcClear (.shared n)).sendMsi v)) ∧
     (sent → s.sendable v = false → s.canSend = true ∨ OutWrite.msi v ∈ s.hif.outq → EndsAs (.msiXSend n now) s t) ∧
     (sent → s.canSend = false → OutWrite.msi v ∉ s.hif.outq →
       EndsAs (.msiXSend n now) s { t with hif := { t.hif with outq := s.hif.outq ++ [.msi v] } })) ∧
    (∀ v : Fin 2048,
      let ready := s.rtest .MSIX_PBA [v.val / 64] (v.val % 64) = true ∧ s.sendable v = true
      (ready → EndsAs (.vectorSendable v now) s ((s0.rbit .MSIX_PBA [v.val / 64] (v.val % 64) false).sendMsi v)) ∧
      (¬ ready → EndsAs (.vectorSendable v now) s s0)) ∧
    (∀ v : Nat, { s.sendMsi v with hostMem := s.hostMem } = s ∧
      (s.sendMsi v).hostMem = writeList 0 s.hostMem (s.fget F.MSIX_ADDR_ADDR [v]) (leBytes 4 (s.fget F.MSIX_DATA_DATA [v])) ∧
      (s.sendable v = true ↔ s.fget F.HIF_STATUS_BME [] = 1 ∧ s.fget F.HIF_STATUS_LINK_UP [] = 1 ∧ s.fget F.HIF_STATUS_MSIX_EN [] = 1 ∧
        s.fget F.HIF_STATUS_FN_MASK [] = 0 ∧ s.fget F.MSIX_CTL_MASK [v] = 0)) ∧
    (∀ (l : Fin 8) (level : Bool) (held : Nat),
      let set := { s0 with pins := { s0.pins with low := KMap.set false s0.pins.low l (!level) } }.fset F.GF_CFG_LEVEL [l] level.toNat
      let act := set.lineAct l level
      let porst := { set with pins := { set.pins with porstLow := !level } }
      let same := s.line l = level ∧ (level = true ∨ s.pins.isLow l = true)
      let held_ := s.tap.ir = 0 ∨ s.tap.ir = 3 ∨ s.tap.ir = 4 ∨ s.tap.ir = 5 ∨ s.tap.ir = 6
      (same → EndsAs (.sensedLineChange l level held now) s s0) ∧
      (¬ same → held < s.fget F.GF_CFG_STABLE [l] →
        EndsAs (.sensedLineChange l level held now) s (s0.fsat F.GF_CFG_GLITCHES [l] 1)) ∧
      (¬ same → s.fget F.GF_CFG_STABLE [l] ≤ held → EndsAs (.sensedLineChange l level held now) s act) ∧
      (set.line l = level ∧ set.pins.isLow l = !level ∧ (l.val = 0 → act = set) ∧
        (l.val = 1 → act = { set with pins := { set.pins with powerFailLow := !level } }) ∧
        (l.val = 2 → act = set.noteCause) ∧
        (l.val = 3 → act = { set.noteCause with pwr := { set.noteCause.pwr with emergNs := s0.now } }) ∧
        (l.val = 4 → act = if level then set else { set with pwr := { set.pwr with t2pg := true } }) ∧
        (l.val = 5 → act = if level then set else set.endpointReset) ∧
        (l.val = 6 → (level = true ∧ held_ → act = { porst with tap := { s.tap with ir := 0xFF } }) ∧
          (level = false ∨ ¬ held_ → act = porst)) ∧
        (l.val = 7 → act = if level then set else set.tapStop))))

/-- R471 to R473: GO, VERIFY and DROP of ROLE_REQ act for the writer's agent. GO gives an agent that is not locked out a fresh
challenge of 48 bytes; VERIFY uses the challenge up and answers one result of R473: granted, which starts a session of TTL_S, or a
failure, the eighth of which locks the agent out for 60 s; DROP ends the session that is held. Every outcome is shown, journaled, and
logged with 0x31 when it is 2 to 7. Challenges, sessions and lock-outs end with their times, and a command for one that has not come
to its end changes nothing.

R474: KEY_CTL enrols its slot's key, or revokes it and ends what it granted, and the key sector is written once the journal no longer
holds the entry.

R475 to R479: an entry is queued behind those of earlier cclks and of the agents that go before its own, and takes their next SEQ; the
journal engine commits the oldest entry to the first place in its order that may be written, erases a sector before its first slot,
retries once an entry whose verify failed, and finishes only what it was doing when the power fails; AUD_READ finds a committed entry.

R465: SEAL seals a range and then has its digest, and UNSEAL lets it go, after a step that runs. -/
def Obligations.RolesKeysAndJournal : Prop :=
 (∀ (w : Writer) (a : Fin 3) (role : Fin 4) (slot : Fin 8) (now : Nat) (s : State),
    let s0 := s.at now
    let off := RegName.addr .ROLE_REQ [0]
    let rl := if role.val = 0 then s.fget F.ROLE_REQ_ROLE [a.val] else role.val
    let put := s0.rset .ROLE_REQ [a.val] (BitVec.ofNat 64 (rl * 2 ^ 8 + slot.val))
    s0.writesShut w off = false → s0.reach w off = some (.ROLE_REQ, [a.val], false) →
      EndsAs (.roleGo w role slot now) s (put.roleGo a rl slot) ∧
      EndsAs (.roleVerify w role slot now) s (put.roleVerify a rl slot) ∧
      EndsAs (.roleDrop w role slot now) s (put.roleDrop a rl)) ∧
 (∀ (a : Fin 3) (role slot : Nat) (s : State),
    let x := s.agentSt a.val
    let e := s.endLock a
    (x.lockNs = 0 ∨ s.now < x.lockNs → e = s) ∧
    (x.lockNs ≠ 0 → x.lockNs ≤ s.now → e = (s.updAgent a (fun x => { x with lockNs := 0 })).fsets [a.val]
      [(F.ROLE_STATUS_LOCKED, 0), (F.ROLE_STATUS_FAILS, 0)]) ∧
    (s.now < x.lockNs → s.roleGo a role slot = s.roleOutcome a role slot 7) ∧
    (x.lockNs ≤ s.now →
      let c := (Config.challenge s.free).toNat
      let t := s.roleGo a role slot
      t.agentSt a.val = { x with lockNs := 0, challenge := some c, challengeNs := s.now } ∧
      (∀ b, b ≠ a.val → t.agentSt b = s.agentSt b) ∧
      t.fget F.ROLE_STATUS_PENDING [a.val] = 1 ∧ t.fget F.ROLE_STATUS_REQ_ID [a.val] = (s.fget F.ROLE_STATUS_REQ_ID [a.val] + 1) % 2 ^ 32 ∧
      t.fget F.ROLE_STATUS_RESULT [a.val] = s.fget F.ROLE_STATUS_RESULT [a.val] ∧
      t.fget F.ROLE_STATUS_FAILS [a.val] = (if x.lockNs = 0 then s.fget F.ROLE_STATUS_FAILS [a.val] else 0) ∧
      (∀ i < 6, t.fget F.ROLE_CHALLENGE_BYTES [a.val, i] = c / 2 ^ (64 * (5 - i)) % 2 ^ 64) ∧
      t.free = s.free + 1 ∧ t.sec.queue = s.sec.queue ∧ t.mem = s.mem) ∧
    (let r := e.verifyResult a role slot
     let u := (e.updAgent a (fun x => { x with challenge := none })).fset F.ROLE_STATUS_PENDING [a.val] 0
     let ends := s.now + u.fget F.ROLE_CFG_TTL_S [] * 1000000000
     (r ≠ 1 → s.roleVerify a role slot = u.roleOutcome a role slot r) ∧
     (r = 1 → s.roleVerify a role slot =
       ((u.updAgent a (fun x => { x with sessions := x.sessions.filter (fun y => y.role != role) ++ [⟨role, slot, ends⟩] })).fset
         F.ROLE_STATUS_FAILS [a.val] 0).roleOutcome a role slot 1)) ∧
    (let r := s.verifyResult a role slot
     (x.lockNs ≠ 0 → r = 7) ∧
     (x.lockNs = 0 →
       (x.challenge = none → r = 3) ∧
       (∀ c, x.challenge = some c →
         (x.challengeNs + 10000000000 < s.now → r = 4) ∧
         (s.now ≤ x.challengeNs + 10000000000 →
           (KMap.get none s.sec.keys slot = none → r = 5) ∧
           (∀ k, KMap.get none s.sec.keys slot = some k →
             let m := beBytes 16 s.fuses.serial ++ beBytes 48 c ++ [BitVec.ofNat 8 role, BitVec.ofNat 8 slot, BitVec.ofNat 8 a.val, 0] ++
               beBytes 4 (s.fget F.ROLE_STATUS_REQ_ID [a.val])
             (slotRole slot ≠ role → r = 6) ∧
             (slotRole slot = role → (ecdsaValid k.1 k.2 (s.roleResp a 0) (s.roleResp a 6) m = true → r = 1) ∧
               (ecdsaValid k.1 k.2 (s.roleResp a 0) (s.roleResp a 6) m = false → r = 2))))))) ∧
    (slotRole 0 = 3 ∧ slotRole 1 = 2 ∧ slotRole 2 = 2 ∧ ∀ k, 3 ≤ k → slotRole k = 1) ∧
    (∀ first, s.roleResp a first = ((List.range 6).map (fun i => s.fget F.ROLE_RESP_BYTES [a.val, first + i] * 2 ^ (64 * (5 - i)))).sum) ∧
    (∀ r, let u := (s.fset F.ROLE_STATUS_RESULT [a.val] r).journalOther a role 2 slot r slot
      let fails := u.fget F.ROLE_STATUS_FAILS [a.val] + 1
      let t := s.roleOutcome a role slot r
      (r = 1 ∨ r = 8 → t = u) ∧ (r = 7 → t = u.chipEv 0x31) ∧
      (2 ≤ r → r ≤ 6 → fails < 8 → t = (u.fset F.ROLE_STATUS_FAILS [a.val] fails).chipEv 0x31) ∧
      (2 ≤ r → r ≤ 6 → 8 ≤ fails → t = (((u.fset F.ROLE_STATUS_FAILS [a.val] fails).updAgent a
        (fun x => { x with lockNs := s.now + 60000000000 })).fset F.ROLE_STATUS_LOCKED [a.val] 1).chipEv 0x31)) ∧
    (x.sessions.find? (fun y => y.role == role && s.now < y.endNs) = none → s.roleDrop a role = s) ∧
    (∀ y, x.sessions.find? (fun y => y.role == role && s.now < y.endNs) = some y → s.roleDrop a role =
      (s.updAgent a (fun x => { x with sessions := x.sessions.map (fun z => if z.role = role then z.endAt s.now else z) })).roleOutcome
        a role y.slot 8) ∧
    (∀ (y : Session) (n : Nat), y.endAt n = { y with endNs := min y.endNs n }) ∧
    (∀ kind detail object, let t := s.journalOther a role kind slot detail object
      (s.sec.queue.length < 256 → t = s.journal a role kind slot detail 0 object 0 0) ∧
      (256 ≤ s.sec.queue.length → t = s.fsat F.AUD_STATUS_DROPPED [] 1))) ∧
 (∀ (a : Fin 3) (role : Fin 4) (now : Nat) (s : State),
    let s0 := s.at now
    let x := s.agentSt a.val
    (x.challenge.isSome = true → x.challengeNs + 10000000000 < s0.now →
      EndsAs (.challengeExpiry a now) s (s0.fset F.ROLE_STATUS_PENDING [a.val] 0)) ∧
    (x.challenge = none ∨ s0.now ≤ x.challengeNs + 10000000000 → EndsAs (.challengeExpiry a now) s s0) ∧
    EndsAs (.sessionExpiry a role now) s (s0.updAgent a (fun x => { x with
      sessions := x.sessions.filter (fun y => y.role != role.val || s0.now ≤ y.endNs) })) ∧
    EndsAs (.lockoutEnd a now) s (s0.endLock a)) ∧
 (∀ (s : State) (agent role kind slot detail src object old new : Nat),
    let next := s.fget F.AUD_STATUS_NEXT_SEQ []
    let q := s.sec.queue
    let m := s.entriesBehind agent
    let seq := (next + 2 ^ 32 - m) % 2 ^ 32
    let later := fun (e : JEntry) => (e[1]?).getD 0 = s.timeNow % 2 ^ 64 ∧ agentPlace agent < agentPlace (bits (e.headD 0) 31 28)
    let e : JEntry := [seq * 2 ^ 32 + agent % 16 * 2 ^ 28 + role % 4 * 2 ^ 26 + kind % 4 * 2 ^ 24 + slot % 256 * 2 ^ 16 + detail % 2 ^ 16,
      s.timeNow % 2 ^ 64, s.sec.boot % 2 ^ 32 * 2 ^ 32 + src % 2 ^ 16 * 2 ^ 16, object % 2 ^ 64, old % 2 ^ 64, new % 2 ^ 64, 0]
    let t := s.journal agent role kind slot detail src object old new
    agentPlace 2 = 0 ∧ agentPlace 0 = 1 ∧ agentPlace 1 = 2 ∧ agentPlace 3 = 3 ∧
    m ≤ q.length ∧ (∀ j ∈ q.drop (q.length - m), later j) ∧ (∀ j, m < q.length → q[q.length - m - 1]? = some j → ¬ later j) ∧
    (m = 0 → t = ((({ s with sec := { s.sec with queue := q ++ [e], lastSeq := seq } }.fset F.AUD_STATUS_NEXT_SEQ [] (next + 1)).fset
      F.AUD_STATUS_QUEUED [] (q.length + 1)))) ∧
    t.sec.queue = q.take (q.length - m) ++ e :: (q.drop (q.length - m)).map (fun (x : JEntry) => (x.headD 0 + 2 ^ 32) % 2 ^ 64 :: x.drop 1) ∧
    t.sec.lastSeq = seq ∧ t.fget F.AUD_STATUS_NEXT_SEQ [] = (next + 1) % 2 ^ 32 ∧ t.fget F.AUD_STATUS_QUEUED [] = (q.length + 1) % 512 ∧
    (∀ n, s.journalRoom n = true ↔ q.length + n ≤ 256)) ∧
 (∀ (w : Writer) (now : Nat) (s : State),
    let s0 := s.at now
    let taken := fun r v => WriteTaken w (RegName.addr r []) r [] v s0
    let entry := fun (role : Role) r v =>
      (s0.journal ((writerAgent w).getD 0) role.num 0 (s0.roleSlot w role) 0 0 (regDevAddr r []) (s0.rget r []).toNat v).rset r []
        (BitVec.ofNat 64 (r.written (s0.rget r []).toNat v))
    (∀ slot : Fin 8, taken .KEY_CTL (2 ^ 31 + slot.val) →
      EndsAs (.keyGo w slot now) s ((entry (enroller slot) .KEY_CTL (2 ^ 31 + slot.val)).keyGo w slot)) ∧
    (s0.regReject .KEY_CTL [] 0 = s0.fset F.KEY_CTL_ERR [] 1) ∧
    (∀ (seq : BitVec 32), s0.writesShut w (RegName.addr .AUD_READ []) = false →
      s0.reach w (RegName.addr .AUD_READ []) = some (.AUD_READ, [], false) →
      EndsAs (.audRead w seq now) s ((s0.holdHalf w .AUD_READ [] none).audRead seq.toNat)) ∧
    (∀ (t : TenId) (n : Fin 16),
      let k := t.val * 16 + n.val
      let cmd := fun op => (entry .operator .DG_CMD (op * 2 ^ 28 + k)).fset ⟨.DG_CMD, 31, 28⟩ [] 0
      (taken .DG_CMD (1 * 2 ^ 28 + k) → EndsAs (.seal w t n now) s ((cmd 1).sealStart w t n)) ∧
      (taken .DG_CMD (2 * 2 ^ 28 + k) → EndsAs (.unseal w t n now) s ((cmd 2).unsealStart w t n))) ∧
    (s0.regReject .DG_CMD [] 0 = s0.fset F.DG_STATUS_REJECT [] 1)) ∧
 (∀ (w : Writer) (slot : Nat) (s : State),
    let role := enroller slot
    let key := s.keyData
    let holder := s.roleSlot w role
    let by_ := (KMap.get none s.sec.keys holder).getD (0, 0)
    let j := s.journal ((writerAgent w).getD 0) role.num 3 holder 0 0 slot 0 0
    let t := s.keyGo w slot
    (slot ≤ 2 → role = .maker) ∧ (3 ≤ slot → role = .installer) ∧
    key.1 = ((List.range 6).map (fun i => s.fget F.KEY_DATA_BYTES [i] * 2 ^ (64 * (5 - i)))).sum ∧
    key.2 = ((List.range 6).map (fun i => s.fget F.KEY_DATA_BYTES [6 + i] * 2 ^ (64 * (5 - i)))).sum ∧
    (key = (0, 0) → t.sec = { j.sec with
      keys := KMap.set none s.sec.keys slot none,
      agents := s.sec.agents.map (fun (p : Nat × AgentSt) => (p.1, { p.2 with
        sessions := p.2.sessions.map (fun y => if y.slot = slot then y.endAt s.now else y) })),
      keyPend := some (slot, none), keySeq := j.sec.lastSeq }) ∧
    (key ≠ (0, 0) → t.sec = { j.sec with
      keys := KMap.set none s.sec.keys slot (some key),
      keyPend := some (slot, some ⟨key.1, key.2, by_.1, by_.2⟩), keySeq := j.sec.lastSeq }) ∧
    t.fget F.KEY_CTL_BUSY [] = 1 ∧ t.fget F.KEY_CTL_ERR [] = 0 ∧
    (∀ k < 8, (t.fget F.KEY_STATUS_LOADED []).testBit k = (KMap.get none t.sec.keys k).isSome) ∧ t.mem = s.mem) ∧
 (∀ (now : Nat) (s : State),
    let s0 := s.at now
    let waits := s.ridge.powerFail = true ∨ ∃ j ∈ s.sec.queue, j.headD 0 / 2 ^ 32 = s.sec.keySeq
    (s.sec.keyPend = none ∨ waits → EndsAs (.keySectorWrite now) s s0) ∧
    (∀ slot e, s.sec.keyPend = some (slot, e) → ¬ waits → EndsAs (.keySectorWrite now) s
      ({ s0 with sec := { s0.sec with sector := KMap.set none s.sec.sector slot e, keyPend := none } }.fset F.KEY_CTL_BUSY [] 0)) ∧
    (∀ bad ops junk, s.sec.queue = [] → EndsAs (.journalCommit bad ops junk now) s s0) ∧
    (∀ (e : JEntry) rest ops junk, s.sec.queue = e :: rest →
      let k := s0.journalSlot 4160 s.sec.head
      let seq := e.headD 0 / 2 ^ 32
      let fail := fun (s : State) k => (s.program e k 1).fset F.AUD_STATUS_FLASH_ERR [] 1
      let next := fun (s : State) (k : Nat) => ({ s with sec := { s.sec with queue := rest, head := (k + 1) % 4160 } }).fset
        F.AUD_STATUS_QUEUED [] rest.length
      let done := fun (s : State) (k : Nat) => ({ s with sec := { s.sec with queue := rest, head := (k + 1) % 4160, committed := seq } }.fset
        F.AUD_STATUS_QUEUED [] rest.length).saveSettings seq
      let lost := fun (s : State) => { s with sec := { s.sec with queue := [] }, fw := { s.fw with waiting := [], selPend := none } }.fset F.AUD_STATUS_QUEUED [] 0
      (s.ridge.powerFail = false →
        EndsAs (.journalCommit 0 ops junk now) s (done (s0.program e k 4) k) ∧
        (let f := fail s0 k
         let k2 := f.journalSlot 4160 (k + 1)
         EndsAs (.journalCommit 1 ops junk now) s (done (f.program e k2 4) k2) ∧
         EndsAs (.journalCommit 2 ops junk now) s ((next (fail f k2) k2).giveUp seq))) ∧
      (s.ridge.powerFail = true → ∀ bad,
        (ops ≠ 0 → EndsAs (.journalCommit bad ops junk now) s (lost (s0.program e k ops))) ∧
        (ops = 0 → k % 64 ≠ 0 → EndsAs (.journalCommit bad ops junk now) s (lost s0)) ∧
        (ops = 0 → k % 64 = 0 → EndsAs (.journalCommit bad ops junk now) s
          (lost (s0.flashWrite (journalBase + 64 * k) (junk.take 4096))))))) ∧
 (∀ (e : JEntry) (k : Nat) (s : State),
    let a := 0x03E00000 + 64 * k
    let s0 := if k % 64 = 0 then s.flashErase a 4096 else s
    let s1 := s0.flashWrite a (entryBytes e)
    let s2 := s1.flashWrite (a + 56) (leBytes 4 (crc32c (entryBytes e)))
    let s3 := s2.flashWrite (a + 60) (leBytes 2 0x5AA5)
    let record := leBytes 8 (e.headD 0 / 2 ^ 32 * 2 ^ 32 + k)
    entryBytes e = e.flatMap (leBytes 8) ∧
    s.program e k 0 = s0 ∧ s.program e k 1 = s1 ∧ s.program e k 2 = s2 ∧ s.program e k 3 = s3 ∧
    (s3.sec.ptr ≠ 512 → s.program e k 4 =
      { s3.flashWrite (0x03E41000 + 8 * s3.sec.ptr) record with sec := { s3.sec with ptr := s3.sec.ptr + 1 } }) ∧
    (s3.sec.ptr = 512 → s.program e k 4 =
      { (s3.flashErase 0x03E41000 4096).flashWrite 0x03E41000 record with sec := { s3.sec with ptr := 1 } }) ∧
    (let l := s.flashRead a 64
     let ok := leNat ((l.drop 60).take 2) = 0x5AA5 ∧ leNat ((l.drop 56).take 4) = crc32c (l.take 56)
     (ok → s.slotEntry k = some (leNat (l.take 8) / 2 ^ 32)) ∧ (¬ ok → s.slotEntry k = none)) ∧
    (∃ i, i < 64 ∧ s.journalSlot 4160 k = (k + i) % 4160 ∧
      ((k + i) % 4160 % 64 = 0 ∨ ∀ b ∈ s.flashRead (0x03E00000 + 64 * ((k + i) % 4160)) 64, b = 0xFF) ∧
      ∀ j < i, (k + j) % 4160 % 64 ≠ 0 ∧ ∃ b ∈ s.flashRead (0x03E00000 + 64 * ((k + j) % 4160)) 64, b ≠ 0xFF) ∧
    (∀ seq, s.saveSettings seq = { s with fw := { s.fw with
      waiting := s.fw.waiting.filter (fun (x : Nat × Nat × W64) => x.1 != seq),
      saved := (s.fw.waiting.filter (fun (x : Nat × Nat × W64) => x.1 == seq)).foldl
        (fun m (x : Nat × Nat × W64) => KMap.set none m x.2.1 (some x.2.2)) s.fw.saved } }.selectNow
        seq true) ∧
    (∀ seq, let g := { s with fw := { s.fw with waiting := s.fw.waiting.filter (fun (x : Nat × Nat × W64) => x.1 != seq) } }.selectNow seq false
      (s.sec.keyPend.isSome = true → s.sec.keySeq = seq → s.giveUp seq =
        ({ g with sec := { g.sec with keyPend := none } }).fset F.KEY_CTL_BUSY [] 0) ∧
      (s.sec.keyPend = none ∨ s.sec.keySeq ≠ seq → s.giveUp seq = g))) ∧
 (∀ (seq : Nat) (s : State),
    let k := (List.range 4160).find? (fun k => s.slotEntry k == some seq)
    let t := s.audRead seq
    t.fget F.AUD_READ_DONE [] = 1 ∧ t.fget F.AUD_READ_FOUND [] = k.isSome.toNat ∧ t.fget F.AUD_READ_SEQ [] = seq % 2 ^ 32 ∧
    (∀ j, k = some j → ∀ i < 8, t.fget F.AUD_DATA_WORD [i] = leNat (s.flashRead (0x03E00000 + 64 * j + 8 * i) 8)) ∧
    (k = none → ∀ i < 8, t.fget F.AUD_DATA_WORD [i] = 0) ∧ { t with regs := s.regs } = s) ∧
 (∀ (w : Writer) (t n : Nat) (s : State),
    let k := t * 16 + n
    let j := s.journalOther ((writerAgent w).getD 0) 1 3 (s.roleSlot w .operator) (t * 256 + n) n
    let gone := fun (s : State) => { s with sec := { s.sec with
      seals := KMap.set none s.sec.seals k none, sealed := KMap.set none s.sec.sealed k none } }
    (∀ b pages, s.sealRange t n = some (b, pages) ↔ ∃ v e, s.ten t = some v ∧ v.digTab[n]? = some (some e) ∧ e.invalid = false ∧
      e.base = b ∧ bits e.word1 63 32 = pages) ∧
    (∀ b pages, s.sealRange t n = some (b, pages) → s.sealStart w t n =
      ({ j with sec := { j.sec with
        seals := KMap.set none j.sec.seals k (some none), sealed := KMap.set none j.sec.sealed k (some (b, pages * 4096)),
        sealing := some k } }).fsets [] [(F.DG_STATUS_BUSY, 1), (F.DG_STATUS_PAGES_LEFT, pages)]) ∧
    ((∀ r, s.run t = some r → r.ended ≠ none) → s.unsealStart w t n = gone j) ∧
    (∀ r, s.run t = some r → r.ended = none → s.unsealStart w t n =
      ({ j with sec := { j.sec with unsealWait := some k } }).fset F.DG_STATUS_BUSY [] 1) ∧
    (s.sec.unsealWait = some k → n < 16 →
      s.finishUnseal t = { gone s with sec := { (gone s).sec with unsealWait := none } }.fset F.DG_STATUS_BUSY [] 0) ∧
    ((∀ y, s.sec.unsealWait = some y → y / 16 ≠ t) → s.finishUnseal t = s)) ∧
 (∀ (now : Nat) (s : State),
    let s0 := s.at now
    let s1 := { s0 with sec := { s0.sec with sealing := none } }.fsets [] [(F.DG_STATUS_BUSY, 0), (F.DG_STATUS_PAGES_LEFT, 0)]
    (s.sec.sealing = none ∨ s0.stopped = true → EndsAs (.sealComplete now) s s0) ∧
    (∀ k, s.sec.sealing = some k → s0.stopped = false →
      (∀ b n, KMap.get none s.sec.seals k = some none → KMap.get none s.sec.sealed k = some (b, n) →
        ∀ st l s2, s1.busRead deviceIssuer .rd b n = (st, l, s2) →
          (st = 0 → EndsAs (.sealComplete now) s
            { s2 with sec := { s2.sec with seals := KMap.set none s2.sec.seals k (some (some (beNat (sha256 l)))) } }) ∧
          (st ≠ 0 → EndsAs (.sealComplete now) s s2)) ∧
      (KMap.get none s.sec.seals k ≠ some none ∨ KMap.get none s.sec.sealed k = none → EndsAs (.sealComplete now) s s1)))

/-- R480 to R488: a rail out of range is grave unless a power failure or a power-on reset explains it; a reading shows rails, power,
junction and causes, each against the limits of its time; the step rises while a cause exists, falls after each millisecond without
one, and goes to 7 in an emergency, which ends when its conditions have been away for 1 ms; every change is an event of source 80. The
low level of T2_PG is latched.

R289 to R291, R490, R491, R496, R497, R508, R520: POWER_FAIL_N stops the device until a reset; power-on and cold resets return it to
BOOT with what lies in boot flash, T2, the drives and the fuses; FABRIC and ACTIVATE start the fabric-preserving sequence; BOOT chooses
the slot, trains the memories, zeroes T1, applies the retirement record and the settings, and runs; without a valid image it stays in
BOOT.

R495, R498, R499: WRITE checks an image and programs the slot that is not running; TRY and CONFIRM write the boot selector once their
journal entry is committed; ACTIVATE is a fabric-preserving reset; BURN_SVN raises the fuse to the running version.

What T2 loses with its supplies, which NVMe writes land, and what training and self-test find are operands. How the self-refresh marker
and the latch decide VALID, that memories are trained without an image, and the free progress of an interrupted WRITE are the
model's choices (assumptions 144 to 151). -/
def Obligations.PowerResetsAndFirmware : Prop :=
 (∀ (now : Nat) (s : State),
    let s0 := s.at now
    let step := s.fget F.PWR_STATUS_STEP []
    let emerg := s.fget F.PWR_STATUS_EMERG [] = 1
    (∀ (r : Fin 13) (filtering : Bool), let out := s0.fset F.RAIL_STATUS_IN_RANGE [r.val] 0
      let known := filtering = true ∨ s.pins.powerFailLow = true ∨ s.pins.porstLow = true
      (known → EndsAs (.railOutOfRange r filtering now) s out) ∧
      (¬ known → EndsAs (.railOutOfRange r filtering now) s (out.chipEv 0xDB))) ∧
    (∀ decay, Ends (.t2PgLow decay) s fun t => t = { s with pwr := { s.pwr with t2pg := true }, mem := t.mem } ∧
      (∀ a, a < t2Base ∨ 0x28000000000 ≤ a ∨ (∀ c ∈ decay, c.1 ≠ a) → t.byte a = s.byte a) ∧
      (∀ a b, t2Base ≤ a → a < 0x28000000000 → (∃ l m, decay = l ++ (a, b) :: m ∧ ∀ c ∈ m, c.1 ≠ a) → t.byte a = b)) ∧
    (∀ (rails : List (Bool × Nat × Nat)) watts tj, rails.length ≤ 13 → ∃ u : State,
      let limit := s.fget F.PWR_LIMIT_LIMIT_W []
      let crit := ∃ d < 4, ∃ j < 2, s.fget F.HBM_STATUS_CRIT [d, j] = 1
      let hot := 125 < tj ∧ ∃ t, s.pwr.hotNs = some t ∧ t + 10000 ≤ s0.now
      let st := s.fget F.RIDGE_STATUS_STATE []
      (∀ (k : Nat) (on : Bool) (c mv : Nat), rails[k]? = some (on, c, mv) → u.fget F.RAIL_STATUS_IN_RANGE [k] = on.toNat ∧
        u.fget F.RAIL_STATUS_CURRENT [k] = c % 65536 ∧ u.fget F.RAIL_STATUS_MV [k] = mv % 65536) ∧
      (∀ k, rails.length ≤ k → k < 13 → u.rget .RAIL_STATUS [k] = s.rget .RAIL_STATUS [k]) ∧
      u.fget F.PWR_STATUS_POWER_W [] = min watts 0xFFFF ∧ u.fget F.PWR_STATUS_TJ_MAX_C [] = min tj 255 ∧
      (u.fget F.PWR_STATUS_CAUSE_POWER [] = 1 ↔ limit < watts) ∧
      (u.fget F.PWR_STATUS_CAUSE_TJ [] = 1 ↔ s.fget F.PWR_LIMIT_TJ_THROTTLE_C [] < tj) ∧
      (u.fget F.PWR_STATUS_CAUSE_HBM [] = 1 ↔ crit) ∧
      (u.fget F.PWR_STATUS_CAUSE_PIN [] = 1 ↔ s.pins.isLow 2 = true ∨ s.pins.isLow 3 = true) ∧
      u.fget F.PWR_STATUS_STEP [] = step ∧ u.fget F.PWR_STATUS_EMERG [] = s.fget F.PWR_STATUS_EMERG [] ∧
      u.pwr.overNs = (if 11 * limit < 10 * watts then some (s.pwr.overNs.getD s0.now) else none) ∧
      u.pwr.hotNs = (if 125 < tj then some (s.pwr.hotNs.getD s0.now) else none) ∧
      (u.pwr.tjOver = true ↔ s.fget F.PWR_LIMIT_TJ_EMERG_C [] ≤ tj) ∧
      u.pwr.emergNs = (if s0.emergency = true ∨ u.emergency = true then s0.now else s.pwr.emergNs) ∧
      u.pwr.cause = u.throttleCause ∧
      u.pwr.dueNs = (if u.throttleCause = s.pwr.cause then s.pwr.dueNs else if u.throttleCause then s0.now else s0.now + 1000000) ∧
      { u with regs := s.regs, pwr := s.pwr } = { s0 with pwr := s.pwr } ∧
      (hot → st ≠ 4 → s.ridge.grave = none → EndsAs (.powerReading rails watts tj now) s (u.chipEv 0xDA)) ∧
      (¬ hot ∨ st = 4 ∨ s.ridge.grave ≠ none → EndsAs (.powerReading rails watts tj now) s u)) ∧
    (s.throttleCause = true ↔ s.fget F.PWR_STATUS_CAUSE_POWER [] = 1 ∨ s.fget F.PWR_STATUS_CAUSE_TJ [] = 1 ∨
      s.fget F.PWR_STATUS_CAUSE_HBM [] = 1 ∨ s.pins.isLow 2 = true) ∧
    (s.emergency = true ↔ (∃ t, s.pwr.overNs = some t ∧ t + 100000 ≤ s.now) ∨ s.pwr.tjOver = true ∨ s.pins.isLow 3 = true) ∧
    (let pin := s.fset F.PWR_STATUS_CAUSE_PIN [] (if s.pins.isLow 2 = true ∨ s.pins.isLow 3 = true then 1 else 0)
     (s.throttleCause = s.pwr.cause → s.noteCause = pin) ∧
     (s.throttleCause = true → s.pwr.cause = false → s.noteCause = { pin with pwr := { pin.pwr with cause := true, dueNs := s.now } }) ∧
     (s.throttleCause = false → s.pwr.cause = true →
       s.noteCause = { pin with pwr := { pin.pwr with cause := false, dueNs := s.now + 1000000 } })) ∧
    (∀ (x : Nat) (u : State), (u.fget F.PWR_STATUS_STEP [] = x → u.setThrottle x = u) ∧
      (u.fget F.PWR_STATUS_STEP [] ≠ x → u.setThrottle x = (u.fset F.PWR_STATUS_STEP [] x).srcEvent (.shared 80))) ∧
    (let rises := s.pwr.cause = true ∧ step < 7 ∧ s.pwr.dueNs ≤ s0.now
     (rises → EndsAs (.throttleStepUp now) s ({ s0 with pwr := { s0.pwr with dueNs := s.pwr.dueNs + 20000 } }.setThrottle (step + 1))) ∧
     (¬ rises → EndsAs (.throttleStepUp now) s s0)) ∧
    (let falls := s.pwr.cause = false ∧ ¬ emerg ∧ 0 < step ∧ s.pwr.dueNs < s0.now
     (falls → EndsAs (.throttleStepDown now) s ({ s0 with pwr := { s0.pwr with dueNs := s.pwr.dueNs + 1000000 } }.setThrottle (step - 1))) ∧
     (¬ falls → EndsAs (.throttleStepDown now) s s0)) ∧
    (s0.emergency = true → ¬ emerg → EndsAs (.emergencyThrottle now) s
      (({ s0 with pwr := { s0.pwr with emergNs := s0.now } }.fset F.PWR_STATUS_EMERG [] 1).setThrottle 7)) ∧
    (s0.emergency = false ∨ emerg → EndsAs (.emergencyThrottle now) s s0) ∧
    (let ends := emerg ∧ s0.emergency = false ∧ s.pwr.emergNs + 1000000 ≤ s0.now
     (ends → EndsAs (.emergencyRelease now) s ({ s0 with pwr := { s0.pwr with
       dueNs := if s.pwr.cause then s.pwr.dueNs else max s.pwr.dueNs s0.now } }.fset F.PWR_STATUS_EMERG [] 0)) ∧
     (¬ ends → EndsAs (.emergencyRelease now) s s0)) ∧
    (∀ done, (s.pins.powerFailLow = true → s.ridge.powerFail = false →
        EndsAs (.powerFail done now) s { s0 with ridge := { s0.ridge with powerFail := true, marker := done } }) ∧
      (s.pins.powerFailLow = false ∨ s.ridge.powerFail = true → EndsAs (.powerFail done now) s s0)) ∧
    (s.stopped = true ↔ s.ridge.powerFail = true ∨ (s.fget F.RIDGE_STATUS_STATE [] ≠ 0 ∧ s.fget F.RIDGE_STATUS_STATE [] ≠ 5))) ∧
 (∀ (kind source : Nat) (s : State), kind < 16 → source < 16 →
    let t := s.cleared kind source
    t.fget F.RIDGE_STATUS_STATE [] = 5 ∧ t.fget F.RST_CAUSE_KIND [] = kind ∧ t.fget F.RST_CAUSE_SOURCE [] = source ∧
      (∀ r ix, r.addr ix ≠ RegName.addr .RST_CAUSE [] → t.rget r ix = r.rst ix) ∧
      t.tap = s.tapStop.tap ∧
      { t with regs := [], mem := [], badWords := [], weakWords := [], tap := {} } =
        ({ fuses := s.fuses, hostMem := s.hostMem, flash := s.flash, t1 := { repairs := s.t1.repairs },
           ridge := { record := s.ridge.record, snap := s.ridge.snap, marker := s.ridge.marker },
           sec := { sector := s.sec.sector, ptr := s.sec.ptr, boot := s.sec.boot },
           pwr := { t2pg := s.pwr.t2pg, pfSeen := s.ridge.powerFail }, fw := { copies := s.fw.copies, saved := s.fw.saved },
           pins := { porstLow := s.pins.porstLow, powerFailLow := s.pins.powerFailLow, low := s.pins.low, t2ResetN := s.pins.t2ResetN },
           free := s.free, pending := s.pending } : State) ∧
      (Memory.wf s = true → ∀ a, ((t2Base ≤ a ∧ a < squareBase 0) ∨ t3Base ≤ a → t.byte a = s.byte a) ∧
        (a < t2Base ∨ (squareBase 0 ≤ a ∧ a < t3Base) → t.byte a = 0))) ∧
 (∀ (w : Writer) (now : Nat) (s : State),
    let s0 := s.at now
    let st := s.fget F.RIDGE_STATUS_STATE []
    let off := RegName.addr .RST_CTRL []
    let journaled := fun v => s0.journal ((writerAgent w).getD 0) Role.installer.num 0 (s0.roleSlot w .installer) 0 0 (regDevAddr .RST_CTRL [])
      (s0.rget .RST_CTRL []).toNat v
    (∀ both : Bool, WriteTaken w off .RST_CTRL [] (2 + both.toNat) s0 →
      EndsAs (.cold w both now) s (journaled (2 + both.toNat)).coldReset) ∧
    (WriteTaken w off .RST_CTRL [] 1 s0 → EndsAs (.fabric w now) s ((journaled 1).terminateNow 3)) ∧
    (s0.writesShut w off = false → s0.reach w off = some (.RST_CTRL, [], false) → s0.holds w .installer = true →
      st ≠ 0 → st ≠ 5 → EndsAs (.fabric w now) s (s0.fset F.PWR_STATUS_CFG_REJECT [] 1)) ∧
    (st = 4 → s.coldReset = s) ∧
    (st ≠ 4 → s.coldReset =
      let d := s.dropFwWrite
      let k := (d.landWrites ((d.fl.cmds.map NvmeCmd.id).filter (Config.resetLands d.free))).tickFree
      ({ k with ridge := { k.ridge with marker := !k.ridge.powerFail || k.ridge.marker } }.cleared 2 3).rset .I3C_CFG [] (s.rget .I3C_CFG [])) ∧
    (∀ vdd done landed decay,
      (vdd = false → s.pins.porstLow = false → EndsAs (.powerOnReset vdd done landed decay) s s) ∧
      (vdd = true ∨ s.pins.porstLow = true →
        let d := s.dropFwWrite.landWrites landed
        let lost := decay.filter (fun (c : Nat × BitVec 8) => t2Base ≤ c.1 && c.1 < 0x28000000000 && (vdd || !s.retained c.1))
        let k := lost.foldl (fun s c => s.rawWrite c.1 [c.2]) d
        EndsAs (.powerOnReset vdd done landed decay) s
          ({ k with ridge := { k.ridge with marker := if s.ridge.powerFail then s.ridge.marker else done && !vdd },
                    pwr := { k.pwr with t2pg := s.pwr.t2pg || vdd },
                    pins := { k.pins with t2ResetN := if vdd then 0 else s.pins.t2ResetN },
                    tap := if vdd then {} else s.tap }.cleared 1 (if vdd then 1 else 2)))) ∧
    (∀ landed, s.landWrites landed = (s.fl.cmds.filter (fun c => c.op == .write && landed.contains c.id)).foldl
      (fun s c => s.rawWrite c.addr c.data) s) ∧
    (∀ a, s.retained a = true ↔ ∃ r < 16, s.fget F.T2_RANGE_BASE_EN [r] = 1 ∧ s.fget F.T2_RANGE_BASE_RETAINED [r] = 1 ∧
      let b := t2Base + s.fget F.T2_RANGE_BASE_BASE [r] * 4096
      b ≤ a ∧ a < b + t2Span (KMap.get 0 s.t2Len r) (s.fget F.T2_RANGE_BASE_MIRROR [r] == 1) * 4096) ∧
    (s.fw.writing = none → s.dropFwWrite = s) ∧
    (∀ r image, s.fw.writing = some (r, image) →
      let ended := fun (s : State) => { s with fw := { s.fw with writing := none } }.fsets [] [(F.FW_CTL_RESULT, 3), (F.FW_CTL_BUSY, 0)]
      (r ≠ 0 → s.dropFwWrite = ended s) ∧
      (r = 0 → (∀ n, Config.programmed s.free = some n → s.dropFwWrite = ended (s.programSlot (image.take n)).tickFree) ∧
        (Config.programmed s.free = none → s.dropFwWrite = ended s.tickFree))) ∧
    (∀ image, s.programSlot image =
      (s.flashErase (slotBase s.updateSlot) 0x1800000).flashWrite (slotBase s.updateSlot) image) ∧
    slotBase 1 = 0x00100000 ∧ slotBase 2 = 0x01900000) ∧
 (∀ links spokes stks channels slots fails drives (now : Nat) (s : State),
    let i := Instr.boot links spokes stks channels slots fails drives now
    let s0 := s.at now
    let st := s.fget F.RIDGE_STATUS_STATE []
    let due := st = 5 ∧ s.fw.booted = false ∧ s.pins.porstLow = false ∧ s.ridge.powerFail = false
    let slot := s0.bootRead.chooseSlot.1
    let u := ((s0.bootRead.chooseSlot.2.showSelector.showSlots).runImage slot).trainT2 channels
    let v := (u.trainStacks stks).rawZero 0 0x6000000000
    let linked := v.fsets [] [(F.RING_STATUS_LINK_UP, links.toNat), (F.RING_STATUS_SPOKE_UP, spokes.toNat)]
    let dead := (List.range 256).filter (fun sl => !stks.getLsbD (sl / 32))
    (¬ due → EndsAs i s s0) ∧
    (due → slot = 0 → EndsAs i s v ∧ v.fget F.RIDGE_STATUS_STATE [] = 5 ∧ v.fget F.FW_STATUS_RUN_SLOT [] = 0 ∧ v.fw.booted = true) ∧
    (due → slot ≠ 0 → EndsAs i s ((linked.restoreSettings.applyRecord (dead ++ slots) fails).findDrives drives).startPorts.enterRun) ∧
    (∀ a < 0x6000000000, v.byte a = 0)) ∧
 (∀ (s : State),
    let boot := (s.sec.boot + 1) % 2 ^ 32
    let b := s.bootRead
    b.sec.boot = boot ∧ b.fget F.RST_CAUSE_BOOT_COUNT [] = boot ∧ b.fw = { s.fw with booted := true } ∧
    (∀ l : List Nat, s.ridge.snap = some l → b.fget F.RIDGE_STATUS_LAST_GRAVE [] = bits (l.getLastD 0) 55 48) ∧
    (let q := fun k => s.slotEntry k
     (∀ k m, k < 4160 → q k = some m → (∀ j n, j < 4160 → q j = some n → n < m ∨ (n = m ∧ k ≤ j)) →
       b.sec.head = (k + 1) % 4160 ∧ b.sec.committed = m ∧ b.fget F.AUD_STATUS_NEXT_SEQ [] = (m + 1) % 2 ^ 32) ∧
     ((∀ k < 4160, q k = none) → b.sec.head = 0 ∧ b.sec.committed = 0)) ∧
    (let x := match s.fw.selector with | some p => p.2 | none => ⟨0, 0, 0, 0⟩
     let tries := x.trySlot ≠ 0 ∧ 0 < x.tries
     let other := if x.active = 1 then 2 else 1
     let order := if x.active = 0 then [1, 2] else [x.active, other, 2]
     let c := s.chooseSlot
     let all := if tries then x.trySlot :: order else order
     (∀ k, all.find? s.slotValid = some k → c.1 = k) ∧ ((∀ k ∈ all, s.slotValid k = false) → c.1 = 0) ∧
     (¬ tries → c.2 = s) ∧
     (tries → c.2 = (if s.journalRoom then s.journal 2 2 0 0xFF 0 0 (regDevAddr .FW_CTL []) (s.rget .FW_CTL []).toNat 0
       else s.fsat F.AUD_STATUS_DROPPED [] 1).writeSelector x.active x.trySlot (x.tries - 1))) ∧
    (∀ a t n, let k := match s.fw.selector with | some p => 1 - p.1 | none => 0
      let seq := match s.fw.selector with | some p => (p.2.seq + 1) % 2 ^ 32 | none => 1
      (s.writeSelector a t n).fw = { s.fw with copies := s.fw.copies.set k (some ⟨seq, a, t, n⟩) } ∧
      ({ s with fw := (s.writeSelector a t n).fw }).showSelector = s.writeSelector a t n) ∧
    (∀ i x, s.fw.selector = some (i, x) ↔ ∃ j, i + j = 1 ∧ s.fw.copies[i]? = some (some x) ∧
      ((∀ y, s.fw.copies[j]? ≠ some (some y)) ∨
        ∃ y, s.fw.copies[j]? = some (some y) ∧ (y.seq < x.seq ∨ (y.seq = x.seq ∧ i = 0)))) ∧
    (let x := match s.fw.selector with | some p => p.2 | none => ⟨0, 0, 0, 0⟩
     s.showSelector = s.fsets [] [(F.FW_STATUS_ACTIVE, x.active), (F.FW_STATUS_TRY_SLOT, x.trySlot), (F.FW_STATUS_TRIES_LEFT, x.tries)]) ∧
    s.showSlots = s.fsets [] [(F.FW_STATUS_A_VALID, (s.slotValid 1).toNat), (F.FW_STATUS_B_VALID, (s.slotValid 2).toNat)] ∧
    (∀ k, s.slotValid k = true ↔ (k = 1 ∨ k = 2) ∧ let h := s.flashRead (slotBase k) 512
      payloadLen h ≤ 20 * 2 ^ 20 - 512 ∧ s.imageResult h (s.flashRead (slotBase k + 512) (payloadLen h)) = 0) ∧
    (∀ h p, (s.imageResult h p = 1 ↔ imageSound s.fuses.fwKey h p = false) ∧
      (s.imageResult h p = 2 ↔ imageSound s.fuses.fwKey h p = true ∧ bits (hdrWord h 1) 31 24 < s.fuses.minSvn) ∧
      (s.imageResult h p = 0 ↔ imageSound s.fuses.fwKey h p = true ∧ s.fuses.minSvn ≤ bits (hdrWord h 1) 31 24)) ∧
    (∀ key h p, imageSound key h p = true ↔ bits (hdrWord h 0) 63 32 = 0x564B4657 ∧ bits (hdrWord h 1) 15 0 = 1 ∧
      1 ≤ bits (hdrWord h 1) 63 32 ∧ bits (hdrWord h 1) 63 32 ≤ 20 * 2 ^ 20 - 512 ∧ p.length = bits (hdrWord h 1) 63 32 ∧
      beNat (sha384 (beBytes 96 (hdrNat h 8 12))) = key ∧
      ecdsaValid (hdrNat h 8 6) (hdrNat h 14 6) (hdrNat h 20 6) (hdrNat h 26 6) (h.take 160) = true ∧
      beNat (sha384 p) = hdrNat h 2 6) ∧
    (∀ slot, slot < 3 → let h := if slot = 0 then [] else s.flashRead (slotBase slot) 512
      let t := s.runImage slot
      t.fget F.FW_STATUS_RUN_SLOT [] = slot ∧ t.fget F.FW_STATUS_FW_MAJOR [] = bits (hdrWord h 0) 31 16 ∧
      t.fget F.FW_STATUS_FW_MINOR [] = bits (hdrWord h 0) 15 0 ∧ t.fget F.FW_STATUS_SVN [] = bits (hdrWord h 1) 31 24 ∧
      t.fab = (if slot = 0 then s.fab else { s.fab with version := bits (hdrWord h 1) 23 16 }))) ∧
 (∀ (channels : BitVec 64) (stks : BitVec 8) (drives : List (Nat × Nat)) (s : State),
    let ok := s.ridge.marker = true ∧ s.pwr.t2pg = false
    let t := s.trainT2 channels
    (t.fget F.T2_RETAIN_VALID [] = 1 ↔ ok) ∧ (t.fget F.T2_RETAIN_PF_SEEN [] = 1 ↔ s.pwr.pfSeen = true) ∧
    (t.fget F.T2_RETAIN_SR_INCOMPLETE [] = 1 ↔ s.ridge.marker = false) ∧
    t.pwr.t2pg = (s.pwr.t2pg && !s.ridge.marker) ∧ t.ridge.marker = false ∧ (∀ i < 16, t.pins.t2ResetN.getLsbD i = true) ∧ t.mem = s.mem ∧
    (∀ c < 64, channels.getLsbD c = false → unitKey 5 c ∈ t.ridge.decided) ∧
    (∀ k < 8, (s.trainStacks stks).fget F.HBM_STATUS_UP [k / 2, k % 2] = (stks.getLsbD k).toNat) ∧
    { s.trainStacks stks with regs := s.regs } = s ∧
    (∀ d lbas queues, d < 8 → drives[d]? = some (lbas, queues) → let f := s.findDrives drives
      (f.fget F.FL_DRIVE_PRESENT [d] = 1 ↔ lbas ≠ 0) ∧ KMap.get 0 f.fl.queues d = min queues 64) ∧
    (let e := s.enterRun
     e.fget F.RIDGE_STATUS_STATE [] = 0 ∧ (∀ c < 6, e.fget F.CORE_CTRL_RUN [c] = 1 ∧ e.fget F.CORE_CTRL_HALT_REQ [c] = 0) ∧
      (∀ d < 4, e.fget F.DFU_WDOG_EN [d] = 1 ∧ e.fget F.GA_CTRL_HALT_REQ [d] = 0) ∧ e.fget F.CCC_WDOG_EN [] = 1 ∧ e.ridge.wdog = [] ∧
      e.pins.silent = false ∧ e.fget F.FAB_ROLE_TRANSIT_NOW [] = s.fget F.FAB_ROLE_TRANSIT [] ∧
      e.mem = s.mem ∧ e.tens = s.tens)) ∧
 (∀ (w : Writer) (now : Nat) (s : State),
    let s0 := s.at now
    let taken := fun op => WriteTaken w (RegName.addr .FW_CTL []) .FW_CTL [] (op * 2 ^ 28) s0
    let j := fun op => s0.journal ((writerAgent w).getD 0) Role.installer.num 0 (s0.roleSlot w .installer) 0 0 (regDevAddr .FW_CTL [])
      (s0.rget .FW_CTL []).toNat (op * 2 ^ 28)
    let answer := fun (s : State) r => s.fset F.FW_CTL_RESULT [] r
    let later := fun (s : State) a t n => { s with fw := { s.fw with selPend := some (s.sec.lastSeq, a, t, n) } }.fset F.FW_CTL_BUSY [] 1
    let run := s.fget F.FW_STATUS_RUN_SLOT []
    let active := s.fget F.FW_STATUS_ACTIVE []
    (taken 1 → EndsAs (.fwWrite w now) s (j 1).fwWrite) ∧
    (taken 2 → (s.slotValid s.updateSlot = true → EndsAs (.fwTry w now) s (later (j 2) active s.updateSlot 3)) ∧
      (s.slotValid s.updateSlot = false → EndsAs (.fwTry w now) s (answer (j 2) 4))) ∧
    (taken 3 → (run ≠ 0 → EndsAs (.confirm w now) s (later (j 3) run 0 0)) ∧
      (run = 0 → EndsAs (.confirm w now) s (answer (j 3) 4))) ∧
    (taken 4 → (s.fget F.FW_STATUS_TRY_SLOT [] ≠ 0 → EndsAs (.activate w now) s ((answer (j 4) 0).terminateNow 5)) ∧
      (s.fget F.FW_STATUS_TRY_SLOT [] = 0 → EndsAs (.activate w now) s (answer (j 4) 4))) ∧
    (WriteTaken w (RegName.addr .FW_FUSE []) .FW_FUSE [] 1 s0 → EndsAs (.burnSvn w now) s
      (let k := s0.journal ((writerAgent w).getD 0) Role.maker.num 0 (s0.roleSlot w .maker) 0 0 (regDevAddr .FW_FUSE []) (s0.rget .FW_FUSE []).toNat 1
       { k with fuses := { k.fuses with minSvn := max s.fuses.minSvn (s.fget F.FW_STATUS_SVN []) } })) ∧
    (s.updateSlot = if run = 1 then 2 else if run ≠ 0 then 1 else if active = 1 then 2 else 1) ∧
    (let a := s.fget F.FW_SRC_ADDR [] * 4096
     ∀ st h s1, s.busRead deviceIssuer .rd a 512 = (st, h, s1) →
       let n := bits (hdrWord h 1) 63 32
       let write := fun (s : State) (r : Nat) image => ({ s with fw := { s.fw with writing := some (r, image) } }).fset F.FW_CTL_BUSY [] 1
       (st ≠ 0 ∨ 20 * 2 ^ 20 - 512 < n → s.fwWrite = write s1 1 []) ∧
       (st = 0 → n ≤ 20 * 2 ^ 20 - 512 → ∀ st2 p s2, s1.busRead deviceIssuer .rd (a + 512) n = (st2, p, s2) →
         (st2 ≠ 0 ∨ inT1 a (512 + n) = false → s.fwWrite = write s2 1 []) ∧
         (st2 = 0 → inT1 a (512 + n) = true → (s2.imageResult h p ≠ 0 → s.fwWrite = write s2 (s2.imageResult h p) []) ∧
           (s2.imageResult h p = 0 → s.fwWrite = write s2 0 (h ++ p))))) ∧
    (∀ bad, (s.fw.writing = none ∨ s0.stopped = true → EndsAs (.fwWriteEnd bad now) s s0) ∧
      (∀ r image, s.fw.writing = some (r, image) → s0.stopped = false →
        let u := if r = 0 then s0.programSlot image else s0
        let base := slotBase s.updateSlot
        let wrong := bad.filter (fun (c : Nat × BitVec 8) => r == 0 && c.1 < 0x1800000 && u.flashRead (base + c.1) 1 != [c.2])
        let x := wrong.foldl (fun s c => s.flashWrite (base + c.1) [c.2]) u
        let y := { x with fw := { x.fw with writing := none } }.fset F.FW_CTL_BUSY [] 0
        EndsAs (.fwWriteEnd bad now) s (answer y (if wrong = [] then r else 3)).showSlots)) ∧
    (∀ seq done, (∀ q a t n, s.fw.selPend = some (q, a, t, n) → q = seq →
        let u := { s with fw := { s.fw with selPend := none } }
        (done = true → s.selectNow seq done = (u.writeSelector a t n).fsets [] [(F.FW_CTL_RESULT, 0), (F.FW_CTL_BUSY, 0)]) ∧
        (done = false → s.selectNow seq done = u.fsets [] [(F.FW_CTL_RESULT, 3), (F.FW_CTL_BUSY, 0)])) ∧
      ((∀ a t n, s.fw.selPend ≠ some (seq, a, t, n)) → s.selectNow seq done = s)))

/-- R501: an I3C transaction reads or writes 4 or 8 bytes at a BAR0 offset as the agent I3C, and reaches the Identity, Ridge, security,
reproducibility and power blocks only, in the grave state the first two.

R507: what each output ball shows.

R512 to R515: every listed instruction of the test access port is loaded and selects its register; a reset of the port selects IDCODE
and returns the balls to device control; an instruction of R515 takes effect only while PORST_N is low, and selects BYPASS otherwise, as
every opcode that is not listed does. R517: a private instruction takes effect only in BOOT with TEST_EN high while an agent holds the
Maker role, and is journaled as that agent's act; otherwise it selects BYPASS, and so does the port when one of these ends. What the
balls hold and what the private registers shift out are operands (assumptions 153, 154). -/
def Obligations.I3cAndTestAccessPort : Prop :=
 (∀ (wide : Bool) (off : BitVec 32) (v : BitVec 64) (now : Nat) (s : State),
    let s0 := s.at now
    let len := if wide then 8 else 4
    let r := s0.regRead .i3c off.toNat len
    let i3c := off.toNat < 0x1000 ∨ (0x10000 ≤ off.toNat ∧ off.toNat < 0x20000) ∨
      (s.fget F.RIDGE_STATUS_STATE [] ≠ 4 ∧ 0x60000 ≤ off.toNat ∧ off.toNat < 0x90000)
    EndsAs (.i3cTransaction true wide off v now) s (s0.regWrite .i3c off.toNat len (v.toNat % 2 ^ (8 * len))) ∧
    EndsAs (.i3cTransaction false wide off v now) s { r.2 with out := { status := 0, value := r.1 } } ∧
    (∀ x ix up, s0.reach .i3c off.toNat = some (x, ix, up) ↔ i3c ∧ ∃ jx, regAt off.toNat = some (x, jx, up) ∧
      ix = if x.info.region = .secAgent then 1 :: jx.drop 1 else jx) ∧
    (∀ (x : RegName) ix, off.toNat % 4 = 0 → x.info.w64 = false → s0.reach .i3c off.toNat = some (x, ix, false) →
      s.fget F.RIDGE_STATUS_STATE [] ≠ 4 → x ≠ .CLAIM → x ≠ .RP_STATUS →
      EndsAs (.i3cTransaction false false off v now) s { s0 with out := { status := 0, value := s0.regShow x ix % 2 ^ 32 } })) ∧
 (∀ (b : OutBall) (s : State),
    let quiet := s.pins.silent = true ∨ s.pins.porstLow = true
    let device := s.tap.ir ≠ 4 ∧ s.tap.ir ≠ 0 ∧ s.tap.ir ≠ 3 ∧ s.tap.ir ≠ 5 ∧ s.tap.ir ≠ 6
    (s.tap.ir = 4 → s.ball b = .released) ∧
    (s.tap.ir = 0 ∨ s.tap.ir = 3 ∨ s.tap.ir = 5 ∨ s.tap.ir = 6 → s.ball b = .cells) ∧
    (device →
      (∀ p, s.ball (.oplTx p) = if quiet then .idle else .active) ∧ (∀ a, s.ball (.alyTx a) = if quiet then .idle else .active) ∧
      (s.ball .tickOut = .high ↔ s.now < s.tick.outUntil ∧ s.pins.porstLow = false) ∧
      (s.ball .tickOut = .low ↔ s.tick.outUntil ≤ s.now ∨ s.pins.porstLow = true) ∧
      (s.ball .graveN = .low ↔ s.ridge.graveN = false ∧ s.pins.porstLow = false) ∧
      (s.ball .graveN = .released ↔ s.ridge.graveN = true ∨ s.pins.porstLow = true) ∧
      (∀ i, s.ball (.flPerstN i) = if s.pins.flPerstN.getLsbD i = true ∧ s.pins.porstLow = false then .high else .low) ∧
      s.ball .spiCsN = .high ∧ (∀ i, s.ball (.t2ResetN i) = if s.pins.t2ResetN.getLsbD i = true then .high else .low))) ∧
 (∀ (s : State),
    let load := fun (n : BitVec 8) => { s with tap := { s.tap with ir := n, priv := 0, irOut := 1 } }
    let bypass := { load 0xFF with out := { value := 0 } }
    let scan := fun (n : BitVec 8) balls cells => { s with tap := { ir := n, priv := 0, irOut := 1, capture := balls, preload := cells } }
    EndsAs .tapReset s { s with tap := { s.tap with ir := 1, priv := 0 } } ∧
    EndsAs .idcode s { load 1 with out := { value := (if s.fuses.stepping = 0xB0 then 1 else 0) * 2 ^ 28 + s.fuses.part % 2 ^ 16 * 2 ^ 12 + 0xDE3 } } ∧
    EndsAs .bypass s bypass ∧
    (∀ balls cells, EndsAs (.samplePreload balls cells) s (scan 2 balls cells)) ∧
    (s.pins.porstLow = true →
      (∀ balls cells, EndsAs (.extest balls cells) s (scan 0 balls cells) ∧ EndsAs (.extestPulse balls cells) s (scan 5 balls cells) ∧
        EndsAs (.extestTrain balls cells) s (scan 6 balls cells)) ∧
      EndsAs .clamp s { load 3 with out := { value := 0 } } ∧ EndsAs .highz s { load 4 with out := { value := 0 } }) ∧
    (s.pins.porstLow = false →
      (∀ balls cells, EndsAs (.extest balls cells) s bypass ∧ EndsAs (.extestPulse balls cells) s bypass ∧
        EndsAs (.extestTrain balls cells) s bypass) ∧ EndsAs .clamp s bypass ∧ EndsAs .highz s bypass) ∧
    (s.tapStop = if s.tap.ir = 0x40 ∨ s.tap.ir = 0x41 ∨ s.tap.ir = 0x42 ∨ s.tap.ir = 0x43 then
      { s with tap := { s.tap with ir := 0xFF, priv := 0 } } else s) ∧
    (∀ x, s.setRidge x = if x = 5 then s.fset F.RIDGE_STATUS_STATE [] x else (s.fset F.RIDGE_STATUS_STATE [] x).tapStop)) ∧
 (∀ (now : Nat) (s : State),
    let s0 := s.at now
    let bypass := fun (s : State) => { s with tap := { s.tap with ir := 0xFF, priv := 0, irOut := 1 }, out := { value := 0 } }
    let allowed := (s0.makerAgent).isSome = true ∧ s.line 7 = true ∧ s.fget F.RIDGE_STATUS_STATE [] = 5
    (∀ w, s0.makerAgent = some w → s0.holds w .maker = true ∧ (w = .host ∨ w = .i3c ∨ w = .core 4)) ∧
    (s0.makerAgent = none ↔ s0.holds .host .maker = false ∧ s0.holds .i3c .maker = false ∧ s0.holds (.core 4) .maker = false) ∧
    (∀ w, s0.makerAgent = some w →
      let entry := fun (n : Nat) => s0.journal ((writerAgent w).getD 0) Role.maker.num 0 (s0.roleSlot w .maker) 0 0 0 0 n
      let ran := fun (n : Nat) (v : BitVec 64) => { entry n with
        tap := { (entry n).tap with ir := BitVec.ofNat 8 n, priv := v, irOut := 1 }, out := { value := v.toNat } }
      allowed → s0.journalRoom = true →
        (∀ v, EndsAs (.mbist v now) s (ran 0x40 v) ∧ EndsAs (.scan v now) s (ran 0x41 v) ∧ EndsAs (.hbmWrap v now) s (ran 0x42 v)) ∧
        (∀ f : Fin 8, EndsAs (.fuse f none now) s { ran 0x43 (BitVec.ofNat 64 (s.fuses.field f)) with out := { value := s.fuses.field f } }) ∧
        (∀ (f : Fin 8) (x : Nat), EndsAs (.fuse f (some x) now) s { ran 0x43 (BitVec.ofNat 64 x) with
          out := { value := x }, fuses := s.fuses.program x f })) ∧
    (allowed → s0.journalRoom = false → ∀ (f : Fin 8) prog v, let t := bypass (s0.fsat F.AUD_STATUS_DROPPED [] 1)
      EndsAs (.mbist v now) s t ∧ EndsAs (.scan v now) s t ∧ EndsAs (.hbmWrap v now) s t ∧ EndsAs (.fuse f prog now) s t) ∧
    (¬ allowed → ∀ (f : Fin 8) prog v, EndsAs (.mbist v now) s (bypass s0) ∧ EndsAs (.scan v now) s (bypass s0) ∧
      EndsAs (.hbmWrap v now) s (bypass s0) ∧ EndsAs (.fuse f prog now) s (bypass s0)) ∧
    (∀ (f g : Fin 8) x, (s.fuses.program x f).field g = if g = f then x else s.fuses.field g))

/-- The reset values of the register tables: every field of every register is at the reset value that its table gives, the device is in
BOOT after a power-on reset, its tick generator, tiers, ports, watchdogs and limits stand at their table values, no Tenancy exists, no
work, packet or journal entry is held, and no command waits. -/
def Obligations.ResetLeavesTheTableValues : Prop :=
  let r := State.reset
  (∀ (x : RegName) (ix : List Nat), r.rget x ix = x.rst ix ∧
    (x ≠ .GF_CFG → ∀ f ∈ x.info.fields, r.fget ⟨x, f.hi, f.lo⟩ ix = f.rst)) ∧
  (∀ l < 8, r.fget F.GF_CFG_STABLE [l] = (if l = 0 then 16 else if l = 1 then 64 else 32) ∧ r.fget F.GF_CFG_LEVEL [l] = 0 ∧
    r.fget F.GF_CFG_GLITCHES [l] = 0) ∧
  (∀ p ∈ [(F.RIDGE_STATUS_STATE, 5), (F.RST_CAUSE_KIND, 1), (F.RST_CAUSE_SOURCE, 1), (F.TICK_CTRL_EN, 0), (F.TICK_CONFIG_PERIOD_US, 1000),
      (F.TICK_CONFIG_EAVE_US, 20), (F.ALIGN_CONFIG_SLEW_NS, 500), (F.ALIGN_CONFIG_SYNC_PORT, 255), (F.SCHED_CTRL_LEN_B0, 1),
      (F.T1_RESERVE_UNITS, 2), (F.FL_TIMEOUT_TIMEOUT_MS, 100), (F.FAB_TIMERS_RETRY_MAX, 3), (F.FAB_TIMERS_RETRY_US, 50),
      (F.EPOCH_STATUS_LIVE0, 1), (F.OPM_CTRL_HOLD_NS, 2000), (F.LEASE_CFG_LEASE_TTL_MS, 50), (F.OPM_STATUS_STORE_SIZE, 40704),
      (F.RIDGE_CTRL_AUTO_REENTRY, 1), (F.RIDGE_CTRL_IRQ_EN, 14), (F.RET_LIMITS_BLOCK_N, 3), (F.RET_LIMITS2_RING_N, 64),
      (F.RET_LIMITS2_REPLAY_MAX, 3), (F.RET_LIMITS2_REENTRY_MAX, 3), (F.CCC_WDOG_LIMIT_US, 20000), (F.ROLE_CFG_TTL_S, 900),
      (F.PWR_LIMIT_LIMIT_W, 1900), (F.PWR_LIMIT_TJ_THROTTLE_C, 105), (F.PWR_LIMIT_TJ_EMERG_C, 115), (F.I3C_CFG_STATIC_ADDR, 0x52)],
    r.fget p.1 [] = p.2) ∧
  (∀ d < 4, r.fget F.DMA_POOL_CFG_MIN_KIB [d] = 16 ∧ r.fget F.RE_CFG_WARN_MARGIN_US [d] = 10 ∧ r.fget F.SQ_CFG_BORROW_LIMIT [d] = 1024 ∧
    r.fget F.DFU_WDOG_LIMIT_US [d] = 4000) ∧
  (∀ p < 36, r.fget F.PORT_CTRL_QUICK [p] = 1 ∧ r.fget F.PORT_CTRL_EN [p] = 0 ∧ r.fget F.PORT_VC_CFG_SHARE [p] = 8192 ∧
    r.fget F.PORT_ARB_W2 [p] = 4) ∧
  (∀ n, r.ten n = none) ∧ r.mem = [] ∧ r.flash = [] ∧ r.dma = [] ∧ r.posts = [] ∧ r.fl.cmds = [] ∧ r.fab.reqs = [] ∧
    r.sec.queue = [] ∧ r.pending = []

/-- Reset leaves every memory in its canonical form. -/
def Obligations.ResetMemoryIsCanonical : Prop :=
 Memory.wf State.reset = true

/-- Every step takes exactly the front command: the queue that it leaves is the queue's rest, for every command. -/
def Obligations.EveryStepTakesOneCommand : Prop :=
  ∀ s t : State, Machine.step s = .next t → t.pending = s.pending.tail

/-- Every step keeps every memory in its canonical form, for every command: addresses strictly rising, and no entry equal to what an
unlisted address reads as. -/
def Obligations.EveryStepKeepsMemoryCanonical : Prop :=
  ∀ s t : State, Memory.wf s = true → Machine.step s = .next t → Memory.wf t = true
end

