-- ==== Sys2Proof/Laws/Map.lean ====
section
/-! SUPPORT. The laws of the sparse maps: reading after a write, and that every operation keeps the canonical form. -/

namespace Sys2Proof.Machine

variable {α : Type} {d v w : α} {m : KMap α} {x y lo n : Nat}

theorem KMap.get_ins : KMap.get d (KMap.ins m x v) y = if y = x then v else KMap.get d m y := by
  induction m with
  | nil => simp [KMap.ins, KMap.get, eq_comm]
  | cons p t ih =>
    obtain ⟨k, u⟩ := p
    simp only [KMap.ins]
    split_ifs with h1 h2 <;> simp only [KMap.get, ih] <;> split_ifs <;> first | rfl | omega

theorem KMap.get_del : KMap.get d (KMap.del m x) y = if y = x then d else KMap.get d m y := by
  induction m with
  | nil => simp [KMap.del, KMap.get]
  | cons p t ih =>
    obtain ⟨k, u⟩ := p
    simp only [KMap.del, List.filter_cons] at ih ⊢
    by_cases hk : k = x
    · subst hk; simp only [bne_self_eq_false, Bool.false_eq_true, if_false, ih, KMap.get]
      split_ifs <;> simp_all
    · simp only [bne_iff_ne, ne_eq, hk, not_false_eq_true, if_true, KMap.get, ih]
      split_ifs <;> simp_all

/-- A read after a write gives the value written at its key, and the old value elsewhere. -/
theorem KMap.get_set [DecidableEq α] : KMap.get d (KMap.set d m x v) y = if y = x then v else KMap.get d m y := by
  unfold KMap.set
  split_ifs with h <;> simp_all [KMap.get_ins, KMap.get_del]

@[simp] theorem KMap.get_set_same [DecidableEq α] : KMap.get d (KMap.set d m x v) x = v := by simp [KMap.get_set]

theorem KMap.get_set_other [DecidableEq α] (h : y ≠ x) : KMap.get d (KMap.set d m x v) y = KMap.get d m y := by
  simp [KMap.get_set, h]

/-- The canonical form, as a statement about keys and values. -/
theorem KMap.wf_iff [DecidableEq α] : KMap.wf d m = true ↔ m.Pairwise (fun p q => p.1 < q.1) ∧ ∀ p ∈ m, p.2 ≠ d := by
  induction m with
  | nil => simp [KMap.wf]
  | cons p t ih =>
    obtain ⟨k, u⟩ := p
    cases t with
    | nil => simp [KMap.wf]
    | cons q t =>
      obtain ⟨k', u'⟩ := q
      simp only [KMap.wf, Bool.and_eq_true, bne_iff_ne, ne_eq, decide_eq_true_eq, ih]
      simp only [List.pairwise_cons, List.mem_cons, forall_eq_or_imp]
      constructor
      · rintro ⟨⟨hu, hk⟩, ⟨h1, h2⟩, h3, h4⟩
        exact ⟨⟨⟨hk, fun a ha => lt_trans hk (h1 a ha)⟩, h1, h2⟩, hu, h3, h4⟩
      · rintro ⟨⟨⟨hk, _⟩, h1, h2⟩, hu, h3, h4⟩
        exact ⟨⟨hu, hk⟩, ⟨h1, h2⟩, h3, h4⟩

theorem KMap.wf_filter [DecidableEq α] (p : Nat × α → Bool) (h : KMap.wf d m = true) :
    KMap.wf d (List.filter p m) = true := by
  rw [KMap.wf_iff] at *
  exact ⟨h.1.filter p, fun q hq => h.2 q (List.mem_of_mem_filter hq)⟩

theorem KMap.wf_clear [DecidableEq α] (h : KMap.wf d m = true) : KMap.wf d (KMap.clear m lo n) = true :=
  KMap.wf_filter _ h

theorem KMap.mem_ins {p : Nat × α} (h : p ∈ KMap.ins m x v) : p = (x, v) ∨ p ∈ m := by
  induction m with
  | nil => simpa [KMap.ins] using h
  | cons q t ih =>
    obtain ⟨k, u⟩ := q
    simp only [KMap.ins] at h
    split_ifs at h with h1 h2
    · rcases List.mem_cons.1 h with h | h
      · exact .inl h
      · exact .inr (List.mem_cons_of_mem _ h)
    · rcases List.mem_cons.1 h with h | h
      · exact .inl h
      · exact .inr h
    · rcases List.mem_cons.1 h with h | h
      · exact .inr (h ▸ List.mem_cons_self)
      · exact (ih h).imp id (List.mem_cons_of_mem _)

theorem KMap.wf_ins [DecidableEq α] (hv : v ≠ d) (h : KMap.wf d m = true) : KMap.wf d (KMap.ins m x v) = true := by
  rw [KMap.wf_iff] at *
  refine ⟨?_, fun p hp => (KMap.mem_ins hp).elim (fun e => e ▸ hv) (h.2 p)⟩
  have h1 := h.1
  clear h
  induction m with
  | nil => simp [KMap.ins]
  | cons q t ih =>
    obtain ⟨k, u⟩ := q
    rw [List.pairwise_cons] at h1
    simp only [KMap.ins]
    split_ifs with h2 h3
    · subst h2; exact List.pairwise_cons.2 h1
    · refine List.pairwise_cons.2 ⟨fun p hp => ?_, List.pairwise_cons.2 h1⟩
      rcases List.mem_cons.1 hp with e | e
      · subst e; exact h3
      · exact lt_trans h3 (h1.1 p e)
    · refine List.pairwise_cons.2 ⟨fun p hp => ?_, ih h1.2⟩
      rcases KMap.mem_ins hp with e | e
      · subst e; simp only; omega
      · exact h1.1 p e

/-- A write keeps the canonical form. -/
theorem KMap.wf_set [DecidableEq α] (h : KMap.wf d m = true) : KMap.wf d (KMap.set d m x v) = true := by
  unfold KMap.set
  split_ifs with hv
  · exact KMap.wf_filter _ h
  · exact KMap.wf_ins hv h

theorem KMap.wf_slice [DecidableEq α] {dst : Nat} (h : KMap.wf d m = true) : KMap.wf d (KMap.slice m lo n dst) = true := by
  rw [KMap.wf_iff] at *
  refine ⟨?_, ?_⟩
  · unfold KMap.slice
    rw [List.pairwise_map]
    refine (h.1.filter _).imp_of_mem ?_
    intro p q hp hq hpq
    have a := List.of_mem_filter hp
    have b := List.of_mem_filter hq
    simp only [Bool.and_eq_true, decide_eq_true_eq] at a b
    simp only; omega
  · intro p hp
    obtain ⟨q, hq, rfl⟩ := List.mem_map.1 hp
    exact h.2 q (List.mem_of_mem_filter hq)

theorem KMap.mem_slice {dst : Nat} {p : Nat × α} (hp : p ∈ KMap.slice m lo n dst) : dst ≤ p.1 ∧ p.1 < dst + n := by
  obtain ⟨q, hq, rfl⟩ := List.mem_map.1 hp
  have a := List.of_mem_filter hq
  simp only [Bool.and_eq_true, decide_eq_true_eq] at a
  simp only; omega

/-- A range replaced by entries of that range keeps the canonical form. -/
theorem KMap.wf_splice [DecidableEq α] {piece : KMap α} (h : KMap.wf d m = true) (hp : KMap.wf d piece = true)
    (hin : ∀ p ∈ piece, lo ≤ p.1 ∧ p.1 < lo + n) : KMap.wf d (KMap.splice m lo n piece) = true := by
  rw [KMap.wf_iff] at *
  refine ⟨?_, ?_⟩
  · unfold KMap.splice
    simp only [List.pairwise_append, List.mem_append, List.mem_filter, decide_eq_true_eq]
    refine ⟨⟨h.1.filter _, hp.1, ?_⟩, h.1.filter _, ?_⟩
    · intro a ha b hb; have := hin b hb; omega
    · rintro a (ha | ha) b hb
      · omega
      · have := hin a ha; omega
  · intro p hm
    simp only [KMap.splice, List.mem_append, List.mem_filter] at hm
    rcases hm with (hm | hm) | hm
    · exact h.2 p hm.1
    · exact hp.2 p hm
    · exact h.2 p hm.1

theorem KMap.wf_splice_slice [DecidableEq α] {m' : KMap α} {src dst : Nat} (h : KMap.wf d m = true) (h' : KMap.wf d m' = true) :
    KMap.wf d (KMap.splice m dst n (KMap.slice m' src n dst)) = true :=
  KMap.wf_splice h (KMap.wf_slice h') fun _ => KMap.mem_slice

end Sys2Proof.Machine
end

