-- ==== Sys2Proof/Laws/State.lean ====
section
/-! SUPPORT. What each update of the state leaves unchanged, one field at a time, and what a read gives after a write. -/

namespace Sys2Proof.Machine

variable (s : State)

@[simp] theorem State.rset_fuses (r : RegName) (ix : List Nat) (v : W64) : (s.rset r ix v).fuses = s.fuses := rfl
@[simp] theorem State.rset_now (r : RegName) (ix : List Nat) (v : W64) : (s.rset r ix v).now = s.now := rfl
@[simp] theorem State.rset_timeOff (r : RegName) (ix : List Nat) (v : W64) : (s.rset r ix v).timeOff = s.timeOff := rfl
@[simp] theorem State.rset_halves (r : RegName) (ix : List Nat) (v : W64) : (s.rset r ix v).halves = s.halves := rfl
@[simp] theorem State.rset_mem (r : RegName) (ix : List Nat) (v : W64) : (s.rset r ix v).mem = s.mem := rfl
@[simp] theorem State.rset_badWords (r : RegName) (ix : List Nat) (v : W64) : (s.rset r ix v).badWords = s.badWords := rfl
@[simp] theorem State.rset_weakWords (r : RegName) (ix : List Nat) (v : W64) : (s.rset r ix v).weakWords = s.weakWords := rfl
@[simp] theorem State.rset_hostMem (r : RegName) (ix : List Nat) (v : W64) : (s.rset r ix v).hostMem = s.hostMem := rfl
@[simp] theorem State.rset_flash (r : RegName) (ix : List Nat) (v : W64) : (s.rset r ix v).flash = s.flash := rfl
@[simp] theorem State.rset_tick (r : RegName) (ix : List Nat) (v : W64) : (s.rset r ix v).tick = s.tick := rfl
@[simp] theorem State.rset_tens (r : RegName) (ix : List Nat) (v : W64) : (s.rset r ix v).tens = s.tens := rfl
@[simp] theorem State.rset_cores (r : RegName) (ix : List Nat) (v : W64) : (s.rset r ix v).cores = s.cores := rfl
@[simp] theorem State.rset_dists (r : RegName) (ix : List Nat) (v : W64) : (s.rset r ix v).dists = s.dists := rfl
@[simp] theorem State.rset_blks (r : RegName) (ix : List Nat) (v : W64) : (s.rset r ix v).blks = s.blks := rfl
@[simp] theorem State.rset_dma (r : RegName) (ix : List Nat) (v : W64) : (s.rset r ix v).dma = s.dma := rfl
@[simp] theorem State.rset_nextJob (r : RegName) (ix : List Nat) (v : W64) : (s.rset r ix v).nextJob = s.nextJob := rfl
@[simp] theorem State.rset_posts (r : RegName) (ix : List Nat) (v : W64) : (s.rset r ix v).posts = s.posts := rfl
@[simp] theorem State.rset_squares (r : RegName) (ix : List Nat) (v : W64) : (s.rset r ix v).squares = s.squares := rfl
@[simp] theorem State.rset_merge (r : RegName) (ix : List Nat) (v : W64) : (s.rset r ix v).merge = s.merge := rfl
@[simp] theorem State.rset_poolMin (r : RegName) (ix : List Nat) (v : W64) : (s.rset r ix v).poolMin = s.poolMin := rfl
@[simp] theorem State.rset_margin (r : RegName) (ix : List Nat) (v : W64) : (s.rset r ix v).margin = s.margin := rfl
@[simp] theorem State.rset_t1 (r : RegName) (ix : List Nat) (v : W64) : (s.rset r ix v).t1 = s.t1 := rfl
@[simp] theorem State.rset_t2Len (r : RegName) (ix : List Nat) (v : W64) : (s.rset r ix v).t2Len = s.t2Len := rfl
@[simp] theorem State.rset_fl (r : RegName) (ix : List Nat) (v : W64) : (s.rset r ix v).fl = s.fl := rfl
@[simp] theorem State.rset_shp (r : RegName) (ix : List Nat) (v : W64) : (s.rset r ix v).shp = s.shp := rfl
@[simp] theorem State.rset_thatchRest (r : RegName) (ix : List Nat) (v : W64) : (s.rset r ix v).thatchRest = s.thatchRest := rfl
@[simp] theorem State.rset_thatchDec (r : RegName) (ix : List Nat) (v : W64) : (s.rset r ix v).thatchDec = s.thatchDec := rfl
@[simp] theorem State.rset_ic (r : RegName) (ix : List Nat) (v : W64) : (s.rset r ix v).ic = s.ic := rfl
@[simp] theorem State.rset_hif (r : RegName) (ix : List Nat) (v : W64) : (s.rset r ix v).hif = s.hif := rfl
@[simp] theorem State.rset_fab (r : RegName) (ix : List Nat) (v : W64) : (s.rset r ix v).fab = s.fab := rfl
@[simp] theorem State.rset_ports (r : RegName) (ix : List Nat) (v : W64) : (s.rset r ix v).ports = s.ports := rfl
@[simp] theorem State.rset_alley (r : RegName) (ix : List Nat) (v : W64) : (s.rset r ix v).alley = s.alley := rfl
@[simp] theorem State.rset_ridge (r : RegName) (ix : List Nat) (v : W64) : (s.rset r ix v).ridge = s.ridge := rfl
@[simp] theorem State.rset_sec (r : RegName) (ix : List Nat) (v : W64) : (s.rset r ix v).sec = s.sec := rfl
@[simp] theorem State.rset_pwr (r : RegName) (ix : List Nat) (v : W64) : (s.rset r ix v).pwr = s.pwr := rfl
@[simp] theorem State.rset_fw (r : RegName) (ix : List Nat) (v : W64) : (s.rset r ix v).fw = s.fw := rfl
@[simp] theorem State.rset_pins (r : RegName) (ix : List Nat) (v : W64) : (s.rset r ix v).pins = s.pins := rfl
@[simp] theorem State.rset_tap (r : RegName) (ix : List Nat) (v : W64) : (s.rset r ix v).tap = s.tap := rfl
@[simp] theorem State.rset_out (r : RegName) (ix : List Nat) (v : W64) : (s.rset r ix v).out = s.out := rfl
@[simp] theorem State.rset_free (r : RegName) (ix : List Nat) (v : W64) : (s.rset r ix v).free = s.free := rfl
@[simp] theorem State.rset_pending (r : RegName) (ix : List Nat) (v : W64) : (s.rset r ix v).pending = s.pending := rfl

@[simp] theorem State.setTen_fuses (i : Nat) (v : Option Ten) : (s.setTen i v).fuses = s.fuses := rfl
@[simp] theorem State.setTen_now (i : Nat) (v : Option Ten) : (s.setTen i v).now = s.now := rfl
@[simp] theorem State.setTen_timeOff (i : Nat) (v : Option Ten) : (s.setTen i v).timeOff = s.timeOff := rfl
@[simp] theorem State.setTen_regs (i : Nat) (v : Option Ten) : (s.setTen i v).regs = s.regs := rfl
@[simp] theorem State.setTen_halves (i : Nat) (v : Option Ten) : (s.setTen i v).halves = s.halves := rfl
@[simp] theorem State.setTen_mem (i : Nat) (v : Option Ten) : (s.setTen i v).mem = s.mem := rfl
@[simp] theorem State.setTen_badWords (i : Nat) (v : Option Ten) : (s.setTen i v).badWords = s.badWords := rfl
@[simp] theorem State.setTen_weakWords (i : Nat) (v : Option Ten) : (s.setTen i v).weakWords = s.weakWords := rfl
@[simp] theorem State.setTen_hostMem (i : Nat) (v : Option Ten) : (s.setTen i v).hostMem = s.hostMem := rfl
@[simp] theorem State.setTen_flash (i : Nat) (v : Option Ten) : (s.setTen i v).flash = s.flash := rfl
@[simp] theorem State.setTen_tick (i : Nat) (v : Option Ten) : (s.setTen i v).tick = s.tick := rfl
@[simp] theorem State.setTen_cores (i : Nat) (v : Option Ten) : (s.setTen i v).cores = s.cores := rfl
@[simp] theorem State.setTen_dists (i : Nat) (v : Option Ten) : (s.setTen i v).dists = s.dists := rfl
@[simp] theorem State.setTen_blks (i : Nat) (v : Option Ten) : (s.setTen i v).blks = s.blks := rfl
@[simp] theorem State.setTen_dma (i : Nat) (v : Option Ten) : (s.setTen i v).dma = s.dma := rfl
@[simp] theorem State.setTen_nextJob (i : Nat) (v : Option Ten) : (s.setTen i v).nextJob = s.nextJob := rfl
@[simp] theorem State.setTen_posts (i : Nat) (v : Option Ten) : (s.setTen i v).posts = s.posts := rfl
@[simp] theorem State.setTen_squares (i : Nat) (v : Option Ten) : (s.setTen i v).squares = s.squares := rfl
@[simp] theorem State.setTen_merge (i : Nat) (v : Option Ten) : (s.setTen i v).merge = s.merge := rfl
@[simp] theorem State.setTen_poolMin (i : Nat) (v : Option Ten) : (s.setTen i v).poolMin = s.poolMin := rfl
@[simp] theorem State.setTen_margin (i : Nat) (v : Option Ten) : (s.setTen i v).margin = s.margin := rfl
@[simp] theorem State.setTen_t1 (i : Nat) (v : Option Ten) : (s.setTen i v).t1 = s.t1 := rfl
@[simp] theorem State.setTen_t2Len (i : Nat) (v : Option Ten) : (s.setTen i v).t2Len = s.t2Len := rfl
@[simp] theorem State.setTen_fl (i : Nat) (v : Option Ten) : (s.setTen i v).fl = s.fl := rfl
@[simp] theorem State.setTen_shp (i : Nat) (v : Option Ten) : (s.setTen i v).shp = s.shp := rfl
@[simp] theorem State.setTen_thatchRest (i : Nat) (v : Option Ten) : (s.setTen i v).thatchRest = s.thatchRest := rfl
@[simp] theorem State.setTen_thatchDec (i : Nat) (v : Option Ten) : (s.setTen i v).thatchDec = s.thatchDec := rfl
@[simp] theorem State.setTen_ic (i : Nat) (v : Option Ten) : (s.setTen i v).ic = s.ic := rfl
@[simp] theorem State.setTen_hif (i : Nat) (v : Option Ten) : (s.setTen i v).hif = s.hif := rfl
@[simp] theorem State.setTen_fab (i : Nat) (v : Option Ten) : (s.setTen i v).fab = s.fab := rfl
@[simp] theorem State.setTen_ports (i : Nat) (v : Option Ten) : (s.setTen i v).ports = s.ports := rfl
@[simp] theorem State.setTen_alley (i : Nat) (v : Option Ten) : (s.setTen i v).alley = s.alley := rfl
@[simp] theorem State.setTen_ridge (i : Nat) (v : Option Ten) : (s.setTen i v).ridge = s.ridge := rfl
@[simp] theorem State.setTen_sec (i : Nat) (v : Option Ten) : (s.setTen i v).sec = s.sec := rfl
@[simp] theorem State.setTen_pwr (i : Nat) (v : Option Ten) : (s.setTen i v).pwr = s.pwr := rfl
@[simp] theorem State.setTen_fw (i : Nat) (v : Option Ten) : (s.setTen i v).fw = s.fw := rfl
@[simp] theorem State.setTen_pins (i : Nat) (v : Option Ten) : (s.setTen i v).pins = s.pins := rfl
@[simp] theorem State.setTen_tap (i : Nat) (v : Option Ten) : (s.setTen i v).tap = s.tap := rfl
@[simp] theorem State.setTen_out (i : Nat) (v : Option Ten) : (s.setTen i v).out = s.out := rfl
@[simp] theorem State.setTen_free (i : Nat) (v : Option Ten) : (s.setTen i v).free = s.free := rfl
@[simp] theorem State.setTen_pending (i : Nat) (v : Option Ten) : (s.setTen i v).pending = s.pending := rfl

@[simp] theorem State.setCore_fuses (c : Nat) (v : CoreSt) : (s.setCore c v).fuses = s.fuses := rfl
@[simp] theorem State.setCore_now (c : Nat) (v : CoreSt) : (s.setCore c v).now = s.now := rfl
@[simp] theorem State.setCore_timeOff (c : Nat) (v : CoreSt) : (s.setCore c v).timeOff = s.timeOff := rfl
@[simp] theorem State.setCore_regs (c : Nat) (v : CoreSt) : (s.setCore c v).regs = s.regs := rfl
@[simp] theorem State.setCore_halves (c : Nat) (v : CoreSt) : (s.setCore c v).halves = s.halves := rfl
@[simp] theorem State.setCore_mem (c : Nat) (v : CoreSt) : (s.setCore c v).mem = s.mem := rfl
@[simp] theorem State.setCore_badWords (c : Nat) (v : CoreSt) : (s.setCore c v).badWords = s.badWords := rfl
@[simp] theorem State.setCore_weakWords (c : Nat) (v : CoreSt) : (s.setCore c v).weakWords = s.weakWords := rfl
@[simp] theorem State.setCore_hostMem (c : Nat) (v : CoreSt) : (s.setCore c v).hostMem = s.hostMem := rfl
@[simp] theorem State.setCore_flash (c : Nat) (v : CoreSt) : (s.setCore c v).flash = s.flash := rfl
@[simp] theorem State.setCore_tick (c : Nat) (v : CoreSt) : (s.setCore c v).tick = s.tick := rfl
@[simp] theorem State.setCore_tens (c : Nat) (v : CoreSt) : (s.setCore c v).tens = s.tens := rfl
@[simp] theorem State.setCore_dists (c : Nat) (v : CoreSt) : (s.setCore c v).dists = s.dists := rfl
@[simp] theorem State.setCore_blks (c : Nat) (v : CoreSt) : (s.setCore c v).blks = s.blks := rfl
@[simp] theorem State.setCore_dma (c : Nat) (v : CoreSt) : (s.setCore c v).dma = s.dma := rfl
@[simp] theorem State.setCore_nextJob (c : Nat) (v : CoreSt) : (s.setCore c v).nextJob = s.nextJob := rfl
@[simp] theorem State.setCore_posts (c : Nat) (v : CoreSt) : (s.setCore c v).posts = s.posts := rfl
@[simp] theorem State.setCore_squares (c : Nat) (v : CoreSt) : (s.setCore c v).squares = s.squares := rfl
@[simp] theorem State.setCore_merge (c : Nat) (v : CoreSt) : (s.setCore c v).merge = s.merge := rfl
@[simp] theorem State.setCore_poolMin (c : Nat) (v : CoreSt) : (s.setCore c v).poolMin = s.poolMin := rfl
@[simp] theorem State.setCore_margin (c : Nat) (v : CoreSt) : (s.setCore c v).margin = s.margin := rfl
@[simp] theorem State.setCore_t1 (c : Nat) (v : CoreSt) : (s.setCore c v).t1 = s.t1 := rfl
@[simp] theorem State.setCore_t2Len (c : Nat) (v : CoreSt) : (s.setCore c v).t2Len = s.t2Len := rfl
@[simp] theorem State.setCore_fl (c : Nat) (v : CoreSt) : (s.setCore c v).fl = s.fl := rfl
@[simp] theorem State.setCore_shp (c : Nat) (v : CoreSt) : (s.setCore c v).shp = s.shp := rfl
@[simp] theorem State.setCore_thatchRest (c : Nat) (v : CoreSt) : (s.setCore c v).thatchRest = s.thatchRest := rfl
@[simp] theorem State.setCore_thatchDec (c : Nat) (v : CoreSt) : (s.setCore c v).thatchDec = s.thatchDec := rfl
@[simp] theorem State.setCore_ic (c : Nat) (v : CoreSt) : (s.setCore c v).ic = s.ic := rfl
@[simp] theorem State.setCore_hif (c : Nat) (v : CoreSt) : (s.setCore c v).hif = s.hif := rfl
@[simp] theorem State.setCore_fab (c : Nat) (v : CoreSt) : (s.setCore c v).fab = s.fab := rfl
@[simp] theorem State.setCore_ports (c : Nat) (v : CoreSt) : (s.setCore c v).ports = s.ports := rfl
@[simp] theorem State.setCore_alley (c : Nat) (v : CoreSt) : (s.setCore c v).alley = s.alley := rfl
@[simp] theorem State.setCore_ridge (c : Nat) (v : CoreSt) : (s.setCore c v).ridge = s.ridge := rfl
@[simp] theorem State.setCore_sec (c : Nat) (v : CoreSt) : (s.setCore c v).sec = s.sec := rfl
@[simp] theorem State.setCore_pwr (c : Nat) (v : CoreSt) : (s.setCore c v).pwr = s.pwr := rfl
@[simp] theorem State.setCore_fw (c : Nat) (v : CoreSt) : (s.setCore c v).fw = s.fw := rfl
@[simp] theorem State.setCore_pins (c : Nat) (v : CoreSt) : (s.setCore c v).pins = s.pins := rfl
@[simp] theorem State.setCore_tap (c : Nat) (v : CoreSt) : (s.setCore c v).tap = s.tap := rfl
@[simp] theorem State.setCore_out (c : Nat) (v : CoreSt) : (s.setCore c v).out = s.out := rfl
@[simp] theorem State.setCore_free (c : Nat) (v : CoreSt) : (s.setCore c v).free = s.free := rfl
@[simp] theorem State.setCore_pending (c : Nat) (v : CoreSt) : (s.setCore c v).pending = s.pending := rfl

@[simp] theorem State.updCore_fuses (c : Nat) (f : CoreSt → CoreSt) : (s.updCore c f).fuses = s.fuses := State.setCore_fuses s _ _
@[simp] theorem State.updCore_now (c : Nat) (f : CoreSt → CoreSt) : (s.updCore c f).now = s.now := State.setCore_now s _ _
@[simp] theorem State.updCore_timeOff (c : Nat) (f : CoreSt → CoreSt) : (s.updCore c f).timeOff = s.timeOff := State.setCore_timeOff s _ _
@[simp] theorem State.updCore_regs (c : Nat) (f : CoreSt → CoreSt) : (s.updCore c f).regs = s.regs := State.setCore_regs s _ _
@[simp] theorem State.updCore_halves (c : Nat) (f : CoreSt → CoreSt) : (s.updCore c f).halves = s.halves := State.setCore_halves s _ _
@[simp] theorem State.updCore_mem (c : Nat) (f : CoreSt → CoreSt) : (s.updCore c f).mem = s.mem := State.setCore_mem s _ _
@[simp] theorem State.updCore_badWords (c : Nat) (f : CoreSt → CoreSt) : (s.updCore c f).badWords = s.badWords := State.setCore_badWords s _ _
@[simp] theorem State.updCore_weakWords (c : Nat) (f : CoreSt → CoreSt) : (s.updCore c f).weakWords = s.weakWords := State.setCore_weakWords s _ _
@[simp] theorem State.updCore_hostMem (c : Nat) (f : CoreSt → CoreSt) : (s.updCore c f).hostMem = s.hostMem := State.setCore_hostMem s _ _
@[simp] theorem State.updCore_flash (c : Nat) (f : CoreSt → CoreSt) : (s.updCore c f).flash = s.flash := State.setCore_flash s _ _
@[simp] theorem State.updCore_tick (c : Nat) (f : CoreSt → CoreSt) : (s.updCore c f).tick = s.tick := State.setCore_tick s _ _
@[simp] theorem State.updCore_tens (c : Nat) (f : CoreSt → CoreSt) : (s.updCore c f).tens = s.tens := State.setCore_tens s _ _
@[simp] theorem State.updCore_dists (c : Nat) (f : CoreSt → CoreSt) : (s.updCore c f).dists = s.dists := State.setCore_dists s _ _
@[simp] theorem State.updCore_blks (c : Nat) (f : CoreSt → CoreSt) : (s.updCore c f).blks = s.blks := State.setCore_blks s _ _
@[simp] theorem State.updCore_dma (c : Nat) (f : CoreSt → CoreSt) : (s.updCore c f).dma = s.dma := State.setCore_dma s _ _
@[simp] theorem State.updCore_nextJob (c : Nat) (f : CoreSt → CoreSt) : (s.updCore c f).nextJob = s.nextJob := State.setCore_nextJob s _ _
@[simp] theorem State.updCore_posts (c : Nat) (f : CoreSt → CoreSt) : (s.updCore c f).posts = s.posts := State.setCore_posts s _ _
@[simp] theorem State.updCore_squares (c : Nat) (f : CoreSt → CoreSt) : (s.updCore c f).squares = s.squares := State.setCore_squares s _ _
@[simp] theorem State.updCore_merge (c : Nat) (f : CoreSt → CoreSt) : (s.updCore c f).merge = s.merge := State.setCore_merge s _ _
@[simp] theorem State.updCore_poolMin (c : Nat) (f : CoreSt → CoreSt) : (s.updCore c f).poolMin = s.poolMin := State.setCore_poolMin s _ _
@[simp] theorem State.updCore_margin (c : Nat) (f : CoreSt → CoreSt) : (s.updCore c f).margin = s.margin := State.setCore_margin s _ _
@[simp] theorem State.updCore_t1 (c : Nat) (f : CoreSt → CoreSt) : (s.updCore c f).t1 = s.t1 := State.setCore_t1 s _ _
@[simp] theorem State.updCore_t2Len (c : Nat) (f : CoreSt → CoreSt) : (s.updCore c f).t2Len = s.t2Len := State.setCore_t2Len s _ _
@[simp] theorem State.updCore_fl (c : Nat) (f : CoreSt → CoreSt) : (s.updCore c f).fl = s.fl := State.setCore_fl s _ _
@[simp] theorem State.updCore_shp (c : Nat) (f : CoreSt → CoreSt) : (s.updCore c f).shp = s.shp := State.setCore_shp s _ _
@[simp] theorem State.updCore_thatchRest (c : Nat) (f : CoreSt → CoreSt) : (s.updCore c f).thatchRest = s.thatchRest := State.setCore_thatchRest s _ _
@[simp] theorem State.updCore_thatchDec (c : Nat) (f : CoreSt → CoreSt) : (s.updCore c f).thatchDec = s.thatchDec := State.setCore_thatchDec s _ _
@[simp] theorem State.updCore_ic (c : Nat) (f : CoreSt → CoreSt) : (s.updCore c f).ic = s.ic := State.setCore_ic s _ _
@[simp] theorem State.updCore_hif (c : Nat) (f : CoreSt → CoreSt) : (s.updCore c f).hif = s.hif := State.setCore_hif s _ _
@[simp] theorem State.updCore_fab (c : Nat) (f : CoreSt → CoreSt) : (s.updCore c f).fab = s.fab := State.setCore_fab s _ _
@[simp] theorem State.updCore_ports (c : Nat) (f : CoreSt → CoreSt) : (s.updCore c f).ports = s.ports := State.setCore_ports s _ _
@[simp] theorem State.updCore_alley (c : Nat) (f : CoreSt → CoreSt) : (s.updCore c f).alley = s.alley := State.setCore_alley s _ _
@[simp] theorem State.updCore_ridge (c : Nat) (f : CoreSt → CoreSt) : (s.updCore c f).ridge = s.ridge := State.setCore_ridge s _ _
@[simp] theorem State.updCore_sec (c : Nat) (f : CoreSt → CoreSt) : (s.updCore c f).sec = s.sec := State.setCore_sec s _ _
@[simp] theorem State.updCore_pwr (c : Nat) (f : CoreSt → CoreSt) : (s.updCore c f).pwr = s.pwr := State.setCore_pwr s _ _
@[simp] theorem State.updCore_fw (c : Nat) (f : CoreSt → CoreSt) : (s.updCore c f).fw = s.fw := State.setCore_fw s _ _
@[simp] theorem State.updCore_pins (c : Nat) (f : CoreSt → CoreSt) : (s.updCore c f).pins = s.pins := State.setCore_pins s _ _
@[simp] theorem State.updCore_tap (c : Nat) (f : CoreSt → CoreSt) : (s.updCore c f).tap = s.tap := State.setCore_tap s _ _
@[simp] theorem State.updCore_out (c : Nat) (f : CoreSt → CoreSt) : (s.updCore c f).out = s.out := State.setCore_out s _ _
@[simp] theorem State.updCore_free (c : Nat) (f : CoreSt → CoreSt) : (s.updCore c f).free = s.free := State.setCore_free s _ _
@[simp] theorem State.updCore_pending (c : Nat) (f : CoreSt → CoreSt) : (s.updCore c f).pending = s.pending := State.setCore_pending s _ _

@[simp] theorem State.updSq_fuses (d : Nat) (f : SquareSt → SquareSt) : (s.updSq d f).fuses = s.fuses := rfl
@[simp] theorem State.updSq_now (d : Nat) (f : SquareSt → SquareSt) : (s.updSq d f).now = s.now := rfl
@[simp] theorem State.updSq_timeOff (d : Nat) (f : SquareSt → SquareSt) : (s.updSq d f).timeOff = s.timeOff := rfl
@[simp] theorem State.updSq_regs (d : Nat) (f : SquareSt → SquareSt) : (s.updSq d f).regs = s.regs := rfl
@[simp] theorem State.updSq_halves (d : Nat) (f : SquareSt → SquareSt) : (s.updSq d f).halves = s.halves := rfl
@[simp] theorem State.updSq_mem (d : Nat) (f : SquareSt → SquareSt) : (s.updSq d f).mem = s.mem := rfl
@[simp] theorem State.updSq_badWords (d : Nat) (f : SquareSt → SquareSt) : (s.updSq d f).badWords = s.badWords := rfl
@[simp] theorem State.updSq_weakWords (d : Nat) (f : SquareSt → SquareSt) : (s.updSq d f).weakWords = s.weakWords := rfl
@[simp] theorem State.updSq_hostMem (d : Nat) (f : SquareSt → SquareSt) : (s.updSq d f).hostMem = s.hostMem := rfl
@[simp] theorem State.updSq_flash (d : Nat) (f : SquareSt → SquareSt) : (s.updSq d f).flash = s.flash := rfl
@[simp] theorem State.updSq_tick (d : Nat) (f : SquareSt → SquareSt) : (s.updSq d f).tick = s.tick := rfl
@[simp] theorem State.updSq_tens (d : Nat) (f : SquareSt → SquareSt) : (s.updSq d f).tens = s.tens := rfl
@[simp] theorem State.updSq_cores (d : Nat) (f : SquareSt → SquareSt) : (s.updSq d f).cores = s.cores := rfl
@[simp] theorem State.updSq_dists (d : Nat) (f : SquareSt → SquareSt) : (s.updSq d f).dists = s.dists := rfl
@[simp] theorem State.updSq_blks (d : Nat) (f : SquareSt → SquareSt) : (s.updSq d f).blks = s.blks := rfl
@[simp] theorem State.updSq_dma (d : Nat) (f : SquareSt → SquareSt) : (s.updSq d f).dma = s.dma := rfl
@[simp] theorem State.updSq_nextJob (d : Nat) (f : SquareSt → SquareSt) : (s.updSq d f).nextJob = s.nextJob := rfl
@[simp] theorem State.updSq_posts (d : Nat) (f : SquareSt → SquareSt) : (s.updSq d f).posts = s.posts := rfl
@[simp] theorem State.updSq_merge (d : Nat) (f : SquareSt → SquareSt) : (s.updSq d f).merge = s.merge := rfl
@[simp] theorem State.updSq_poolMin (d : Nat) (f : SquareSt → SquareSt) : (s.updSq d f).poolMin = s.poolMin := rfl
@[simp] theorem State.updSq_margin (d : Nat) (f : SquareSt → SquareSt) : (s.updSq d f).margin = s.margin := rfl
@[simp] theorem State.updSq_t1 (d : Nat) (f : SquareSt → SquareSt) : (s.updSq d f).t1 = s.t1 := rfl
@[simp] theorem State.updSq_t2Len (d : Nat) (f : SquareSt → SquareSt) : (s.updSq d f).t2Len = s.t2Len := rfl
@[simp] theorem State.updSq_fl (d : Nat) (f : SquareSt → SquareSt) : (s.updSq d f).fl = s.fl := rfl
@[simp] theorem State.updSq_shp (d : Nat) (f : SquareSt → SquareSt) : (s.updSq d f).shp = s.shp := rfl
@[simp] theorem State.updSq_thatchRest (d : Nat) (f : SquareSt → SquareSt) : (s.updSq d f).thatchRest = s.thatchRest := rfl
@[simp] theorem State.updSq_thatchDec (d : Nat) (f : SquareSt → SquareSt) : (s.updSq d f).thatchDec = s.thatchDec := rfl
@[simp] theorem State.updSq_ic (d : Nat) (f : SquareSt → SquareSt) : (s.updSq d f).ic = s.ic := rfl
@[simp] theorem State.updSq_hif (d : Nat) (f : SquareSt → SquareSt) : (s.updSq d f).hif = s.hif := rfl
@[simp] theorem State.updSq_fab (d : Nat) (f : SquareSt → SquareSt) : (s.updSq d f).fab = s.fab := rfl
@[simp] theorem State.updSq_ports (d : Nat) (f : SquareSt → SquareSt) : (s.updSq d f).ports = s.ports := rfl
@[simp] theorem State.updSq_alley (d : Nat) (f : SquareSt → SquareSt) : (s.updSq d f).alley = s.alley := rfl
@[simp] theorem State.updSq_ridge (d : Nat) (f : SquareSt → SquareSt) : (s.updSq d f).ridge = s.ridge := rfl
@[simp] theorem State.updSq_sec (d : Nat) (f : SquareSt → SquareSt) : (s.updSq d f).sec = s.sec := rfl
@[simp] theorem State.updSq_pwr (d : Nat) (f : SquareSt → SquareSt) : (s.updSq d f).pwr = s.pwr := rfl
@[simp] theorem State.updSq_fw (d : Nat) (f : SquareSt → SquareSt) : (s.updSq d f).fw = s.fw := rfl
@[simp] theorem State.updSq_pins (d : Nat) (f : SquareSt → SquareSt) : (s.updSq d f).pins = s.pins := rfl
@[simp] theorem State.updSq_tap (d : Nat) (f : SquareSt → SquareSt) : (s.updSq d f).tap = s.tap := rfl
@[simp] theorem State.updSq_out (d : Nat) (f : SquareSt → SquareSt) : (s.updSq d f).out = s.out := rfl
@[simp] theorem State.updSq_free (d : Nat) (f : SquareSt → SquareSt) : (s.updSq d f).free = s.free := rfl
@[simp] theorem State.updSq_pending (d : Nat) (f : SquareSt → SquareSt) : (s.updSq d f).pending = s.pending := rfl

@[simp] theorem State.updDist_fuses (d : Nat) (f : DistSt → DistSt) : (s.updDist d f).fuses = s.fuses := rfl
@[simp] theorem State.updDist_now (d : Nat) (f : DistSt → DistSt) : (s.updDist d f).now = s.now := rfl
@[simp] theorem State.updDist_timeOff (d : Nat) (f : DistSt → DistSt) : (s.updDist d f).timeOff = s.timeOff := rfl
@[simp] theorem State.updDist_regs (d : Nat) (f : DistSt → DistSt) : (s.updDist d f).regs = s.regs := rfl
@[simp] theorem State.updDist_halves (d : Nat) (f : DistSt → DistSt) : (s.updDist d f).halves = s.halves := rfl
@[simp] theorem State.updDist_mem (d : Nat) (f : DistSt → DistSt) : (s.updDist d f).mem = s.mem := rfl
@[simp] theorem State.updDist_badWords (d : Nat) (f : DistSt → DistSt) : (s.updDist d f).badWords = s.badWords := rfl
@[simp] theorem State.updDist_weakWords (d : Nat) (f : DistSt → DistSt) : (s.updDist d f).weakWords = s.weakWords := rfl
@[simp] theorem State.updDist_hostMem (d : Nat) (f : DistSt → DistSt) : (s.updDist d f).hostMem = s.hostMem := rfl
@[simp] theorem State.updDist_flash (d : Nat) (f : DistSt → DistSt) : (s.updDist d f).flash = s.flash := rfl
@[simp] theorem State.updDist_tick (d : Nat) (f : DistSt → DistSt) : (s.updDist d f).tick = s.tick := rfl
@[simp] theorem State.updDist_tens (d : Nat) (f : DistSt → DistSt) : (s.updDist d f).tens = s.tens := rfl
@[simp] theorem State.updDist_cores (d : Nat) (f : DistSt → DistSt) : (s.updDist d f).cores = s.cores := rfl
@[simp] theorem State.updDist_blks (d : Nat) (f : DistSt → DistSt) : (s.updDist d f).blks = s.blks := rfl
@[simp] theorem State.updDist_dma (d : Nat) (f : DistSt → DistSt) : (s.updDist d f).dma = s.dma := rfl
@[simp] theorem State.updDist_nextJob (d : Nat) (f : DistSt → DistSt) : (s.updDist d f).nextJob = s.nextJob := rfl
@[simp] theorem State.updDist_posts (d : Nat) (f : DistSt → DistSt) : (s.updDist d f).posts = s.posts := rfl
@[simp] theorem State.updDist_squares (d : Nat) (f : DistSt → DistSt) : (s.updDist d f).squares = s.squares := rfl
@[simp] theorem State.updDist_merge (d : Nat) (f : DistSt → DistSt) : (s.updDist d f).merge = s.merge := rfl
@[simp] theorem State.updDist_poolMin (d : Nat) (f : DistSt → DistSt) : (s.updDist d f).poolMin = s.poolMin := rfl
@[simp] theorem State.updDist_margin (d : Nat) (f : DistSt → DistSt) : (s.updDist d f).margin = s.margin := rfl
@[simp] theorem State.updDist_t1 (d : Nat) (f : DistSt → DistSt) : (s.updDist d f).t1 = s.t1 := rfl
@[simp] theorem State.updDist_t2Len (d : Nat) (f : DistSt → DistSt) : (s.updDist d f).t2Len = s.t2Len := rfl
@[simp] theorem State.updDist_fl (d : Nat) (f : DistSt → DistSt) : (s.updDist d f).fl = s.fl := rfl
@[simp] theorem State.updDist_shp (d : Nat) (f : DistSt → DistSt) : (s.updDist d f).shp = s.shp := rfl
@[simp] theorem State.updDist_thatchRest (d : Nat) (f : DistSt → DistSt) : (s.updDist d f).thatchRest = s.thatchRest := rfl
@[simp] theorem State.updDist_thatchDec (d : Nat) (f : DistSt → DistSt) : (s.updDist d f).thatchDec = s.thatchDec := rfl
@[simp] theorem State.updDist_ic (d : Nat) (f : DistSt → DistSt) : (s.updDist d f).ic = s.ic := rfl
@[simp] theorem State.updDist_hif (d : Nat) (f : DistSt → DistSt) : (s.updDist d f).hif = s.hif := rfl
@[simp] theorem State.updDist_fab (d : Nat) (f : DistSt → DistSt) : (s.updDist d f).fab = s.fab := rfl
@[simp] theorem State.updDist_ports (d : Nat) (f : DistSt → DistSt) : (s.updDist d f).ports = s.ports := rfl
@[simp] theorem State.updDist_alley (d : Nat) (f : DistSt → DistSt) : (s.updDist d f).alley = s.alley := rfl
@[simp] theorem State.updDist_ridge (d : Nat) (f : DistSt → DistSt) : (s.updDist d f).ridge = s.ridge := rfl
@[simp] theorem State.updDist_sec (d : Nat) (f : DistSt → DistSt) : (s.updDist d f).sec = s.sec := rfl
@[simp] theorem State.updDist_pwr (d : Nat) (f : DistSt → DistSt) : (s.updDist d f).pwr = s.pwr := rfl
@[simp] theorem State.updDist_fw (d : Nat) (f : DistSt → DistSt) : (s.updDist d f).fw = s.fw := rfl
@[simp] theorem State.updDist_pins (d : Nat) (f : DistSt → DistSt) : (s.updDist d f).pins = s.pins := rfl
@[simp] theorem State.updDist_tap (d : Nat) (f : DistSt → DistSt) : (s.updDist d f).tap = s.tap := rfl
@[simp] theorem State.updDist_out (d : Nat) (f : DistSt → DistSt) : (s.updDist d f).out = s.out := rfl
@[simp] theorem State.updDist_free (d : Nat) (f : DistSt → DistSt) : (s.updDist d f).free = s.free := rfl
@[simp] theorem State.updDist_pending (d : Nat) (f : DistSt → DistSt) : (s.updDist d f).pending = s.pending := rfl

@[simp] theorem State.updBlk_fuses (b : Nat) (f : BlkSt → BlkSt) : (s.updBlk b f).fuses = s.fuses := rfl
@[simp] theorem State.updBlk_now (b : Nat) (f : BlkSt → BlkSt) : (s.updBlk b f).now = s.now := rfl
@[simp] theorem State.updBlk_timeOff (b : Nat) (f : BlkSt → BlkSt) : (s.updBlk b f).timeOff = s.timeOff := rfl
@[simp] theorem State.updBlk_regs (b : Nat) (f : BlkSt → BlkSt) : (s.updBlk b f).regs = s.regs := rfl
@[simp] theorem State.updBlk_halves (b : Nat) (f : BlkSt → BlkSt) : (s.updBlk b f).halves = s.halves := rfl
@[simp] theorem State.updBlk_mem (b : Nat) (f : BlkSt → BlkSt) : (s.updBlk b f).mem = s.mem := rfl
@[simp] theorem State.updBlk_badWords (b : Nat) (f : BlkSt → BlkSt) : (s.updBlk b f).badWords = s.badWords := rfl
@[simp] theorem State.updBlk_weakWords (b : Nat) (f : BlkSt → BlkSt) : (s.updBlk b f).weakWords = s.weakWords := rfl
@[simp] theorem State.updBlk_hostMem (b : Nat) (f : BlkSt → BlkSt) : (s.updBlk b f).hostMem = s.hostMem := rfl
@[simp] theorem State.updBlk_flash (b : Nat) (f : BlkSt → BlkSt) : (s.updBlk b f).flash = s.flash := rfl
@[simp] theorem State.updBlk_tick (b : Nat) (f : BlkSt → BlkSt) : (s.updBlk b f).tick = s.tick := rfl
@[simp] theorem State.updBlk_tens (b : Nat) (f : BlkSt → BlkSt) : (s.updBlk b f).tens = s.tens := rfl
@[simp] theorem State.updBlk_cores (b : Nat) (f : BlkSt → BlkSt) : (s.updBlk b f).cores = s.cores := rfl
@[simp] theorem State.updBlk_dists (b : Nat) (f : BlkSt → BlkSt) : (s.updBlk b f).dists = s.dists := rfl
@[simp] theorem State.updBlk_dma (b : Nat) (f : BlkSt → BlkSt) : (s.updBlk b f).dma = s.dma := rfl
@[simp] theorem State.updBlk_nextJob (b : Nat) (f : BlkSt → BlkSt) : (s.updBlk b f).nextJob = s.nextJob := rfl
@[simp] theorem State.updBlk_posts (b : Nat) (f : BlkSt → BlkSt) : (s.updBlk b f).posts = s.posts := rfl
@[simp] theorem State.updBlk_squares (b : Nat) (f : BlkSt → BlkSt) : (s.updBlk b f).squares = s.squares := rfl
@[simp] theorem State.updBlk_merge (b : Nat) (f : BlkSt → BlkSt) : (s.updBlk b f).merge = s.merge := rfl
@[simp] theorem State.updBlk_poolMin (b : Nat) (f : BlkSt → BlkSt) : (s.updBlk b f).poolMin = s.poolMin := rfl
@[simp] theorem State.updBlk_margin (b : Nat) (f : BlkSt → BlkSt) : (s.updBlk b f).margin = s.margin := rfl
@[simp] theorem State.updBlk_t1 (b : Nat) (f : BlkSt → BlkSt) : (s.updBlk b f).t1 = s.t1 := rfl
@[simp] theorem State.updBlk_t2Len (b : Nat) (f : BlkSt → BlkSt) : (s.updBlk b f).t2Len = s.t2Len := rfl
@[simp] theorem State.updBlk_fl (b : Nat) (f : BlkSt → BlkSt) : (s.updBlk b f).fl = s.fl := rfl
@[simp] theorem State.updBlk_shp (b : Nat) (f : BlkSt → BlkSt) : (s.updBlk b f).shp = s.shp := rfl
@[simp] theorem State.updBlk_thatchRest (b : Nat) (f : BlkSt → BlkSt) : (s.updBlk b f).thatchRest = s.thatchRest := rfl
@[simp] theorem State.updBlk_thatchDec (b : Nat) (f : BlkSt → BlkSt) : (s.updBlk b f).thatchDec = s.thatchDec := rfl
@[simp] theorem State.updBlk_ic (b : Nat) (f : BlkSt → BlkSt) : (s.updBlk b f).ic = s.ic := rfl
@[simp] theorem State.updBlk_hif (b : Nat) (f : BlkSt → BlkSt) : (s.updBlk b f).hif = s.hif := rfl
@[simp] theorem State.updBlk_fab (b : Nat) (f : BlkSt → BlkSt) : (s.updBlk b f).fab = s.fab := rfl
@[simp] theorem State.updBlk_ports (b : Nat) (f : BlkSt → BlkSt) : (s.updBlk b f).ports = s.ports := rfl
@[simp] theorem State.updBlk_alley (b : Nat) (f : BlkSt → BlkSt) : (s.updBlk b f).alley = s.alley := rfl
@[simp] theorem State.updBlk_ridge (b : Nat) (f : BlkSt → BlkSt) : (s.updBlk b f).ridge = s.ridge := rfl
@[simp] theorem State.updBlk_sec (b : Nat) (f : BlkSt → BlkSt) : (s.updBlk b f).sec = s.sec := rfl
@[simp] theorem State.updBlk_pwr (b : Nat) (f : BlkSt → BlkSt) : (s.updBlk b f).pwr = s.pwr := rfl
@[simp] theorem State.updBlk_fw (b : Nat) (f : BlkSt → BlkSt) : (s.updBlk b f).fw = s.fw := rfl
@[simp] theorem State.updBlk_pins (b : Nat) (f : BlkSt → BlkSt) : (s.updBlk b f).pins = s.pins := rfl
@[simp] theorem State.updBlk_tap (b : Nat) (f : BlkSt → BlkSt) : (s.updBlk b f).tap = s.tap := rfl
@[simp] theorem State.updBlk_out (b : Nat) (f : BlkSt → BlkSt) : (s.updBlk b f).out = s.out := rfl
@[simp] theorem State.updBlk_free (b : Nat) (f : BlkSt → BlkSt) : (s.updBlk b f).free = s.free := rfl
@[simp] theorem State.updBlk_pending (b : Nat) (f : BlkSt → BlkSt) : (s.updBlk b f).pending = s.pending := rfl

@[simp] theorem State.updAgent_fuses (a : Nat) (f : AgentSt → AgentSt) : (s.updAgent a f).fuses = s.fuses := rfl
@[simp] theorem State.updAgent_now (a : Nat) (f : AgentSt → AgentSt) : (s.updAgent a f).now = s.now := rfl
@[simp] theorem State.updAgent_timeOff (a : Nat) (f : AgentSt → AgentSt) : (s.updAgent a f).timeOff = s.timeOff := rfl
@[simp] theorem State.updAgent_regs (a : Nat) (f : AgentSt → AgentSt) : (s.updAgent a f).regs = s.regs := rfl
@[simp] theorem State.updAgent_halves (a : Nat) (f : AgentSt → AgentSt) : (s.updAgent a f).halves = s.halves := rfl
@[simp] theorem State.updAgent_mem (a : Nat) (f : AgentSt → AgentSt) : (s.updAgent a f).mem = s.mem := rfl
@[simp] theorem State.updAgent_badWords (a : Nat) (f : AgentSt → AgentSt) : (s.updAgent a f).badWords = s.badWords := rfl
@[simp] theorem State.updAgent_weakWords (a : Nat) (f : AgentSt → AgentSt) : (s.updAgent a f).weakWords = s.weakWords := rfl
@[simp] theorem State.updAgent_hostMem (a : Nat) (f : AgentSt → AgentSt) : (s.updAgent a f).hostMem = s.hostMem := rfl
@[simp] theorem State.updAgent_flash (a : Nat) (f : AgentSt → AgentSt) : (s.updAgent a f).flash = s.flash := rfl
@[simp] theorem State.updAgent_tick (a : Nat) (f : AgentSt → AgentSt) : (s.updAgent a f).tick = s.tick := rfl
@[simp] theorem State.updAgent_tens (a : Nat) (f : AgentSt → AgentSt) : (s.updAgent a f).tens = s.tens := rfl
@[simp] theorem State.updAgent_cores (a : Nat) (f : AgentSt → AgentSt) : (s.updAgent a f).cores = s.cores := rfl
@[simp] theorem State.updAgent_dists (a : Nat) (f : AgentSt → AgentSt) : (s.updAgent a f).dists = s.dists := rfl
@[simp] theorem State.updAgent_blks (a : Nat) (f : AgentSt → AgentSt) : (s.updAgent a f).blks = s.blks := rfl
@[simp] theorem State.updAgent_dma (a : Nat) (f : AgentSt → AgentSt) : (s.updAgent a f).dma = s.dma := rfl
@[simp] theorem State.updAgent_nextJob (a : Nat) (f : AgentSt → AgentSt) : (s.updAgent a f).nextJob = s.nextJob := rfl
@[simp] theorem State.updAgent_posts (a : Nat) (f : AgentSt → AgentSt) : (s.updAgent a f).posts = s.posts := rfl
@[simp] theorem State.updAgent_squares (a : Nat) (f : AgentSt → AgentSt) : (s.updAgent a f).squares = s.squares := rfl
@[simp] theorem State.updAgent_merge (a : Nat) (f : AgentSt → AgentSt) : (s.updAgent a f).merge = s.merge := rfl
@[simp] theorem State.updAgent_poolMin (a : Nat) (f : AgentSt → AgentSt) : (s.updAgent a f).poolMin = s.poolMin := rfl
@[simp] theorem State.updAgent_margin (a : Nat) (f : AgentSt → AgentSt) : (s.updAgent a f).margin = s.margin := rfl
@[simp] theorem State.updAgent_t1 (a : Nat) (f : AgentSt → AgentSt) : (s.updAgent a f).t1 = s.t1 := rfl
@[simp] theorem State.updAgent_t2Len (a : Nat) (f : AgentSt → AgentSt) : (s.updAgent a f).t2Len = s.t2Len := rfl
@[simp] theorem State.updAgent_fl (a : Nat) (f : AgentSt → AgentSt) : (s.updAgent a f).fl = s.fl := rfl
@[simp] theorem State.updAgent_shp (a : Nat) (f : AgentSt → AgentSt) : (s.updAgent a f).shp = s.shp := rfl
@[simp] theorem State.updAgent_thatchRest (a : Nat) (f : AgentSt → AgentSt) : (s.updAgent a f).thatchRest = s.thatchRest := rfl
@[simp] theorem State.updAgent_thatchDec (a : Nat) (f : AgentSt → AgentSt) : (s.updAgent a f).thatchDec = s.thatchDec := rfl
@[simp] theorem State.updAgent_ic (a : Nat) (f : AgentSt → AgentSt) : (s.updAgent a f).ic = s.ic := rfl
@[simp] theorem State.updAgent_hif (a : Nat) (f : AgentSt → AgentSt) : (s.updAgent a f).hif = s.hif := rfl
@[simp] theorem State.updAgent_fab (a : Nat) (f : AgentSt → AgentSt) : (s.updAgent a f).fab = s.fab := rfl
@[simp] theorem State.updAgent_ports (a : Nat) (f : AgentSt → AgentSt) : (s.updAgent a f).ports = s.ports := rfl
@[simp] theorem State.updAgent_alley (a : Nat) (f : AgentSt → AgentSt) : (s.updAgent a f).alley = s.alley := rfl
@[simp] theorem State.updAgent_ridge (a : Nat) (f : AgentSt → AgentSt) : (s.updAgent a f).ridge = s.ridge := rfl
@[simp] theorem State.updAgent_pwr (a : Nat) (f : AgentSt → AgentSt) : (s.updAgent a f).pwr = s.pwr := rfl
@[simp] theorem State.updAgent_fw (a : Nat) (f : AgentSt → AgentSt) : (s.updAgent a f).fw = s.fw := rfl
@[simp] theorem State.updAgent_pins (a : Nat) (f : AgentSt → AgentSt) : (s.updAgent a f).pins = s.pins := rfl
@[simp] theorem State.updAgent_tap (a : Nat) (f : AgentSt → AgentSt) : (s.updAgent a f).tap = s.tap := rfl
@[simp] theorem State.updAgent_out (a : Nat) (f : AgentSt → AgentSt) : (s.updAgent a f).out = s.out := rfl
@[simp] theorem State.updAgent_free (a : Nat) (f : AgentSt → AgentSt) : (s.updAgent a f).free = s.free := rfl
@[simp] theorem State.updAgent_pending (a : Nat) (f : AgentSt → AgentSt) : (s.updAgent a f).pending = s.pending := rfl

@[simp] theorem State.at_fuses (t : Nat) : (s.at t).fuses = s.fuses := by rw [State.at]
@[simp] theorem State.at_timeOff (t : Nat) : (s.at t).timeOff = s.timeOff := by rw [State.at]
@[simp] theorem State.at_regs (t : Nat) : (s.at t).regs = s.regs := by rw [State.at]
@[simp] theorem State.at_halves (t : Nat) : (s.at t).halves = s.halves := by rw [State.at]
@[simp] theorem State.at_mem (t : Nat) : (s.at t).mem = s.mem := by rw [State.at]
@[simp] theorem State.at_badWords (t : Nat) : (s.at t).badWords = s.badWords := by rw [State.at]
@[simp] theorem State.at_weakWords (t : Nat) : (s.at t).weakWords = s.weakWords := by rw [State.at]
@[simp] theorem State.at_hostMem (t : Nat) : (s.at t).hostMem = s.hostMem := by rw [State.at]
@[simp] theorem State.at_flash (t : Nat) : (s.at t).flash = s.flash := by rw [State.at]
@[simp] theorem State.at_tick (t : Nat) : (s.at t).tick = s.tick := by rw [State.at]
@[simp] theorem State.at_tens (t : Nat) : (s.at t).tens = s.tens := by rw [State.at]
@[simp] theorem State.at_cores (t : Nat) : (s.at t).cores = s.cores := by rw [State.at]
@[simp] theorem State.at_dists (t : Nat) : (s.at t).dists = s.dists := by rw [State.at]
@[simp] theorem State.at_blks (t : Nat) : (s.at t).blks = s.blks := by rw [State.at]
@[simp] theorem State.at_dma (t : Nat) : (s.at t).dma = s.dma := by rw [State.at]
@[simp] theorem State.at_nextJob (t : Nat) : (s.at t).nextJob = s.nextJob := by rw [State.at]
@[simp] theorem State.at_posts (t : Nat) : (s.at t).posts = s.posts := by rw [State.at]
@[simp] theorem State.at_squares (t : Nat) : (s.at t).squares = s.squares := by rw [State.at]
@[simp] theorem State.at_merge (t : Nat) : (s.at t).merge = s.merge := by rw [State.at]
@[simp] theorem State.at_poolMin (t : Nat) : (s.at t).poolMin = s.poolMin := by rw [State.at]
@[simp] theorem State.at_margin (t : Nat) : (s.at t).margin = s.margin := by rw [State.at]
@[simp] theorem State.at_t1 (t : Nat) : (s.at t).t1 = s.t1 := by rw [State.at]
@[simp] theorem State.at_t2Len (t : Nat) : (s.at t).t2Len = s.t2Len := by rw [State.at]
@[simp] theorem State.at_fl (t : Nat) : (s.at t).fl = s.fl := by rw [State.at]
@[simp] theorem State.at_shp (t : Nat) : (s.at t).shp = s.shp := by rw [State.at]
@[simp] theorem State.at_thatchRest (t : Nat) : (s.at t).thatchRest = s.thatchRest := by rw [State.at]
@[simp] theorem State.at_thatchDec (t : Nat) : (s.at t).thatchDec = s.thatchDec := by rw [State.at]
@[simp] theorem State.at_ic (t : Nat) : (s.at t).ic = s.ic := by rw [State.at]
@[simp] theorem State.at_hif (t : Nat) : (s.at t).hif = s.hif := by rw [State.at]
@[simp] theorem State.at_fab (t : Nat) : (s.at t).fab = s.fab := by rw [State.at]
@[simp] theorem State.at_ports (t : Nat) : (s.at t).ports = s.ports := by rw [State.at]
@[simp] theorem State.at_alley (t : Nat) : (s.at t).alley = s.alley := by rw [State.at]
@[simp] theorem State.at_sec (t : Nat) : (s.at t).sec = s.sec := by rw [State.at]
@[simp] theorem State.at_pwr (t : Nat) : (s.at t).pwr = s.pwr := by rw [State.at]
@[simp] theorem State.at_fw (t : Nat) : (s.at t).fw = s.fw := by rw [State.at]
@[simp] theorem State.at_pins (t : Nat) : (s.at t).pins = s.pins := by rw [State.at]
@[simp] theorem State.at_tap (t : Nat) : (s.at t).tap = s.tap := by rw [State.at]
@[simp] theorem State.at_out (t : Nat) : (s.at t).out = s.out := by rw [State.at]
@[simp] theorem State.at_free (t : Nat) : (s.at t).free = s.free := by rw [State.at]
@[simp] theorem State.at_pending (t : Nat) : (s.at t).pending = s.pending := by rw [State.at]

@[simp] theorem State.tickFree_fuses : (s.tickFree ).fuses = s.fuses := rfl
@[simp] theorem State.tickFree_now : (s.tickFree ).now = s.now := rfl
@[simp] theorem State.tickFree_timeOff : (s.tickFree ).timeOff = s.timeOff := rfl
@[simp] theorem State.tickFree_regs : (s.tickFree ).regs = s.regs := rfl
@[simp] theorem State.tickFree_halves : (s.tickFree ).halves = s.halves := rfl
@[simp] theorem State.tickFree_mem : (s.tickFree ).mem = s.mem := rfl
@[simp] theorem State.tickFree_badWords : (s.tickFree ).badWords = s.badWords := rfl
@[simp] theorem State.tickFree_weakWords : (s.tickFree ).weakWords = s.weakWords := rfl
@[simp] theorem State.tickFree_hostMem : (s.tickFree ).hostMem = s.hostMem := rfl
@[simp] theorem State.tickFree_flash : (s.tickFree ).flash = s.flash := rfl
@[simp] theorem State.tickFree_tick : (s.tickFree ).tick = s.tick := rfl
@[simp] theorem State.tickFree_tens : (s.tickFree ).tens = s.tens := rfl
@[simp] theorem State.tickFree_cores : (s.tickFree ).cores = s.cores := rfl
@[simp] theorem State.tickFree_dists : (s.tickFree ).dists = s.dists := rfl
@[simp] theorem State.tickFree_blks : (s.tickFree ).blks = s.blks := rfl
@[simp] theorem State.tickFree_dma : (s.tickFree ).dma = s.dma := rfl
@[simp] theorem State.tickFree_nextJob : (s.tickFree ).nextJob = s.nextJob := rfl
@[simp] theorem State.tickFree_posts : (s.tickFree ).posts = s.posts := rfl
@[simp] theorem State.tickFree_squares : (s.tickFree ).squares = s.squares := rfl
@[simp] theorem State.tickFree_merge : (s.tickFree ).merge = s.merge := rfl
@[simp] theorem State.tickFree_poolMin : (s.tickFree ).poolMin = s.poolMin := rfl
@[simp] theorem State.tickFree_margin : (s.tickFree ).margin = s.margin := rfl
@[simp] theorem State.tickFree_t1 : (s.tickFree ).t1 = s.t1 := rfl
@[simp] theorem State.tickFree_t2Len : (s.tickFree ).t2Len = s.t2Len := rfl
@[simp] theorem State.tickFree_fl : (s.tickFree ).fl = s.fl := rfl
@[simp] theorem State.tickFree_shp : (s.tickFree ).shp = s.shp := rfl
@[simp] theorem State.tickFree_thatchRest : (s.tickFree ).thatchRest = s.thatchRest := rfl
@[simp] theorem State.tickFree_thatchDec : (s.tickFree ).thatchDec = s.thatchDec := rfl
@[simp] theorem State.tickFree_ic : (s.tickFree ).ic = s.ic := rfl
@[simp] theorem State.tickFree_hif : (s.tickFree ).hif = s.hif := rfl
@[simp] theorem State.tickFree_fab : (s.tickFree ).fab = s.fab := rfl
@[simp] theorem State.tickFree_ports : (s.tickFree ).ports = s.ports := rfl
@[simp] theorem State.tickFree_alley : (s.tickFree ).alley = s.alley := rfl
@[simp] theorem State.tickFree_ridge : (s.tickFree ).ridge = s.ridge := rfl
@[simp] theorem State.tickFree_sec : (s.tickFree ).sec = s.sec := rfl
@[simp] theorem State.tickFree_pwr : (s.tickFree ).pwr = s.pwr := rfl
@[simp] theorem State.tickFree_fw : (s.tickFree ).fw = s.fw := rfl
@[simp] theorem State.tickFree_pins : (s.tickFree ).pins = s.pins := rfl
@[simp] theorem State.tickFree_tap : (s.tickFree ).tap = s.tap := rfl
@[simp] theorem State.tickFree_out : (s.tickFree ).out = s.out := rfl
@[simp] theorem State.tickFree_pending : (s.tickFree ).pending = s.pending := rfl

@[simp] theorem State.rawWrite_fuses (a : Nat) (l : List Byte) : (s.rawWrite a l).fuses = s.fuses := rfl
@[simp] theorem State.rawWrite_now (a : Nat) (l : List Byte) : (s.rawWrite a l).now = s.now := rfl
@[simp] theorem State.rawWrite_timeOff (a : Nat) (l : List Byte) : (s.rawWrite a l).timeOff = s.timeOff := rfl
@[simp] theorem State.rawWrite_regs (a : Nat) (l : List Byte) : (s.rawWrite a l).regs = s.regs := rfl
@[simp] theorem State.rawWrite_halves (a : Nat) (l : List Byte) : (s.rawWrite a l).halves = s.halves := rfl
@[simp] theorem State.rawWrite_badWords (a : Nat) (l : List Byte) : (s.rawWrite a l).badWords = s.badWords := rfl
@[simp] theorem State.rawWrite_weakWords (a : Nat) (l : List Byte) : (s.rawWrite a l).weakWords = s.weakWords := rfl
@[simp] theorem State.rawWrite_hostMem (a : Nat) (l : List Byte) : (s.rawWrite a l).hostMem = s.hostMem := rfl
@[simp] theorem State.rawWrite_flash (a : Nat) (l : List Byte) : (s.rawWrite a l).flash = s.flash := rfl
@[simp] theorem State.rawWrite_tick (a : Nat) (l : List Byte) : (s.rawWrite a l).tick = s.tick := rfl
@[simp] theorem State.rawWrite_tens (a : Nat) (l : List Byte) : (s.rawWrite a l).tens = s.tens := rfl
@[simp] theorem State.rawWrite_cores (a : Nat) (l : List Byte) : (s.rawWrite a l).cores = s.cores := rfl
@[simp] theorem State.rawWrite_dists (a : Nat) (l : List Byte) : (s.rawWrite a l).dists = s.dists := rfl
@[simp] theorem State.rawWrite_blks (a : Nat) (l : List Byte) : (s.rawWrite a l).blks = s.blks := rfl
@[simp] theorem State.rawWrite_dma (a : Nat) (l : List Byte) : (s.rawWrite a l).dma = s.dma := rfl
@[simp] theorem State.rawWrite_nextJob (a : Nat) (l : List Byte) : (s.rawWrite a l).nextJob = s.nextJob := rfl
@[simp] theorem State.rawWrite_posts (a : Nat) (l : List Byte) : (s.rawWrite a l).posts = s.posts := rfl
@[simp] theorem State.rawWrite_squares (a : Nat) (l : List Byte) : (s.rawWrite a l).squares = s.squares := rfl
@[simp] theorem State.rawWrite_merge (a : Nat) (l : List Byte) : (s.rawWrite a l).merge = s.merge := rfl
@[simp] theorem State.rawWrite_poolMin (a : Nat) (l : List Byte) : (s.rawWrite a l).poolMin = s.poolMin := rfl
@[simp] theorem State.rawWrite_margin (a : Nat) (l : List Byte) : (s.rawWrite a l).margin = s.margin := rfl
@[simp] theorem State.rawWrite_t1 (a : Nat) (l : List Byte) : (s.rawWrite a l).t1 = s.t1 := rfl
@[simp] theorem State.rawWrite_t2Len (a : Nat) (l : List Byte) : (s.rawWrite a l).t2Len = s.t2Len := rfl
@[simp] theorem State.rawWrite_fl (a : Nat) (l : List Byte) : (s.rawWrite a l).fl = s.fl := rfl
@[simp] theorem State.rawWrite_shp (a : Nat) (l : List Byte) : (s.rawWrite a l).shp = s.shp := rfl
@[simp] theorem State.rawWrite_thatchRest (a : Nat) (l : List Byte) : (s.rawWrite a l).thatchRest = s.thatchRest := rfl
@[simp] theorem State.rawWrite_thatchDec (a : Nat) (l : List Byte) : (s.rawWrite a l).thatchDec = s.thatchDec := rfl
@[simp] theorem State.rawWrite_ic (a : Nat) (l : List Byte) : (s.rawWrite a l).ic = s.ic := rfl
@[simp] theorem State.rawWrite_hif (a : Nat) (l : List Byte) : (s.rawWrite a l).hif = s.hif := rfl
@[simp] theorem State.rawWrite_fab (a : Nat) (l : List Byte) : (s.rawWrite a l).fab = s.fab := rfl
@[simp] theorem State.rawWrite_ports (a : Nat) (l : List Byte) : (s.rawWrite a l).ports = s.ports := rfl
@[simp] theorem State.rawWrite_alley (a : Nat) (l : List Byte) : (s.rawWrite a l).alley = s.alley := rfl
@[simp] theorem State.rawWrite_ridge (a : Nat) (l : List Byte) : (s.rawWrite a l).ridge = s.ridge := rfl
@[simp] theorem State.rawWrite_sec (a : Nat) (l : List Byte) : (s.rawWrite a l).sec = s.sec := rfl
@[simp] theorem State.rawWrite_pwr (a : Nat) (l : List Byte) : (s.rawWrite a l).pwr = s.pwr := rfl
@[simp] theorem State.rawWrite_fw (a : Nat) (l : List Byte) : (s.rawWrite a l).fw = s.fw := rfl
@[simp] theorem State.rawWrite_pins (a : Nat) (l : List Byte) : (s.rawWrite a l).pins = s.pins := rfl
@[simp] theorem State.rawWrite_tap (a : Nat) (l : List Byte) : (s.rawWrite a l).tap = s.tap := rfl
@[simp] theorem State.rawWrite_out (a : Nat) (l : List Byte) : (s.rawWrite a l).out = s.out := rfl
@[simp] theorem State.rawWrite_free (a : Nat) (l : List Byte) : (s.rawWrite a l).free = s.free := rfl
@[simp] theorem State.rawWrite_pending (a : Nat) (l : List Byte) : (s.rawWrite a l).pending = s.pending := rfl

@[simp] theorem State.rawZero_fuses (a n : Nat) : (s.rawZero a n).fuses = s.fuses := rfl
@[simp] theorem State.rawZero_now (a n : Nat) : (s.rawZero a n).now = s.now := rfl
@[simp] theorem State.rawZero_timeOff (a n : Nat) : (s.rawZero a n).timeOff = s.timeOff := rfl
@[simp] theorem State.rawZero_regs (a n : Nat) : (s.rawZero a n).regs = s.regs := rfl
@[simp] theorem State.rawZero_halves (a n : Nat) : (s.rawZero a n).halves = s.halves := rfl
@[simp] theorem State.rawZero_hostMem (a n : Nat) : (s.rawZero a n).hostMem = s.hostMem := rfl
@[simp] theorem State.rawZero_flash (a n : Nat) : (s.rawZero a n).flash = s.flash := rfl
@[simp] theorem State.rawZero_tick (a n : Nat) : (s.rawZero a n).tick = s.tick := rfl
@[simp] theorem State.rawZero_tens (a n : Nat) : (s.rawZero a n).tens = s.tens := rfl
@[simp] theorem State.rawZero_cores (a n : Nat) : (s.rawZero a n).cores = s.cores := rfl
@[simp] theorem State.rawZero_dists (a n : Nat) : (s.rawZero a n).dists = s.dists := rfl
@[simp] theorem State.rawZero_blks (a n : Nat) : (s.rawZero a n).blks = s.blks := rfl
@[simp] theorem State.rawZero_dma (a n : Nat) : (s.rawZero a n).dma = s.dma := rfl
@[simp] theorem State.rawZero_nextJob (a n : Nat) : (s.rawZero a n).nextJob = s.nextJob := rfl
@[simp] theorem State.rawZero_posts (a n : Nat) : (s.rawZero a n).posts = s.posts := rfl
@[simp] theorem State.rawZero_squares (a n : Nat) : (s.rawZero a n).squares = s.squares := rfl
@[simp] theorem State.rawZero_merge (a n : Nat) : (s.rawZero a n).merge = s.merge := rfl
@[simp] theorem State.rawZero_poolMin (a n : Nat) : (s.rawZero a n).poolMin = s.poolMin := rfl
@[simp] theorem State.rawZero_margin (a n : Nat) : (s.rawZero a n).margin = s.margin := rfl
@[simp] theorem State.rawZero_t1 (a n : Nat) : (s.rawZero a n).t1 = s.t1 := rfl
@[simp] theorem State.rawZero_t2Len (a n : Nat) : (s.rawZero a n).t2Len = s.t2Len := rfl
@[simp] theorem State.rawZero_fl (a n : Nat) : (s.rawZero a n).fl = s.fl := rfl
@[simp] theorem State.rawZero_shp (a n : Nat) : (s.rawZero a n).shp = s.shp := rfl
@[simp] theorem State.rawZero_thatchRest (a n : Nat) : (s.rawZero a n).thatchRest = s.thatchRest := rfl
@[simp] theorem State.rawZero_thatchDec (a n : Nat) : (s.rawZero a n).thatchDec = s.thatchDec := rfl
@[simp] theorem State.rawZero_ic (a n : Nat) : (s.rawZero a n).ic = s.ic := rfl
@[simp] theorem State.rawZero_hif (a n : Nat) : (s.rawZero a n).hif = s.hif := rfl
@[simp] theorem State.rawZero_fab (a n : Nat) : (s.rawZero a n).fab = s.fab := rfl
@[simp] theorem State.rawZero_ports (a n : Nat) : (s.rawZero a n).ports = s.ports := rfl
@[simp] theorem State.rawZero_alley (a n : Nat) : (s.rawZero a n).alley = s.alley := rfl
@[simp] theorem State.rawZero_ridge (a n : Nat) : (s.rawZero a n).ridge = s.ridge := rfl
@[simp] theorem State.rawZero_sec (a n : Nat) : (s.rawZero a n).sec = s.sec := rfl
@[simp] theorem State.rawZero_pwr (a n : Nat) : (s.rawZero a n).pwr = s.pwr := rfl
@[simp] theorem State.rawZero_fw (a n : Nat) : (s.rawZero a n).fw = s.fw := rfl
@[simp] theorem State.rawZero_pins (a n : Nat) : (s.rawZero a n).pins = s.pins := rfl
@[simp] theorem State.rawZero_tap (a n : Nat) : (s.rawZero a n).tap = s.tap := rfl
@[simp] theorem State.rawZero_out (a n : Nat) : (s.rawZero a n).out = s.out := rfl
@[simp] theorem State.rawZero_free (a n : Nat) : (s.rawZero a n).free = s.free := rfl
@[simp] theorem State.rawZero_pending (a n : Nat) : (s.rawZero a n).pending = s.pending := rfl

@[simp] theorem State.rawCopy_fuses (a b n : Nat) : (s.rawCopy a b n).fuses = s.fuses := rfl
@[simp] theorem State.rawCopy_now (a b n : Nat) : (s.rawCopy a b n).now = s.now := rfl
@[simp] theorem State.rawCopy_timeOff (a b n : Nat) : (s.rawCopy a b n).timeOff = s.timeOff := rfl
@[simp] theorem State.rawCopy_regs (a b n : Nat) : (s.rawCopy a b n).regs = s.regs := rfl
@[simp] theorem State.rawCopy_halves (a b n : Nat) : (s.rawCopy a b n).halves = s.halves := rfl
@[simp] theorem State.rawCopy_hostMem (a b n : Nat) : (s.rawCopy a b n).hostMem = s.hostMem := rfl
@[simp] theorem State.rawCopy_flash (a b n : Nat) : (s.rawCopy a b n).flash = s.flash := rfl
@[simp] theorem State.rawCopy_tick (a b n : Nat) : (s.rawCopy a b n).tick = s.tick := rfl
@[simp] theorem State.rawCopy_tens (a b n : Nat) : (s.rawCopy a b n).tens = s.tens := rfl
@[simp] theorem State.rawCopy_cores (a b n : Nat) : (s.rawCopy a b n).cores = s.cores := rfl
@[simp] theorem State.rawCopy_dists (a b n : Nat) : (s.rawCopy a b n).dists = s.dists := rfl
@[simp] theorem State.rawCopy_blks (a b n : Nat) : (s.rawCopy a b n).blks = s.blks := rfl
@[simp] theorem State.rawCopy_dma (a b n : Nat) : (s.rawCopy a b n).dma = s.dma := rfl
@[simp] theorem State.rawCopy_nextJob (a b n : Nat) : (s.rawCopy a b n).nextJob = s.nextJob := rfl
@[simp] theorem State.rawCopy_posts (a b n : Nat) : (s.rawCopy a b n).posts = s.posts := rfl
@[simp] theorem State.rawCopy_squares (a b n : Nat) : (s.rawCopy a b n).squares = s.squares := rfl
@[simp] theorem State.rawCopy_merge (a b n : Nat) : (s.rawCopy a b n).merge = s.merge := rfl
@[simp] theorem State.rawCopy_poolMin (a b n : Nat) : (s.rawCopy a b n).poolMin = s.poolMin := rfl
@[simp] theorem State.rawCopy_margin (a b n : Nat) : (s.rawCopy a b n).margin = s.margin := rfl
@[simp] theorem State.rawCopy_t1 (a b n : Nat) : (s.rawCopy a b n).t1 = s.t1 := rfl
@[simp] theorem State.rawCopy_t2Len (a b n : Nat) : (s.rawCopy a b n).t2Len = s.t2Len := rfl
@[simp] theorem State.rawCopy_fl (a b n : Nat) : (s.rawCopy a b n).fl = s.fl := rfl
@[simp] theorem State.rawCopy_shp (a b n : Nat) : (s.rawCopy a b n).shp = s.shp := rfl
@[simp] theorem State.rawCopy_thatchRest (a b n : Nat) : (s.rawCopy a b n).thatchRest = s.thatchRest := rfl
@[simp] theorem State.rawCopy_thatchDec (a b n : Nat) : (s.rawCopy a b n).thatchDec = s.thatchDec := rfl
@[simp] theorem State.rawCopy_ic (a b n : Nat) : (s.rawCopy a b n).ic = s.ic := rfl
@[simp] theorem State.rawCopy_hif (a b n : Nat) : (s.rawCopy a b n).hif = s.hif := rfl
@[simp] theorem State.rawCopy_fab (a b n : Nat) : (s.rawCopy a b n).fab = s.fab := rfl
@[simp] theorem State.rawCopy_ports (a b n : Nat) : (s.rawCopy a b n).ports = s.ports := rfl
@[simp] theorem State.rawCopy_alley (a b n : Nat) : (s.rawCopy a b n).alley = s.alley := rfl
@[simp] theorem State.rawCopy_ridge (a b n : Nat) : (s.rawCopy a b n).ridge = s.ridge := rfl
@[simp] theorem State.rawCopy_sec (a b n : Nat) : (s.rawCopy a b n).sec = s.sec := rfl
@[simp] theorem State.rawCopy_pwr (a b n : Nat) : (s.rawCopy a b n).pwr = s.pwr := rfl
@[simp] theorem State.rawCopy_fw (a b n : Nat) : (s.rawCopy a b n).fw = s.fw := rfl
@[simp] theorem State.rawCopy_pins (a b n : Nat) : (s.rawCopy a b n).pins = s.pins := rfl
@[simp] theorem State.rawCopy_tap (a b n : Nat) : (s.rawCopy a b n).tap = s.tap := rfl
@[simp] theorem State.rawCopy_out (a b n : Nat) : (s.rawCopy a b n).out = s.out := rfl
@[simp] theorem State.rawCopy_free (a b n : Nat) : (s.rawCopy a b n).free = s.free := rfl
@[simp] theorem State.rawCopy_pending (a b n : Nat) : (s.rawCopy a b n).pending = s.pending := rfl

@[simp] theorem State.hostWrite_fuses (a : Nat) (l : List Byte) : (s.hostWrite a l).fuses = s.fuses := rfl
@[simp] theorem State.hostWrite_now (a : Nat) (l : List Byte) : (s.hostWrite a l).now = s.now := rfl
@[simp] theorem State.hostWrite_timeOff (a : Nat) (l : List Byte) : (s.hostWrite a l).timeOff = s.timeOff := rfl
@[simp] theorem State.hostWrite_regs (a : Nat) (l : List Byte) : (s.hostWrite a l).regs = s.regs := rfl
@[simp] theorem State.hostWrite_halves (a : Nat) (l : List Byte) : (s.hostWrite a l).halves = s.halves := rfl
@[simp] theorem State.hostWrite_mem (a : Nat) (l : List Byte) : (s.hostWrite a l).mem = s.mem := rfl
@[simp] theorem State.hostWrite_badWords (a : Nat) (l : List Byte) : (s.hostWrite a l).badWords = s.badWords := rfl
@[simp] theorem State.hostWrite_weakWords (a : Nat) (l : List Byte) : (s.hostWrite a l).weakWords = s.weakWords := rfl
@[simp] theorem State.hostWrite_flash (a : Nat) (l : List Byte) : (s.hostWrite a l).flash = s.flash := rfl
@[simp] theorem State.hostWrite_tick (a : Nat) (l : List Byte) : (s.hostWrite a l).tick = s.tick := rfl
@[simp] theorem State.hostWrite_tens (a : Nat) (l : List Byte) : (s.hostWrite a l).tens = s.tens := rfl
@[simp] theorem State.hostWrite_cores (a : Nat) (l : List Byte) : (s.hostWrite a l).cores = s.cores := rfl
@[simp] theorem State.hostWrite_dists (a : Nat) (l : List Byte) : (s.hostWrite a l).dists = s.dists := rfl
@[simp] theorem State.hostWrite_blks (a : Nat) (l : List Byte) : (s.hostWrite a l).blks = s.blks := rfl
@[simp] theorem State.hostWrite_dma (a : Nat) (l : List Byte) : (s.hostWrite a l).dma = s.dma := rfl
@[simp] theorem State.hostWrite_nextJob (a : Nat) (l : List Byte) : (s.hostWrite a l).nextJob = s.nextJob := rfl
@[simp] theorem State.hostWrite_posts (a : Nat) (l : List Byte) : (s.hostWrite a l).posts = s.posts := rfl
@[simp] theorem State.hostWrite_squares (a : Nat) (l : List Byte) : (s.hostWrite a l).squares = s.squares := rfl
@[simp] theorem State.hostWrite_merge (a : Nat) (l : List Byte) : (s.hostWrite a l).merge = s.merge := rfl
@[simp] theorem State.hostWrite_poolMin (a : Nat) (l : List Byte) : (s.hostWrite a l).poolMin = s.poolMin := rfl
@[simp] theorem State.hostWrite_margin (a : Nat) (l : List Byte) : (s.hostWrite a l).margin = s.margin := rfl
@[simp] theorem State.hostWrite_t1 (a : Nat) (l : List Byte) : (s.hostWrite a l).t1 = s.t1 := rfl
@[simp] theorem State.hostWrite_t2Len (a : Nat) (l : List Byte) : (s.hostWrite a l).t2Len = s.t2Len := rfl
@[simp] theorem State.hostWrite_fl (a : Nat) (l : List Byte) : (s.hostWrite a l).fl = s.fl := rfl
@[simp] theorem State.hostWrite_shp (a : Nat) (l : List Byte) : (s.hostWrite a l).shp = s.shp := rfl
@[simp] theorem State.hostWrite_thatchRest (a : Nat) (l : List Byte) : (s.hostWrite a l).thatchRest = s.thatchRest := rfl
@[simp] theorem State.hostWrite_thatchDec (a : Nat) (l : List Byte) : (s.hostWrite a l).thatchDec = s.thatchDec := rfl
@[simp] theorem State.hostWrite_ic (a : Nat) (l : List Byte) : (s.hostWrite a l).ic = s.ic := rfl
@[simp] theorem State.hostWrite_hif (a : Nat) (l : List Byte) : (s.hostWrite a l).hif = s.hif := rfl
@[simp] theorem State.hostWrite_fab (a : Nat) (l : List Byte) : (s.hostWrite a l).fab = s.fab := rfl
@[simp] theorem State.hostWrite_ports (a : Nat) (l : List Byte) : (s.hostWrite a l).ports = s.ports := rfl
@[simp] theorem State.hostWrite_alley (a : Nat) (l : List Byte) : (s.hostWrite a l).alley = s.alley := rfl
@[simp] theorem State.hostWrite_ridge (a : Nat) (l : List Byte) : (s.hostWrite a l).ridge = s.ridge := rfl
@[simp] theorem State.hostWrite_sec (a : Nat) (l : List Byte) : (s.hostWrite a l).sec = s.sec := rfl
@[simp] theorem State.hostWrite_pwr (a : Nat) (l : List Byte) : (s.hostWrite a l).pwr = s.pwr := rfl
@[simp] theorem State.hostWrite_fw (a : Nat) (l : List Byte) : (s.hostWrite a l).fw = s.fw := rfl
@[simp] theorem State.hostWrite_pins (a : Nat) (l : List Byte) : (s.hostWrite a l).pins = s.pins := rfl
@[simp] theorem State.hostWrite_tap (a : Nat) (l : List Byte) : (s.hostWrite a l).tap = s.tap := rfl
@[simp] theorem State.hostWrite_out (a : Nat) (l : List Byte) : (s.hostWrite a l).out = s.out := rfl
@[simp] theorem State.hostWrite_free (a : Nat) (l : List Byte) : (s.hostWrite a l).free = s.free := rfl
@[simp] theorem State.hostWrite_pending (a : Nat) (l : List Byte) : (s.hostWrite a l).pending = s.pending := rfl

@[simp] theorem State.flashWrite_fuses (a : Nat) (l : List Byte) : (s.flashWrite a l).fuses = s.fuses := rfl
@[simp] theorem State.flashWrite_now (a : Nat) (l : List Byte) : (s.flashWrite a l).now = s.now := rfl
@[simp] theorem State.flashWrite_timeOff (a : Nat) (l : List Byte) : (s.flashWrite a l).timeOff = s.timeOff := rfl
@[simp] theorem State.flashWrite_regs (a : Nat) (l : List Byte) : (s.flashWrite a l).regs = s.regs := rfl
@[simp] theorem State.flashWrite_halves (a : Nat) (l : List Byte) : (s.flashWrite a l).halves = s.halves := rfl
@[simp] theorem State.flashWrite_mem (a : Nat) (l : List Byte) : (s.flashWrite a l).mem = s.mem := rfl
@[simp] theorem State.flashWrite_badWords (a : Nat) (l : List Byte) : (s.flashWrite a l).badWords = s.badWords := rfl
@[simp] theorem State.flashWrite_weakWords (a : Nat) (l : List Byte) : (s.flashWrite a l).weakWords = s.weakWords := rfl
@[simp] theorem State.flashWrite_hostMem (a : Nat) (l : List Byte) : (s.flashWrite a l).hostMem = s.hostMem := rfl
@[simp] theorem State.flashWrite_tick (a : Nat) (l : List Byte) : (s.flashWrite a l).tick = s.tick := rfl
@[simp] theorem State.flashWrite_tens (a : Nat) (l : List Byte) : (s.flashWrite a l).tens = s.tens := rfl
@[simp] theorem State.flashWrite_cores (a : Nat) (l : List Byte) : (s.flashWrite a l).cores = s.cores := rfl
@[simp] theorem State.flashWrite_dists (a : Nat) (l : List Byte) : (s.flashWrite a l).dists = s.dists := rfl
@[simp] theorem State.flashWrite_blks (a : Nat) (l : List Byte) : (s.flashWrite a l).blks = s.blks := rfl
@[simp] theorem State.flashWrite_dma (a : Nat) (l : List Byte) : (s.flashWrite a l).dma = s.dma := rfl
@[simp] theorem State.flashWrite_nextJob (a : Nat) (l : List Byte) : (s.flashWrite a l).nextJob = s.nextJob := rfl
@[simp] theorem State.flashWrite_posts (a : Nat) (l : List Byte) : (s.flashWrite a l).posts = s.posts := rfl
@[simp] theorem State.flashWrite_squares (a : Nat) (l : List Byte) : (s.flashWrite a l).squares = s.squares := rfl
@[simp] theorem State.flashWrite_merge (a : Nat) (l : List Byte) : (s.flashWrite a l).merge = s.merge := rfl
@[simp] theorem State.flashWrite_poolMin (a : Nat) (l : List Byte) : (s.flashWrite a l).poolMin = s.poolMin := rfl
@[simp] theorem State.flashWrite_margin (a : Nat) (l : List Byte) : (s.flashWrite a l).margin = s.margin := rfl
@[simp] theorem State.flashWrite_t1 (a : Nat) (l : List Byte) : (s.flashWrite a l).t1 = s.t1 := rfl
@[simp] theorem State.flashWrite_t2Len (a : Nat) (l : List Byte) : (s.flashWrite a l).t2Len = s.t2Len := rfl
@[simp] theorem State.flashWrite_fl (a : Nat) (l : List Byte) : (s.flashWrite a l).fl = s.fl := rfl
@[simp] theorem State.flashWrite_shp (a : Nat) (l : List Byte) : (s.flashWrite a l).shp = s.shp := rfl
@[simp] theorem State.flashWrite_thatchRest (a : Nat) (l : List Byte) : (s.flashWrite a l).thatchRest = s.thatchRest := rfl
@[simp] theorem State.flashWrite_thatchDec (a : Nat) (l : List Byte) : (s.flashWrite a l).thatchDec = s.thatchDec := rfl
@[simp] theorem State.flashWrite_ic (a : Nat) (l : List Byte) : (s.flashWrite a l).ic = s.ic := rfl
@[simp] theorem State.flashWrite_hif (a : Nat) (l : List Byte) : (s.flashWrite a l).hif = s.hif := rfl
@[simp] theorem State.flashWrite_fab (a : Nat) (l : List Byte) : (s.flashWrite a l).fab = s.fab := rfl
@[simp] theorem State.flashWrite_ports (a : Nat) (l : List Byte) : (s.flashWrite a l).ports = s.ports := rfl
@[simp] theorem State.flashWrite_alley (a : Nat) (l : List Byte) : (s.flashWrite a l).alley = s.alley := rfl
@[simp] theorem State.flashWrite_ridge (a : Nat) (l : List Byte) : (s.flashWrite a l).ridge = s.ridge := rfl
@[simp] theorem State.flashWrite_sec (a : Nat) (l : List Byte) : (s.flashWrite a l).sec = s.sec := rfl
@[simp] theorem State.flashWrite_pwr (a : Nat) (l : List Byte) : (s.flashWrite a l).pwr = s.pwr := rfl
@[simp] theorem State.flashWrite_fw (a : Nat) (l : List Byte) : (s.flashWrite a l).fw = s.fw := rfl
@[simp] theorem State.flashWrite_pins (a : Nat) (l : List Byte) : (s.flashWrite a l).pins = s.pins := rfl
@[simp] theorem State.flashWrite_tap (a : Nat) (l : List Byte) : (s.flashWrite a l).tap = s.tap := rfl
@[simp] theorem State.flashWrite_out (a : Nat) (l : List Byte) : (s.flashWrite a l).out = s.out := rfl
@[simp] theorem State.flashWrite_free (a : Nat) (l : List Byte) : (s.flashWrite a l).free = s.free := rfl
@[simp] theorem State.flashWrite_pending (a : Nat) (l : List Byte) : (s.flashWrite a l).pending = s.pending := rfl

@[simp] theorem State.flashErase_fuses (a n : Nat) : (s.flashErase a n).fuses = s.fuses := rfl
@[simp] theorem State.flashErase_now (a n : Nat) : (s.flashErase a n).now = s.now := rfl
@[simp] theorem State.flashErase_timeOff (a n : Nat) : (s.flashErase a n).timeOff = s.timeOff := rfl
@[simp] theorem State.flashErase_regs (a n : Nat) : (s.flashErase a n).regs = s.regs := rfl
@[simp] theorem State.flashErase_halves (a n : Nat) : (s.flashErase a n).halves = s.halves := rfl
@[simp] theorem State.flashErase_mem (a n : Nat) : (s.flashErase a n).mem = s.mem := rfl
@[simp] theorem State.flashErase_badWords (a n : Nat) : (s.flashErase a n).badWords = s.badWords := rfl
@[simp] theorem State.flashErase_weakWords (a n : Nat) : (s.flashErase a n).weakWords = s.weakWords := rfl
@[simp] theorem State.flashErase_hostMem (a n : Nat) : (s.flashErase a n).hostMem = s.hostMem := rfl
@[simp] theorem State.flashErase_tick (a n : Nat) : (s.flashErase a n).tick = s.tick := rfl
@[simp] theorem State.flashErase_tens (a n : Nat) : (s.flashErase a n).tens = s.tens := rfl
@[simp] theorem State.flashErase_cores (a n : Nat) : (s.flashErase a n).cores = s.cores := rfl
@[simp] theorem State.flashErase_dists (a n : Nat) : (s.flashErase a n).dists = s.dists := rfl
@[simp] theorem State.flashErase_blks (a n : Nat) : (s.flashErase a n).blks = s.blks := rfl
@[simp] theorem State.flashErase_dma (a n : Nat) : (s.flashErase a n).dma = s.dma := rfl
@[simp] theorem State.flashErase_nextJob (a n : Nat) : (s.flashErase a n).nextJob = s.nextJob := rfl
@[simp] theorem State.flashErase_posts (a n : Nat) : (s.flashErase a n).posts = s.posts := rfl
@[simp] theorem State.flashErase_squares (a n : Nat) : (s.flashErase a n).squares = s.squares := rfl
@[simp] theorem State.flashErase_merge (a n : Nat) : (s.flashErase a n).merge = s.merge := rfl
@[simp] theorem State.flashErase_poolMin (a n : Nat) : (s.flashErase a n).poolMin = s.poolMin := rfl
@[simp] theorem State.flashErase_margin (a n : Nat) : (s.flashErase a n).margin = s.margin := rfl
@[simp] theorem State.flashErase_t1 (a n : Nat) : (s.flashErase a n).t1 = s.t1 := rfl
@[simp] theorem State.flashErase_t2Len (a n : Nat) : (s.flashErase a n).t2Len = s.t2Len := rfl
@[simp] theorem State.flashErase_fl (a n : Nat) : (s.flashErase a n).fl = s.fl := rfl
@[simp] theorem State.flashErase_shp (a n : Nat) : (s.flashErase a n).shp = s.shp := rfl
@[simp] theorem State.flashErase_thatchRest (a n : Nat) : (s.flashErase a n).thatchRest = s.thatchRest := rfl
@[simp] theorem State.flashErase_thatchDec (a n : Nat) : (s.flashErase a n).thatchDec = s.thatchDec := rfl
@[simp] theorem State.flashErase_ic (a n : Nat) : (s.flashErase a n).ic = s.ic := rfl
@[simp] theorem State.flashErase_hif (a n : Nat) : (s.flashErase a n).hif = s.hif := rfl
@[simp] theorem State.flashErase_fab (a n : Nat) : (s.flashErase a n).fab = s.fab := rfl
@[simp] theorem State.flashErase_ports (a n : Nat) : (s.flashErase a n).ports = s.ports := rfl
@[simp] theorem State.flashErase_alley (a n : Nat) : (s.flashErase a n).alley = s.alley := rfl
@[simp] theorem State.flashErase_ridge (a n : Nat) : (s.flashErase a n).ridge = s.ridge := rfl
@[simp] theorem State.flashErase_sec (a n : Nat) : (s.flashErase a n).sec = s.sec := rfl
@[simp] theorem State.flashErase_pwr (a n : Nat) : (s.flashErase a n).pwr = s.pwr := rfl
@[simp] theorem State.flashErase_fw (a n : Nat) : (s.flashErase a n).fw = s.fw := rfl
@[simp] theorem State.flashErase_pins (a n : Nat) : (s.flashErase a n).pins = s.pins := rfl
@[simp] theorem State.flashErase_tap (a n : Nat) : (s.flashErase a n).tap = s.tap := rfl
@[simp] theorem State.flashErase_out (a n : Nat) : (s.flashErase a n).out = s.out := rfl
@[simp] theorem State.flashErase_free (a n : Nat) : (s.flashErase a n).free = s.free := rfl
@[simp] theorem State.flashErase_pending (a n : Nat) : (s.flashErase a n).pending = s.pending := rfl

@[simp] theorem State.resetRegs_fuses (lo n : Nat) : (s.resetRegs lo n).fuses = s.fuses := rfl
@[simp] theorem State.resetRegs_now (lo n : Nat) : (s.resetRegs lo n).now = s.now := rfl
@[simp] theorem State.resetRegs_timeOff (lo n : Nat) : (s.resetRegs lo n).timeOff = s.timeOff := rfl
@[simp] theorem State.resetRegs_halves (lo n : Nat) : (s.resetRegs lo n).halves = s.halves := rfl
@[simp] theorem State.resetRegs_mem (lo n : Nat) : (s.resetRegs lo n).mem = s.mem := rfl
@[simp] theorem State.resetRegs_badWords (lo n : Nat) : (s.resetRegs lo n).badWords = s.badWords := rfl
@[simp] theorem State.resetRegs_weakWords (lo n : Nat) : (s.resetRegs lo n).weakWords = s.weakWords := rfl
@[simp] theorem State.resetRegs_hostMem (lo n : Nat) : (s.resetRegs lo n).hostMem = s.hostMem := rfl
@[simp] theorem State.resetRegs_flash (lo n : Nat) : (s.resetRegs lo n).flash = s.flash := rfl
@[simp] theorem State.resetRegs_tick (lo n : Nat) : (s.resetRegs lo n).tick = s.tick := rfl
@[simp] theorem State.resetRegs_tens (lo n : Nat) : (s.resetRegs lo n).tens = s.tens := rfl
@[simp] theorem State.resetRegs_cores (lo n : Nat) : (s.resetRegs lo n).cores = s.cores := rfl
@[simp] theorem State.resetRegs_dists (lo n : Nat) : (s.resetRegs lo n).dists = s.dists := rfl
@[simp] theorem State.resetRegs_blks (lo n : Nat) : (s.resetRegs lo n).blks = s.blks := rfl
@[simp] theorem State.resetRegs_dma (lo n : Nat) : (s.resetRegs lo n).dma = s.dma := rfl
@[simp] theorem State.resetRegs_nextJob (lo n : Nat) : (s.resetRegs lo n).nextJob = s.nextJob := rfl
@[simp] theorem State.resetRegs_posts (lo n : Nat) : (s.resetRegs lo n).posts = s.posts := rfl
@[simp] theorem State.resetRegs_squares (lo n : Nat) : (s.resetRegs lo n).squares = s.squares := rfl
@[simp] theorem State.resetRegs_merge (lo n : Nat) : (s.resetRegs lo n).merge = s.merge := rfl
@[simp] theorem State.resetRegs_poolMin (lo n : Nat) : (s.resetRegs lo n).poolMin = s.poolMin := rfl
@[simp] theorem State.resetRegs_margin (lo n : Nat) : (s.resetRegs lo n).margin = s.margin := rfl
@[simp] theorem State.resetRegs_t1 (lo n : Nat) : (s.resetRegs lo n).t1 = s.t1 := rfl
@[simp] theorem State.resetRegs_t2Len (lo n : Nat) : (s.resetRegs lo n).t2Len = s.t2Len := rfl
@[simp] theorem State.resetRegs_fl (lo n : Nat) : (s.resetRegs lo n).fl = s.fl := rfl
@[simp] theorem State.resetRegs_shp (lo n : Nat) : (s.resetRegs lo n).shp = s.shp := rfl
@[simp] theorem State.resetRegs_thatchRest (lo n : Nat) : (s.resetRegs lo n).thatchRest = s.thatchRest := rfl
@[simp] theorem State.resetRegs_thatchDec (lo n : Nat) : (s.resetRegs lo n).thatchDec = s.thatchDec := rfl
@[simp] theorem State.resetRegs_ic (lo n : Nat) : (s.resetRegs lo n).ic = s.ic := rfl
@[simp] theorem State.resetRegs_hif (lo n : Nat) : (s.resetRegs lo n).hif = s.hif := rfl
@[simp] theorem State.resetRegs_fab (lo n : Nat) : (s.resetRegs lo n).fab = s.fab := rfl
@[simp] theorem State.resetRegs_ports (lo n : Nat) : (s.resetRegs lo n).ports = s.ports := rfl
@[simp] theorem State.resetRegs_alley (lo n : Nat) : (s.resetRegs lo n).alley = s.alley := rfl
@[simp] theorem State.resetRegs_ridge (lo n : Nat) : (s.resetRegs lo n).ridge = s.ridge := rfl
@[simp] theorem State.resetRegs_sec (lo n : Nat) : (s.resetRegs lo n).sec = s.sec := rfl
@[simp] theorem State.resetRegs_pwr (lo n : Nat) : (s.resetRegs lo n).pwr = s.pwr := rfl
@[simp] theorem State.resetRegs_fw (lo n : Nat) : (s.resetRegs lo n).fw = s.fw := rfl
@[simp] theorem State.resetRegs_pins (lo n : Nat) : (s.resetRegs lo n).pins = s.pins := rfl
@[simp] theorem State.resetRegs_tap (lo n : Nat) : (s.resetRegs lo n).tap = s.tap := rfl
@[simp] theorem State.resetRegs_out (lo n : Nat) : (s.resetRegs lo n).out = s.out := rfl
@[simp] theorem State.resetRegs_free (lo n : Nat) : (s.resetRegs lo n).free = s.free := rfl
@[simp] theorem State.resetRegs_pending (lo n : Nat) : (s.resetRegs lo n).pending = s.pending := rfl

@[simp] theorem State.fset_fuses (f : Fld) (ix : List Nat) (x : Nat) : (s.fset f ix x).fuses = s.fuses := State.rset_fuses s _ _ _
@[simp] theorem State.fset_now (f : Fld) (ix : List Nat) (x : Nat) : (s.fset f ix x).now = s.now := State.rset_now s _ _ _
@[simp] theorem State.fset_timeOff (f : Fld) (ix : List Nat) (x : Nat) : (s.fset f ix x).timeOff = s.timeOff := State.rset_timeOff s _ _ _
@[simp] theorem State.fset_halves (f : Fld) (ix : List Nat) (x : Nat) : (s.fset f ix x).halves = s.halves := State.rset_halves s _ _ _
@[simp] theorem State.fset_mem (f : Fld) (ix : List Nat) (x : Nat) : (s.fset f ix x).mem = s.mem := State.rset_mem s _ _ _
@[simp] theorem State.fset_badWords (f : Fld) (ix : List Nat) (x : Nat) : (s.fset f ix x).badWords = s.badWords := State.rset_badWords s _ _ _
@[simp] theorem State.fset_weakWords (f : Fld) (ix : List Nat) (x : Nat) : (s.fset f ix x).weakWords = s.weakWords := State.rset_weakWords s _ _ _
@[simp] theorem State.fset_hostMem (f : Fld) (ix : List Nat) (x : Nat) : (s.fset f ix x).hostMem = s.hostMem := State.rset_hostMem s _ _ _
@[simp] theorem State.fset_flash (f : Fld) (ix : List Nat) (x : Nat) : (s.fset f ix x).flash = s.flash := State.rset_flash s _ _ _
@[simp] theorem State.fset_tick (f : Fld) (ix : List Nat) (x : Nat) : (s.fset f ix x).tick = s.tick := State.rset_tick s _ _ _
@[simp] theorem State.fset_tens (f : Fld) (ix : List Nat) (x : Nat) : (s.fset f ix x).tens = s.tens := State.rset_tens s _ _ _
@[simp] theorem State.fset_cores (f : Fld) (ix : List Nat) (x : Nat) : (s.fset f ix x).cores = s.cores := State.rset_cores s _ _ _
@[simp] theorem State.fset_dists (f : Fld) (ix : List Nat) (x : Nat) : (s.fset f ix x).dists = s.dists := State.rset_dists s _ _ _
@[simp] theorem State.fset_blks (f : Fld) (ix : List Nat) (x : Nat) : (s.fset f ix x).blks = s.blks := State.rset_blks s _ _ _
@[simp] theorem State.fset_dma (f : Fld) (ix : List Nat) (x : Nat) : (s.fset f ix x).dma = s.dma := State.rset_dma s _ _ _
@[simp] theorem State.fset_nextJob (f : Fld) (ix : List Nat) (x : Nat) : (s.fset f ix x).nextJob = s.nextJob := State.rset_nextJob s _ _ _
@[simp] theorem State.fset_posts (f : Fld) (ix : List Nat) (x : Nat) : (s.fset f ix x).posts = s.posts := State.rset_posts s _ _ _
@[simp] theorem State.fset_squares (f : Fld) (ix : List Nat) (x : Nat) : (s.fset f ix x).squares = s.squares := State.rset_squares s _ _ _
@[simp] theorem State.fset_merge (f : Fld) (ix : List Nat) (x : Nat) : (s.fset f ix x).merge = s.merge := State.rset_merge s _ _ _
@[simp] theorem State.fset_poolMin (f : Fld) (ix : List Nat) (x : Nat) : (s.fset f ix x).poolMin = s.poolMin := State.rset_poolMin s _ _ _
@[simp] theorem State.fset_margin (f : Fld) (ix : List Nat) (x : Nat) : (s.fset f ix x).margin = s.margin := State.rset_margin s _ _ _
@[simp] theorem State.fset_t1 (f : Fld) (ix : List Nat) (x : Nat) : (s.fset f ix x).t1 = s.t1 := State.rset_t1 s _ _ _
@[simp] theorem State.fset_t2Len (f : Fld) (ix : List Nat) (x : Nat) : (s.fset f ix x).t2Len = s.t2Len := State.rset_t2Len s _ _ _
@[simp] theorem State.fset_fl (f : Fld) (ix : List Nat) (x : Nat) : (s.fset f ix x).fl = s.fl := State.rset_fl s _ _ _
@[simp] theorem State.fset_shp (f : Fld) (ix : List Nat) (x : Nat) : (s.fset f ix x).shp = s.shp := State.rset_shp s _ _ _
@[simp] theorem State.fset_thatchRest (f : Fld) (ix : List Nat) (x : Nat) : (s.fset f ix x).thatchRest = s.thatchRest := State.rset_thatchRest s _ _ _
@[simp] theorem State.fset_thatchDec (f : Fld) (ix : List Nat) (x : Nat) : (s.fset f ix x).thatchDec = s.thatchDec := State.rset_thatchDec s _ _ _
@[simp] theorem State.fset_ic (f : Fld) (ix : List Nat) (x : Nat) : (s.fset f ix x).ic = s.ic := State.rset_ic s _ _ _
@[simp] theorem State.fset_hif (f : Fld) (ix : List Nat) (x : Nat) : (s.fset f ix x).hif = s.hif := State.rset_hif s _ _ _
@[simp] theorem State.fset_fab (f : Fld) (ix : List Nat) (x : Nat) : (s.fset f ix x).fab = s.fab := State.rset_fab s _ _ _
@[simp] theorem State.fset_ports (f : Fld) (ix : List Nat) (x : Nat) : (s.fset f ix x).ports = s.ports := State.rset_ports s _ _ _
@[simp] theorem State.fset_alley (f : Fld) (ix : List Nat) (x : Nat) : (s.fset f ix x).alley = s.alley := State.rset_alley s _ _ _
@[simp] theorem State.fset_ridge (f : Fld) (ix : List Nat) (x : Nat) : (s.fset f ix x).ridge = s.ridge := State.rset_ridge s _ _ _
@[simp] theorem State.fset_sec (f : Fld) (ix : List Nat) (x : Nat) : (s.fset f ix x).sec = s.sec := State.rset_sec s _ _ _
@[simp] theorem State.fset_pwr (f : Fld) (ix : List Nat) (x : Nat) : (s.fset f ix x).pwr = s.pwr := State.rset_pwr s _ _ _
@[simp] theorem State.fset_fw (f : Fld) (ix : List Nat) (x : Nat) : (s.fset f ix x).fw = s.fw := State.rset_fw s _ _ _
@[simp] theorem State.fset_pins (f : Fld) (ix : List Nat) (x : Nat) : (s.fset f ix x).pins = s.pins := State.rset_pins s _ _ _
@[simp] theorem State.fset_tap (f : Fld) (ix : List Nat) (x : Nat) : (s.fset f ix x).tap = s.tap := State.rset_tap s _ _ _
@[simp] theorem State.fset_out (f : Fld) (ix : List Nat) (x : Nat) : (s.fset f ix x).out = s.out := State.rset_out s _ _ _
@[simp] theorem State.fset_free (f : Fld) (ix : List Nat) (x : Nat) : (s.fset f ix x).free = s.free := State.rset_free s _ _ _
@[simp] theorem State.fset_pending (f : Fld) (ix : List Nat) (x : Nat) : (s.fset f ix x).pending = s.pending := State.rset_pending s _ _ _

@[simp] theorem State.fsat_fuses (f : Fld) (ix : List Nat) (x : Nat) : (s.fsat f ix x).fuses = s.fuses := State.fset_fuses s _ _ _
@[simp] theorem State.fsat_now (f : Fld) (ix : List Nat) (x : Nat) : (s.fsat f ix x).now = s.now := State.fset_now s _ _ _
@[simp] theorem State.fsat_timeOff (f : Fld) (ix : List Nat) (x : Nat) : (s.fsat f ix x).timeOff = s.timeOff := State.fset_timeOff s _ _ _
@[simp] theorem State.fsat_halves (f : Fld) (ix : List Nat) (x : Nat) : (s.fsat f ix x).halves = s.halves := State.fset_halves s _ _ _
@[simp] theorem State.fsat_mem (f : Fld) (ix : List Nat) (x : Nat) : (s.fsat f ix x).mem = s.mem := State.fset_mem s _ _ _
@[simp] theorem State.fsat_badWords (f : Fld) (ix : List Nat) (x : Nat) : (s.fsat f ix x).badWords = s.badWords := State.fset_badWords s _ _ _
@[simp] theorem State.fsat_weakWords (f : Fld) (ix : List Nat) (x : Nat) : (s.fsat f ix x).weakWords = s.weakWords := State.fset_weakWords s _ _ _
@[simp] theorem State.fsat_hostMem (f : Fld) (ix : List Nat) (x : Nat) : (s.fsat f ix x).hostMem = s.hostMem := State.fset_hostMem s _ _ _
@[simp] theorem State.fsat_flash (f : Fld) (ix : List Nat) (x : Nat) : (s.fsat f ix x).flash = s.flash := State.fset_flash s _ _ _
@[simp] theorem State.fsat_tick (f : Fld) (ix : List Nat) (x : Nat) : (s.fsat f ix x).tick = s.tick := State.fset_tick s _ _ _
@[simp] theorem State.fsat_tens (f : Fld) (ix : List Nat) (x : Nat) : (s.fsat f ix x).tens = s.tens := State.fset_tens s _ _ _
@[simp] theorem State.fsat_cores (f : Fld) (ix : List Nat) (x : Nat) : (s.fsat f ix x).cores = s.cores := State.fset_cores s _ _ _
@[simp] theorem State.fsat_dists (f : Fld) (ix : List Nat) (x : Nat) : (s.fsat f ix x).dists = s.dists := State.fset_dists s _ _ _
@[simp] theorem State.fsat_blks (f : Fld) (ix : List Nat) (x : Nat) : (s.fsat f ix x).blks = s.blks := State.fset_blks s _ _ _
@[simp] theorem State.fsat_dma (f : Fld) (ix : List Nat) (x : Nat) : (s.fsat f ix x).dma = s.dma := State.fset_dma s _ _ _
@[simp] theorem State.fsat_nextJob (f : Fld) (ix : List Nat) (x : Nat) : (s.fsat f ix x).nextJob = s.nextJob := State.fset_nextJob s _ _ _
@[simp] theorem State.fsat_posts (f : Fld) (ix : List Nat) (x : Nat) : (s.fsat f ix x).posts = s.posts := State.fset_posts s _ _ _
@[simp] theorem State.fsat_squares (f : Fld) (ix : List Nat) (x : Nat) : (s.fsat f ix x).squares = s.squares := State.fset_squares s _ _ _
@[simp] theorem State.fsat_merge (f : Fld) (ix : List Nat) (x : Nat) : (s.fsat f ix x).merge = s.merge := State.fset_merge s _ _ _
@[simp] theorem State.fsat_poolMin (f : Fld) (ix : List Nat) (x : Nat) : (s.fsat f ix x).poolMin = s.poolMin := State.fset_poolMin s _ _ _
@[simp] theorem State.fsat_margin (f : Fld) (ix : List Nat) (x : Nat) : (s.fsat f ix x).margin = s.margin := State.fset_margin s _ _ _
@[simp] theorem State.fsat_t1 (f : Fld) (ix : List Nat) (x : Nat) : (s.fsat f ix x).t1 = s.t1 := State.fset_t1 s _ _ _
@[simp] theorem State.fsat_t2Len (f : Fld) (ix : List Nat) (x : Nat) : (s.fsat f ix x).t2Len = s.t2Len := State.fset_t2Len s _ _ _
@[simp] theorem State.fsat_fl (f : Fld) (ix : List Nat) (x : Nat) : (s.fsat f ix x).fl = s.fl := State.fset_fl s _ _ _
@[simp] theorem State.fsat_shp (f : Fld) (ix : List Nat) (x : Nat) : (s.fsat f ix x).shp = s.shp := State.fset_shp s _ _ _
@[simp] theorem State.fsat_thatchRest (f : Fld) (ix : List Nat) (x : Nat) : (s.fsat f ix x).thatchRest = s.thatchRest := State.fset_thatchRest s _ _ _
@[simp] theorem State.fsat_thatchDec (f : Fld) (ix : List Nat) (x : Nat) : (s.fsat f ix x).thatchDec = s.thatchDec := State.fset_thatchDec s _ _ _
@[simp] theorem State.fsat_ic (f : Fld) (ix : List Nat) (x : Nat) : (s.fsat f ix x).ic = s.ic := State.fset_ic s _ _ _
@[simp] theorem State.fsat_hif (f : Fld) (ix : List Nat) (x : Nat) : (s.fsat f ix x).hif = s.hif := State.fset_hif s _ _ _
@[simp] theorem State.fsat_fab (f : Fld) (ix : List Nat) (x : Nat) : (s.fsat f ix x).fab = s.fab := State.fset_fab s _ _ _
@[simp] theorem State.fsat_ports (f : Fld) (ix : List Nat) (x : Nat) : (s.fsat f ix x).ports = s.ports := State.fset_ports s _ _ _
@[simp] theorem State.fsat_alley (f : Fld) (ix : List Nat) (x : Nat) : (s.fsat f ix x).alley = s.alley := State.fset_alley s _ _ _
@[simp] theorem State.fsat_ridge (f : Fld) (ix : List Nat) (x : Nat) : (s.fsat f ix x).ridge = s.ridge := State.fset_ridge s _ _ _
@[simp] theorem State.fsat_sec (f : Fld) (ix : List Nat) (x : Nat) : (s.fsat f ix x).sec = s.sec := State.fset_sec s _ _ _
@[simp] theorem State.fsat_pwr (f : Fld) (ix : List Nat) (x : Nat) : (s.fsat f ix x).pwr = s.pwr := State.fset_pwr s _ _ _
@[simp] theorem State.fsat_fw (f : Fld) (ix : List Nat) (x : Nat) : (s.fsat f ix x).fw = s.fw := State.fset_fw s _ _ _
@[simp] theorem State.fsat_pins (f : Fld) (ix : List Nat) (x : Nat) : (s.fsat f ix x).pins = s.pins := State.fset_pins s _ _ _
@[simp] theorem State.fsat_tap (f : Fld) (ix : List Nat) (x : Nat) : (s.fsat f ix x).tap = s.tap := State.fset_tap s _ _ _
@[simp] theorem State.fsat_out (f : Fld) (ix : List Nat) (x : Nat) : (s.fsat f ix x).out = s.out := State.fset_out s _ _ _
@[simp] theorem State.fsat_free (f : Fld) (ix : List Nat) (x : Nat) : (s.fsat f ix x).free = s.free := State.fset_free s _ _ _
@[simp] theorem State.fsat_pending (f : Fld) (ix : List Nat) (x : Nat) : (s.fsat f ix x).pending = s.pending := State.fset_pending s _ _ _

@[simp] theorem State.fadd_fuses (f : Fld) (ix : List Nat) (x : Nat) : (s.fadd f ix x).fuses = s.fuses := State.fset_fuses s _ _ _
@[simp] theorem State.fadd_now (f : Fld) (ix : List Nat) (x : Nat) : (s.fadd f ix x).now = s.now := State.fset_now s _ _ _
@[simp] theorem State.fadd_timeOff (f : Fld) (ix : List Nat) (x : Nat) : (s.fadd f ix x).timeOff = s.timeOff := State.fset_timeOff s _ _ _
@[simp] theorem State.fadd_halves (f : Fld) (ix : List Nat) (x : Nat) : (s.fadd f ix x).halves = s.halves := State.fset_halves s _ _ _
@[simp] theorem State.fadd_mem (f : Fld) (ix : List Nat) (x : Nat) : (s.fadd f ix x).mem = s.mem := State.fset_mem s _ _ _
@[simp] theorem State.fadd_badWords (f : Fld) (ix : List Nat) (x : Nat) : (s.fadd f ix x).badWords = s.badWords := State.fset_badWords s _ _ _
@[simp] theorem State.fadd_weakWords (f : Fld) (ix : List Nat) (x : Nat) : (s.fadd f ix x).weakWords = s.weakWords := State.fset_weakWords s _ _ _
@[simp] theorem State.fadd_hostMem (f : Fld) (ix : List Nat) (x : Nat) : (s.fadd f ix x).hostMem = s.hostMem := State.fset_hostMem s _ _ _
@[simp] theorem State.fadd_flash (f : Fld) (ix : List Nat) (x : Nat) : (s.fadd f ix x).flash = s.flash := State.fset_flash s _ _ _
@[simp] theorem State.fadd_tick (f : Fld) (ix : List Nat) (x : Nat) : (s.fadd f ix x).tick = s.tick := State.fset_tick s _ _ _
@[simp] theorem State.fadd_tens (f : Fld) (ix : List Nat) (x : Nat) : (s.fadd f ix x).tens = s.tens := State.fset_tens s _ _ _
@[simp] theorem State.fadd_cores (f : Fld) (ix : List Nat) (x : Nat) : (s.fadd f ix x).cores = s.cores := State.fset_cores s _ _ _
@[simp] theorem State.fadd_dists (f : Fld) (ix : List Nat) (x : Nat) : (s.fadd f ix x).dists = s.dists := State.fset_dists s _ _ _
@[simp] theorem State.fadd_blks (f : Fld) (ix : List Nat) (x : Nat) : (s.fadd f ix x).blks = s.blks := State.fset_blks s _ _ _
@[simp] theorem State.fadd_dma (f : Fld) (ix : List Nat) (x : Nat) : (s.fadd f ix x).dma = s.dma := State.fset_dma s _ _ _
@[simp] theorem State.fadd_nextJob (f : Fld) (ix : List Nat) (x : Nat) : (s.fadd f ix x).nextJob = s.nextJob := State.fset_nextJob s _ _ _
@[simp] theorem State.fadd_posts (f : Fld) (ix : List Nat) (x : Nat) : (s.fadd f ix x).posts = s.posts := State.fset_posts s _ _ _
@[simp] theorem State.fadd_squares (f : Fld) (ix : List Nat) (x : Nat) : (s.fadd f ix x).squares = s.squares := State.fset_squares s _ _ _
@[simp] theorem State.fadd_merge (f : Fld) (ix : List Nat) (x : Nat) : (s.fadd f ix x).merge = s.merge := State.fset_merge s _ _ _
@[simp] theorem State.fadd_poolMin (f : Fld) (ix : List Nat) (x : Nat) : (s.fadd f ix x).poolMin = s.poolMin := State.fset_poolMin s _ _ _
@[simp] theorem State.fadd_margin (f : Fld) (ix : List Nat) (x : Nat) : (s.fadd f ix x).margin = s.margin := State.fset_margin s _ _ _
@[simp] theorem State.fadd_t1 (f : Fld) (ix : List Nat) (x : Nat) : (s.fadd f ix x).t1 = s.t1 := State.fset_t1 s _ _ _
@[simp] theorem State.fadd_t2Len (f : Fld) (ix : List Nat) (x : Nat) : (s.fadd f ix x).t2Len = s.t2Len := State.fset_t2Len s _ _ _
@[simp] theorem State.fadd_fl (f : Fld) (ix : List Nat) (x : Nat) : (s.fadd f ix x).fl = s.fl := State.fset_fl s _ _ _
@[simp] theorem State.fadd_shp (f : Fld) (ix : List Nat) (x : Nat) : (s.fadd f ix x).shp = s.shp := State.fset_shp s _ _ _
@[simp] theorem State.fadd_thatchRest (f : Fld) (ix : List Nat) (x : Nat) : (s.fadd f ix x).thatchRest = s.thatchRest := State.fset_thatchRest s _ _ _
@[simp] theorem State.fadd_thatchDec (f : Fld) (ix : List Nat) (x : Nat) : (s.fadd f ix x).thatchDec = s.thatchDec := State.fset_thatchDec s _ _ _
@[simp] theorem State.fadd_ic (f : Fld) (ix : List Nat) (x : Nat) : (s.fadd f ix x).ic = s.ic := State.fset_ic s _ _ _
@[simp] theorem State.fadd_hif (f : Fld) (ix : List Nat) (x : Nat) : (s.fadd f ix x).hif = s.hif := State.fset_hif s _ _ _
@[simp] theorem State.fadd_fab (f : Fld) (ix : List Nat) (x : Nat) : (s.fadd f ix x).fab = s.fab := State.fset_fab s _ _ _
@[simp] theorem State.fadd_ports (f : Fld) (ix : List Nat) (x : Nat) : (s.fadd f ix x).ports = s.ports := State.fset_ports s _ _ _
@[simp] theorem State.fadd_alley (f : Fld) (ix : List Nat) (x : Nat) : (s.fadd f ix x).alley = s.alley := State.fset_alley s _ _ _
@[simp] theorem State.fadd_ridge (f : Fld) (ix : List Nat) (x : Nat) : (s.fadd f ix x).ridge = s.ridge := State.fset_ridge s _ _ _
@[simp] theorem State.fadd_sec (f : Fld) (ix : List Nat) (x : Nat) : (s.fadd f ix x).sec = s.sec := State.fset_sec s _ _ _
@[simp] theorem State.fadd_pwr (f : Fld) (ix : List Nat) (x : Nat) : (s.fadd f ix x).pwr = s.pwr := State.fset_pwr s _ _ _
@[simp] theorem State.fadd_fw (f : Fld) (ix : List Nat) (x : Nat) : (s.fadd f ix x).fw = s.fw := State.fset_fw s _ _ _
@[simp] theorem State.fadd_pins (f : Fld) (ix : List Nat) (x : Nat) : (s.fadd f ix x).pins = s.pins := State.fset_pins s _ _ _
@[simp] theorem State.fadd_tap (f : Fld) (ix : List Nat) (x : Nat) : (s.fadd f ix x).tap = s.tap := State.fset_tap s _ _ _
@[simp] theorem State.fadd_out (f : Fld) (ix : List Nat) (x : Nat) : (s.fadd f ix x).out = s.out := State.fset_out s _ _ _
@[simp] theorem State.fadd_free (f : Fld) (ix : List Nat) (x : Nat) : (s.fadd f ix x).free = s.free := State.fset_free s _ _ _
@[simp] theorem State.fadd_pending (f : Fld) (ix : List Nat) (x : Nat) : (s.fadd f ix x).pending = s.pending := State.fset_pending s _ _ _

@[simp] theorem State.rbit_fuses (r : RegName) (ix : List Nat) (b : Nat) (on : Bool) : (s.rbit r ix b on).fuses = s.fuses := State.fset_fuses s _ _ _
@[simp] theorem State.rbit_now (r : RegName) (ix : List Nat) (b : Nat) (on : Bool) : (s.rbit r ix b on).now = s.now := State.fset_now s _ _ _
@[simp] theorem State.rbit_timeOff (r : RegName) (ix : List Nat) (b : Nat) (on : Bool) : (s.rbit r ix b on).timeOff = s.timeOff := State.fset_timeOff s _ _ _
@[simp] theorem State.rbit_halves (r : RegName) (ix : List Nat) (b : Nat) (on : Bool) : (s.rbit r ix b on).halves = s.halves := State.fset_halves s _ _ _
@[simp] theorem State.rbit_mem (r : RegName) (ix : List Nat) (b : Nat) (on : Bool) : (s.rbit r ix b on).mem = s.mem := State.fset_mem s _ _ _
@[simp] theorem State.rbit_badWords (r : RegName) (ix : List Nat) (b : Nat) (on : Bool) : (s.rbit r ix b on).badWords = s.badWords := State.fset_badWords s _ _ _
@[simp] theorem State.rbit_weakWords (r : RegName) (ix : List Nat) (b : Nat) (on : Bool) : (s.rbit r ix b on).weakWords = s.weakWords := State.fset_weakWords s _ _ _
@[simp] theorem State.rbit_hostMem (r : RegName) (ix : List Nat) (b : Nat) (on : Bool) : (s.rbit r ix b on).hostMem = s.hostMem := State.fset_hostMem s _ _ _
@[simp] theorem State.rbit_flash (r : RegName) (ix : List Nat) (b : Nat) (on : Bool) : (s.rbit r ix b on).flash = s.flash := State.fset_flash s _ _ _
@[simp] theorem State.rbit_tick (r : RegName) (ix : List Nat) (b : Nat) (on : Bool) : (s.rbit r ix b on).tick = s.tick := State.fset_tick s _ _ _
@[simp] theorem State.rbit_tens (r : RegName) (ix : List Nat) (b : Nat) (on : Bool) : (s.rbit r ix b on).tens = s.tens := State.fset_tens s _ _ _
@[simp] theorem State.rbit_cores (r : RegName) (ix : List Nat) (b : Nat) (on : Bool) : (s.rbit r ix b on).cores = s.cores := State.fset_cores s _ _ _
@[simp] theorem State.rbit_dists (r : RegName) (ix : List Nat) (b : Nat) (on : Bool) : (s.rbit r ix b on).dists = s.dists := State.fset_dists s _ _ _
@[simp] theorem State.rbit_blks (r : RegName) (ix : List Nat) (b : Nat) (on : Bool) : (s.rbit r ix b on).blks = s.blks := State.fset_blks s _ _ _
@[simp] theorem State.rbit_dma (r : RegName) (ix : List Nat) (b : Nat) (on : Bool) : (s.rbit r ix b on).dma = s.dma := State.fset_dma s _ _ _
@[simp] theorem State.rbit_nextJob (r : RegName) (ix : List Nat) (b : Nat) (on : Bool) : (s.rbit r ix b on).nextJob = s.nextJob := State.fset_nextJob s _ _ _
@[simp] theorem State.rbit_posts (r : RegName) (ix : List Nat) (b : Nat) (on : Bool) : (s.rbit r ix b on).posts = s.posts := State.fset_posts s _ _ _
@[simp] theorem State.rbit_squares (r : RegName) (ix : List Nat) (b : Nat) (on : Bool) : (s.rbit r ix b on).squares = s.squares := State.fset_squares s _ _ _
@[simp] theorem State.rbit_merge (r : RegName) (ix : List Nat) (b : Nat) (on : Bool) : (s.rbit r ix b on).merge = s.merge := State.fset_merge s _ _ _
@[simp] theorem State.rbit_poolMin (r : RegName) (ix : List Nat) (b : Nat) (on : Bool) : (s.rbit r ix b on).poolMin = s.poolMin := State.fset_poolMin s _ _ _
@[simp] theorem State.rbit_margin (r : RegName) (ix : List Nat) (b : Nat) (on : Bool) : (s.rbit r ix b on).margin = s.margin := State.fset_margin s _ _ _
@[simp] theorem State.rbit_t1 (r : RegName) (ix : List Nat) (b : Nat) (on : Bool) : (s.rbit r ix b on).t1 = s.t1 := State.fset_t1 s _ _ _
@[simp] theorem State.rbit_t2Len (r : RegName) (ix : List Nat) (b : Nat) (on : Bool) : (s.rbit r ix b on).t2Len = s.t2Len := State.fset_t2Len s _ _ _
@[simp] theorem State.rbit_fl (r : RegName) (ix : List Nat) (b : Nat) (on : Bool) : (s.rbit r ix b on).fl = s.fl := State.fset_fl s _ _ _
@[simp] theorem State.rbit_shp (r : RegName) (ix : List Nat) (b : Nat) (on : Bool) : (s.rbit r ix b on).shp = s.shp := State.fset_shp s _ _ _
@[simp] theorem State.rbit_thatchRest (r : RegName) (ix : List Nat) (b : Nat) (on : Bool) : (s.rbit r ix b on).thatchRest = s.thatchRest := State.fset_thatchRest s _ _ _
@[simp] theorem State.rbit_thatchDec (r : RegName) (ix : List Nat) (b : Nat) (on : Bool) : (s.rbit r ix b on).thatchDec = s.thatchDec := State.fset_thatchDec s _ _ _
@[simp] theorem State.rbit_ic (r : RegName) (ix : List Nat) (b : Nat) (on : Bool) : (s.rbit r ix b on).ic = s.ic := State.fset_ic s _ _ _
@[simp] theorem State.rbit_hif (r : RegName) (ix : List Nat) (b : Nat) (on : Bool) : (s.rbit r ix b on).hif = s.hif := State.fset_hif s _ _ _
@[simp] theorem State.rbit_fab (r : RegName) (ix : List Nat) (b : Nat) (on : Bool) : (s.rbit r ix b on).fab = s.fab := State.fset_fab s _ _ _
@[simp] theorem State.rbit_ports (r : RegName) (ix : List Nat) (b : Nat) (on : Bool) : (s.rbit r ix b on).ports = s.ports := State.fset_ports s _ _ _
@[simp] theorem State.rbit_alley (r : RegName) (ix : List Nat) (b : Nat) (on : Bool) : (s.rbit r ix b on).alley = s.alley := State.fset_alley s _ _ _
@[simp] theorem State.rbit_ridge (r : RegName) (ix : List Nat) (b : Nat) (on : Bool) : (s.rbit r ix b on).ridge = s.ridge := State.fset_ridge s _ _ _
@[simp] theorem State.rbit_sec (r : RegName) (ix : List Nat) (b : Nat) (on : Bool) : (s.rbit r ix b on).sec = s.sec := State.fset_sec s _ _ _
@[simp] theorem State.rbit_pwr (r : RegName) (ix : List Nat) (b : Nat) (on : Bool) : (s.rbit r ix b on).pwr = s.pwr := State.fset_pwr s _ _ _
@[simp] theorem State.rbit_fw (r : RegName) (ix : List Nat) (b : Nat) (on : Bool) : (s.rbit r ix b on).fw = s.fw := State.fset_fw s _ _ _
@[simp] theorem State.rbit_pins (r : RegName) (ix : List Nat) (b : Nat) (on : Bool) : (s.rbit r ix b on).pins = s.pins := State.fset_pins s _ _ _
@[simp] theorem State.rbit_tap (r : RegName) (ix : List Nat) (b : Nat) (on : Bool) : (s.rbit r ix b on).tap = s.tap := State.fset_tap s _ _ _
@[simp] theorem State.rbit_out (r : RegName) (ix : List Nat) (b : Nat) (on : Bool) : (s.rbit r ix b on).out = s.out := State.fset_out s _ _ _
@[simp] theorem State.rbit_free (r : RegName) (ix : List Nat) (b : Nat) (on : Bool) : (s.rbit r ix b on).free = s.free := State.fset_free s _ _ _
@[simp] theorem State.rbit_pending (r : RegName) (ix : List Nat) (b : Nat) (on : Bool) : (s.rbit r ix b on).pending = s.pending := State.fset_pending s _ _ _

@[simp] theorem State.evcAdd_fuses (d i n : Nat) : (s.evcAdd d i n).fuses = s.fuses := State.fsat_fuses s _ _ _
@[simp] theorem State.evcAdd_now (d i n : Nat) : (s.evcAdd d i n).now = s.now := State.fsat_now s _ _ _
@[simp] theorem State.evcAdd_timeOff (d i n : Nat) : (s.evcAdd d i n).timeOff = s.timeOff := State.fsat_timeOff s _ _ _
@[simp] theorem State.evcAdd_halves (d i n : Nat) : (s.evcAdd d i n).halves = s.halves := State.fsat_halves s _ _ _
@[simp] theorem State.evcAdd_mem (d i n : Nat) : (s.evcAdd d i n).mem = s.mem := State.fsat_mem s _ _ _
@[simp] theorem State.evcAdd_badWords (d i n : Nat) : (s.evcAdd d i n).badWords = s.badWords := State.fsat_badWords s _ _ _
@[simp] theorem State.evcAdd_weakWords (d i n : Nat) : (s.evcAdd d i n).weakWords = s.weakWords := State.fsat_weakWords s _ _ _
@[simp] theorem State.evcAdd_hostMem (d i n : Nat) : (s.evcAdd d i n).hostMem = s.hostMem := State.fsat_hostMem s _ _ _
@[simp] theorem State.evcAdd_flash (d i n : Nat) : (s.evcAdd d i n).flash = s.flash := State.fsat_flash s _ _ _
@[simp] theorem State.evcAdd_tick (d i n : Nat) : (s.evcAdd d i n).tick = s.tick := State.fsat_tick s _ _ _
@[simp] theorem State.evcAdd_tens (d i n : Nat) : (s.evcAdd d i n).tens = s.tens := State.fsat_tens s _ _ _
@[simp] theorem State.evcAdd_cores (d i n : Nat) : (s.evcAdd d i n).cores = s.cores := State.fsat_cores s _ _ _
@[simp] theorem State.evcAdd_dists (d i n : Nat) : (s.evcAdd d i n).dists = s.dists := State.fsat_dists s _ _ _
@[simp] theorem State.evcAdd_blks (d i n : Nat) : (s.evcAdd d i n).blks = s.blks := State.fsat_blks s _ _ _
@[simp] theorem State.evcAdd_dma (d i n : Nat) : (s.evcAdd d i n).dma = s.dma := State.fsat_dma s _ _ _
@[simp] theorem State.evcAdd_nextJob (d i n : Nat) : (s.evcAdd d i n).nextJob = s.nextJob := State.fsat_nextJob s _ _ _
@[simp] theorem State.evcAdd_posts (d i n : Nat) : (s.evcAdd d i n).posts = s.posts := State.fsat_posts s _ _ _
@[simp] theorem State.evcAdd_squares (d i n : Nat) : (s.evcAdd d i n).squares = s.squares := State.fsat_squares s _ _ _
@[simp] theorem State.evcAdd_merge (d i n : Nat) : (s.evcAdd d i n).merge = s.merge := State.fsat_merge s _ _ _
@[simp] theorem State.evcAdd_poolMin (d i n : Nat) : (s.evcAdd d i n).poolMin = s.poolMin := State.fsat_poolMin s _ _ _
@[simp] theorem State.evcAdd_margin (d i n : Nat) : (s.evcAdd d i n).margin = s.margin := State.fsat_margin s _ _ _
@[simp] theorem State.evcAdd_t1 (d i n : Nat) : (s.evcAdd d i n).t1 = s.t1 := State.fsat_t1 s _ _ _
@[simp] theorem State.evcAdd_t2Len (d i n : Nat) : (s.evcAdd d i n).t2Len = s.t2Len := State.fsat_t2Len s _ _ _
@[simp] theorem State.evcAdd_fl (d i n : Nat) : (s.evcAdd d i n).fl = s.fl := State.fsat_fl s _ _ _
@[simp] theorem State.evcAdd_shp (d i n : Nat) : (s.evcAdd d i n).shp = s.shp := State.fsat_shp s _ _ _
@[simp] theorem State.evcAdd_thatchRest (d i n : Nat) : (s.evcAdd d i n).thatchRest = s.thatchRest := State.fsat_thatchRest s _ _ _
@[simp] theorem State.evcAdd_thatchDec (d i n : Nat) : (s.evcAdd d i n).thatchDec = s.thatchDec := State.fsat_thatchDec s _ _ _
@[simp] theorem State.evcAdd_ic (d i n : Nat) : (s.evcAdd d i n).ic = s.ic := State.fsat_ic s _ _ _
@[simp] theorem State.evcAdd_hif (d i n : Nat) : (s.evcAdd d i n).hif = s.hif := State.fsat_hif s _ _ _
@[simp] theorem State.evcAdd_fab (d i n : Nat) : (s.evcAdd d i n).fab = s.fab := State.fsat_fab s _ _ _
@[simp] theorem State.evcAdd_ports (d i n : Nat) : (s.evcAdd d i n).ports = s.ports := State.fsat_ports s _ _ _
@[simp] theorem State.evcAdd_alley (d i n : Nat) : (s.evcAdd d i n).alley = s.alley := State.fsat_alley s _ _ _
@[simp] theorem State.evcAdd_ridge (d i n : Nat) : (s.evcAdd d i n).ridge = s.ridge := State.fsat_ridge s _ _ _
@[simp] theorem State.evcAdd_sec (d i n : Nat) : (s.evcAdd d i n).sec = s.sec := State.fsat_sec s _ _ _
@[simp] theorem State.evcAdd_pwr (d i n : Nat) : (s.evcAdd d i n).pwr = s.pwr := State.fsat_pwr s _ _ _
@[simp] theorem State.evcAdd_fw (d i n : Nat) : (s.evcAdd d i n).fw = s.fw := State.fsat_fw s _ _ _
@[simp] theorem State.evcAdd_pins (d i n : Nat) : (s.evcAdd d i n).pins = s.pins := State.fsat_pins s _ _ _
@[simp] theorem State.evcAdd_tap (d i n : Nat) : (s.evcAdd d i n).tap = s.tap := State.fsat_tap s _ _ _
@[simp] theorem State.evcAdd_out (d i n : Nat) : (s.evcAdd d i n).out = s.out := State.fsat_out s _ _ _
@[simp] theorem State.evcAdd_free (d i n : Nat) : (s.evcAdd d i n).free = s.free := State.fsat_free s _ _ _
@[simp] theorem State.evcAdd_pending (d i n : Nat) : (s.evcAdd d i n).pending = s.pending := State.fsat_pending s _ _ _

@[simp] theorem State.blkPend_fuses (b n : Nat) : (s.blkPend b n).fuses = s.fuses := State.updBlk_fuses s _ _
@[simp] theorem State.blkPend_now (b n : Nat) : (s.blkPend b n).now = s.now := State.updBlk_now s _ _
@[simp] theorem State.blkPend_timeOff (b n : Nat) : (s.blkPend b n).timeOff = s.timeOff := State.updBlk_timeOff s _ _
@[simp] theorem State.blkPend_regs (b n : Nat) : (s.blkPend b n).regs = s.regs := State.updBlk_regs s _ _
@[simp] theorem State.blkPend_halves (b n : Nat) : (s.blkPend b n).halves = s.halves := State.updBlk_halves s _ _
@[simp] theorem State.blkPend_mem (b n : Nat) : (s.blkPend b n).mem = s.mem := State.updBlk_mem s _ _
@[simp] theorem State.blkPend_badWords (b n : Nat) : (s.blkPend b n).badWords = s.badWords := State.updBlk_badWords s _ _
@[simp] theorem State.blkPend_weakWords (b n : Nat) : (s.blkPend b n).weakWords = s.weakWords := State.updBlk_weakWords s _ _
@[simp] theorem State.blkPend_hostMem (b n : Nat) : (s.blkPend b n).hostMem = s.hostMem := State.updBlk_hostMem s _ _
@[simp] theorem State.blkPend_flash (b n : Nat) : (s.blkPend b n).flash = s.flash := State.updBlk_flash s _ _
@[simp] theorem State.blkPend_tick (b n : Nat) : (s.blkPend b n).tick = s.tick := State.updBlk_tick s _ _
@[simp] theorem State.blkPend_tens (b n : Nat) : (s.blkPend b n).tens = s.tens := State.updBlk_tens s _ _
@[simp] theorem State.blkPend_cores (b n : Nat) : (s.blkPend b n).cores = s.cores := State.updBlk_cores s _ _
@[simp] theorem State.blkPend_dists (b n : Nat) : (s.blkPend b n).dists = s.dists := State.updBlk_dists s _ _
@[simp] theorem State.blkPend_dma (b n : Nat) : (s.blkPend b n).dma = s.dma := State.updBlk_dma s _ _
@[simp] theorem State.blkPend_nextJob (b n : Nat) : (s.blkPend b n).nextJob = s.nextJob := State.updBlk_nextJob s _ _
@[simp] theorem State.blkPend_posts (b n : Nat) : (s.blkPend b n).posts = s.posts := State.updBlk_posts s _ _
@[simp] theorem State.blkPend_squares (b n : Nat) : (s.blkPend b n).squares = s.squares := State.updBlk_squares s _ _
@[simp] theorem State.blkPend_merge (b n : Nat) : (s.blkPend b n).merge = s.merge := State.updBlk_merge s _ _
@[simp] theorem State.blkPend_poolMin (b n : Nat) : (s.blkPend b n).poolMin = s.poolMin := State.updBlk_poolMin s _ _
@[simp] theorem State.blkPend_margin (b n : Nat) : (s.blkPend b n).margin = s.margin := State.updBlk_margin s _ _
@[simp] theorem State.blkPend_t1 (b n : Nat) : (s.blkPend b n).t1 = s.t1 := State.updBlk_t1 s _ _
@[simp] theorem State.blkPend_t2Len (b n : Nat) : (s.blkPend b n).t2Len = s.t2Len := State.updBlk_t2Len s _ _
@[simp] theorem State.blkPend_fl (b n : Nat) : (s.blkPend b n).fl = s.fl := State.updBlk_fl s _ _
@[simp] theorem State.blkPend_shp (b n : Nat) : (s.blkPend b n).shp = s.shp := State.updBlk_shp s _ _
@[simp] theorem State.blkPend_thatchRest (b n : Nat) : (s.blkPend b n).thatchRest = s.thatchRest := State.updBlk_thatchRest s _ _
@[simp] theorem State.blkPend_thatchDec (b n : Nat) : (s.blkPend b n).thatchDec = s.thatchDec := State.updBlk_thatchDec s _ _
@[simp] theorem State.blkPend_ic (b n : Nat) : (s.blkPend b n).ic = s.ic := State.updBlk_ic s _ _
@[simp] theorem State.blkPend_hif (b n : Nat) : (s.blkPend b n).hif = s.hif := State.updBlk_hif s _ _
@[simp] theorem State.blkPend_fab (b n : Nat) : (s.blkPend b n).fab = s.fab := State.updBlk_fab s _ _
@[simp] theorem State.blkPend_ports (b n : Nat) : (s.blkPend b n).ports = s.ports := State.updBlk_ports s _ _
@[simp] theorem State.blkPend_alley (b n : Nat) : (s.blkPend b n).alley = s.alley := State.updBlk_alley s _ _
@[simp] theorem State.blkPend_ridge (b n : Nat) : (s.blkPend b n).ridge = s.ridge := State.updBlk_ridge s _ _
@[simp] theorem State.blkPend_sec (b n : Nat) : (s.blkPend b n).sec = s.sec := State.updBlk_sec s _ _
@[simp] theorem State.blkPend_pwr (b n : Nat) : (s.blkPend b n).pwr = s.pwr := State.updBlk_pwr s _ _
@[simp] theorem State.blkPend_fw (b n : Nat) : (s.blkPend b n).fw = s.fw := State.updBlk_fw s _ _
@[simp] theorem State.blkPend_pins (b n : Nat) : (s.blkPend b n).pins = s.pins := State.updBlk_pins s _ _
@[simp] theorem State.blkPend_tap (b n : Nat) : (s.blkPend b n).tap = s.tap := State.updBlk_tap s _ _
@[simp] theorem State.blkPend_out (b n : Nat) : (s.blkPend b n).out = s.out := State.updBlk_out s _ _
@[simp] theorem State.blkPend_free (b n : Nat) : (s.blkPend b n).free = s.free := State.updBlk_free s _ _
@[simp] theorem State.blkPend_pending (b n : Nat) : (s.blkPend b n).pending = s.pending := State.updBlk_pending s _ _

@[simp] theorem State.setTst_fuses (i : Nat) (x : TSt) : (s.setTst i x).fuses = s.fuses := State.fset_fuses s _ _ _
@[simp] theorem State.setTst_now (i : Nat) (x : TSt) : (s.setTst i x).now = s.now := State.fset_now s _ _ _
@[simp] theorem State.setTst_timeOff (i : Nat) (x : TSt) : (s.setTst i x).timeOff = s.timeOff := State.fset_timeOff s _ _ _
@[simp] theorem State.setTst_halves (i : Nat) (x : TSt) : (s.setTst i x).halves = s.halves := State.fset_halves s _ _ _
@[simp] theorem State.setTst_mem (i : Nat) (x : TSt) : (s.setTst i x).mem = s.mem := State.fset_mem s _ _ _
@[simp] theorem State.setTst_badWords (i : Nat) (x : TSt) : (s.setTst i x).badWords = s.badWords := State.fset_badWords s _ _ _
@[simp] theorem State.setTst_weakWords (i : Nat) (x : TSt) : (s.setTst i x).weakWords = s.weakWords := State.fset_weakWords s _ _ _
@[simp] theorem State.setTst_hostMem (i : Nat) (x : TSt) : (s.setTst i x).hostMem = s.hostMem := State.fset_hostMem s _ _ _
@[simp] theorem State.setTst_flash (i : Nat) (x : TSt) : (s.setTst i x).flash = s.flash := State.fset_flash s _ _ _
@[simp] theorem State.setTst_tick (i : Nat) (x : TSt) : (s.setTst i x).tick = s.tick := State.fset_tick s _ _ _
@[simp] theorem State.setTst_tens (i : Nat) (x : TSt) : (s.setTst i x).tens = s.tens := State.fset_tens s _ _ _
@[simp] theorem State.setTst_cores (i : Nat) (x : TSt) : (s.setTst i x).cores = s.cores := State.fset_cores s _ _ _
@[simp] theorem State.setTst_dists (i : Nat) (x : TSt) : (s.setTst i x).dists = s.dists := State.fset_dists s _ _ _
@[simp] theorem State.setTst_blks (i : Nat) (x : TSt) : (s.setTst i x).blks = s.blks := State.fset_blks s _ _ _
@[simp] theorem State.setTst_dma (i : Nat) (x : TSt) : (s.setTst i x).dma = s.dma := State.fset_dma s _ _ _
@[simp] theorem State.setTst_nextJob (i : Nat) (x : TSt) : (s.setTst i x).nextJob = s.nextJob := State.fset_nextJob s _ _ _
@[simp] theorem State.setTst_posts (i : Nat) (x : TSt) : (s.setTst i x).posts = s.posts := State.fset_posts s _ _ _
@[simp] theorem State.setTst_squares (i : Nat) (x : TSt) : (s.setTst i x).squares = s.squares := State.fset_squares s _ _ _
@[simp] theorem State.setTst_merge (i : Nat) (x : TSt) : (s.setTst i x).merge = s.merge := State.fset_merge s _ _ _
@[simp] theorem State.setTst_poolMin (i : Nat) (x : TSt) : (s.setTst i x).poolMin = s.poolMin := State.fset_poolMin s _ _ _
@[simp] theorem State.setTst_margin (i : Nat) (x : TSt) : (s.setTst i x).margin = s.margin := State.fset_margin s _ _ _
@[simp] theorem State.setTst_t1 (i : Nat) (x : TSt) : (s.setTst i x).t1 = s.t1 := State.fset_t1 s _ _ _
@[simp] theorem State.setTst_t2Len (i : Nat) (x : TSt) : (s.setTst i x).t2Len = s.t2Len := State.fset_t2Len s _ _ _
@[simp] theorem State.setTst_fl (i : Nat) (x : TSt) : (s.setTst i x).fl = s.fl := State.fset_fl s _ _ _
@[simp] theorem State.setTst_shp (i : Nat) (x : TSt) : (s.setTst i x).shp = s.shp := State.fset_shp s _ _ _
@[simp] theorem State.setTst_thatchRest (i : Nat) (x : TSt) : (s.setTst i x).thatchRest = s.thatchRest := State.fset_thatchRest s _ _ _
@[simp] theorem State.setTst_thatchDec (i : Nat) (x : TSt) : (s.setTst i x).thatchDec = s.thatchDec := State.fset_thatchDec s _ _ _
@[simp] theorem State.setTst_ic (i : Nat) (x : TSt) : (s.setTst i x).ic = s.ic := State.fset_ic s _ _ _
@[simp] theorem State.setTst_hif (i : Nat) (x : TSt) : (s.setTst i x).hif = s.hif := State.fset_hif s _ _ _
@[simp] theorem State.setTst_fab (i : Nat) (x : TSt) : (s.setTst i x).fab = s.fab := State.fset_fab s _ _ _
@[simp] theorem State.setTst_ports (i : Nat) (x : TSt) : (s.setTst i x).ports = s.ports := State.fset_ports s _ _ _
@[simp] theorem State.setTst_alley (i : Nat) (x : TSt) : (s.setTst i x).alley = s.alley := State.fset_alley s _ _ _
@[simp] theorem State.setTst_ridge (i : Nat) (x : TSt) : (s.setTst i x).ridge = s.ridge := State.fset_ridge s _ _ _
@[simp] theorem State.setTst_sec (i : Nat) (x : TSt) : (s.setTst i x).sec = s.sec := State.fset_sec s _ _ _
@[simp] theorem State.setTst_pwr (i : Nat) (x : TSt) : (s.setTst i x).pwr = s.pwr := State.fset_pwr s _ _ _
@[simp] theorem State.setTst_fw (i : Nat) (x : TSt) : (s.setTst i x).fw = s.fw := State.fset_fw s _ _ _
@[simp] theorem State.setTst_pins (i : Nat) (x : TSt) : (s.setTst i x).pins = s.pins := State.fset_pins s _ _ _
@[simp] theorem State.setTst_tap (i : Nat) (x : TSt) : (s.setTst i x).tap = s.tap := State.fset_tap s _ _ _
@[simp] theorem State.setTst_out (i : Nat) (x : TSt) : (s.setTst i x).out = s.out := State.fset_out s _ _ _
@[simp] theorem State.setTst_free (i : Nat) (x : TSt) : (s.setTst i x).free = s.free := State.fset_free s _ _ _
@[simp] theorem State.setTst_pending (i : Nat) (x : TSt) : (s.setTst i x).pending = s.pending := State.fset_pending s _ _ _

/-! ### Reading after writing -/

/-- A map whose written key has another default: other keys read as before. -/
theorem State.get_set_default {α : Type} [DecidableEq α] {d e v : α} {m : KMap α} {x y : Nat} (h : y ≠ x) :
    KMap.get e (KMap.set d m x v) y = KMap.get e m y := by
  unfold KMap.set
  split_ifs <;> simp [KMap.get_ins, KMap.get_del, h]

@[simp] theorem State.core_setCore_same (c : Nat) (v : CoreSt) : (s.setCore c v).core c = v := by
  simp [State.core, State.setCore]

theorem State.core_setCore_other {c d : Nat} (v : CoreSt) (h : d ≠ c) : (s.setCore c v).core d = s.core d := by
  simp only [State.core, State.setCore]
  by_cases h1 : c < 4 <;> by_cases h2 : d < 4 <;> simp only [h1, h2, if_true, if_false]
  · exact KMap.get_set_other h
  · exact State.get_set_default h
  · exact State.get_set_default h
  · exact KMap.get_set_other h

@[simp] theorem State.core_updCore_same (c : Nat) (f : CoreSt → CoreSt) : (s.updCore c f).core c = f (s.core c) := by
  simp [State.updCore]

theorem State.core_updCore_other {c d : Nat} (f : CoreSt → CoreSt) (h : d ≠ c) : (s.updCore c f).core d = s.core d :=
  State.core_setCore_other s _ h

@[simp] theorem State.blk_updBlk_same (b : Nat) (f : BlkSt → BlkSt) : (s.updBlk b f).blk b = f (s.blk b) := by
  simp [State.blk, State.updBlk, KMap.upd]

theorem State.blk_updBlk_other {b c : Nat} (f : BlkSt → BlkSt) (h : c ≠ b) : (s.updBlk b f).blk c = s.blk c := by
  simp [State.blk, State.updBlk, KMap.upd, KMap.get_set, h]

@[simp] theorem State.dist_updDist_same (d : Nat) (f : DistSt → DistSt) : (s.updDist d f).dist d = f (s.dist d) := by
  simp [State.dist, State.updDist, KMap.upd]

theorem State.dist_updDist_other {d e : Nat} (f : DistSt → DistSt) (h : e ≠ d) : (s.updDist d f).dist e = s.dist e := by
  simp [State.dist, State.updDist, KMap.upd, KMap.get_set, h]

@[simp] theorem State.sq_updSq_same (d : Nat) (f : SquareSt → SquareSt) : (s.updSq d f).sq d = f (s.sq d) := by
  simp [State.sq, State.updSq, KMap.upd]

theorem State.ten_setTen (t u : Nat) (v : Option Ten) : (s.setTen t v).ten u = if u = t then v else s.ten u := by
  simp [State.ten, State.setTen, KMap.get_set]

/-! ### Registers -/

@[simp] theorem State.rget_rset_same (r : RegName) (ix : List Nat) (v : W64) : (s.rset r ix v).rget r ix = v := by
  simp [State.rget, State.rset]

theorem State.rget_rset_other {r q : RegName} {ix jx : List Nat} (v : W64) (h : q.addr jx ≠ r.addr ix) :
    (s.rset r ix v).rget q jx = s.rget q jx := by
  simp [State.rget, State.rset, KMap.get_set, h]

/-- A field that is set reads as the low bits of what was written. -/
theorem Fld.ext_ins (f : Fld) (v : W64) (x : Nat) (h : f.lo ≤ f.hi) (h' : f.hi < 64) :
    f.ext (f.ins v x) = x % 2 ^ (f.hi + 1 - f.lo) := by
  obtain ⟨r, hi, lo⟩ := f
  simp only at h h'
  simp only [Fld.ext, Fld.ins, BitVec.toNat_ofNat]
  have hv := v.isLt
  generalize v.toNat = n at *
  obtain ⟨w, hw⟩ : ∃ w, hi + 1 = lo + w := ⟨hi + 1 - lo, by omega⟩
  obtain ⟨u, hu⟩ : ∃ u, 64 = lo + w + u := ⟨64 - (lo + w), by omega⟩
  have e : lo + w - lo = w := by omega
  rw [hw, e]
  have hx : x % 2 ^ w < 2 ^ w := Nat.mod_lt _ (by positivity)
  have hm : n % 2 ^ lo < 2 ^ lo := Nat.mod_lt _ (by positivity)
  have hq : n / 2 ^ (lo + w) < 2 ^ u := by
    rw [Nat.div_lt_iff_lt_mul (by positivity), ← pow_add, add_comm u, ← hu]; exact hv
  have hlt : n % 2 ^ lo + x % 2 ^ w * 2 ^ lo + n / 2 ^ (lo + w) * 2 ^ (lo + w) < 2 ^ 64 := by
    have h1 : n % 2 ^ lo + x % 2 ^ w * 2 ^ lo < 2 ^ (lo + w) := by
      rw [pow_add]
      have : (x % 2 ^ w + 1) * 2 ^ lo ≤ 2 ^ w * 2 ^ lo := Nat.mul_le_mul_right _ hx
      rw [mul_comm (2 ^ lo)]; linarith
    have h2 : (n / 2 ^ (lo + w) + 1) * 2 ^ (lo + w) ≤ 2 ^ u * 2 ^ (lo + w) := Nat.mul_le_mul_right _ hq
    rw [hu, pow_add 2 (lo + w), mul_comm (2 ^ (lo + w))]; linarith
  rw [Nat.mod_eq_of_lt hlt, Nat.shiftRight_eq_div_pow]
  have : (n % 2 ^ lo + x % 2 ^ w * 2 ^ lo + n / 2 ^ (lo + w) * 2 ^ (lo + w)) / 2 ^ lo =
      x % 2 ^ w + n / 2 ^ (lo + w) * 2 ^ w := by
    rw [show n % 2 ^ lo + x % 2 ^ w * 2 ^ lo + n / 2 ^ (lo + w) * 2 ^ (lo + w) =
      n % 2 ^ lo + (x % 2 ^ w + n / 2 ^ (lo + w) * 2 ^ w) * 2 ^ lo by rw [pow_add 2 lo w]; ring]
    rw [Nat.add_mul_div_right _ _ (by positivity), Nat.div_eq_of_lt hm, zero_add]
  rw [this, Nat.add_mul_mod_self_right, Nat.mod_mod]

/-- A field that is set reads as the low bits of what was written. -/
theorem State.fget_fset_same (f : Fld) (ix : List Nat) (x : Nat) (h : f.lo ≤ f.hi) (h' : f.hi < 64) :
    (s.fset f ix x).fget f ix = x % 2 ^ (f.hi + 1 - f.lo) := by
  simp [State.fget, State.fset, Fld.ext_ins f _ x h h']

/-- Setting a field leaves a disjoint field of the same register as it was. -/
theorem Fld.ext_ins_disjoint (f g : Fld) (v : W64) (x : Nat) (h : f.lo ≤ f.hi) (h' : f.hi < 64) (hg : g.lo ≤ g.hi)
    (hg' : g.hi < 64) (hd : f.hi < g.lo ∨ g.hi < f.lo) : g.ext (f.ins v x) = g.ext v := by
  obtain ⟨r, hi, lo⟩ := f
  obtain ⟨q, j, i⟩ := g
  simp only at h h' hg hg' hd
  simp only [Fld.ext, Fld.ins, BitVec.toNat_ofNat]
  have hv := v.isLt
  generalize v.toNat = n at *
  obtain ⟨w, hw⟩ : ∃ w, hi + 1 = lo + w := ⟨hi + 1 - lo, by omega⟩
  obtain ⟨u, hu⟩ : ∃ u, 64 = lo + w + u := ⟨64 - (lo + w), by omega⟩
  have e : lo + w - lo = w := by omega
  rw [hw, e]
  have hx : x % 2 ^ w < 2 ^ w := Nat.mod_lt _ (by positivity)
  have hm : n % 2 ^ lo < 2 ^ lo := Nat.mod_lt _ (by positivity)
  have h1 : n % 2 ^ lo + x % 2 ^ w * 2 ^ lo < 2 ^ (lo + w) := by
    rw [pow_add]
    have : (x % 2 ^ w + 1) * 2 ^ lo ≤ 2 ^ w * 2 ^ lo := Nat.mul_le_mul_right _ hx
    rw [mul_comm (2 ^ lo)]; linarith
  have hq : n / 2 ^ (lo + w) < 2 ^ u := by
    rw [Nat.div_lt_iff_lt_mul (by positivity), ← pow_add, add_comm u, ← hu]; exact hv
  have hlt : n % 2 ^ lo + x % 2 ^ w * 2 ^ lo + n / 2 ^ (lo + w) * 2 ^ (lo + w) < 2 ^ 64 := by
    have h2 : (n / 2 ^ (lo + w) + 1) * 2 ^ (lo + w) ≤ 2 ^ u * 2 ^ (lo + w) := Nat.mul_le_mul_right _ hq
    rw [hu, pow_add 2 (lo + w), mul_comm (2 ^ (lo + w))]; linarith
  rw [Nat.mod_eq_of_lt hlt, Nat.shiftRight_eq_div_pow, Nat.shiftRight_eq_div_pow]
  rcases hd with hd | hd
  · obtain ⟨z, hz⟩ : ∃ z, i = lo + w + z := ⟨i - (lo + w), by omega⟩
    subst hz
    rw [pow_add 2 (lo + w) z, ← Nat.div_div_eq_div_mul, ← Nat.div_div_eq_div_mul,
      Nat.add_mul_div_right _ _ (by positivity), Nat.div_eq_of_lt h1, zero_add]
  · obtain ⟨z, hz⟩ : ∃ z, lo = (j + 1) + z := ⟨lo - (j + 1), by omega⟩
    have hp : (2 : Nat) ^ (j + 1 - i) * 2 ^ i = 2 ^ (j + 1) := by rw [← pow_add]; congr 1; omega
    have key : ∀ m, m / 2 ^ i % 2 ^ (j + 1 - i) = m % 2 ^ (j + 1) / 2 ^ i := by
      intro m; rw [← hp, Nat.mod_mul_left_div_self]
    rw [key, key]
    congr 1
    have hd : 2 ^ (j + 1) ∣ 2 ^ lo := pow_dvd_pow 2 (by omega)
    have hd' : 2 ^ (j + 1) ∣ 2 ^ (lo + w) := pow_dvd_pow 2 (by omega)
    rw [Nat.add_mod, Nat.mod_eq_zero_of_dvd (hd'.mul_left _), add_zero, Nat.mod_mod, Nat.add_mod,
      Nat.mod_eq_zero_of_dvd (hd.mul_left _), add_zero, Nat.mod_mod, Nat.mod_mod_of_dvd _ hd]

/-- Setting a field leaves a disjoint field of the same register as it was. -/
theorem State.fget_fset_disjoint (f g : Fld) (ix : List Nat) (x : Nat) (e : g.reg = f.reg) (h : f.lo ≤ f.hi) (h' : f.hi < 64)
    (hg : g.lo ≤ g.hi) (hg' : g.hi < 64) (hd : f.hi < g.lo ∨ g.hi < f.lo) : (s.fset f ix x).fget g ix = s.fget g ix := by
  simp [State.fget, State.fset, e, Fld.ext_ins_disjoint f g _ x h h' hg hg' hd]

/-- Setting a field leaves the fields of other registers as they were. -/
theorem State.fget_fset_other {f g : Fld} {ix jx : List Nat} (x : Nat) (h : g.reg.addr jx ≠ f.reg.addr ix) :
    (s.fset f ix x).fget g jx = s.fget g jx := by
  simp [State.fget, State.fset, State.rget_rset_other s _ h]

/-! ### Bytes -/

/-- A byte that is not among those written reads as before. -/
theorem get_writeList_outside {d : Byte} {m : List Host.Cell} {a x : Nat} {l : List Byte} (h : x < a ∨ a + l.length ≤ x) :
    KMap.get d (writeList d m a l) x = KMap.get d m x := by
  induction l generalizing m a with
  | nil => rfl
  | cons b t ih =>
    simp only [List.length_cons] at h
    rw [writeList, ih (by omega), KMap.get_set_other (by omega)]

/-- A byte among those written reads as written. -/
theorem get_writeList_inside {d : Byte} {m : List Host.Cell} {a i : Nat} {l : List Byte} (h : i < l.length) :
    KMap.get d (writeList d m a l) (a + i) = l[i] := by
  induction l generalizing m a i with
  | nil => simp at h
  | cons b t ih =>
    rw [writeList]
    cases i with
    | zero => rw [get_writeList_outside (by omega)]; simp
    | succ i =>
      have := ih (m := KMap.set d m a b) (a := a + 1) (i := i) (by simpa using h)
      rw [show a + (i + 1) = a + 1 + i by omega, this]; simp

theorem length_readList {d : Byte} {m : List Host.Cell} (a n : Nat) : (readList m d a n).length = n := by
  induction n generalizing a with
  | zero => rfl
  | succ n ih => simp [readList, ih]

/-- Bytes read back as written. -/
theorem readList_writeList {d : Byte} {m : List Host.Cell} {a : Nat} {l : List Byte} :
    readList (writeList d m a l) d a l.length = l := by
  induction l generalizing m a with
  | nil => rfl
  | cons b t ih =>
    have h : KMap.get d (writeList d m a (b :: t)) a = b := by
      have := get_writeList_inside (d := d) (m := m) (a := a) (i := 0) (l := b :: t) (by simp)
      simpa using this
    simp only [List.length_cons, readList, h]
    rw [writeList, ih]

theorem wf_writeList {d : Byte} {m : List Host.Cell} {a : Nat} {l : List Byte} (h : KMap.wf d m = true) :
    KMap.wf d (writeList d m a l) = true := by
  induction l generalizing m a with
  | nil => exact h
  | cons b t ih => exact ih (KMap.wf_set h)

end Sys2Proof.Machine
end

