-- ==== Sys2Proof/Laws/Core.lean ====
section
/-! SUPPORT. What the shared operations of the control cores' and the Blocks' instructions do. -/

namespace Sys2Proof.Machine

/-! ### Control cores -/

/-- An instruction of a core that issues does what the instruction does, after its fetch. -/
theorem State.instr_next {s s1 : State} {c : Nat} {act : CoreSt → State → State} (h : CoreIssues c s s1) :
    s.instr c act = .next (act (s1.core c) s1) := by
  simp [State.instr, h.1, h.2]

/-- A core that does not issue is left as it is. -/
theorem State.instr_idle {s : State} {c : Nat} {act : CoreSt → State → State} (h : s.canIssue c = false) :
    s.instr c act = .next s := by
  simp [State.instr, h]

/-- A fetch that fails is the exception that the fetch names. -/
theorem State.instr_fetch_fails {s s1 : State} {c : Nat} {act : CoreSt → State → State} {e : Exc} {bad : W64}
    (h : s.canIssue c = true) (hf : s.fetch c = (.trap e bad, s1)) :
    s.instr c act = .next (s1.trap c e (s.core c).pc bad) := by
  simp [State.instr, h, hf]

/-- While the fetch waits in the memory shaper, the instruction is given again. -/
theorem State.instr_fetch_waits {s s1 : State} {c : Nat} {act : CoreSt → State → State}
    (h : s.canIssue c = true) (hf : s.fetch c = (.waits, s1)) : s.instr c act = .next s1 := by
  simp [State.instr, h, hf]

theorem CoreSt.reg_setReg (k : CoreSt) (rd : Nat) (v : W64) (i : Nat) :
    (k.setReg rd v).reg i = if i = rd ∧ rd ≠ 0 then v else k.reg i := by
  unfold CoreSt.setReg CoreSt.reg
  by_cases h : rd = 0
  · simp [h]
  · by_cases hi : i = rd
    · subst hi; simp [h]
    · simp [h, hi, KMap.get_set]

/-- Changing one core changes only that core. -/
theorem CoreOnly.updCore (s : State) (c : Nat) (f : CoreSt → CoreSt) : CoreOnly c s (s.updCore c f) :=
  ⟨rfl, fun _ h => State.core_updCore_other s f h⟩

theorem CoreOnly.trans {c : Nat} {s t u : State} (h : CoreOnly c s t) (g : CoreOnly c t u) : CoreOnly c s u := by
  refine ⟨?_, fun d hd => (g.2 d hd).trans (h.2 d hd)⟩
  have e : { u with cores := s.cores } = { ({ u with cores := t.cores } : State) with cores := s.cores } := rfl
  rw [e, g.1, h.1]

/-- Writing a register and retiring. -/
theorem State.retireReg_writes (s : State) (c rd : Nat) (v : W64) :
    CoreWrites c rd v (s.core c).next s (s.retireReg c rd v) := by
  refine ⟨CoreOnly.trans (CoreOnly.updCore _ _ _) (CoreOnly.updCore _ _ _), fun i => ?_, ?_⟩
  · simp only [State.retireReg, State.retire, State.core_updCore_same]
    exact CoreSt.reg_setReg _ _ _ _
  · simp only [State.retireReg, State.retire, State.core_updCore_same, CoreSt.next, Nat.mod_mod]
    unfold CoreSt.setReg; split <;> rfl

/-- Retiring. -/
theorem State.retire_retires (s : State) (c pc : Nat) : CoreRetires c (pc % 2 ^ 64) s (s.retire c pc) :=
  ⟨CoreOnly.updCore _ _ _, by simp [State.retire]⟩

@[simp] theorem CoreSt.next_mod (k : CoreSt) : k.next % 2 ^ 64 = k.next := by simp [CoreSt.next]

/-! ### Blocks -/

/-- An instruction of a Block that issues does what the instruction does, after its fetch. -/
theorem State.blkInstr_next {s s1 : State} {b : Nat} {act : BlkSt → State → State} (h : BlkIssues b s s1) :
    s.blkInstr b act = .next (act (s1.blk b) s1) := by
  simp [State.blkInstr, h.1, h.2.1, h.2.2]

/-- A Block that does not issue is left as it is. -/
theorem State.blkInstr_idle {s : State} {b : Nat} {act : BlkSt → State → State} (h : s.blkReady b = false) :
    s.blkInstr b act = .next s := by
  simp [State.blkInstr, h]

theorem BlkSt.sreg_setS (k : BlkSt) (sd : Nat) (v : W64) (i : Nat) :
    (k.setS sd v).sreg i = if i = sd ∧ sd ≠ 0 then v else k.sreg i := by
  unfold BlkSt.setS BlkSt.sreg
  by_cases h : sd = 0
  · simp [h]
  · by_cases hi : i = sd
    · subst hi; simp [h]
    · simp [h, hi, KMap.get_set]

theorem BlkSt.vreg_setV (k : BlkSt) (vd : Nat) (v : Vec) (i : Nat) :
    (k.setV vd v).vreg i = if i = vd then v else k.vreg i := by
  simp [BlkSt.vreg, BlkSt.setV, KMap.get_set]

theorem BlkSt.mask_setM (k : BlkSt) (m : Nat) (v : BitVec 128) (i : Nat) :
    (k.setM m v).mask i = if i = m ∧ m ≠ 0 then v else k.mask i := by
  unfold BlkSt.setM BlkSt.mask
  by_cases h : m = 0
  · simp [h]
  · by_cases hi : i = m
    · subst hi; simp [h]
    · simp [h, hi, KMap.get_set]

/-- Changing one Block's Sequencer changes only that one. -/
theorem BlkOnly.updBlk (s : State) (b : Nat) (f : BlkSt → BlkSt) : BlkOnly b s (s.updBlk b f) :=
  ⟨rfl, fun _ h => State.blk_updBlk_other s f h⟩

theorem BlkOnly.trans {b : Nat} {s t u : State} (h : BlkOnly b s t) (g : BlkOnly b t u) : BlkOnly b s u := by
  refine ⟨?_, fun d hd => (g.2 d hd).trans (h.2 d hd)⟩
  have e : { u with blks := s.blks } = { ({ u with blks := t.blks } : State) with blks := s.blks } := rfl
  rw [e, g.1, h.1]

/-- Writing a scalar register and going on. -/
theorem State.blkSet_writes (s : State) (b sd : Nat) (v : W64) : BlkWrites b sd v s (s.blkSet b sd v) := by
  have e : ∀ k : BlkSt, (k.setS sd v).pc = k.pc := fun k => by unfold BlkSt.setS; split <;> rfl
  refine ⟨BlkOnly.trans (BlkOnly.updBlk _ _ _) (BlkOnly.updBlk _ _ _), fun i => ?_, ?_⟩
  · simp only [State.blkSet, State.blkNext, State.blkGoto, State.blk_updBlk_same]
    exact BlkSt.sreg_setS _ _ _ _
  · simp only [State.blkSet, State.blkNext, State.blkGoto, State.blk_updBlk_same, e]
    unfold BlkSt.setS; split <;> rfl

/-- Changing the Sequencer and going to `pc`. -/
theorem State.blkGoto_does (s : State) (b pc : Nat) (f : BlkSt → BlkSt) (hp : ∀ k, (f k).pc = k.pc) :
    BlkDoes b (pc % 2 ^ 64) f s ((s.updBlk b f).blkGoto b pc) :=
  ⟨BlkOnly.trans (BlkOnly.updBlk _ _ _) (BlkOnly.updBlk _ _ _), by simp [State.blkGoto, hp]⟩

/-- Changing the Sequencer and going on. -/
theorem State.blkNext_does (s : State) (b : Nat) (f : BlkSt → BlkSt) (hp : ∀ k, (f k).pc = k.pc) :
    BlkDoes b (((s.blk b).pc + 8) % 2 ^ 64) f s ((s.updBlk b f).blkNext b) := by
  have := State.blkGoto_does s b ((s.blk b).pc + 8) f hp
  simpa [State.blkNext, hp] using this

/-- Going to `pc`. -/
theorem State.goto_does (s : State) (b pc : Nat) : BlkDoes b (pc % 2 ^ 64) id s (s.blkGoto b pc) :=
  ⟨BlkOnly.updBlk _ _ _, by simp [State.blkGoto]⟩

/-- Going on. -/
theorem State.next_does (s : State) (b : Nat) : BlkDoes b (((s.blk b).pc + 8) % 2 ^ 64) id s (s.blkNext b) :=
  State.goto_does s b _

end Sys2Proof.Machine
end

