-- ==== Sys2Proof/Laws/Regs.lean ====
section
/-! SUPPORT. Laws of the control registers. -/

namespace Sys2Proof.Machine

end Sys2Proof.Machine
end

