-- ==== Sys2Proof/WellFormed.lean ====
section
/-! DEFINITION. The commands that the device can be given. An operand that a type already confines needs no check; the
checks here are those on plain numbers. Every command has a meaning whether or not it is well formed. -/

namespace Sys2Proof

/-- A register write names an offset of the 64 MiB control register space. -/
def Instr.wf : Instr → Bool
  | .regWrite _ off len _ _ => off < 0x4000000 && 0 < len && len ≤ 8
  | _ => true

end Sys2Proof
end

