-- ==== Sys2Proof/Tests/Slice0.lean ====
section
/-! SUPPORT. The model's own tests: ill-formed commands, instruction words written out from the manual's encodings, worked examples of
the manual, and for the statements a state and operands that meet their hypotheses. Expected values come from the manual. -/

namespace Sys2Proof.Tests

open Machine

/-! ### Small states -/

/-- The device in service (STATE is RUN). -/
def up : State := { State.reset.fset F.RIDGE_STATUS_STATE [] 0 with pins := { State.reset.pins with silent := false } }

/-- DCC 0 runs at L1. -/
def coreS : State := (up.fset F.CORE_CTRL_RUN [0] 1).updCore 0 fun k => { k with pc := 0x1000 }

def bound1 : Bound := ⟨0, 0x1000, true, true, true, true, true⟩

def run1 : Run := { step := 5, entered := true, batten := true }

/-- A Tenancy with Block 0, bounds over the first pages of T1, and a running step. -/
def ten1 : Ten := { desc := { gaMask := 1, reMask := 1, ctx := 0x100000 }, mask := [0], bmap := [some 0], bounds := [some bound1], run := some run1 }

def tick1 : TickSt := { active := true, endNs := 1000000, cur := 1, resident := [1] }

/-- The step of Tenancy 1 runs, with DCC 0 at L0. -/
def stepS : State :=
  { ((coreS.fset F.TEN_STATE_STATE [1] 2).updCore 0 fun k => { k with level := 0, ten := 1, inStep := true, tvec := 0x2000 }) with
    tens := [(1, some ten1)], tick := tick1 }

/-- A RUN entry for logical Block 0 of Tenancy 1, with its program at 0x1000. -/
def runEntry : CqEntry := ⟨0, 2 ^ 60 + 2 ^ 42, 0, 0x1000, 0, none⟩

/-- Block 0 runs that entry. -/
def blkS : State := stepS.updBlk 0 fun k => { k with running := some runEntry, pc := 0x1000 }

/-- What a command gives, when it gives a next state. -/
def next? (o : Host.Outcome State Fault Refusal) : Option State := match o with | .next t => some t | _ => none

/-- A property of the state that a command gives. -/
def after (i : Instr) (s : State) (p : State → Bool) : Bool := ((next? (exec i s)).map p).getD false

/-! ### Well-formedness and the queue -/

theorem test_wf_refuses_far_offset : (Instr.regWrite .host 0x4000000 4 0 0).wf = false := by decide
theorem test_wf_refuses_no_bytes : (Instr.regWrite .host 0 0 0 0).wf = false := by decide
theorem test_wf_refuses_nine_bytes : (Instr.regWrite .host 0 9 0 0).wf = false := by decide
theorem test_wf_takes_last_word : (Instr.regWrite .host 0x3FFFFF8 8 0 0).wf = true := by decide

theorem test_step_takes_the_front : ((next? (step { up with pending := [.eaveStart 3, .eaveStart 9] })).map State.pending) =
    some [.eaveStart 9] := by decide

theorem witness_EmptyQueueIdles : up.pending = [] := by decide

/-! ### Instruction words (R82, R119, R126, R131, R144, R146) -/

/-- R82: opcode in [31:26], rd in [25:21], ra in [20:16], the immediate in [15:0]; ADDI is 0x02. -/
theorem test_decode_addi : rinunoDecode 0 0 false (0, [], []) 0 0x08640007#32 = .addi 0 3 4 7 := by decide
/-- ADDI with opcode bits 000010, rd 00011, ra 00100. -/
theorem test_word_addi : (0b00001000011001000000000000000111 : Nat) = 0x08640007 := by decide
/-- R82, R83: ALU is 0x01, rb in [15:11], FUNC in [10:0]: SUB g1, g2, g3. -/
theorem test_decode_sub : rinunoDecode 0 0 false (0, [], []) 0 0b00000100001000100001100000000001#32 = .alu 0 1 2 3 (1, 1) := by decide
/-- LDD is 0x13 with a signed offset. -/
theorem test_decode_ldd : rinunoDecode 2 0 false (0, [], []) 9 0b01001100101001101111111111111000#32 = .load 2 3 5 6 0xFFF8 0 9 := by decide
/-- BEQ is 0x20. -/
theorem test_decode_beq : rinunoDecode 0 0 false (0, [], []) 0 0b10000000001000100000000000000010#32 = .branch 0 0 1 2 2 (0, [], []) := by decide
/-- SYS is 0x30; FUNC 5 is STEPEND. -/
theorem test_decode_stepend : rinunoDecode 0 0 false (0, [], []) 0 0b11000000000001110000000000000101#32 = .stepend 0 0 7 0 := by decide
/-- The all-zero word is reserved. -/
theorem test_decode_zero_word : rinunoDecode 0 0 false (0, [], []) 0 0#32 = .alu 0 0 0 0 (0, 0) := by decide

/-- The words that the worked example after R141 writes out. -/
theorem test_decode_part : blockDecode 0 0x3040212600000000#64 = .dmPart 0 8 9 3 false := by decide
theorem test_decode_go : blockDecode 0 0x3010280200000000#64 = .dmGo 0 10 1 false 0 := by decide
theorem test_decode_rwait : blockDecode 0 0x3060000600004000#64 = .dmRwait 0 3 false 0x4000 := by decide
theorem test_decode_rel : blockDecode 0 0x3070000600004000#64 = .dmRel 0 3 false 0x4000 := by decide
/-- R146: CT is class 5, ADDI opcode 0x10, SD in [51:47], SA in [46:42]. -/
theorem test_decode_ct_addi : blockDecode 0 0x5101080000000004#64 = .ctAddi 0 2 2 0 4 := by decide
/-- R144: SY is class 4, WAIT opcode 3, CTR in [30:27]. -/
theorem test_decode_sy_wait : blockDecode 0 0x4030000028000005#64 = .syWait 0 5 0 5 := by decide
/-- R126: VX is class 2; RSUM is 0x28, TYPE in [51:49], MASK in [48:46], VD in [45:41], VA in [40:36]. -/
theorem test_decode_rsum : blockDecode 0 0x2280643000000000#64 = .rsum 0 0 1 18 3 := by decide
/-- A word of class 0 is reserved. -/
theorem test_decode_class_zero : blockDecode 0 0#64 = .ctAlu 0 (0, 0) 0 0 0 0 := by decide

/-! ### Control cores -/

def coreR : State := coreS.updCore 0 fun k => { k with g := [(1, 5), (2, 0xFFFFFFFFFFFFFFFE)] }

theorem witness_CoreIssues_at_L1 : ∃ s1, CoreIssues 0 coreS s1 :=
  ⟨(coreS.fetch 0).2, by decide, Prod.ext (by decide) rfl⟩
theorem witness_CoreIssues_at_L0 : ∃ s1, CoreIssues 0 stepS s1 :=
  ⟨(stepS.fetch 0).2, by decide, Prod.ext (by decide) rfl⟩
theorem witness_AluFunctions_division_corner : (0 : W64) = 0 ∧ BitVec.intMin 64 = 0x8000000000000000 := by decide
theorem witness_AluFunctions_unlisted : (0x80 : BitVec 11).toNat / 128 ≠ 0 ∧ (0x1F : BitVec 11).toNat % 64 ≥ 0x1C := by decide

theorem test_alu_add_wraps : after (.alu 0 3 1 2 (1, 0)) coreR (fun t => (t.core 0).reg 3 == 3 && (t.core 0).pc == 0x1004) = true := by decide
theorem test_alu_g0_discards : after (.alu 0 0 1 2 (1, 0)) coreR (fun t => (t.core 0).reg 0 == 0) = true := by decide
theorem test_alu_divide_by_zero : after (.alu 0 3 1 0 (1, 0x13)) coreR (fun t => (t.core 0).reg 3 == BitVec.allOnes 64) = true := by decide
theorem test_alu_32_bit_sign : after (.alu 0 3 0 1 (1, 0x41)) coreR (fun t => (t.core 0).reg 3 == 0xFFFFFFFFFFFFFFFB) = true := by decide
theorem test_reserved_opcode_traps : after (.alu 0 0 0 0 (0, 0)) stepS (fun t => (t.core 0).level == 1 && (t.core 0).pc == 0x2000) = true := by decide
theorem test_lui_sign_extends : after (.lui 0 3 0 0x8000) coreR (fun t => (t.core 0).reg 3 == 0xFFFFFFFF80000000) = true := by decide
theorem test_branch_unsigned : branchTaken 4 5 0xFFFFFFFFFFFFFFFE = true ∧ branchTaken 2 5 0xFFFFFFFFFFFFFFFE = false := by decide
theorem test_jalr_misaligned : after (.jalr 0 3 1 (0, 0, [], [])) coreR (fun t => (t.core 0).reg 3 == 0) = true := by decide

theorem witness_Sret_at_L1 : (coreS.core 0).level ≠ 0 := by decide
theorem witness_Trap_from_L0 : (stepS.core 0).level = 0 ∧ (stepS.core 0).tvec.toNat % 4 = 0 ∧ stepS.stepTakes 1 = true ∧ stepS.run 1 = some run1 := by decide
theorem test_sret_at_L0_is_privilege : after (.sret 0 0 0 0) stepS (fun t => (t.core 0).level == 1) = true := by decide
theorem witness_Stepend : (stepS.core 0).reqs = [] ∧ stepS.run 1 = some run1 ∧ (stepS.core 0).level = 0 := by decide
theorem test_stepend_asks_for_commit : after (.stepend 0 0 0 0) stepS
    (fun t => (t.run 1).map Run.stepends == some [0]) = true := by decide
theorem test_evadd_then_evrd : after (.evadd 0 1 1) (stepS.updCore 0 fun k => { k with g := [(1, 5)] })
    (fun t => t.fget F.EVC_VALUE [0, 5] == 5) = true := by decide
theorem witness_Csr_unlisted : (0x007 : BitVec 16).toNat % 4096 ∉ [0, 1, 2, 3, 4, 5, 6, 0x010] ∧ 7 ≤ (0x007 : BitVec 16).toNat % 4096 := by decide
theorem test_csrw_scratch_at_L1 : after (.csrw 0 0 1 5) coreR (fun t => (t.core 0).scratch == 5) = true := by decide
theorem test_csrr_tvec_at_L0_is_illegal : after (.csrr 0 3 0 1) stepS (fun t => (t.core 0).level == 1) = true := by decide

def memR : State := coreR.rawWrite 8 (leBytes 8 0x80FF)

theorem witness_Load_aligned : (memR.check (memR.coreIssuer 0) .rd 8).1 = 0 ∧ (memR.check (memR.coreIssuer 0) .rd 8).2.1 = some (.mem .t1 8) ∧
    reqMeets (memR.core 0).reqs 8 8 = false := by decide
theorem test_ldh_sign_extends : after (.load 0 2 3 0 8 0 0) memR (fun t => (t.core 0).reg 3 == 0xFFFFFFFFFFFF80FF) = true := by decide
theorem witness_Load_misaligned : (5 + 0) % 4 ≠ 0 := by decide
theorem test_load_misaligned_traps : after (.load 0 2 3 1 0 0 0) (stepS.updCore 0 fun k => { k with g := [(1, 5)] })
    (fun t => (t.core 0).badaddr == 5 && (t.core 0).level == 1) = true := by decide
theorem witness_Store_to_memory : (memR.check (memR.coreIssuer 0) .wr 8).1 = 0 ∧ (memR.check (memR.coreIssuer 0) .wr 8).2.1 = some (.mem .t1 8) ∧
    memR.stopped = false := by decide
theorem witness_Store_completes : memR.badIn 32 8 8 = [] ∧ memR.weakIn 32 8 8 = [] ∧ memR.isSealed 8 8 = false ∧ memR.regionOf 8 = none ∧
    memR.regionPrivate 8 = false ∧ 8 < memR.t1Top ∧ memR.t1.lost = [] := by decide
theorem witness_Atomic_on_memory : (memR.check (memR.coreIssuer 0) .atomic 8).1 = 0 ∧
    (memR.check (memR.coreIssuer 0) .atomic 8).2.1 = some (.mem .t1 8) ∧ memR.findLine 0 8 = none := by decide
theorem test_amo_adds : after (.amo 0 3 4 1 1 0) (memR.updCore 0 fun k => { k with g := [(1, 5), (4, 8)] })
    (fun t => (t.core 0).reg 3 == 0x80FF && t.rawRead 8 8 == leBytes 8 0x8104) = true := by decide
theorem witness_Cache_no_line : memR.findLine 0 0x1000 = none := by decide
theorem witness_Enq_accepted : stepS.enqBad 0 0x001 = none ∧ coreS.enqBad 0 0x500 = some .illegal := by decide

/-! ### Command entries -/

def cqS : State := (stepS.updDist 0 fun d => { d with cq := [(1, [runEntry])] })

theorem witness_Entry_at_the_front : cqS.cqFront 0 1 = some runEntry ∧ cqS.stopped = false ∧ cqS.entryReason runEntry = 0 ∧
    cqS.entryBlock runEntry = some 0 := by decide
theorem witness_Entry_rejected : cqS.entryReason { runEntry with w0 := 4 * 2 ^ 60 } = 1 ∧ cqS.entryReason { runEntry with w2 := 0x1001 } = 3 := by decide
theorem test_dispatch_delivers : after (.dispatchEntry 0) cqS (fun t => (t.blk 0).inbox == [⟨runEntry, false⟩] && (t.dist 0).rr == 1) = true := by decide
theorem witness_Inbox_arrival : ((stepS.updBlk 0 fun k => { k with inbox := [⟨runEntry, false⟩] }).blk 0).inbox = [] ++ ⟨runEntry, false⟩ :: [] := by decide



/-! ### Block Sequencers -/

theorem witness_BlkIssues : ∃ s1, BlkIssues 0 blkS s1 := ⟨(blkS.blkFetch 0).2, by decide, by decide, Prod.ext (by decide) rfl⟩
theorem witness_Program_starts : ((stepS.updBlk 0 fun k => { k with inbox := [⟨runEntry, true⟩] }).blk 0).inbox = ⟨runEntry, true⟩ :: [] ∧
    (stepS.blk 0).running = none ∧ stepS.tick.suspending = none ∧ stepS.ten 1 = some ten1 ∧ stepS.runnerOfBlock 0 = 1 := by decide
theorem test_program_start : after (.blockProgramStart 0) (stepS.updBlk 0 fun k => { k with inbox := [⟨runEntry, true⟩], ie := true, timer := 9 })
    (fun t => (t.blk 0).pc == 0x1000 && !(t.blk 0).ie && (t.blk 0).timer == 0 && (t.blk 0).running == some runEntry) = true := by decide
theorem test_ct_addi_negative : after (.ctAddi 0 3 0 0 0xFFFFFFFF) blkS (fun t => (t.blk 0).sreg 3 == BitVec.allOnes 64 && (t.blk 0).pc == 0x1008) = true := by decide
theorem test_ct_s0_discards : after (.ctLi 0 0 0 7) blkS (fun t => (t.blk 0).sreg 0 == 0) = true := by decide
theorem test_ct_reserved_class : after (.ctAlu 0 (6, 0) 0 0 0 0) blkS (fun t => (t.blk 0).running == none) = true := by decide
theorem witness_Ct_reserved_bits : (1 : Fin 32) ≠ 0 ∧ (6 : Nat) ≤ (6 : Fin 16).val ∧ (0x42 : Nat) ≤ (0x42 : Fin 256).val := by decide
theorem witness_Local_interrupt : let k := (blkS.updBlk 0 fun k => { k with ie := true, en := 4, pend := 4 }).blk 0
    k.ie = true ∧ (k.pend &&& k.en).getLsbD 2 = true ∧ (∀ j < 2, (k.pend &&& k.en).getLsbD j = false) := by decide
theorem test_local_interrupt_entry : after (.localInterruptEntry 0) (blkS.updBlk 0 fun k => { k with ie := true, en := 4, pend := 4, vec := [(2, 0x800)] })
    (fun t => (t.blk 0).pc == 0x800 && (t.blk 0).epc == 0x1000 && !(t.blk 0).ie && (t.blk 0).pend == 4) = true := by decide
theorem witness_Timer_runs : ((blkS.updBlk 0 fun k => { k with timer := 1 }).blk 0).timer ≠ 0 := by decide
theorem witness_Ct_load_in_range : 0xFFFF8 + 8 ≤ 0x100000 ∧ 0xFFFF8 % 8 = 0 ∧ blkS.tileBusy 0 0xFFFF8 8 = false := by decide
theorem test_ct_st_then_memory : after (.ctSt 0 0 3 0 0x40) (blkS.updBlk 0 fun k => { k with s := [(3, 0x1122)] })
    (fun t => t.rawRead (spadBase 0 + 0x40) 8 == leBytes 8 0x1122) = true := by decide

def postS : State := { blkS with posts := [{ src := 0, ten := 1, target := 0, ctr := 2, value := 5, after := [] }] }

theorem witness_Post_arrives : postS.posts[0]? = some { src := 0, ten := 1, target := 0, ctr := 2, value := 5, after := [] } ∧
    postS.postReady 0 { src := 0, ten := 1, target := 0, ctr := 2, value := 5, after := [] } = true ∧ ten1.phys 0 = some 0 := by decide
theorem test_post_arrive : after (.postArrive 0) postS (fun t => t.fget F.BLK_POST_VALUE [0, 2] == 5 && t.posts.isEmpty && (t.blk 0).pend.getLsbD 3) = true := by decide
theorem witness_Sy_reserved_bits : (1 : Fin 8) ≠ 0 := by decide
theorem test_part_defines : after (.dmPart 0 8 9 3 false) (blkS.updBlk 0 fun k => { k with s := [(8, 0x40000), (9, 0x10000)] })
    (fun t => (t.blk 0).part 3 == some ⟨0x40000, 0x10000, 0, 0⟩) = true := by decide
theorem witness_Ring_counts : let k := (blkS.updBlk 0 fun k => { k with parts := [(3, some ⟨0x40000, 0x10000, 0x80, 0⟩)] }).blk 0
    k.part 3 = some ⟨0x40000, 0x10000, 0x80, 0⟩ ∧ 0x80 % 128 = 0 ∧ 0x80 ≤ 0x80 - 0 := by decide
theorem test_rel_frees : after (.dmRel 0 3 false 0x80) (blkS.updBlk 0 fun k => { k with parts := [(3, some ⟨0x40000, 0x10000, 0x80, 0⟩)] })
    (fun t => (t.blk 0).part 3 == some ⟨0x40000, 0x10000, 0x80, 0x80⟩) = true := by decide
theorem witness_Dm_go : 0xFFFC0 + 64 ≤ 0x100000 ∧ 0xFFFC0 % 64 = 0 ∧ blkS.tagBusy 0 1 = false := by decide
theorem witness_Vx_bad_type : (3 : Nat) < (4 : Fin 8).val := by decide
theorem test_vx_abs : laneArith 6 0 0xBF800000 0 0 = ⟨0x3F800000, 0⟩ := by decide
theorem test_vx_add_fp32 : (laneArith 0 0 0x3F800000 0x40000000 0).code = 0x40400000 := by decide
theorem test_rsqrt_of_zero_is_infinite : (laneNum 0 0).isZero = true := by decide
theorem witness_Vx_nan : laneNum 0 0x7FC00000 = .nan ∧ laneNum 1 0x7FC0 = .nan := by decide
theorem witness_Vx_cmp_mask : (7 : Fin 32).val < 8 ∧ 8 ≤ (8 : Fin 32).val := by decide
theorem witness_Sort_no_nan : (blkS.blk 0).v = [] ∧ laneNum 0 0 ≠ .nan := by decide
theorem witness_Mm_allowed : blkS.passAllowed = true ∧ (blkS.blk 0).passes = [] := by decide
theorem test_no_pass_in_the_eave : ({ blkS with tick := { tick1 with eave := true } } : State).passAllowed = false := by decide

def pass1 : Pass := { shape := 0, fmtA := 4, fmtB := 4, acc := 0, accum := false, shingle := false, a := 0, b := 0x1000, rows := 1, cols := 1, len := 1, scaleA := 0, scaleB := 0, snap := [] }

theorem witness_Pass_ends : ((blkS.updBlk 0 fun k => { k with passes := [pass1] }).blk 0).passes = pass1 :: [] := by decide
theorem witness_Pass_element_exact : |([3, -4] : List Int).sum| < 2 ^ 24 := by decide

/-! ### Great Arrays -/

def gaS : State := { stepS with tens := [(1, some { ten1 with gaCtl := [some ⟨0x3000, 2, 4⟩] })] }

theorem witness_Ga_list : gaS.gaCtl 0 = some (1, ⟨0x3000, 2, 4⟩) ∧ requests false 0x3000 64 = [(0x3000, 64)] := by decide
theorem witness_Ga_head : (((gaS.fset F.EVC_VALUE [0, 4] 1).updDist 0 fun d => { d with ga := { d.ga with ahead := [⟨[0, 0, 0, 0, 0, 0, 0, 0], 0⟩] } }).gaHead 0).1 =
    some (1, ⟨[0, 0, 0, 0, 0, 0, 0, 0], 0⟩) := by decide
theorem test_ga_nop_completes : after (.gaNop 0 0) ((gaS.fset F.EVC_VALUE [0, 4] 1).updDist 0 fun d => { d with ga := { d.ga with ahead := [⟨[0, 0, 0, 0, 0, 0, 0, 0], 0⟩] } })
    (fun t => (t.ga 0).index == 1 && (t.ga 0).ahead.isEmpty) = true := by decide
theorem witness_Ga_emulated : KMap.get none ((gaS.updDist 0 fun d => { d with ga := { d.ga with emu := [(0, some (0, 0))] } }).dist 0).ga.emu 0 = some (0, 0) := by decide
theorem witness_Ga_pass_ends : 16 ≤ ({ pass1 with shape := 16 } : Pass).shape ∧ pass1.cols ≤ 256 ∧ pass1.acc + cdiv pass1.len 256 ≤ 16 := by decide

/-! ### DMA -/

/-- A COPY of one row of 128 B from 0x2000 to the scratchpad of Block 0. -/
def job1 : DmaJob := { id := 1, owner := .blk 0 0, ten := 1, words := [0x1000000000000000, 0x2000, spadBase 0 + 0x400, 0, 0x100000080, 0, 0, 0], off := 0 }

def dmaS : State := { blkS with dma := [job1], nextJob := 2 }

theorem witness_DmaGoes : dmaS.job 1 = some job1 ∧ dmaS.dmaRuns job1 = true ∧ job1.log = [] ∧ job1.ringUnit = none ∧ job1.bytes < job1.stream ∧
    job1.op = 1 := by decide
theorem test_copy_moves_its_row : after (.dmaCopy 1 1 0) (dmaS.rawWrite 0x2000 (leBytes 8 0x1122334455667788))
    (fun t => t.rawRead (spadBase 0 + 0x400) 8 == leBytes 8 0x1122334455667788 && (t.job 1).map DmaJob.bytes == some 128) = true := by decide +kernel
theorem witness_Dma_complete : ({ job1 with bytes := 128 } : DmaJob).stream ≤ 128 ∧ ({ job1 with bytes := 128 } : DmaJob).ringUnit = none := by decide
theorem test_dma_complete : after (.dmaDescriptorComplete 1 0) { dmaS with dma := [{ job1 with bytes := 128 }] } (fun t => t.dma.isEmpty) = true := by decide
theorem witness_Dma_rejected : blkS.descBad { job1 with words := [0x1000000000000000, 0x2000, spadBase 0 + 0x401, 0, 0x100000080, 0, 0, 0] } = true ∨
    blkS.descBad { job1 with words := [0x7000000000000000, 0x2000, 0, 0, 0x100000080, 0, 0, 0] } = true := by decide
theorem witness_Pool_room : ({ blkS with dma := [{ job1 with owner := .ch 0 3 }] } : State).dma.find? (fun x => x.owner == .ch 0 3) =
    some { job1 with owner := .ch 0 3 } ∧ ({ blkS with dma := [{ job1 with owner := .ch 0 3 }] } : State).poolRoom 0 3 4096 = true := by decide
theorem witness_Skew : ({ job1 with words := [0x2000000000000000, 0x2000, 0, 0, 0x100000080, 0, 0, 0] } : DmaJob).op = 2 := by decide
theorem witness_Ring_whole : ∀ l < 4, blkS.linkRetired l = false := by decide
theorem test_ring_opposite : after (.ringTransfer 0 2 true [] 0) blkS (fun t => t.out.value == 64) = true := by decide
theorem test_spoke_loss_terminates : after (.districtUnreachable 1 (true, []) 0) blkS
    (fun t => t.ridge.terminate && !t.rtest .RING_STATUS [] 9) = true := by decide

/-! ### Routing Engines -/

def reJob : EngJob := ⟨1, [0, 0, 0, 0, 0, 0, 0, 0, 0, 0, 0, 0, 0, 0, 0, 0]⟩

def reS : State := stepS.updDist 0 fun d => { d with re := { queue := [reJob] } }

def reGo : State := stepS.updDist 0 fun d => { d with re := { running := some { job := reJob, index := 0, startCyc := 0 } } }

theorem witness_Re_starts : (reS.re 0).running = none ∧ (reS.re 0).queue = reJob :: [] ∧ reS.reWorks 1 = true := by decide
theorem witness_ReGoes : ReGoes 0 { job := reJob, index := 0, startCyc := 0 } reGo := by unfold ReGoes; decide
theorem test_re_nop_ends : after (.reNop 0 0) reGo (fun t => (t.re 0).running.map ReRun.ended == some true) = true := by decide
theorem witness_Expert_entry_waits : ((stepS.updDist 0 fun d => { d with re := { held := [runEntry] } }).re 0).held = runEntry :: [] ∧
    (KMap.get [] (stepS.dist 0).cq 0).length < 1024 := by decide


/-! ### Residency, tiers and flash -/

def asg (e r : Nat) : Asg := { expert := e, rank := r, gate := 1 }

theorem witness_Capacity_tokens : ∀ l ∈ [[asg 0 0], [asg 0 0, asg 3 1]], l.length ≤ 16 ∧ ∀ p ∈ l.zipIdx, p.1.rank = p.2 := by decide
theorem witness_Gather_job : ReGoes 0 { job := ⟨1, [2 * 2 ^ 60]⟩, index := 0, startCyc := 0, phase := 7, uniq := [4] }
    (stepS.updDist 0 fun d => { d with re := { running := some { job := ⟨1, [2 * 2 ^ 60]⟩, index := 0, startCyc := 0, phase := 7, uniq := [4] } } }) := by
  unfold ReGoes; decide

def rmJob : EngJob := ⟨1, [0, 0, 0, 0, 0, 0, 0, 0]⟩

def rmS : State := stepS.updDist 0 fun d => { d with rm := { items := [.job rmJob] } }

theorem witness_Rm_job : (rmS.rm 0).items = .job rmJob :: [] ∧ rmS.rmWorks 1 = true ∧ rmJob.op ≠ 3 := by decide
theorem witness_Rm_demand : ((stepS.updDist 0 fun d => { d with rm := { items := [.demand 1 [0, 0, 0, 0]] } }).rm 0).items = .demand 1 [0, 0, 0, 0] :: [] := by decide

def serve1 : Serve := { kind := .demand 3, ten := 1, item := [], layer := 0, expert := 7, place := some 0x4000, key := 0x5000, decK := 1, size := 1, wanted := [] }

def serveS : State := stepS.updDist 0 fun d => { d with rm := { serves := [serve1] } }

theorem witness_Serve_is_placed : (serveS.rm 0).serves[0]? = some serve1 ∧ serve1.placed = false ∧ serveS.rmWorks 1 = true ∧
    serve1.place = some 0x4000 ∧ serve1.log = [] := by decide
theorem witness_Fetch_issue : ((stepS.updDist 0 fun d => { d with rm := { fetches := [{ ten := 1, key := 0x5000, home := 0, thatch := none, size := 1, ranges := [⟨0, 0x6000, 4096⟩] }] } }).rm 0).fetches.length = 1 := by decide

theorem witness_T1_line : up.stopped = false ∧ up.t1Gone 0x40 = false ∧ up.t1Gone 0 = false := by decide
theorem test_t1_read_after_write : (((up.t1Write 0 0x40 (leBytes 8 0x99)).2.t1Read 0 0x40 8).2.1) = leBytes 8 0x99 := by decide
theorem test_t1_bad_word_is_data_error : (({ up with badWords := [(0x40, true)] } : State).t1Read 0 0x40 8).1 = St.dataError := by decide
theorem witness_T2_line : up.t2Gone (t2Base + 0x80) = true ∨ up.t2Gone (t2Base + 0x80) = false := by decide
theorem witness_Migration : ({ up with t1 := { migrating := some 3 }, ridge := { up.ridge with decided := [unitKey 4 3] } } : State).t1.migrating = some 3 ∧
    unitKey 4 3 ∈ ({ up with ridge := { up.ridge with decided := [unitKey 4 3] } } : State).ridge.decided := by decide
theorem witness_Resync : (up.fset F.T2_RANGE_BASE_RESYNC [0] 1).fget F.T2_RANGE_BASE_RESYNC [0] = 1 := by decide

def cmd1 : NvmeCmd := { id := 4, op := .write, drive := 2, lba := 9, addr := t3Base, len := 8, data := leBytes 8 5, issueNs := 0, issuer := 0, ten := 1, fua := false, waits := false }

def flS : State := { (up.fset F.FL_CFG_EN [] 1).fset F.FL_DRIVE_QUEUES [2] 1 with fl := { cmds := [cmd1], nextId := 5 } }

theorem witness_Nvme_command : flS.nvmeCmd 4 = some cmd1 ∧ flS.nvmeCmd 5 = none := by decide
theorem test_nvme_write_lands : after (.nvmeCompletion 4 0 true 0) flS (fun t => t.rawRead t3Base 8 == leBytes 8 5) = true := by decide
theorem witness_Drive : (up.fset F.FL_DRIVE_PRESENT [2] 1).fget F.FL_DRIVE_PRESENT [2] = 1 ∧ (up.fset F.FL_DRIVE_PRESENT [2] 1).fget F.FL_DRIVE_FAILED [2] = 0 := by decide
theorem witness_Trim : Memory.wf ({ up with fl := { trim := some (t3Base, 1) } } : State) = true := by decide
theorem test_trim_error_is_shown : after (.trimDone (0, 5) 0) { up with fl := { trim := some (t3Base, 1) } }
    (fun t => t.fl.trim == none && t.fget F.FL_TRIM_CTL_ERR [] == 1) = true := by decide +kernel

def shS : State := { up with shp := { waiting := [{ set := 3, queue := 0, bytes := 128, ten := 1, enterNs := 0, key := 9 }] } }

theorem witness_Shaper_queue : shS.shapeQueue 3 0 = { set := 3, queue := 0, bytes := 128, ten := 1, enterNs := 0, key := 9 } :: [] ∧
    shS.bucketOpen (.mem 3 0) = true := by decide
theorem test_shaper_issues : after (.shaperIssue 3 0 0) shS (fun t => t.shp.waiting.isEmpty && t.shp.issued == [(9, 1)]) = true := by decide
theorem witness_Unshaped : ten1.desc.shaper = 0 := by decide

/-! ### Ticks, steps and Tenancies -/

theorem witness_Tick_due : stepS.tickDue = some 1000000 ∧ stepS.fget F.RIDGE_STATUS_STATE [] ≠ 4 ∧
    (stepS.fset F.TICK_CTRL_EN [] 1).fget F.TICK_CTRL_EN [] = 1 := by decide
theorem test_tick_without_en_stops : after (.tickStart 1000000) stepS (fun t => !t.tick.active) = true := by decide
theorem witness_Eave : stepS.tick.active = true ∧ stepS.tick.eave = false := by decide
theorem witness_Exchange_times_out : 7 + 50000 < 50008 := by decide
theorem witness_Step_runs : stepS.tick.cur = 1 ∧ stepS.ten 1 = some ten1 ∧ stepS.run 1 = some run1 ∧ ten1.stash = none ∧ run1.entered = true := by decide
theorem witness_Step_flip : ({ run1 with stepEnded := true } : Run).discardCode = none := by decide
theorem witness_Deadline : stepS.tick.active = true ∧ stepS.deadline run1.budget < 980001 ∧ run1.overrun = false := by decide
theorem test_step_deadline_is_0x43 : after (.stepDeadline 980001) stepS (fun t => (t.run 1).map Run.overrun != some false) = true := by decide
theorem witness_Record_of_an_ended_step : ({ run1 with ended := some .commit } : Run).channel = none := by decide

/-- CCC0 is an agent that holds Operator at all times (R470). -/
theorem witness_WriteTaken : WriteTaken (.core 4) (RegName.addr .TEN_CMD []) .TEN_CMD [] (2 ^ 28 + 2) stepS :=
  ⟨by decide, by decide, by decide, show stepS.holds (.core 4) .operator = true ∧ stepS.journalRoom 1 = true by decide⟩
theorem witness_Ten_cmd_ops : (0 : Fin 16).val = 0 ∧ 3 < (4 : Fin 16).val := by decide
theorem test_destroy_of_none : after (.destroy (.core 4) 2 0) up (fun t => t.tick.cmd.isSome || t.fget F.TEN_STATUS_RESULT [] != 0) = true := by decide
theorem witness_Command_ends : ({ up with tick := { cmd := some ⟨3, some 7⟩ } } : State).tick.cmd = some ⟨3, some 7⟩ ∧ up.stopped = false := by decide
theorem test_command_ends : after (.tenCmdComplete 0) { up.fset F.TEN_STATUS_BUSY [] 1 with tick := { cmd := some ⟨3, some 7⟩ } }
    (fun t => t.fget F.TEN_STATUS_RESULT [] == 7 && t.fget F.TEN_STATUS_TENANCY [] == 3 && t.fget F.TEN_STATUS_BUSY [] == 0) = true := by decide

/-! ### Control registers -/

theorem witness_Unassigned : assigned 0x3FFFFF8 = false ∧ assigned (0x3FFFFF8 + 4) = false ∧ up.writesShut .host 0x3FFFFF8 = false := by decide
theorem test_read_of_two_bytes : (up.regRead .host 0 2).1 = 0xFFFFFFFF := by decide
theorem test_misaligned_read : (up.regRead .host 4 8).1 = 0xFFFFFFFF := by decide
theorem test_unassigned_read : (up.regRead .host 0x3FFFFF8 4).1 = 0 := by decide
theorem test_chip_id : (up.regRead .host 0 4).1 = 0x9120B000 := by decide
theorem witness_Grave_shuts_writes : (up.fset F.RIDGE_STATUS_STATE [] 4).writesShut .host 0 = true := by decide
theorem witness_TickCtrl_taken : WriteTaken (.core 4) (RegName.addr .TICK_CTRL []) .TICK_CTRL [] 1 up :=
  ⟨by decide, by decide, by decide, show up.holds (.core 4) .operator = true ∧ up.journalRoom 1 = true by decide⟩
theorem witness_TickConfig_refused : tickConfigOk 0 = false ∧ up.writesShut (.core 4) (RegName.addr .TICK_CONFIG []) = false := by decide
theorem test_tick_ctrl_starts : after (.tickCtrlWrite (.core 4) 1 0) up (fun t => t.tick.waiting && t.fget F.TICK_CTRL_EN [] == 1) = true := by decide

/-! ### Oplith -/

/-- CRC-32C and CRC-16 of "123456789" (assumption 160). -/
theorem test_crc32c : crc32c ([0x31, 0x32, 0x33, 0x34, 0x35, 0x36, 0x37, 0x38, 0x39] : List Byte) = 0xE3069283 := by decide +kernel
theorem test_crc16 : crc16 ([0x31, 0x32, 0x33, 0x34, 0x35, 0x36, 0x37, 0x38, 0x39] : List Byte) = 0x29B1 := by decide +kernel

def pkt1 : Packet := { cls := 1, opcode := 0x01, pkey := 0xFFFF, src := 9, dst := 3, epoch := 0, vc := 1, pathKey := 0, tag := 0x123, hops := 4, bytes := 2 }

def sw1 : SwPkt := { pkt := pkt1, inp := some 5, out := none, sinceNs := 0 }

/-- Port 5 is in service. -/
def portS : State := up.setPortState 5 Pst.active

def withSw (q : SwPkt) : State := { portS with fab := { sw := [q] } }

theorem witness_Frames : portS.portFrames 5 = true ∧ portS.pins.silent = false ∧ (portS.port 5).resend = 0 ∧ (portS.port 5).sinceIdle < 4095 ∧
    (portS.port 5).buffer.length < 128 ∧ up.portFrames 5 = false := by decide
def resendS : State := portS.updPort 5 fun _ => { buffer := [⟨7, [], 0⟩], resend := 1 }
theorem witness_Resend : (resendS.port 5).buffer[(resendS.port 5).buffer.length - (resendS.port 5).resend]? = some ⟨7, [], 0⟩ := by decide
theorem witness_TakeAck : (resendS.port 5).buffer = [⟨7, [], 0⟩] ++ [] ∧ (7 * 16 + 2).testBit 1 = true ∧ (⟨7, [], 0⟩ : TxFrame).fseq = (7 * 16 + 2) / 16 % 256 ∧
    ([] : List TxFrame) ++ [⟨7, [], 0⟩] = [⟨7, [], 0⟩] := by decide
theorem test_ack_frees_the_frame : ((resendS.takeAck 5 (7 * 16 + 2)).port 5).buffer = [] := by decide
theorem witness_SendNew : (portS.port 5).widthTx = none ∧ (portS.port 5).versionTx = none ∧ (portS.port 5).packets = [] ∧
    (portS.port 5).links = [] ∧ (portS.port 5).creditDue = false := by decide
theorem test_nothing_to_send_is_idle : after (.frameSend 5 0) portS (fun t => (t.port 5).buffer == [] && (t.port 5).last.isSome) = true := by decide
theorem witness_Frame_in_order : (0 : Fin 545).val ≤ 15 ∧ (0 : BitVec 20).toNat / 2 ^ 12 = (portS.port 5).rxNext := by decide
theorem test_bad_frame_asks_again : after (.frameReceive 5 16 0 [] 0) portS (fun t => (t.port 5).nak) = true := by decide
theorem witness_Nak : ({ portS with now := 2000 }.updPort 5 fun x => { x with nakNs := 1 }).portFrames 5 = true ∧ 1 + 999 ≤ 2000 := by decide

def downS : State := (up.fset F.PORT_CTRL_EN [5] 1).setPortState 5 Pst.down
theorem witness_Port_down : (downS.at 1000).portState 5 = Pst.down ∧ ((downS.at 1000).port 5).downNs + 1000 ≤ (downS.at 1000).now := by decide
theorem test_down_port_trains : after (.portTrain 5 false 0 0 0 1 (0, 15) 15 0 0 1000) downS (fun t => t.portState 5 == Pst.training) = true := by decide
theorem test_token_of_its_own_is_self_loop : after (.portTrain 5 false 0 0 (BitVec.ofNat 64 up.linkToken) 1 (0, 15) 15 0 0 0) (downS.setPortState 5 Pst.training)
    (fun t => t.portState 5 == Pst.selfLoop) = true := by decide +kernel
theorem witness_Widths : widthOf 0 15 = some (0, 15) ∧ widthOf 0 7 = some (1, 3) ∧ widthOf 0 8 = some (2, 8) ∧ widthOf 0 0 = none := by decide
theorem test_port_down : after (.portDown 5 1 0) portS (fun t => t.portState 5 == Pst.down && t.fget F.PORT_LINK_LINK_DOWNS [5] == 1) = true := by decide
theorem test_port_retires : after (.portRetire 5) downS (fun t => t.portState 5 == Pst.retired) = true := by decide
theorem witness_Lane : (portS.fset F.PORT_STATUS_LANES_ACTIVE [5] 15).portState 5 = Pst.active ∧
    ((portS.fset F.PORT_STATUS_LANES_ACTIVE [5] 15).fget F.PORT_STATUS_LANES_ACTIVE [5]).testBit 2 = true := by decide

def pkt2 : Packet := { pkt1 with body := List.replicate 32 0 }
theorem test_slots_round_trip : Packet.parse pkt2.sealed.toSlots = pkt2.sealed := by decide +kernel
theorem witness_Arrival : trimSlots (pkt1.toSlots.map fun b => (⟨b, 0, true⟩ : RxSlot)) ≠ [] := by decide +kernel
theorem witness_Delivered : (withSw sw1).delivered 0 [0x01] = some sw1 ∧ (withSw sw1).delivered 0 [0x02] = none := by decide
theorem witness_Grantable : (withSw { sw1 with out := some 5 }).grantable 5 0 { sw1 with out := some 5 } = false := by decide
theorem witness_Granted : ((withSw { sw1 with out := some 5 }).fset F.PORT_CREDIT_SHARED [5] 4).grantable 5 0 { sw1 with out := some 5 } = true := by decide
theorem witness_Residence : ({ sw1 with residUs := 3 } : SwPkt).sinceNs + ({ sw1 with residUs := 3 } : SwPkt).residUs * 1000 < 3001 := by decide
theorem test_residence_drops : after (.residenceTimeout 0 3001) (withSw { sw1 with residUs := 3 })
    (fun t => t.fab.sw == [] && t.fget F.PORT_DROPS_RESIDENCE [5] == 1) = true := by decide +kernel
theorem witness_Epoch_idle : up.fget F.EPOCH_CTRL_SRC_EPOCH [] ≠ 1 ∧ up.inflight 1 = 0 := by decide

theorem test_read_of_no_bytes_leaves : after (.read 0 0) (withSw sw1) (fun t => t.fab.sw.all (fun q => q != sw1)) = true := by decide +kernel
def rec1 : FabRecord := ⟨9, 0x123, 0x02, 0, 0, 100⟩
theorem witness_Record : ({ up with fab := { records := [rec1] } } : State).recordOf { pkt1 with opcode := 0x02 } = some rec1 := by decide
theorem test_record_expires : after (.recordExpiry 0 100) { up with fab := { records := [rec1] } } (fun t => t.fab.records == []) = true := by decide
def req1 : FabReq := { id := 1, srcType := 0, srcIdx := 0, ten := 0, kind := .read, dst := 9, addr := 0, len := 8, data := [], pkey := 0xFFFF, ward := 0, comb := false, pathKey := 0,
                       tag := some 0x123, attempts := 1 }
def reqS (q : SwPkt) : State := { portS with fab := { reqs := [req1], sw := [q], nextReq := 2 } }
def resp1 : SwPkt := { sw1 with pkt := { pkt1 with opcode := 0x20, bytes := 8, body := leBytes 8 77 } }
theorem witness_Answer : (reqS resp1).delivered 0 [0x20] = some resp1 ∧ (reqS resp1).answers resp1.pkt = some req1 := by decide
theorem test_read_data_ends_the_read : after (.readData 0 0) (reqS resp1) (fun t => t.fabResult 1 == some (0, leBytes 8 77)) = true := by decide
theorem witness_Retry : req1.attempts ≠ 0 ∧ req1.result = none ∧ req1.sentNs + timerOf F.FAB_TIMERS_RETRY_US req1.timers * 1000 ≤ 0 := by decide
theorem test_timeout_ends_the_request : after (.e2eRetry 0 0) { portS with fab := { reqs := [{ req1 with attempts := 1 }] } }
    (fun t => (t.fabResult 1).map Prod.fst == some St.fabricTimeout && t.fget F.FAB_E2E_TIMEOUTS [] == 1) = true := by decide

def coll1 : CollJob := ⟨0, 1, List.replicate 16 0⟩
def collS : State := stepS.updColl 2 fun x => { x with queue := [coll1] }
theorem witness_Collective : collS.collReady 2 = some coll1 ∧ coll1.op = 0 ∧ (collS.coll 2).running = none := by decide
theorem test_collective_nop_leaves : after (.collNop 2 0) collS (fun t => (t.coll 2).queue == []) = true := by decide
theorem witness_Cancel : (collS.updColl 2 fun x => { x with queue := [⟨0, 1, 8 * 2 ^ 60 :: List.replicate 15 0⟩] }).coll 2 = { queue := [⟨0, 1, 8 * 2 ^ 60 :: List.replicate 15 0⟩] } ∧
    (⟨0, 1, 8 * 2 ^ 60 :: List.replicate 15 0⟩ : CollJob).op = 8 := by decide
def collRun1 : CollRun := { job := ⟨0, 1, 6 * 2 ^ 60 :: List.replicate 15 0⟩, startNs := 0 }
theorem witness_Collective_runs : ((stepS.updColl 2 fun x => { x with running := some collRun1 }).coll 2).running = some collRun1 ∧ collRun1.status = 0 := by decide
theorem witness_Sends : ∃ c r, ∃ s : State, (s.stageSends c r 0).1 ≠ [] :=
  ⟨2, { job := ⟨0, 1, [2 * 2 ^ 60 + 1, 0, 0, 0, 0, 0, 128 * 2 ^ 32, 0, 0, 0, 0, 0, 0, 0, 0, 0]⟩, startNs := 0, ranks := [(0, 3), (1, 9)] },
    { stepS with tens := [(1, some { ten1 with fab := some ⟨0, 1, 0, 0, 0, 1, 0⟩ })] }, by decide +kernel⟩

theorem witness_Put : (withSw { sw1 with pkt := { pkt1 with opcode := 0x40 } }).delivered 0 [0x40] = some { sw1 with pkt := { pkt1 with opcode := 0x40 } } ∧
    (4095 : Nat) < 4096 := by decide
theorem witness_Generations : genNewer 1 0 = true ∧ genNewer 127 0 = true ∧ genNewer 128 0 = false ∧ genNewer 0 0 = false ∧ genNewer 0 255 = true := by decide
/-- R47's worked example: t1 = 1,000,000,000, t2 = t1 + 730, t3 = t1 + 1730 and t4 = t1 + 2600: the offset is 70 and the path delay 800. -/
theorem test_exchange_offset : (let t1 : Int := 1000000000
    (((t1 + 2600) - (t1 + 1730) - ((t1 + 730) - t1)) / 2, ((t1 + 2600) - (t1 + 1730) + ((t1 + 730) - t1)) / 2)) = (70, 800) := by decide

def acc (cmd : Nat) : AccCmd := ⟨cmd * 2 ^ 56 + 2 ^ 48 * (if cmd < 3 then 3 else 0) + 5 * 2 ^ 32, 0, 0, 9, none, true⟩
def cmdS (cmd : Nat) : State := { portS with fab := { cmds := [acc cmd] } }
theorem witness_Commands : (cmdS 1).nextCmd 1 = some (acc 1) ∧ (cmdS 2).nextCmd 2 = some (acc 2) ∧ (cmdS 3).nextCmd 3 = some (acc 3) ∧
    (cmdS 4).nextCmd 4 = some (acc 4) ∧ up.nextCmd 1 = none := by decide
theorem witness_CmdOk : cmdOk (acc 1).w0 (acc 1).w1 (acc 1).w2 = true ∧ portS.journalRoom = true := by decide
theorem test_stop_leaves_the_queue : after (.stop [] 0) (cmdS 1) (fun t => t.fab.cmds == []) = true := by decide +kernel
theorem test_second_copy_is_not_executed : ((portS.noteSeq 9 5).acceptCmd (acc 1) true 0xFFFF).fab.cmds = [] := by decide +kernel
theorem test_first_copy_waits : (portS.acceptCmd (acc 1) true 0xFFFF).fab.cmds = [acc 1] := by decide +kernel
theorem witness_Tx : ({ up with fab := { tx := some ⟨5, [0, 0, 0], 1, 0, 0, true⟩ } } : State).fab.tx = some ⟨5, [0, 0, 0], 1, 0, 0, true⟩ := by decide
theorem test_ack_ends_the_command : (({ up with fab := { tx := some ⟨5, [0, 0, 0], 1, 0, 0, true⟩ } } : State).cmdAcked (5 * 2 ^ 48)).fab.tx = none := by decide

theorem witness_Alley_down : (up.fset F.ALLEY_STATUS_UP [3] 1).fget F.ALLEY_STATUS_UP [3] = 1 ∧ ((up.fset F.ALLEY_STATUS_UP [3] 1).alleySt 3).rxNs + 30000 ≤ 30000 := by decide
theorem test_alley_goes_down : after (.alleyDown 3 30000) (up.fset F.ALLEY_STATUS_UP [3] 1) (fun t => t.fget F.ALLEY_STATUS_UP [3] == 0) = true := by decide +kernel
theorem test_lease_is_held : ((up.applyLease 1 4).fget F.WARD_STATE_STATE [1], (up.applyLease 1 4).fget F.WARD_STATE_EPOCH [1]) = (1, 4) := by decide
def wardS : State := (stepS.fset F.WARD_STATE_STATE [1] 1).fset F.WARD_STATE_EPOCH [1] 4
theorem witness_Lease_out : wardS.fget F.WARD_STATE_STATE [1] = 1 ∧ (wardS.ten 1).isSome = true ∧
    KMap.get 0 wardS.fab.leaseNs 1 + wardS.fget F.LEASE_CFG_LEASE_TTL_MS [] * 1000000 ≤ 50000000 := by decide
theorem test_lease_runs_out : after (.leaseTtlExpiry 1 [] 50000000) wardS (fun t => t.fget F.WARD_STATE_STATE [1] == 2) = true := by decide +kernel
theorem test_lease_still_held : after (.leaseTtlExpiry 1 [] 49999999) wardS (fun t => t.fget F.WARD_STATE_STATE [1] == 1) = true := by decide

/-! ### Ridge, host and security -/

def ev40 : Event := { code := 0x60, level := 0, unit := 7, ten := 1 }
theorem witness_Event : up.eventNamed ev40 = true ∧ up.eventNamed { code := 0xFF } = false := by decide
theorem test_event_is_first : after (.faultLog ev40 0) stepS (fun t => t.fget F.RIDGE_STATUS_FIRST_VALID [] == 1 &&
    bits (t.rget .FIRST [0]).toNat 63 56 == 0x60 && bits (t.rget .FIRST [3]).toNat 63 48 == 7) = true := by decide +kernel
theorem witness_Watchdog : let s := { up.fset F.CCC_WDOG_EN [] 1 with ridge := { up.ridge with wdog := [(4, 20000001)] } }
    s.fget F.CCC_WDOG_EN [] = 1 ∧ s.fget F.CCC_WDOG_LIMIT_US [] * 1000 < KMap.get 0 s.ridge.wdog 4 := by decide
theorem test_watchdog_terminates : after (.cccWdogExpiry 0) { up.fset F.CCC_WDOG_EN [] 1 with ridge := { up.ridge with wdog := [(4, 20000001)] } }
    (fun t => t.ridge.terminate) = true := by decide +kernel
theorem witness_Window : windows[0]?.isSome = true ∧ windows[3]?.isSome = true := by decide
theorem witness_Terminate : ({ up with ridge := { up.ridge with terminate := true } } : State).fget F.RIDGE_STATUS_STATE [] = 0 ∧
    ({ up with ridge := { up.ridge with terminate := true } } : State).ridge.powerFail = false := by decide
theorem test_termination_ends_tenancies : after (.termination [] 0) { stepS with ridge := { stepS.ridge with terminate := true } }
    (fun t => t.fget F.RIDGE_STATUS_STATE [] == 1 && (t.ten 1).isNone && t.blks.isEmpty) = true := by decide +kernel
theorem witness_Held : (up.setRidge 3).fget F.RIDGE_STATUS_STATE [] = 3 ∧ (up.setRidge 1).fget F.RIDGE_STATUS_STATE [] = 1 := by decide
theorem witness_Grave : ({ up with ridge := { up.ridge with grave := some 0x9A } } : State).ridge.grave = some 0x9A := by decide
theorem test_grave_silences : after (.graveEvent false 0) { up with ridge := { up.ridge with grave := some 0x9A } }
    (fun t => t.fget F.RIDGE_STATUS_STATE [] == 4 && t.fget F.RIDGE_STATUS_GRAVE_CODE [] == 0x9A && t.pins.silent) = true := by decide +kernel

/-- R434's worked example. -/
def barS : State := up.rset .BAR2_XLAT [5] 0xC0000F1000000000#64
theorem test_bar2_address : barS.bar2Addr 0x14A500040 = 0x00000F100A500040 ∧ barS.fget F.BAR2_XLAT_VALID [5] = 1 ∧ barS.fget F.BAR2_XLAT_WRITE [5] = 1 := by decide
theorem witness_Bar2_shut : bar2Request 0x40 8 4096 = true ∧ up.stopped = false ∧ up.fget F.BAR2_XLAT_VALID [0] = 0 := by decide
theorem test_bar2_read_without_window : after (.bar2Read 0x40 8 0) up (fun t => t.out.status == 2 && t.fget F.HIF_ERR_VALID [] == 1) = true := by decide
theorem test_bar2_write_reaches_the_scratchpad : after (.bar2Write 0x14A500040 (leBytes 8 5) false 0) barS (fun t => t.rawRead 0xF100A500040 8 == leBytes 8 5) = true := by decide +kernel
theorem test_endpoint_reset_clears_the_window : after (.endpointReset 0 0) barS (fun t => t.fget F.BAR2_XLAT_VALID [5] == 0) = true := by decide +kernel
def chS : State := { (((up.fset F.RES_CH_CFG_EN [3] 1).fset F.RES_CH_CFG_LOG2_SIZE [3] 6).fset F.HIF_STATUS_BME [] 1).fset F.HIF_STATUS_LINK_UP [] 1 with
  hif := { held := [(3, [[1, 2]])] } }
theorem witness_Ring : chS.fget F.RES_CH_CFG_EN [3] ≠ 0 ∧ chS.fget F.RES_CH_CFG_MODE [3] ≠ 1 ∧ 0 < (chS.resHeld 3).length ∧ chS.ringRoom 3 0 = true ∧
    chS.canSend = true := by decide
theorem test_ring_record_is_written : after (.ringRecordWrite 3 0) chS (fun t => t.resHeld 3 == [] && t.fget F.RES_CH_PI_PI [3] == 1) = true := by decide +kernel
theorem witness_Port_channel : (chS.fset F.RES_CH_CFG_MODE [3] 1).presented 3 = some [1, 2] := by decide

def irqS : State := ((((up.fset ⟨.SRC_SH, 63, 63⟩ [70] 1).fset ⟨.SRC_SH, 48, 46⟩ [70] 5).fset ⟨.SRC_SH, 45, 38⟩ [70] 1).fset F.SRC_SH_TARGET [70] 4).srcEvent (.shared 70)
theorem witness_Pending : irqS.srcPending (.shared 70) = true ∧ irqS.winner 4 0 = some (.shared 70) ∧ irqS.winner 4 5 = none ∧ irqS.winner 3 0 = none := by decide +kernel
theorem test_claim_takes_the_source : after (.claim (.core 4) 4 0) irqS (fun t => t.out.value == 2 ^ 16 + 70 && t.fget (Src.f (.shared 70) 23 23) (Src.ix (.shared 70)) == 1) = true := by
  decide +kernel
theorem test_claim_by_another : after (.claim .host 4 0) irqS (fun t => t.out.value == 0) = true := by decide +kernel
theorem witness_Sendable : ((((up.fset F.HIF_STATUS_BME [] 1).fset F.HIF_STATUS_LINK_UP [] 1).fset F.HIF_STATUS_MSIX_EN [] 1).fset F.MSIX_CTL_MASK [12] 0).sendable 12 = true := by decide

def agS : State := { up with sec := { up.sec with agents := [(0, { sessions := [⟨2, 1, 4000000000000⟩] })] } }
theorem witness_Holds : agS.holds .host .installer = true ∧ agS.holds .host .operator = false ∧ agS.roleSlot .host .installer = 1 := by decide
theorem witness_Locked : ({ up with sec := { agents := [(0, { lockNs := 5 })] } } : State).now < (({ up with sec := { agents := [(0, { lockNs := 5 })] } } : State).agentSt 0).lockNs := by decide
theorem test_role_go_while_locked : ((({ up with sec := { agents := [(0, { lockNs := 5 })] } } : State).roleGo 0 2 1).fget F.ROLE_STATUS_RESULT [0]) = 7 := by decide
theorem witness_Verify : (up.verifyResult 0 2 1, { up with sec := { agents := [(0, { challenge := some 1 })] } }.verifyResult 0 2 1) = (3, 5) := by decide

/-- R476's worked example: the host, with an Installer session granted by slot 1, raises T1_RESERVE.UNITS from 2 to 4. -/
def jS : State := { agS.fset F.AUD_STATUS_NEXT_SEQ [] 0x1234 with sec := { agS.sec with boot := 7 } }
theorem test_journal_entry : after (.regWrite .host (RegName.addr .T1_RESERVE []) 8 4 3000000000000) jS (fun t => t.sec.queue ==
    [[0x0000123408010000, 0x000002BA7DEF3000, 0x0000000700000000, 0x00000FF000300000, 2, 4, 0]]) = true := by decide +kernel
theorem test_journal_slot_address : 0x03E00000 + 64 * 0x0A3C = 0x03E28F00 := by decide
theorem witness_Journal_commit : ({ up with sec := { up.sec with queue := [[0, 0, 0, 0, 0, 0, 0]] } } : State).sec.queue = [0, 0, 0, 0, 0, 0, 0] :: [] := by decide
theorem witness_Key_pending : ({ up with sec := { up.sec with keyPend := some (3, none), keySeq := 9 } } : State).sec.keyPend = some (3, none) := by decide
theorem witness_Seal : ({ up with sec := { up.sec with sealing := some 17 } } : State).sec.sealing = some 17 := by decide
theorem witness_AudRead : up.writesShut .host (RegName.addr .AUD_READ []) = false ∧ up.reach .host (RegName.addr .AUD_READ []) = some (.AUD_READ, [], false) := by decide

/-! ### Power, resets, test access port -/

def hotS : State := { up with pwr := { up.pwr with cause := true, dueNs := 5 } }
theorem witness_Throttle : hotS.pwr.cause = true ∧ hotS.fget F.PWR_STATUS_STEP [] < 7 ∧ hotS.pwr.dueNs ≤ (hotS.at 5).now := by decide
theorem test_throttle_rises : after (.throttleStepUp 5) hotS (fun t => t.fget F.PWR_STATUS_STEP [] == 1) = true := by decide
theorem witness_Power_fail : ({ up with pins := { up.pins with powerFailLow := true } } : State).ridge.powerFail = false := by decide
theorem test_power_fail_stops : after (.powerFail true 0) { up with pins := { up.pins with powerFailLow := true } } (fun t => t.stopped) = true := by decide
theorem test_reset_keeps_t2 : ((up.rawWrite (t2Base + 64) [7]).cleared 2 3).byte (t2Base + 64) = 7 ∧ ((up.rawWrite 64 [7]).cleared 2 3).byte 64 = 0 := by decide +kernel
theorem witness_Cold : (2 : Nat) < 16 ∧ (3 : Nat) < 16 ∧ Memory.wf up = true := by decide
theorem witness_Firmware_write : ({ up with fw := { up.fw with writing := some (1, []) } } : State).fw.writing = some (1, []) := by decide
theorem test_failed_write_is_answered : after (.fwWriteEnd [] 0) { up with fw := { up.fw with writing := some (1, []) } }
    (fun t => t.fget F.FW_CTL_RESULT [] == 1 && t.fw.writing == none) = true := by decide +kernel
theorem test_i3c_reads_the_part : after (.i3cTransaction false false 0 0 0) up (fun t => t.out.value == 0x9120B000) = true := by decide
theorem test_i3c_does_not_reach_the_tick : up.reach .i3c (RegName.addr .TICK_CTRL []) = none := by decide
theorem test_idcode : after .idcode up (fun t => t.out.value % 2 ^ 28 == 0x9120DE3) = true := by decide
theorem test_extest_in_service_is_bypass : after (.extest 0 0) up (fun t => t.tap.ir == 0xFF) = true := by decide
theorem witness_Porst : ({ up with pins := { up.pins with porstLow := true } } : State).pins.porstLow = true ∧ up.makerAgent = none := by decide

/-! ### Reset and the whole machine -/

theorem test_reset_is_boot : State.reset.fget F.RIDGE_STATUS_STATE [] = 5 ∧ State.reset.pending = [] := by decide
theorem witness_Step_answers : (next? (Machine.step { up with pending := [.tapReset] })).isSome = true ∧ Memory.wf up = true := by decide +kernel

end Sys2Proof.Tests
end

section
/-! PROOF. Accesses of the control register space that reach no register: those of a wrong size or alignment, those of unassigned
offsets, and the writes that the grave state and STATE REENTRY shut out (R9, R10, R428, R429, R438). -/

namespace Sys2Proof.Machine

section RegisterAccesses

variable {s : State} {w : Writer} {off len v : Nat}

/-! ### Which accesses are shut out -/

theorem State.writesShut_iff : s.writesShut w off = true ↔ s.fget F.RIDGE_STATUS_STATE [] = 4 ∨
    (w = .host ∧ s.fget F.RIDGE_STATUS_STATE [] = 2 ∧ 0x2000000 ≤ off) := by
  simp [State.writesShut, and_assoc]

/-- Outside STATE REENTRY and the grave state no write is shut out. -/
theorem State.writesShut_eq_false (h2 : s.fget F.RIDGE_STATUS_STATE [] ≠ 2) (h4 : s.fget F.RIDGE_STATUS_STATE [] ≠ 4) :
    s.writesShut w off = false := by
  rw [← Bool.not_eq_true, State.writesShut_iff]
  rintro (h | ⟨-, h, -⟩)
  · exact h4 h
  · exact h2 h

/-- Outside STATE REENTRY and the grave state BAR0 reads the registers. -/
theorem State.bar0Shut_eq_none (h2 : s.fget F.RIDGE_STATUS_STATE [] ≠ 2) (h4 : s.fget F.RIDGE_STATUS_STATE [] ≠ 4) :
    s.bar0Shut w off = none := by
  simp [State.bar0Shut, h2, h4]

/-! ### Unassigned offsets -/

/-- No writer reaches a register at an unassigned offset. -/
theorem State.reach_of_not_assigned (h : assigned off = false) : s.reach w off = none := by
  have hreg : regAt off = none := by simpa [assigned] using h
  simp [State.reach, hreg]

/-- An unassigned offset is unassigned for every writer. -/
theorem State.unassigned_of_not_assigned (h : assigned off = false) : s.unassigned w off = true := by
  simp [State.unassigned, State.reach_of_not_assigned h, h]

theorem State.regWord_of_reach_none (hbar : s.bar0Shut w off = none) (hreach : s.reach w off = none) :
    s.regWord w off = (0, s) := by
  simp [State.regWord, hbar, hreach]

/-! ### Reads -/

theorem State.regRead_of_misshapen (h : (len ≠ 4 ∧ len ≠ 8) ∨ off % len ≠ 0) :
    s.regRead w off len = (0xFFFFFFFF, s.chipEv 0x32) := by
  have hbad : (!(len = 4 || len = 8) || off % len != 0) = true := by simpa using h
  rw [State.regRead, if_pos hbad]

theorem State.regRead_four (ha : off % 4 = 0) : s.regRead w off 4 = s.regWord w off := by
  simp [State.regRead, ha]

/-- An aligned read of 8 bytes where no register starts is two reads of 4. -/
theorem State.regRead_eight_of_reach_none (ha : off % 8 = 0) (hreach : s.reach w off = none) :
    s.regRead w off 8 = ((s.regWord w off).1 + ((s.regWord w off).2.regWord w (off + 4)).1 * 2 ^ 32,
      ((s.regWord w off).2.regWord w (off + 4)).2) := by
  simp [State.regRead, ha, hreach]

/-! ### Writes -/

theorem State.regWrite_of_writesShut (h : s.writesShut w off = true) : s.regWrite w off len v = s := by
  rw [State.regWrite, if_pos h]

theorem State.regWrite_of_misshapen (hopen : s.writesShut w off = false) (h : (len ≠ 4 ∧ len ≠ 8) ∨ off % len ≠ 0) :
    s.regWrite w off len v = s.chipEv 0x32 := by
  have hbad : (!(len = 4 || len = 8) || off % len != 0) = true := by simpa using h
  rw [State.regWrite, hopen, if_neg Bool.false_ne_true, if_pos hbad]

theorem State.regWrite_four_of_unassigned (hopen : s.writesShut w off = false) (ha : off % 4 = 0)
    (h : s.unassigned w off = true) : s.regWrite w off 4 v = s.chipEv 0x33 := by
  simp [State.regWrite, hopen, ha, h]

theorem State.regWrite_eight_of_unassigned (hopen : s.writesShut w off = false) (ha : off % 8 = 0)
    (hlow : s.unassigned w off = true) (hhigh : s.unassigned w (off + 4) = true) :
    s.regWrite w off 8 v = s.chipEv 0x33 := by
  simp [State.regWrite, hopen, ha, hlow, hhigh]

/-! ### Aligned accesses of unassigned offsets (R10) -/

/-- An aligned access of 4 or 8 bytes, none of whose words is assigned, while nothing is shut out. -/
theorem State.access_of_not_assigned (hlen : len = 4 ∨ len = 8) (ha : off % len = 0) (hlow : assigned off = false)
    (hhigh : len = 8 → assigned (off + 4) = false) (h2 : s.fget F.RIDGE_STATUS_STATE [] ≠ 2)
    (h4 : s.fget F.RIDGE_STATUS_STATE [] ≠ 4) :
    s.regRead w off len = (0, s) ∧ s.regWrite w off len v = s.chipEv 0x33 := by
  have hopen : s.writesShut w off = false := State.writesShut_eq_false h2 h4
  have hword : ∀ {o}, assigned o = false → s.regWord w o = (0, s) := fun ho =>
    State.regWord_of_reach_none (State.bar0Shut_eq_none h2 h4) (State.reach_of_not_assigned ho)
  obtain rfl | rfl := hlen
  · exact ⟨(State.regRead_four ha).trans (hword hlow),
      State.regWrite_four_of_unassigned hopen ha (State.unassigned_of_not_assigned hlow)⟩
  · refine ⟨?_, State.regWrite_eight_of_unassigned hopen ha (State.unassigned_of_not_assigned hlow)
      (State.unassigned_of_not_assigned (hhigh rfl))⟩
    simp [State.regRead_eight_of_reach_none ha (State.reach_of_not_assigned hlow), hword hlow, hword (hhigh rfl)]

end RegisterAccesses

/-- Settles O38: the four clauses are the rules above for misshapen accesses, unassigned offsets and shut writes. -/
theorem misalignedAndUnassignedAccesses : Obligations.MisalignedAndUnassignedAccesses := by
  intro s w off len v
  exact ⟨fun hbad => ⟨State.regRead_of_misshapen hbad, fun hopen => State.regWrite_of_misshapen hopen hbad⟩,
    State.access_of_not_assigned, State.writesShut_iff, State.regWrite_of_writesShut⟩

end Sys2Proof.Machine
end

section
/-! PROOF. The ALU instruction: what each function of the table gives in a form of any width, and how the function and the opcode of
a word choose between a result and ILLEGAL_INSTR (R82, R83, R84). -/

namespace Sys2Proof.Machine

/-! ### Words and the integers they stand for -/

section Numbers

variable {w : Nat}

theorem toSigned_eq_toInt {x : BitVec w} {a : Nat} (hx : x.toNat = a % 2 ^ w) : toSigned w a = x.toInt := by
  rw [toSigned, ← hx, BitVec.toInt_eq_toNat_cond]
  cases w with
  | zero => simp [BitVec.eq_nil x]
  | succ n => simp [Nat.pow_succ', Int.pow_succ']

theorem ofInt_natCast_eq {x : BitVec w} {n : Nat} (h : x.toNat = n % 2 ^ w) : BitVec.ofInt w (n : Int) = x := by
  rw [BitVec.ofInt_natCast]
  exact BitVec.eq_of_toNat_eq (by rw [BitVec.toNat_ofNat, h])

theorem ofInt_toNat (x : BitVec w) : BitVec.ofInt w (x.toNat : Int) = x :=
  ofInt_natCast_eq (Nat.mod_eq_of_lt x.isLt).symm

/-- The digits below `2 ^ (m + n + e)` decide the `n` that follow the lowest `m`. -/
theorem emod_two_pow_ediv_emod (z : Int) (m n e : Nat) :
    z % 2 ^ (m + n + e) / 2 ^ m % 2 ^ n = z / 2 ^ m % 2 ^ n := by
  have hsplit : z = z % 2 ^ (m + n + e) + 2 ^ m * (2 ^ n * (2 ^ e * (z / 2 ^ (m + n + e)))) := by
    rw [← mul_assoc, ← mul_assoc, ← pow_add, ← pow_add, Int.emod_add_mul_ediv]
  conv_rhs => rw [hsplit, Int.add_mul_ediv_left _ _ (by positivity), Int.add_mul_emod_self_left]

/-- MULH and MULHU keep the upper word of a product, which the model takes by division. -/
theorem extractLsb'_ofInt_upper {d : Nat} (hd : w + w ≤ d) (z : Int) :
    (BitVec.ofInt d z).extractLsb' w w = BitVec.ofInt w (z / 2 ^ w) := by
  obtain ⟨e, rfl⟩ := Nat.exists_eq_add_of_le hd
  apply BitVec.eq_of_toNat_eq
  have hpos : 0 ≤ z % 2 ^ (w + w + e) := Int.emod_nonneg _ (by positivity)
  rw [BitVec.extractLsb'_toNat, BitVec.toNat_ofInt, BitVec.toNat_ofInt, Nat.shiftRight_eq_div_pow]
  push_cast
  rw [← emod_two_pow_ediv_emod z w w e]
  lift z % 2 ^ (w + w + e) to Nat using hpos with r
  norm_cast

/-- Both corners of R84 give what the truncated remainder gives there. -/
theorem remS_eq_tmod (p q : Int) : remS w p q = p.tmod q := by
  unfold remS
  split
  · simp [*]
  · split
    · simp_all [Int.tmod_neg]
    · rfl

/-- The quotient of the overflowing division, 2^(w-1), wraps to its dividend (R84). -/
theorem ofInt_neg_pow_pred (w : Nat) : BitVec.ofInt w (-(2 ^ (w - 1))) = BitVec.ofInt w (2 ^ (w - 1)) := by
  have hmin : BitVec.ofInt w (2 ^ (w - 1)) = BitVec.intMin w := by
    exact_mod_cast ofInt_natCast_eq (n := 2 ^ (w - 1)) BitVec.toNat_intMin
  rw [BitVec.ofInt_neg, hmin, BitVec.neg_intMin]

/-- In `w` bits the signed quotient of R84 is the truncated one, the overflowing division included. -/
theorem ofInt_divS {p q : Int} (hq : q ≠ 0) : BitVec.ofInt w (divS w p q) = BitVec.ofInt w (p.tdiv q) := by
  rw [divS, if_neg hq]
  split
  case isTrue h =>
    obtain ⟨rfl, rfl⟩ : p = -2 ^ (w - 1) ∧ q = -1 := by simpa using h
    rw [ofInt_neg_pow_pred, Int.tdiv_neg, Int.tdiv_one, neg_neg]
  case isFalse => rfl

theorem toInt_eq_zero_iff {x : BitVec w} : x.toInt = 0 ↔ x = 0 := by
  rw [← BitVec.toInt_inj]; exact Eq.congr_right BitVec.toInt_zero.symm

theorem toNat_eq_zero_iff {x : BitVec w} : x.toNat = 0 ↔ x = 0 := by
  rw [← BitVec.toNat_inj]; exact Eq.congr_right BitVec.toNat_zero.symm

theorem ofInt_neg_one (w : Nat) : BitVec.ofInt w (-1) = BitVec.allOnes w := by
  rw [← BitVec.neg_one_eq_allOnes, BitVec.ofInt_neg]; rfl

theorem ofInt_tdiv_toInt (x y : BitVec w) : BitVec.ofInt w (x.toInt.tdiv y.toInt) = x.sdiv y :=
  BitVec.eq_of_toInt_eq (by rw [BitVec.toInt_ofInt, BitVec.toInt_sdiv])

theorem srem_allOnes (x : BitVec w) (hw : w ≠ 0) : x.srem (BitVec.allOnes w) = 0 :=
  BitVec.srem_zero_of_dvd (by rw [BitVec.toInt_allOnes, if_pos (Nat.pos_of_ne_zero hw), Int.neg_dvd]; exact one_dvd _)

theorem intMin_sdiv_allOnes (w : Nat) : (BitVec.intMin w).sdiv (BitVec.allOnes w) = BitVec.intMin w :=
  BitVec.neg_one_eq_allOnes ▸ BitVec.intMin_sdiv_neg_one

/-! #### Counts of bits -/

theorem clz_eq {x : BitVec w} {k : Nat} (hk : k ≤ w) (hzero : ∀ i < k, x.getMsbD i = false)
    (hone : k < w → x.getMsbD k = true) : clz w x.toNat = k := by
  have hlt : x.toNat < 2 ^ (w - k) := Nat.lt_pow_two_of_testBit _ fun i hi => by
    rw [BitVec.testBit_toNat, BitVec.getLsbD_eq_getMsbD, Bool.and_eq_false_imp, decide_eq_true_eq]
    exact fun hw => hzero (w - 1 - i) (by omega)
  rw [clz, Nat.mod_eq_of_lt x.isLt]
  rcases Nat.lt_or_eq_of_le hk with h | rfl
  · have hbit : x.toNat.testBit (w - 1 - k) = true := by
      simpa [BitVec.testBit_toNat, BitVec.getMsbD_eq_getLsbD, h] using hone h
    have hge : 2 ^ (w - 1 - k) ≤ x.toNat := Nat.ge_two_pow_of_testBit hbit
    have hne : x.toNat ≠ 0 := (Nat.lt_of_lt_of_le (Nat.two_pow_pos _) hge).ne'
    have hlog : Nat.log2 x.toNat = w - 1 - k :=
      (Nat.log2_eq_iff hne).2 ⟨hge, by rwa [show w - 1 - k + 1 = w - k by omega]⟩
    rw [if_neg hne, hlog]
    omega
  · rw [if_pos (by simpa using hlt)]

theorem ctz_eq : ∀ {w k u : Nat}, k ≤ w → (∀ i < k, u.testBit i = false) → (k < w → u.testBit k = true) → ctz w u = k
  | 0, k, u, hk, _, _ => by rw [ctz]; omega
  | w + 1, 0, u, _, _, hone => by rw [ctz, if_pos (by simpa using hone)]
  | w + 1, k + 1, u, hk, hzero, hone => by
    have heven : ¬ u % 2 = 1 := by simpa using hzero 0 (by omega)
    have hrest : ctz w (u / 2) = k := ctz_eq (by omega)
      (fun i hi => by rw [← Nat.testBit_add_one]; exact hzero (i + 1) (by omega))
      (fun h => by rw [← Nat.testBit_add_one]; exact hone (by omega))
    rw [ctz, if_neg heven, hrest, Nat.add_comm]

theorem popc_eq_countP (w u : Nat) : popc w u = (List.range w).countP u.testBit := by
  induction w generalizing u with
  | zero => rfl
  | succ w ih =>
    have hshift : u.testBit ∘ Nat.succ = (u / 2).testBit := funext fun i => Nat.testBit_add_one u i
    rw [popc, ih, List.range_succ_eq_map, List.countP_cons, List.countP_map, hshift, Nat.testBit_zero]
    rcases Nat.mod_two_eq_zero_or_one u with h | h <;> simp [h, Nat.add_comm]

/-! #### Bytes -/

theorem leNat_leBytes (n v : Nat) : leNat (leBytes n v) = v % 2 ^ (8 * n) := by
  induction n generalizing v with
  | zero => simp [leBytes, leNat, Nat.mod_one]
  | succ n ih =>
    rw [leBytes, leNat, ih, BitVec.toNat_ofNat, show 2 ^ (8 * (n + 1)) = 256 * 2 ^ (8 * n) by rw [Nat.mul_succ, pow_add]; ring,
      Nat.mod_mul]

theorem beNat_eq_leNat_reverse (l : List Byte) : beNat l = leNat l.reverse := by
  have hfold : ∀ l : List Byte, leNat l = l.foldr (fun b n => n * 256 + b.toNat) 0 := fun l => by
    induction l with
    | nil => rfl
    | cons b l ih => rw [leNat, ih, List.foldr_cons]; ring
  rw [beNat, hfold, List.foldr_reverse]

theorem leBytes_eq_map (n v : Nat) : leBytes n v = (List.range n).map fun i => BitVec.ofNat 8 (v >>> (8 * i)) := by
  induction n generalizing v with
  | zero => rfl
  | succ n ih =>
    rw [leBytes, ih, List.range_succ_eq_map, List.map_cons, List.map_map]
    congr 1
    refine List.map_congr_left fun i _ => ?_
    rw [Function.comp_apply, Nat.mul_succ, Nat.add_comm, Nat.shiftRight_add, Nat.shiftRight_eq_div_pow v 8]

theorem ofNat_toNat_shiftRight (x : BitVec w) (i n : Nat) : BitVec.ofNat n (x.toNat >>> i) = x.extractLsb' i n := rfl

/-- Reversing the little-endian bytes reads them big-endian. -/
theorem beNat_leBytes_eq {n : Nat} {x v : BitVec (8 * n)}
    (h : ∀ i < n, v.extractLsb' (8 * i) 8 = x.extractLsb' (8 * (n - 1 - i)) 8) : beNat (leBytes n x.toNat) = v.toNat := by
  have hrev : (leBytes n x.toNat).reverse = leBytes n v.toNat := by
    rw [leBytes_eq_map, leBytes_eq_map]
    refine List.ext_getElem (by simp) fun i hi _ => ?_
    have hin : i < n := by simpa using hi
    simpa [ofNat_toNat_shiftRight] using (h i hin).symm
  rw [beNat_eq_leNat_reverse, hrev, leNat_leBytes, Nat.mod_eq_of_lt v.isLt]

end Numbers

/-! ### The function table (R83, R84), for both widths -/

/-- FUNC[5:0] = `op`, in the form of width `w`, gives `v` on register values `a` and `b`. -/
def AluGives {w : Nat} (op a b : Nat) (v : BitVec w) : Prop := (aluOp op w a b).map (BitVec.ofInt w) = some v

section FunctionTable

variable {w a b : Nat} {x y : BitVec w}

theorem AluGives.of_aluOp {op : Nat} {r : Int} {v : BitVec w} (hop : aluOp op w a b = some r) (hr : BitVec.ofInt w r = v) :
    AluGives op a b v := by
  simp [AluGives, hop, hr]

/-! The operands are `x` and `y`, the register values `a` and `b` in `w` bits; a shift counts by rb[5:0] in both forms (R83). -/

section OneOperand

variable (hx : x.toNat = a % 2 ^ w)
include hx

theorem aluGives_sll : AluGives 0x05 a b (x <<< (b % 64)) :=
  .of_aluOp rfl (by rw [← hx]; exact ofInt_natCast_eq (by rw [BitVec.toNat_shiftLeft, Nat.shiftLeft_eq]))

theorem aluGives_srl : AluGives 0x06 a b (x >>> (b % 64)) :=
  .of_aluOp rfl (by rw [← hx, ← Nat.shiftRight_eq_div_pow, ← BitVec.toNat_ushiftRight, ofInt_toNat])

theorem aluGives_sra : AluGives 0x07 a b (x.sshiftRight (b % 64)) :=
  .of_aluOp rfl (by rw [toSigned_eq_toInt hx, BitVec.sshiftRight_eq, Int.shiftRight_eq_div_pow]; push_cast; rfl)

theorem aluGives_clz {k : Nat} (hk : k ≤ w) (hzero : ∀ i < k, x.getMsbD i = false) (hone : k < w → x.getMsbD k = true) :
    AluGives 0x18 a b (BitVec.ofNat w k) :=
  .of_aluOp rfl (by rw [← hx, clz_eq hk hzero hone, BitVec.ofInt_natCast])

theorem aluGives_ctz {k : Nat} (hk : k ≤ w) (hzero : ∀ i < k, x.getLsbD i = false) (hone : k < w → x.getLsbD k = true) :
    AluGives 0x19 a b (BitVec.ofNat w k) :=
  .of_aluOp rfl (by rw [← hx, ctz_eq hk hzero hone, BitVec.ofInt_natCast])

theorem aluGives_popc : AluGives 0x1A a b (BitVec.ofNat w ((List.range w).countP x.getLsbD)) :=
  .of_aluOp rfl (by rw [← hx, popc_eq_countP, BitVec.ofInt_natCast]; rfl)

end OneOperand

theorem aluGives_bswap {n : Nat} {x v : BitVec (8 * n)} (hx : x.toNat = a % 2 ^ (8 * n))
    (h : ∀ i < n, v.extractLsb' (8 * i) 8 = x.extractLsb' (8 * (n - 1 - i)) 8) : AluGives 0x1B a b v :=
  .of_aluOp rfl (by rw [← hx, Nat.mul_div_cancel_left _ (by decide), beNat_leBytes_eq h, ofInt_toNat])

section TwoOperands

variable (hx : x.toNat = a % 2 ^ w) (hy : y.toNat = b % 2 ^ w)
include hx hy

theorem aluGives_add : AluGives 0x00 a b (x + y) :=
  .of_aluOp rfl (by rw [← hx, ← hy, BitVec.ofInt_add, ofInt_toNat, ofInt_toNat])

theorem aluGives_sub : AluGives 0x01 a b (x - y) :=
  .of_aluOp rfl (by
    rw [← hx, ← hy, Int.sub_eq_add_neg, BitVec.ofInt_add, BitVec.ofInt_neg, ofInt_toNat, ofInt_toNat, BitVec.sub_eq_add_neg])

theorem aluGives_and : AluGives 0x02 a b (x &&& y) :=
  .of_aluOp rfl (by rw [← hx, ← hy, ← BitVec.toNat_and, ofInt_toNat])

theorem aluGives_or : AluGives 0x03 a b (x ||| y) :=
  .of_aluOp rfl (by rw [← hx, ← hy, ← BitVec.toNat_or, ofInt_toNat])

theorem aluGives_xor : AluGives 0x04 a b (x ^^^ y) :=
  .of_aluOp rfl (by rw [← hx, ← hy, ← BitVec.toNat_xor, ofInt_toNat])

theorem aluGives_slt : AluGives 0x08 a b (if x.slt y then 1 else 0 : BitVec w) :=
  .of_aluOp rfl (by
    rw [toSigned_eq_toInt hx, toSigned_eq_toInt hy]
    simp only [BitVec.slt_iff_toInt_lt, apply_ite (BitVec.ofInt w)]
    rfl)

theorem aluGives_sltu : AluGives 0x09 a b (if x.ult y then 1 else 0 : BitVec w) :=
  .of_aluOp rfl (by
    rw [← hx, ← hy]
    simp only [BitVec.ult_iff_toNat_lt, apply_ite (BitVec.ofInt w)]
    rfl)

theorem aluGives_min : AluGives 0x0A a b (if x.slt y then x else y) :=
  .of_aluOp rfl (by
    rw [toSigned_eq_toInt hx, toSigned_eq_toInt hy, min_def_lt]
    simp only [BitVec.slt_iff_toInt_lt, apply_ite (BitVec.ofInt w), BitVec.ofInt_toInt])

theorem aluGives_max : AluGives 0x0B a b (if x.slt y then y else x) :=
  .of_aluOp rfl (by
    rw [toSigned_eq_toInt hx, toSigned_eq_toInt hy, max_def_lt]
    simp only [BitVec.slt_iff_toInt_lt, apply_ite (BitVec.ofInt w), BitVec.ofInt_toInt])

theorem aluGives_minu : AluGives 0x0C a b (if x.ult y then x else y) :=
  .of_aluOp rfl (by
    rw [← hx, ← hy, min_def_lt]
    simp only [BitVec.ult_iff_toNat_lt, apply_ite Nat.cast, apply_ite (BitVec.ofInt w), ofInt_toNat])

theorem aluGives_maxu : AluGives 0x0D a b (if x.ult y then y else x) :=
  .of_aluOp rfl (by
    rw [← hx, ← hy, max_def_lt]
    simp only [BitVec.ult_iff_toNat_lt, apply_ite Nat.cast, apply_ite (BitVec.ofInt w), ofInt_toNat])

theorem aluGives_mul : AluGives 0x10 a b (x * y) :=
  .of_aluOp rfl (by rw [← hx, ← hy]; exact ofInt_natCast_eq (BitVec.toNat_mul x y))

theorem aluGives_mulh {d : Nat} (hd : w + w ≤ d) :
    AluGives 0x11 a b ((x.signExtend d * y.signExtend d).extractLsb' w w) :=
  .of_aluOp rfl (by
    rw [toSigned_eq_toInt hx, toSigned_eq_toInt hy, ← extractLsb'_ofInt_upper hd, BitVec.ofInt_mul]
    rfl)

theorem aluGives_mulhu {d : Nat} (hd : w + w ≤ d) :
    AluGives 0x12 a b ((x.setWidth d * y.setWidth d).extractLsb' w w) :=
  .of_aluOp rfl (by
    rw [← hx, ← hy]
    push_cast
    rw [← extractLsb'_ofInt_upper hd, BitVec.ofInt_mul, BitVec.ofInt_natCast, BitVec.ofInt_natCast, BitVec.ofNat_toNat,
      BitVec.ofNat_toNat])

theorem aluGives_div : AluGives 0x13 a b (if y = 0 then BitVec.allOnes w else x.sdiv y) :=
  .of_aluOp rfl (by
    rw [toSigned_eq_toInt hx, toSigned_eq_toInt hy]
    split
    case isTrue h => rw [divS, if_pos (toInt_eq_zero_iff.2 h), ofInt_neg_one]
    case isFalse h => rw [ofInt_divS (mt toInt_eq_zero_iff.1 h), ofInt_tdiv_toInt])

theorem aluGives_divu : AluGives 0x14 a b (if y = 0 then BitVec.allOnes w else x / y) :=
  .of_aluOp rfl (by
    rw [← hx, ← hy, ← BitVec.toNat_udiv]
    simp only [toNat_eq_zero_iff, apply_ite (BitVec.ofInt w), ofInt_toNat, ofInt_neg_one])

theorem aluGives_rem : AluGives 0x15 a b (if y = 0 then x else x.srem y) :=
  .of_aluOp rfl (by
    rw [toSigned_eq_toInt hx, toSigned_eq_toInt hy, remS_eq_tmod, ← BitVec.toInt_srem, BitVec.ofInt_toInt]
    split
    case isTrue h => rw [h]; exact BitVec.srem_zero
    case isFalse => rfl)

theorem aluGives_remu : AluGives 0x16 a b (if y = 0 then x else x % y) :=
  .of_aluOp rfl (by
    rw [← hx, ← hy, ← BitVec.toNat_umod]
    simp only [toNat_eq_zero_iff, apply_ite (BitVec.ofInt w), ofInt_toNat])

/-- The division that overflows, and its remainder (R84). -/
theorem aluGives_overflow (hw : w ≠ 0) (hb : y = BitVec.allOnes w) (ha : x = BitVec.intMin w) :
    AluGives 0x13 a b x ∧ AluGives 0x15 a b (0 : BitVec w) := by
  have hy0 : y ≠ 0 := by rw [hb, ← BitVec.neg_one_eq_allOnes]; exact mt BitVec.neg_one_eq_zero_iff.1 hw
  have hdiv := aluGives_div hx hy
  have hrem := aluGives_rem hx hy
  rw [if_neg hy0, ha, hb, intMin_sdiv_allOnes, ← ha] at hdiv
  rw [if_neg hy0, hb, srem_allOnes x hw] at hrem
  exact ⟨hdiv, hrem⟩

end TwoOperands

end FunctionTable

/-! ### ALU words -/

theorem aluResult_of_aluGives_64 {f : BitVec 11} {a b v : W64} (hf : f.toNat / 64 = 0) (h : AluGives f.toNat a.toNat b.toNat v) :
    aluResult f a b = some v := by
  have hhigh : f.toNat / 128 = 0 := by omega
  have hform : f.toNat.testBit 6 = false := Nat.testBit_lt_two_pow (by omega)
  obtain ⟨r, hr, rfl⟩ := Option.map_eq_some_iff.1 h
  simp [aluResult, hhigh, hform, Nat.mod_eq_of_lt (show f.toNat < 64 by omega), hr]

theorem aluResult_of_aluGives_32 {f : BitVec 11} {a b : W64} {v : W32} (hf : f.toNat / 64 = 1)
    (h : AluGives (f.toNat % 64) a.toNat b.toNat v) : aluResult f a b = some (v.signExtend 64) := by
  have hhigh : f.toNat / 128 = 0 := by omega
  have hform : f.toNat.testBit 6 = true := by
    rw [Nat.testBit_eq_decide_div_mod_eq]; simp [hf]
  obtain ⟨r, hr, rfl⟩ := Option.map_eq_some_iff.1 h
  simp [aluResult, hhigh, hform, hr]

theorem aluOp_eq_none {op w a b : Nat} (h : op ∈ [0x0E, 0x0F, 0x17] ∨ 0x1C ≤ op) : aluOp op w a b = none := by
  rcases h with h | h
  · fin_cases h <;> rfl
  · obtain ⟨k, rfl⟩ := Nat.exists_eq_add_of_le' h
    rfl

theorem aluResult_eq_none {f : BitVec 11} {a b : W64}
    (h : f.toNat / 128 ≠ 0 ∨ f.toNat % 64 ∈ [0x0E, 0x0F, 0x17] ∨ 0x1C ≤ f.toNat % 64) : aluResult f a b = none := by
  rcases h with h | h
  · simp [aluResult, h]
  · simp [aluResult, aluOp_eq_none h]

theorem rinunoOpcodes_contains_eq_false {op : BitVec 6}
    (h : op.toNat ∈ [0x00, 0x0B, 0x0C, 0x0D, 0x0E, 0x0F, 0x17, 0x1D, 0x1E, 0x1F, 0x26, 0x27, 0x2A, 0x2B, 0x2C, 0x2D, 0x2E, 0x2F,
      0x35, 0x36, 0x37, 0x3A, 0x3B, 0x3C, 0x3D, 0x3E, 0x3F]) : op ≠ 1 ∧ rinunoOpcodes.contains op.toNat = false := by
  decide +revert

theorem rinunoReserved_of_not_opcode {op func : Nat} (h : rinunoOpcodes.contains op = false) : rinunoReserved op func = true := by
  rw [rinunoReserved, h]; rfl

theorem rinunoReserved_sys {func : Nat} (h : func = 4 ∨ 7 ≤ func) : rinunoReserved 0x30 func = true := by
  have hlisted : [0, 1, 2, 3, 5, 6].contains func = false := by simp; omega
  rw [rinunoReserved, hlisted]; rfl

theorem rinunoReserved_evc {func : Nat} (h : 3 ≤ func) : rinunoReserved 0x39 func = true := by
  have hlisted : [0, 1, 2].contains func = false := by simp; omega
  rw [rinunoReserved, hlisted]; rfl

theorem exec_alu (c : CoreId) (rd ra rb : Fin 32) (w : BitVec 6 × BitVec 11) (s : State) :
    exec (.alu c rd ra rb w) s = execAlu c rd ra rb w s := rfl

section AluWords

variable {c : CoreId} {rd ra rb : Fin 32} {f : BitVec 11} {s s1 : State} (h : CoreIssues c s s1)
include h

theorem ends_alu_of_aluResult {v : W64} (hv : aluResult f ((s1.core c).reg ra) ((s1.core c).reg rb) = some v) :
    Ends (.alu c rd ra rb (1, f)) s (CoreWrites c rd v (s1.core c).next s1) := by
  refine ⟨s1.retireReg c rd v, ?_, State.retireReg_writes s1 c rd v⟩
  rw [exec_alu, execAlu, if_pos rfl, State.instr_next h, hv]

theorem endsAs_alu_of_aluResult_none (hv : aluResult f ((s1.core c).reg ra) ((s1.core c).reg rb) = none) :
    EndsAs (.alu c rd ra rb (1, f)) s (s1.trap c .illegal (s1.core c).pc 0) := by
  rw [EndsAs, exec_alu, execAlu, if_pos rfl, State.instr_next h, hv, State.illegal]

theorem endsAs_alu_of_reserved {op : BitVec 6} (hop : op ≠ 1) (hres : rinunoReserved op.toNat f.toNat = true) :
    EndsAs (.alu c rd ra rb (op, f)) s (s1.trap c .illegal (s1.core c).pc 0) := by
  rw [EndsAs, exec_alu, execAlu, if_neg hop, if_pos hres, State.instr_next h, State.illegal]

end AluWords

/-- Settles O3: each function of the table, in the 64-bit form with the operands whole and in the 32-bit form with their low words,
is one `aluGives_` rule; an unlisted function has no result, and an unlisted opcode or function of SYS or EVC is reserved. -/
theorem aluFunctionsFollowTheTable : Obligations.AluFunctionsFollowTheTable := by
  refine ⟨fun c rd ra rb s s1 h => ?_, fun c rd ra rb s s1 h => ?_, fun c rd ra rb f s s1 h hf => ?_,
    fun c op rd ra rb f s s1 h hop => ?_⟩
  case refine_1 =>
    have hx := (Nat.mod_eq_of_lt ((s1.core c).reg ra).isLt).symm
    have hy := (Nat.mod_eq_of_lt ((s1.core c).reg rb).isLt).symm
    have run {f : BitVec 11} {v : W64} (g : AluGives f.toNat ((s1.core c).reg ra).toNat ((s1.core c).reg rb).toNat v)
        (hf : f.toNat / 64 = 0 := by decide) := ends_alu_of_aluResult (rd := rd) h (aluResult_of_aluGives_64 hf g)
    exact ⟨⟨run (aluGives_add hx hy), run (aluGives_sub hx hy), run (aluGives_and hx hy), run (aluGives_or hx hy),
        run (aluGives_xor hx hy)⟩,
      ⟨run (aluGives_sll hx), run (aluGives_srl hx), run (aluGives_sra hx)⟩,
      ⟨run (aluGives_slt hx hy), run (aluGives_sltu hx hy), run (aluGives_min hx hy), run (aluGives_max hx hy),
        run (aluGives_minu hx hy), run (aluGives_maxu hx hy)⟩,
      ⟨run (aluGives_mul hx hy), run (aluGives_mulh hx hy (by decide)), run (aluGives_mulhu hx hy (by decide))⟩,
      ⟨run (aluGives_div hx hy), run (aluGives_divu hx hy), run (aluGives_rem hx hy), run (aluGives_remu hx hy)⟩,
      fun _ hk hzero hone => run (aluGives_clz hx hk hzero hone), fun _ hk hzero hone => run (aluGives_ctz hx hk hzero hone),
      run (aluGives_popc hx), fun _ hv => run (aluGives_bswap (n := 8) hx hv),
      fun hb ha => (aluGives_overflow hx hy (by decide) hb ha).imp (run ·) (run ·)⟩
  case refine_2 =>
    have hx := BitVec.toNat_setWidth 32 ((s1.core c).reg ra)
    have hy := BitVec.toNat_setWidth 32 ((s1.core c).reg rb)
    have run {f : BitVec 11} {v : W32}
        (g : AluGives (f.toNat % 64) ((s1.core c).reg ra).toNat ((s1.core c).reg rb).toNat v)
        (hf : f.toNat / 64 = 1 := by decide) := ends_alu_of_aluResult (rd := rd) h (aluResult_of_aluGives_32 hf g)
    exact ⟨⟨run (aluGives_add hx hy), run (aluGives_sub hx hy), run (aluGives_and hx hy), run (aluGives_or hx hy),
        run (aluGives_xor hx hy)⟩,
      ⟨run (aluGives_sll hx), run (aluGives_srl hx), run (aluGives_sra hx)⟩,
      ⟨run (aluGives_slt hx hy), run (aluGives_sltu hx hy), run (aluGives_min hx hy), run (aluGives_max hx hy),
        run (aluGives_minu hx hy), run (aluGives_maxu hx hy)⟩,
      ⟨run (aluGives_mulh hx hy (by decide)), run (aluGives_mulhu hx hy (by decide))⟩,
      ⟨run (aluGives_mul hx hy), run (aluGives_div hx hy), run (aluGives_divu hx hy), run (aluGives_rem hx hy),
        run (aluGives_remu hx hy)⟩,
      fun _ hk hzero hone => run (aluGives_clz hx hk hzero hone), fun _ hk hzero hone => run (aluGives_ctz hx hk hzero hone),
      run (aluGives_popc hx), fun _ hv => run (aluGives_bswap (n := 4) hx hv),
      fun hb ha => (aluGives_overflow hx hy (by decide) hb ha).imp (run ·) (run ·)⟩
  case refine_3 => exact endsAs_alu_of_aluResult_none h (aluResult_eq_none hf)
  case refine_4 =>
    rcases hop with hop | ⟨rfl, hf⟩ | ⟨rfl, hf⟩
    · obtain ⟨hne, hres⟩ := rinunoOpcodes_contains_eq_false hop
      exact endsAs_alu_of_reserved h hne (rinunoReserved_of_not_opcode hres)
    · exact endsAs_alu_of_reserved h (by decide) (rinunoReserved_sys (hf.imp_left (congrArg BitVec.toNat)))
    · exact endsAs_alu_of_reserved h (by decide) (rinunoReserved_evc hf)

end Sys2Proof.Machine
end

section
/-! PROOF. The start of a Block program: which Sequencers start one, and what the start leaves in the Sequencer (R102, R109, R113). -/

namespace Sys2Proof.Machine

/-! ### The Sequencer at the start of a program (R109) -/

section StartedSequencer

variable (k : BlkSt) (e : CqEntry) (logical batten step : Nat)

/-- The scalar registers apart, the start of a program sets these fields, and no other field changes. -/
theorem BlkSt.start_eq : k.start e logical batten step =
    { k with s := (k.start e logical batten step).s, running := some e, pc := e.w2, ie := false, en := 0, vec := [], timer := 0,
             parts := [], fetching := none } := rfl

/-- s1 to s6 are the start registers; s0 and those from s7 on are as they were. -/
theorem BlkSt.sreg_start (i : Nat) : (k.start e logical batten step).sreg i =
    if i = 6 then BitVec.ofNat 64 e.kind else if i = 5 then BitVec.ofNat 64 step else if i = 4 then BitVec.ofNat 64 batten
    else if i = 3 then BitVec.ofNat 64 e.seq else if i = 2 then BitVec.ofNat 64 logical
    else if i = 1 then BitVec.ofNat 64 e.w3 else k.sreg i := by
  simp only [BlkSt.start, BlkSt.sreg_setS, ne_eq, OfNat.ofNat_ne_zero, one_ne_zero, not_false_eq_true, and_true]
  rfl

end StartedSequencer

/-! ### Which Sequencers start (R102, R113) -/

theorem exec_blockProgramStart (b : BlockId) (s : State) : exec (.blockProgramStart b) s = execBlockProgramStart b s := rfl

/-- What an idle Sequencer becomes when it takes `e` from its inbox and leaves `rest` there, its Block being the Tenancy's `logical`
one. -/
def BlkSt.taking (k : BlkSt) (e : CqEntry) (rest : List InboxSlot) (cycles logical : Nat) (v : Ten) (r : Run) : BlkSt :=
  { k with inbox := rest, bornCycles := cycles }.start e logical (v.battenAddr r.step) r.step

theorem endsAs_blockProgramStart_taking {b : BlockId} {e : CqEntry} {rest : List InboxSlot} {v : Ten} {r : Run} {l : Nat} {s : State}
    (hinbox : (s.blk b).inbox = ⟨e, true⟩ :: rest) (hidle : (s.blk b).running = none) (hgo : (s.blk b).halted = false)
    (hsusp : s.tick.suspending = none) (hten : s.ten (s.runnerOfBlock b) = some v) (hrun : s.run (s.runnerOfBlock b) = some r)
    (hlog : v.logical b = some l) :
    EndsAs (.blockProgramStart b) s (s.updBlk b fun k => k.taking e rest s.ridge.cycles l v r) := by
  rw [EndsAs, exec_blockProgramStart]
  simp [execBlockProgramStart, hinbox, hidle, hgo, hsusp, hten, hrun, hlog, BlkSt.taking]

theorem endsAs_blockProgramStart_self {b : BlockId} {s : State} (h : (s.blk b).inbox = [] ∨
    (∃ x rest, (s.blk b).inbox = x :: rest ∧ x.arrived = false) ∨ (s.blk b).running ≠ none ∨ (s.blk b).halted = true ∨
    s.tick.suspending ≠ none) : EndsAs (.blockProgramStart b) s s := by
  rw [EndsAs, exec_blockProgramStart, execBlockProgramStart]
  cases hinbox : (s.blk b).inbox with
  | nil => rfl
  | cons x rest =>
    have hwaits : ((s.blk b).running.isSome || !x.arrived || (s.blk b).halted || s.tick.suspending.isSome) = true := by
      simpa [hinbox, Option.isSome_iff_ne_none, or_assoc, or_left_comm] using h
    exact if_pos hwaits

/-- Settles O17: a Sequencer that starts is `BlkSt.taking`, whose fields and registers `BlkSt.start_eq` and `BlkSt.sreg_start` give; one
that must wait stays. -/
theorem programStartLoadsItsRegisters : Obligations.ProgramStartLoadsItsRegisters := by
  refine ⟨fun b e rest v r l s hinbox hidle hgo hsusp hten hrun hlog => ?_, fun b s h => endsAs_blockProgramStart_self h⟩
  refine ⟨_, endsAs_blockProgramStart_taking hinbox hidle hgo hsusp hten hrun hlog, BlkOnly.updBlk _ _ _, ?_⟩
  rw [State.blk_updBlk_same, BlkSt.taking]
  have hreg := BlkSt.sreg_start { s.blk b with inbox := rest, bornCycles := s.ridge.cycles } e l (v.battenAddr r.step) r.step
  refine ⟨rfl, rfl, rfl, hreg 1, hreg 2, hreg 3, hreg 4, hreg 5, hreg 6, fun i hi => ?kept, rfl, rfl, fun _ => rfl, rfl, fun _ => rfl,
    BlkSt.start_eq ..⟩
  case kept =>
    have hne : i ≠ 1 ∧ i ≠ 2 ∧ i ≠ 3 ∧ i ≠ 4 ∧ i ≠ 5 ∧ i ≠ 6 := by omega
    obtain ⟨h1, h2, h3, h4, h5, h6⟩ := hne
    rw [hreg, if_neg h6, if_neg h5, if_neg h4, if_neg h3, if_neg h2, if_neg h1]
    rfl

end Sys2Proof.Machine
end

section
set_option Elab.async false
/-! PROOF. The queue's front command, and the state after reset (O1, O2, O57, O58). -/
namespace Sys2Proof.Machine

/-- Settles O1: `step` on a queue that is not empty is `exec` of its front by definition. -/
theorem stepRunsTheFrontCommand : Obligations.StepRunsTheFrontCommand := by
  unfold Obligations.StepRunsTheFrontCommand
  intro s c rest
  rfl

/-- Settles O2: the branch of `step` for the empty queue. -/
theorem emptyQueueIdles : Obligations.EmptyQueueIdles := by
  unfold Obligations.EmptyQueueIdles
  intro s hs
  simp [step, hs]

/-- Settles O58: the reset state's memories are empty, and an empty memory is canonical. -/
theorem resetMemoryIsCanonical : Obligations.ResetMemoryIsCanonical := rfl


theorem State.rget_reset (r : RegName) (ix : List Nat) : State.reset.rget r ix = r.rst ix := BitVec.zero_xor

theorem State.fget_reset (f : Fld) (ix : List Nat) : State.reset.fget f ix = f.ext (f.reg.rst ix) := by
  rw [State.fget, State.rget_reset]

/-- What a register holds when every field is at its table value. -/
def RegInfo.tableValue (i : RegInfo) : W64 := BitVec.ofNat 64 (i.fields.foldl (fun a f => a + f.rst * 2 ^ f.lo) 0)

theorem RegName.rst_eq_tableValue {x : RegName} (hx : x ≠ .GF_CFG) (ix : List Nat) : x.rst ix = x.info.tableValue := by
  unfold RegName.rst
  split
  · exact absurd rfl hx
  · exact absurd rfl hx
  · rfl

theorem State.fget_reset_eq {f : Fld} (hf : f.reg ≠ .GF_CFG) (ix : List Nat) :
    State.reset.fget f ix = f.ext f.reg.info.tableValue := by
  rw [State.fget_reset, RegName.rst_eq_tableValue hf]

/-- The fields of every table lie apart, and each reset value fits its field. -/
theorem RegName.ext_tableValue (x : RegName) : ∀ f ∈ x.info.fields, Fld.ext ⟨x, f.hi, f.lo⟩ x.info.tableValue = f.rst := by
  cases x <;> decide

/-- Settles O57: after reset a register holds its table's value, so each field listed here is evaluated on that value. -/
theorem resetLeavesTheTableValues : Obligations.ResetLeavesTheTableValues := by
  have read {f : Fld} {v : Nat} (ix : List Nat) (hv : f.ext f.reg.info.tableValue = v) (hf : f.reg ≠ .GF_CFG) :
      State.reset.fget f ix = v := (State.fget_reset_eq hf ix).trans hv
  refine ⟨fun x ix => ⟨State.rget_reset x ix, fun hx f hf => read ix (x.ext_tableValue f hf) hx⟩, ?lines, ?device, fun d _ => ?district,
    fun p _ => ?port, fun _ => rfl, rfl, rfl, rfl, rfl, rfl, rfl, rfl, rfl⟩
  case lines => simp only [State.fget_reset]; decide
  case device => simp only [State.fget_reset]; decide
  case district =>
    exact ⟨read _ (by decide) (by decide), read _ (by decide) (by decide), read _ (by decide) (by decide),
      read _ (by decide) (by decide)⟩
  case port =>
    exact ⟨read _ (by decide) (by decide), read _ (by decide) (by decide), read _ (by decide) (by decide),
      read _ (by decide) (by decide)⟩

end Sys2Proof.Machine
end

section
/-! PROOF. Every command takes nothing but itself from the queue and keeps the memories in canonical form. `Kept` says so of a state
on the way; each function of the model that answers a state keeps it when the functions that it calls do. -/

namespace Sys2Proof.Machine

/-- The queue is `q`, and if `W`, every memory is in its canonical form. -/
structure Kept (W : Prop) (q : List Instr) (s : State) : Prop where
  canonical : W → Memory.wf s = true
  pending : s.pending = q

/-- The same of the state that a command answers with. -/
def KeptOut (W : Prop) (q : List Instr) (o : Host.Outcome State Fault Refusal) : Prop := ∀ t, o = .next t → Kept W q t

/-- An engine's computation keeps the device so, from any record. -/
def EngKept (W : Prop) (q : List Instr) {α : Type} (m : Eng α) : Prop :=
  ∀ e : EngSt, Kept W q e.dev → Kept W q ((OptionT.run m).run e).2.dev

section KeptStates

set_option Elab.async false

variable {W : Prop} {q : List Instr} {s t : State}

theorem Memory.wf_iff : Memory.wf s = true ↔ KMap.wf 0 s.mem = true ∧ KMap.wf 0 s.hostMem = true ∧ KMap.wf 0xFF s.flash = true ∧
    KMap.wf false s.badWords = true ∧ KMap.wf false s.weakWords = true := by
  simp [Memory.wf, and_assoc]

theorem KeptOut.next (h : Kept W q t) : KeptOut W q (.next t) := by
  rintro _ ⟨⟩
  exact h

/-- Other fields than the memories and the queue do not matter. -/
theorem Kept.upd
    {fuses now timeOff regs halves tick tens cores dists blks dma nextJob posts squares merge poolMin margin t1
    t2Len fl shp thatchRest thatchDec ic hif fab ports alley ridge sec pwr fw pins tap out free}
    (h : Kept W q s) : Kept W q (State.mk fuses now timeOff regs halves s.mem s.badWords s.weakWords s.hostMem s.flash tick tens
        cores dists blks dma
    nextJob posts squares merge poolMin margin t1 t2Len fl shp thatchRest thatchDec ic hif fab ports alley ridge
    sec pwr fw pins tap out free s.pending) :=
  ⟨fun w => by simpa [Memory.wf_iff] using Memory.wf_iff.1 (h.canonical w), h.pending⟩

/-- New contents of the memories of the device, in canonical form if the old ones are. -/
theorem Kept.setMemories {mem badWords weakWords} (h : Kept W q s) (hmem : KMap.wf 0 s.mem = true → KMap.wf 0 mem = true)
    (hbad : KMap.wf false s.badWords = true → KMap.wf false badWords = true)
    (hweak : KMap.wf false s.weakWords = true → KMap.wf false weakWords = true) :
    Kept W q { s with mem := mem, badWords := badWords, weakWords := weakWords } := by
  refine ⟨fun w => Memory.wf_iff.2 ?_, h.pending⟩
  obtain ⟨gmem, ghost, gflash, gbad, gweak⟩ := Memory.wf_iff.1 (h.canonical w)
  exact ⟨hmem gmem, ghost, gflash, hbad gbad, hweak gweak⟩

theorem Kept.setHostMem {hostMem} (h : Kept W q s) (hhost : KMap.wf 0 s.hostMem = true → KMap.wf 0 hostMem = true) :
    Kept W q { s with hostMem := hostMem } := by
  refine ⟨fun w => Memory.wf_iff.2 ?_, h.pending⟩
  obtain ⟨gmem, ghost, gflash, gbad, gweak⟩ := Memory.wf_iff.1 (h.canonical w)
  exact ⟨gmem, hhost ghost, gflash, gbad, gweak⟩

theorem Kept.setFlash {flash} (h : Kept W q s) (hflash : KMap.wf 0xFF s.flash = true → KMap.wf 0xFF flash = true) :
    Kept W q { s with flash := flash } := by
  refine ⟨fun w => Memory.wf_iff.2 ?_, h.pending⟩
  obtain ⟨gmem, ghost, gflash, gbad, gweak⟩ := Memory.wf_iff.1 (h.canonical w)
  exact ⟨gmem, ghost, hflash gflash, gbad, gweak⟩

/-! In a pair or triple; by name, because to reduce the projection the kernel would first try to evaluate the access before it. -/

theorem Kept.snd {α : Type} {x : α} (h : Kept W q s) : Kept W q (x, s).2 := h

theorem Kept.snd₂ {α β : Type} {x : α} {y : β} (h : Kept W q s) : Kept W q (x, y, s).2.2 := h

theorem Kept.of_snd {α : Type} {x : α × State} {a : α} (e : x = (a, s)) (h : Kept W q x.2) : Kept W q s := by
  rw [e] at h
  exact h

theorem Kept.of_snd₂ {α β : Type} {x : α × β × State} {a : α} {b : β} (e : x = (a, b, s)) (h : Kept W q x.2.2) : Kept W q s := by
  rw [e] at h
  exact h

/-! ### Choices -/

section Choices

variable {α β : Type} {c : Prop} [Decidable c]

theorem Kept.ite (hs : Kept W q s) (ht : Kept W q t) : Kept W q (if c then s else t) := by
  split
  · exact hs
  · exact ht

theorem Kept.ite₂ {x y : α × State} (hx : Kept W q x.2) (hy : Kept W q y.2) : Kept W q (if c then x else y).2 := by
  split
  · exact hx
  · exact hy

theorem Kept.ite₃ {x y : α × β × State} (hx : Kept W q x.2.2) (hy : Kept W q y.2.2) : Kept W q (if c then x else y).2.2 := by
  split
  · exact hx
  · exact hy

theorem KeptOut.ite {x y : Host.Outcome State Fault Refusal} (hx : KeptOut W q x) (hy : KeptOut W q y) :
    KeptOut W q (if c then x else y) := by
  split
  · exact hx
  · exact hy

end Choices

/-! ### Folds -/

section Folds

variable {α β γ : Type} {l : List α}

theorem Kept.foldl {f : State → α → State} (hf : ∀ s x, Kept W q s → Kept W q (f s x)) (h : Kept W q s) :
    Kept W q (l.foldl f s) :=
  List.foldlRecOn l f h fun _ hb _ _ => hf _ _ hb

theorem Kept.foldl₂ {f : β × State → α → β × State} {z : β × State} (hf : ∀ z x, Kept W q z.2 → Kept W q (f z x).2)
    (h : Kept W q z.2) : Kept W q (l.foldl f z).2 :=
  List.foldlRecOn (motive := fun z => Kept W q z.2) l f h fun _ hb _ _ => hf _ _ hb

theorem Kept.foldl₃ {f : γ × β × State → α → γ × β × State} {z : γ × β × State} (hf : ∀ z x, Kept W q z.2.2 → Kept W q (f z x).2.2)
    (h : Kept W q z.2.2) : Kept W q (l.foldl f z).2.2 :=
  List.foldlRecOn (motive := fun z => Kept W q z.2.2) l f h fun _ hb _ _ => hf _ _ hb

theorem KMap.wf_foldl_set [DecidableEq β] {d v : β} {k : α → Nat} {m : KMap β} (h : KMap.wf d m = true) :
    KMap.wf d (l.foldl (fun m x => KMap.set d m (k x) v) m) = true :=
  List.foldlRecOn (motive := fun m => KMap.wf d m = true) l _ h fun _ hb _ _ => KMap.wf_set hb

end Folds



theorem Kept.rset {r ix v} (h : Kept W q s) : Kept W q (s.rset r ix v) := h.upd

theorem Kept.fset {f ix x} (h : Kept W q s) : Kept W q (s.fset f ix x) := h.rset

theorem Kept.setTst {t x} (h : Kept W q s) : Kept W q (s.setTst t x) := h.fset

theorem Kept.setTen {t v} (h : Kept W q s) : Kept W q (s.setTen t v) := h.upd

theorem Kept.updTen {t f} (h : Kept W q s) : Kept W q (s.updTen t f) := by
  unfold State.updTen
  split
  · exact h.setTen
  · exact h

theorem Kept.replaySuspended {t} (h : Kept W q s) : Kept W q (s.replaySuspended t) := by
  unfold State.replaySuspended
  extract_lets rec' s1
  have h1 : Kept W q s1 := h.upd
  split
  · exact Kept.ite h1.updTen.setTst h
  · exact h

theorem Kept.updRun {t f} (h : Kept W q s) : Kept W q (s.updRun t f) := h.updTen

theorem Kept.markReplay {t code unit dir} (h : Kept W q s) : Kept W q (s.markReplay t code unit dir) := h.updRun

theorem Kept.askDiscard {t d code} (h : Kept W q s) : Kept W q (s.askDiscard t d code) := h.updRun

theorem Kept.updSq {d f} (h : Kept W q s) : Kept W q (s.updSq d f) := h.upd

theorem Kept.copiesEnd {t} (h : Kept W q s) : Kept W q (s.copiesEnd t) := h.foldl fun _ _ g => g.updSq

theorem Kept.updBlk {b f} (h : Kept W q s) : Kept W q (s.updBlk b f) := h.upd

theorem Kept.resetRegs {lo n} (h : Kept W q s) : Kept W q (s.resetRegs lo n) := h.upd

theorem Kept.updDist {d f} (h : Kept W q s) : Kept W q (s.updDist d f) := h.upd

theorem Kept.setCore {c v} (h : Kept W q s) : Kept W q (s.setCore c v) := h.upd

theorem Kept.updCore {c f} (h : Kept W q s) : Kept W q (s.updCore c f) := h.setCore

theorem Kept.updFab {f} (h : Kept W q s) : Kept W q (s.updFab f) := h.upd

theorem Kept.fabDrop {id} (h : Kept W q s) : Kept W q (s.fabDrop id) := h.updFab

theorem Kept.fsat {f ix n} (h : Kept W q s) : Kept W q (s.fsat f ix n) := h.fset

theorem Kept.updPort {p f} (h : Kept W q s) : Kept W q (s.updPort p f) := h.upd

theorem Kept.fadd {f ix n} (h : Kept W q s) : Kept W q (s.fadd f ix n) := h.fset

theorem Kept.voidMsgs {t} (h : Kept W q s) : Kept W q (s.voidMsgs t).2.2 := by
  unfold State.voidMsgs
  extract_lets hit
  exact h.foldl₃ fun _ _ g => by
    extract_lets l bytes s1
    have h1 : Kept W q s1 := g.updPort
    exact Kept.ite₃ g h1.fadd.fsat.snd₂

theorem Kept.cancelColl {c} (h : Kept W q s) : Kept W q (s.cancelColl c).2.2 := by
  unfold State.cancelColl
  grind only [← Kept.fsat, ← Kept.updFab, ← Kept.voidMsgs]

theorem Kept.dropColls {t} (h : Kept W q s) : Kept W q (s.dropColls t) :=
  h.foldl fun _ _ g => by
    extract_lets q' s1
    have h1 : Kept W q s1 := by
      unfold s1
      split
      · exact Kept.ite g.cancelColl.updFab g
      · exact g
    exact h1.updFab

theorem Kept.updReq {id g} (h : Kept W q s) : Kept W q (s.updReq id g) := h.updFab

theorem Kept.fabFinish {id st data} (h : Kept W q s) : Kept W q (s.fabFinish id st data) := by
  unfold State.fabFinish
  split
  · exact h
  · extract_lets st2 hold s1
    have h1 : Kept W q s1 := h.updFab
    exact Kept.ite h1.updFab h1.updReq

theorem Kept.cancelReq {r fence} (h : Kept W q s) : Kept W q (s.cancelReq r fence) := by
  unfold State.cancelReq
  grind only [← Kept.voidMsgs, ← Kept.fabFinish, ← Kept.fsat, ← Kept.updReq, ← Kept.updFab]

theorem Kept.cancelReqs {p fence} (h : Kept W q s) : Kept W q (s.cancelReqs p fence) := h.foldl fun _ _ g => g.cancelReq

theorem Kept.dropFabric {t} (h : Kept W q s) : Kept W q (s.dropFabric t) := by
  unfold State.dropFabric
  extract_lets ids
  exact h.cancelReqs.dropColls.foldl fun _ _ g => g.fabDrop

theorem Kept.dropWork {t} (h : Kept W q s) : Kept W q (s.dropWork t) := by
  unfold State.dropWork
  split
  · exact h
  · extract_lets s1 live cmds rec' rec'2
    have h1 : Kept W q s1 := Kept.ite (((h.foldl fun _ _ g => g.updCore).foldl fun _ _ g => g.updDist.resetRegs).foldl fun _ _ g =>
        g.updBlk) h
    exact h1.upd.dropFabric

theorem Kept.finishUnseal {t} (h : Kept W q s) : Kept W q (s.finishUnseal t) := by
  unfold State.finishUnseal
  extract_lets rec'
  split
  · exact Kept.ite h.upd.fset h
  · exact h

theorem Kept.endStep {t e} (h : Kept W q s) : Kept W q (s.endStep t e) := by
  unfold State.endStep
  extract_lets s1 s2 s3 rec' s4
  have h1 : Kept W q s1 := by
    unfold s1
    split
    · exact h.copiesEnd
    · exact h.dropWork.copiesEnd
  have h2 : Kept W q s2 := by
    unfold s2
    split
    · exact h1
    · exact h1.fset
  have h3 : Kept W q s3 := Kept.ite h2 h2.setTst
  have h4 : Kept W q s4 := h3.upd
  split
  · exact h
  · extract_lets v s5
    have h5 : Kept W q s5 := h4.updTen
    exact h5.finishUnseal

theorem Kept.degradeRanges (h : Kept W q s) : Kept W q (s.degradeRanges) := h.foldl fun _ _ g => Kept.ite g.fset g

theorem Kept.rbit {r ix b on} (h : Kept W q s) : Kept W q (s.rbit r ix b on) := h.fset

theorem Kept.srcEvent {x} (h : Kept W q s) : Kept W q (s.srcEvent x) := by
  unfold State.srcEvent
  extract_lets e s1 rec'
  have h1 : Kept W q s1 := h.fset
  exact Kept.ite h1.upd h1

theorem Kept.retireNow {key code} (h : Kept W q s) : Kept W q (s.retireNow key code) := by
  unfold State.retireNow
  extract_lets u rec' s1 rec'2
  have h1 : Kept W q s1 := h.upd
  split
  · exact h
  · split
    · exact Kept.ite h1.upd h1.upd
    · exact h1.rbit.rbit.degradeRanges
    · exact h1.rbit.rbit
    · exact h1.fset
    · exact Kept.ite h1 h1.fset.srcEvent
    · exact h1.fset
    · exact h1

theorem Kept.takeAct {e a unit} (h : Kept W q s) : Kept W q (s.takeAct e a unit) := by
  unfold State.takeAct
  extract_lets rec' st
  split
  · exact h.markReplay.replaySuspended
  · exact h.askDiscard
  · exact h.endStep
  · split
    · exact h.retireNow
    · exact h
  · exact h.upd
  · exact h.upd
  · exact Kept.ite h.upd h
  · exact h

theorem Kept.enterHistory {e forced act run} (h : Kept W q s) : Kept W q (s.enterHistory e forced act run) := by
  unfold State.enterHistory
  extract_lets n m j taken first w3 step rep word put later s1 s2
  have hput {x0 x1 s'} (g : Kept W q s') : Kept W q (put x0 x1 s') := g.foldl fun _ _ g1 => g1.rset
  have h1 : Kept W q s1 := hput (h.foldl fun _ _ g => hput g)
  have h2 : Kept W q s2 := h1.fset
  exact Kept.ite h.rset (Kept.ite ((h2.foldl fun _ _ g => g.rset).fset) h2)

theorem Kept.setPend {bit} (h : Kept W q s) : Kept W q (s.setPend bit) := by
  unfold State.setPend
  extract_lets s1
  have h1 : Kept W q s1 := h.rbit
  exact Kept.ite h1.srcEvent h1

theorem Kept.recordEvent {e forced a run} (h : Kept W q s) : Kept W q (s.recordEvent e forced a run) := by
  unfold State.recordEvent
  extract_lets s1
  have h1 : Kept W q s1 := h.enterHistory
  exact Kept.ite h1.setPend (Kept.ite h1.setPend h1)

theorem Kept.decideRetire {key} (h : Kept W q s) : Kept W q (s.decideRetire key) := by
  unfold State.decideRetire
  extract_lets e
  exact h.retireNow.recordEvent

theorem Kept.countEvent {e key limit} (h : Kept W q s) : Kept W q (s.countEvent e key limit) := by
  unfold State.countEvent
  extract_lets n rec' s1 again
  have h1 : Kept W q s1 := h.upd
  exact Kept.ite h (Kept.ite h1.decideRetire h1)

theorem Kept.replayLimit {t} (h : Kept W q s) : Kept W q (s.replayLimit t) := by
  unfold State.replayLimit
  extract_lets e
  split
  · exact Kept.ite h.recordEvent.endStep h
  · exact h

theorem Kept.reentryFailed (h : Kept W q s) : Kept W q (s.reentryFailed) := Kept.ite h.upd.recordEvent h

theorem Kept.ringCut {l} (h : Kept W q s) : Kept W q (s.ringCut l) := Kept.ite h.upd.recordEvent h

theorem Kept.raiseEv {e forced counts} (h : Kept W q s) : Kept W q (s.raiseEv e forced counts) := by
  unfold State.raiseEv
  grind only [← Kept.takeAct, ← Kept.recordEvent, ← Kept.countEvent, ← Kept.replayLimit, ← Kept.reentryFailed, ← Kept.ringCut]

theorem Kept.chipEv {code unit ten detail} (h : Kept W q s) : Kept W q (s.chipEv code unit ten detail) := h.raiseEv

theorem Kept.kick {c} (h : Kept W q s) : Kept W q (s.kick c) := h.upd

theorem Kept.distEv {code d sub ten detail dataErr aux} (h : Kept W q s) : Kept W q (s.distEv code d sub ten detail dataErr aux) :=
  h.raiseEv

theorem Kept.fsets {ix l} (h : Kept W q s) : Kept W q (s.fsets ix l) := h.foldl fun _ _ g => g.fset

theorem Kept.capture {valid ovf ix l} (h : Kept W q s) : Kept W q (s.capture valid ovf ix l) := Kept.ite h.fset h.fsets.fset

theorem Kept.updRm {d f} (h : Kept W q s) : Kept W q (s.updRm d f) := h.updDist

theorem Kept.rmErr {d code reason layer expert} (h : Kept W q s) : Kept W q (s.rmErr d code reason layer expert) := by
  unfold State.rmErr
  extract_lets fields
  exact Kept.ite h.capture.updRm (Kept.ite h.fsets.fset h.fset)

theorem Kept.captureLow {valid ovf code ix same c l} (h : Kept W q s) : Kept W q (s.captureLow valid ovf code ix same c l).2 := by
  unfold State.captureLow
  extract_lets l2
  exact Kept.ite₂ h.capture.snd (Kept.ite₂ h.fsets.fset.snd h.fset.snd)

theorem Kept.fabCapture {k valid ovf code c l} (h : Kept W q s) : Kept W q (s.fabCapture k valid ovf code c l) := by
  unfold State.fabCapture
  extract_lets q' s1 rec'
  have h1 : Kept W q s1 := h.captureLow
  exact Kept.ite h1.upd h.captureLow

theorem Kept.opmCapture {code reason ten src key} (h : Kept W q s) : Kept W q (s.opmCapture code reason ten src key) :=
  h.fabCapture

theorem Kept.opmErr {code reason ten src key unit} (h : Kept W q s) : Kept W q (s.opmErr code reason ten src key unit) :=
  h.opmCapture.chipEv

theorem Kept.fabErr {code port reason src key ten} (h : Kept W q s) : Kept W q (s.fabErr code port reason src key ten) := by
  unfold State.fabErr
  extract_lets s1
  have h1 : Kept W q s1 := h.fabCapture
  exact h1.chipEv

theorem Kept.fabReject {reason} (h : Kept W q s) : Kept W q (s.fabReject reason) := h.fabErr

theorem Kept.hifReject (h : Kept W q s) : Kept W q (s.hifReject) := h.fset

theorem Kept.keyRefused (h : Kept W q s) : Kept W q (s.keyRefused) := h.fset

theorem Kept.sealReject (h : Kept W q s) : Kept W q (s.sealReject) := h.fset

theorem Kept.pwrReject (h : Kept W q s) : Kept W q (s.pwrReject) := h.fset

theorem Kept.regReject {r ix v} (h : Kept W q s) : Kept W q (s.regReject r ix v) := by
  unfold State.regReject
  cases r
  case TICK_CTRL => exact h.chipEv
  case TICK_CONFIG => exact h.chipEv
  case ALIGN_CONFIG => exact h.chipEv
  case TEN_RESERVE => exact h.chipEv
  case TEN_CMD => exact h.chipEv
  case SCHED_CTRL => exact h.chipEv
  case SCHED_SLOT => exact h.chipEv
  case DMA_POOL_CFG =>
    rcases ix with _ | ⟨_, _ | _⟩
    exacts [h, h.distEv, h]
  case RE_CFG =>
    rcases ix with _ | ⟨_, _ | _⟩
    exacts [h, h.capture.distEv, h]
  case SQ_CFG =>
    rcases ix with _ | ⟨_, _ | _⟩
    exacts [h, h.rmErr.distEv, h]
  case T1_RESERVE => exact h.chipEv
  case T2_RANGE_BASE => exact h.chipEv
  case FL_CFG => exact h.chipEv
  case FL_TIMEOUT => exact h.chipEv
  case FL_TRIM_CTL => exact h.chipEv
  case SHP_CTRL => exact h.chipEv
  case PSHP_CFG => exact h.opmErr
  case SSHP_CFG => exact h.opmErr
  case OPM_CTRL => exact h.opmErr
  case LEASE_CFG => exact h.opmErr
  case AUTH_CTL => exact Kept.ite h.opmErr h
  case FAB_ID => exact h.fabReject
  case FAB_TIMERS => exact h.fabReject
  case ROUTE => exact h.fabReject
  case EPOCH_CTRL => exact h.fabReject
  case PKEY => exact h.fabReject
  case TEN_PKEY => exact h.fabReject
  case PORT_CTRL =>
    rcases ix with _ | ⟨_, _ | _⟩
    exacts [h, h.fabErr, h]
  case PORT_VC_CFG =>
    rcases ix with _ | ⟨_, _ | _⟩
    exacts [h, h.fabErr, h]
  case PORT_ARB =>
    rcases ix with _ | ⟨_, _ | _⟩
    exacts [h, h.fabErr, h]
  case FAB_ROLE => exact h.fabReject
  case RET_LIMITS => exact h.chipEv
  case RET_LIMITS2 => exact h.chipEv
  case CCC_WDOG => exact h.chipEv
  case DFU_WDOG => exact h.chipEv
  case RET_CLEAR => exact h.chipEv
  case RIDGE_FORCE => exact h.chipEv
  case DFU_FORCE => exact h.chipEv
  case GRAVE_FORCE => exact h.chipEv
  case BAR2_XLAT => exact h.hifReject
  case RES_CH_CFG => exact h.hifReject
  case RES_CH_BASE => exact h.hifReject
  case RES_CH_CI => exact h.hifReject
  case SRC_SH => exact h.fsat
  case KEY_CTL => exact h.keyRefused
  case DG_CMD => exact h.sealReject
  case PWR_LIMIT => exact h.pwrReject
  case RST_CTRL => exact h.pwrReject
  case FW_CTL => exact h.pwrReject
  case FW_FUSE => exact h.pwrReject
  case I3C_CFG => exact h.pwrReject
  all_goals exact h

theorem Kept.showLocked (h : Kept W q s) : Kept W q (s.showLocked) := by
  unfold State.showLocked
  extract_lets l
  exact h.fset

theorem Kept.abandonUnended (h : Kept W q s) : Kept W q (s.abandonUnended) := by
  unfold State.abandonUnended
  extract_lets s1
  have h1 : Kept W q s1 := Kept.ite h.endStep h
  exact h1.foldl fun _ _ g => g.endStep

theorem Kept.tickOff (h : Kept W q s) : Kept W q (s.tickOff) := by
  unfold State.tickOff
  extract_lets rec' s1
  have h1 : Kept W q s1 := h.upd
  exact Kept.ite h1.abandonUnended h1

theorem Kept.tickCtrlAct {old} (h : Kept W q s) : Kept W q (s.tickCtrlAct old) := by
  unfold State.tickCtrlAct
  extract_lets en was mode rec' s1 s2 rec'2
  have h1 : Kept W q s1 := h.upd
  have h2 : Kept W q s2 := Kept.ite h h1.fset.showLocked
  exact Kept.ite (Kept.ite h2 h2.upd) (Kept.ite h2.tickOff h2)

theorem Kept.tenCmdBegin {t} (h : Kept W q s) : Kept W q (s.tenCmdBegin t) := h.fset.fset.srcEvent

theorem Kept.tickFree (h : Kept W q s) : Kept W q (s.tickFree) := h.upd

theorem Kept.decodeTake {a info} (h : Kept W q s) : Kept W q (s.decodeTake a info) := by
  unfold State.decodeTake
  extract_lets s1 rec'
  have h1 : Kept W q s1 := h.rset.rset
  exact h1.upd

theorem Kept.decodeFail {i k a check} (h : Kept W q s) : Kept W q (s.decodeFail i k a check) := by
  unfold State.decodeFail
  extract_lets info held s1
  have h1 : Kept W q s1 := Kept.ite h.decodeTake (Kept.ite h.decodeTake h.fset)
  exact h1.chipEv

theorem Kept.selfAdmits {key ten} (h : Kept W q s) : Kept W q (s.selfAdmits key ten).2 := by
  unfold State.selfAdmits
  grind only [← Kept.fabErr]

theorem Kept.targetWard {ward src} (h : Kept W q s) : Kept W q (s.targetWard ward src).2 := by
  unfold State.targetWard
  grind only [← Kept.opmErr]

theorem Kept.sliceCheck {ten} (h : Kept W q s) : Kept W q (s.sliceCheck ten).2 := by
  unfold State.sliceCheck
  extract_lets q'
  exact Kept.ite₂ h.selfAdmits h.selfAdmits.targetWard

theorem Kept.check {i k a} (h : Kept W q s) : Kept W q (s.check i k a).2.2 := by
  unfold State.check
  extract_lets w shared q'
  split
  · exact h.decodeFail.snd₂
  · split
    · exact h.decodeFail.snd₂
    · split
      · exact h.raiseEv.snd₂
      · split
        · exact h
        · split
          · exact h.sliceCheck.snd₂
          · exact h

theorem Kept.mend {l} (h : Kept W q s) : Kept W q (s.mend l) := by
  exact h.setMemories id id KMap.wf_foldl_set

theorem Kept.t1Corrected {l} (h : Kept W q s) : Kept W q (s.t1Corrected l) :=
  h.mend.foldl fun _ _ g => by
    extract_lets h' rec'
    exact g.upd.fsat

theorem Kept.tierCapture {k valid ovf code ix c fields} (h : Kept W q s) : Kept W q (s.tierCapture k valid ovf code ix c fields) :=
    by
  unfold State.tierCapture
  extract_lets fields2 s1 rec'
  have h1 : Kept W q s1 := h.capture
  exact Kept.ite h1.upd (Kept.ite h.fsets.fset h.fset)

theorem Kept.t1Error {ten a} (h : Kept W q s) : Kept W q (s.t1Error ten a) := by
  unfold State.t1Error
  extract_lets sl d line s1 s2
  have h1 : Kept W q s1 := h.fsat
  have h2 : Kept W q s2 := h1.tierCapture
  exact h2.distEv

theorem Kept.t1Read {ten a n} (h : Kept W q s) : Kept W q (s.t1Read ten a n).2.2 := by
  unfold State.t1Read
  extract_lets s1
  have h1 : Kept W q s1 := h.t1Corrected
  exact Kept.ite₃ h (Kept.ite₃ h1 h1.t1Error.snd₂)

theorem Kept.t2Corrected {l} (h : Kept W q s) : Kept W q (s.t2Corrected l) := Kept.ite h h.mend.fsat

theorem Kept.t2Error {ten a fromCopy} (h : Kept W q s) : Kept W q (s.t2Error ten a fromCopy) := by
  unfold State.t2Error
  extract_lets ch o s1 s2
  have h1 : Kept W q s1 := h.fsat
  have h2 : Kept W q s2 := h1.tierCapture
  exact h2.chipEv

theorem Kept.rawCopy {src dst n} (h : Kept W q s) : Kept W q (s.rawCopy src dst n) := by
  exact h.setMemories (fun g => KMap.wf_splice_slice g g) (fun g => KMap.wf_splice_slice g g) fun g => KMap.wf_splice_slice g g

theorem Kept.t2Rewrite {a c} (h : Kept W q s) : Kept W q (s.t2Rewrite a c) := h.foldl fun _ _ g => Kept.ite g g.rawCopy

theorem Kept.t2Read {ten a n linkBad} (h : Kept W q s) : Kept W q (s.t2Read ten a n linkBad).2.2 := by
  unfold State.t2Read
  extract_lets gone s1
  have h1 : Kept W q s1 := Kept.ite h h.t2Corrected
  split
  · exact h1
  · split
    · exact Kept.ite₃ h1 h1.t2Error.snd₂
    · extract_lets s2
      have h2 : Kept W q s2 := h1.t2Corrected
      exact Kept.ite₃ h2.t2Error.snd₂ (Kept.ite₃ h2.fsat.snd₂ h2.t2Rewrite.t2Error.snd₂)

theorem Kept.squareRead {d a} (h : Kept W q s) : Kept W q (s.squareRead d a) := by
  unfold State.squareRead
  extract_lets q'
  split
  · exact Kept.ite h (Kept.ite h.updSq.fadd h.updSq)
  · exact h

theorem Kept.eccCount {t n} (h : Kept W q s) : Kept W q (s.eccCount t n) := by
  unfold State.eccCount
  split
  · exact h
  · split
    · exact h.fsat
    · exact h.fsat
    · exact h.fsat
    · exact h

theorem Kept.fetchesIdle {d} (h : Kept W q s) : Kept W q (s.fetchesIdle d) := h.fadd

theorem Kept.rmStop {d key} (h : Kept W q s) : Kept W q (s.rmStop d key) := by
  unfold State.rmStop
  extract_lets r v serves s1
  have h1 : Kept W q s1 := Kept.ite h h.fetchesIdle
  exact h1.updRm

theorem Kept.dropLead {d ten} (h : Kept W q s) : Kept W q (s.dropLead d ten) := by
  unfold State.dropLead
  extract_lets mine s1
  have h1 : Kept W q s1 := h.upd
  exact h1.foldl fun _ _ g => g.foldl fun _ _ g1 => Kept.ite g1 g1.rmStop

theorem Kept.squareError {ten d a} (h : Kept W q s) : Kept W q (s.squareError ten d a) := by
  unfold State.squareError
  extract_lets lot own owner priv s1 s2 hit key v s3 s4
  have h1 : Kept W q s1 := h.fsat
  have h2 : Kept W q s2 := h1.capture
  have h3 : Kept W q s3 := h2.updSq
  have h4 : Kept W q s4 := h3.rmErr.distEv
  exact Kept.ite h4.rmStop.dropLead h4

theorem Kept.blkEv {code b ten detail dataErr} (h : Kept W q s) : Kept W q (s.blkEv code b ten detail dataErr) := h.raiseEv

theorem Kept.blkPend {b src} (h : Kept W q s) : Kept W q (s.blkPend b src) := h.updBlk

theorem Kept.gaErr {d code reason index ten dataErr} (h : Kept W q s) : Kept W q (s.gaErr d code reason index ten dataErr) :=
  h.capture.distEv

theorem Kept.reErr {d code reason detail} (h : Kept W q s) : Kept W q (s.reErr d code reason detail) := by
  unfold State.reErr
  extract_lets e job fields
  exact Kept.ite h.capture.updDist (Kept.ite h.fsets.fset h.fset)

theorem Kept.chipMemError {ten t a} (h : Kept W q s) : Kept W q (s.chipMemError ten t a) := by
  unfold State.chipMemError
  split
  · exact h.squareError
  · extract_lets off code tile was s1 s2 s3
    have h1 : Kept W q s1 := Kept.ite h h.rbit
    have h2 : Kept W q s2 := h1.capture
    have h3 : Kept W q s3 := h2.blkEv
    exact Kept.ite h3.blkPend (Kept.ite h3 h3.blkPend)
  · extract_lets off
    exact Kept.ite h.gaErr h.rbit.gaErr
  · exact h.reErr.distEv
  · exact h

theorem Kept.tierRead {ten t a n} (h : Kept W q s) : Kept W q (s.tierRead ten t a n).2.2 := by
  unfold State.tierRead
  extract_lets a2 s1 w weak s2
  have h1 : Kept W q s1 := by
    unfold s1
    split
    · exact h.squareRead
    · exact h
  have h2 : Kept W q s2 := Kept.ite h1 h1.mend.eccCount
  split
  · exact h.t1Read
  · exact h.t2Read
  · exact Kept.ite₃ h h
  · exact Kept.ite₃ h2 h1.chipMemError.snd₂

theorem Kept.busRead {i k a n} (h : Kept W q s) : Kept W q (s.busRead i k a n).2.2 :=
  h.foldl₃ fun _ _ g => by
    split
    · exact g
    · split
      · next heq =>
          have hs : Kept W q _ := .of_snd₂ heq g.check
          extract_lets r
          exact hs.tierRead.snd₂
      · next heq =>
          have hs : Kept W q _ := .of_snd₂ heq g.check
          exact Kept.ite₃ hs hs.chipEv.snd₂
      · next heq =>
          have hs : Kept W q _ := .of_snd₂ heq g.check
          exact hs
      · next heq =>
          have hs : Kept W q _ := .of_snd₂ heq g.check
          exact hs

theorem Kept.busWord {i k a} (h : Kept W q s) : Kept W q (s.busWord i k a).2.2 := by
  unfold State.busWord
  extract_lets r
  exact h.busRead.snd₂

theorem Kept.devWords {a n} (h : Kept W q s) : Kept W q (s.devWords a n).2.2 :=
  h.foldl₃ fun _ _ g => by
    extract_lets r
    exact g.busWord.snd₂

theorem Kept.readHeaders {ctx} (h : Kept W q s) : Kept W q (s.readHeaders ctx).2 :=
  h.foldl₂ fun _ _ g => by
    extract_lets q' table h'
    exact Kept.ite₂ g.devWords.snd (Kept.ite₂ g.devWords.snd g.devWords.busWord.snd)

theorem Kept.rawWrite {a l} (h : Kept W q s) : Kept W q (s.rawWrite a l) := by
  exact h.setMemories wf_writeList id id

theorem Kept.eccWrite {w a l linkBad} (h : Kept W q s) : Kept W q (s.eccWrite w a l linkBad).2 := by
  unfold State.eccWrite
  extract_lets n parts full old s1 s2 s3 s4
  have h1 : Kept W q s1 := h.rawWrite
  have h2 : Kept W q s2 := h1.setMemories id KMap.wf_foldl_set id
  exact h2.mend.foldl fun _ _ g => g.rawWrite

theorem Kept.t1Write {ten a l} (h : Kept W q s) : Kept W q (s.t1Write ten a l).2 := by
  unfold State.t1Write
  extract_lets p
  exact Kept.ite₂ h (Kept.ite₂ h.t1Corrected.eccWrite.t1Error.snd h.t1Corrected.eccWrite.snd)

theorem Kept.protectedStore {ten a} (h : Kept W q s) : Kept W q (s.protectedStore ten a) := by
  unfold State.protectedStore
  extract_lets t2 o s1
  have h1 : Kept W q s1 := Kept.ite h.tierCapture h
  exact h1.chipEv

theorem Kept.t2Put {a l linkBad} (h : Kept W q s) : Kept W q (s.t2Put a l linkBad).2 := Kept.ite₂ h h.t2Corrected.eccWrite

theorem Kept.t2Write {ten a l linkBad} (h : Kept W q s) : Kept W q (s.t2Write ten a l linkBad).2 := by
  unfold State.t2Write
  generalize s.t2Gone = gone
  generalize s.mirrorOf (a - t2Base) = mirror
  have hput : ∀ b, Kept W q (s.t2Put a l b).2 := fun _ => h.t2Put
  obtain _ | ⟨r, d, o⟩ := mirror
  · have hp := hput linkBad
    generalize s.t2Put a l linkBad = p at hp ⊢
    dsimp only
    grind only [← Kept.t2Error]
  · cases d
    · have hp : Kept W q ((s.t2Put a l linkBad).2.t2Put (t2Base + o) l).2 := (hput linkBad).t2Put
      dsimp only
      generalize s.t2Put a l linkBad = p at hp ⊢
      generalize p.2.t2Put (t2Base + o) l = r at hp ⊢
      grind only [← Kept.t2Error]
    · exact h.protectedStore

theorem Kept.lineWrite {ten a l linkBad} (h : Kept W q s) : Kept W q (s.lineWrite ten a l linkBad).2 :=
  Kept.ite₂ h.t1Write h.t2Write

theorem Kept.deviceWrite {a v} (h : Kept W q s) : Kept W q (s.deviceWrite a v).2 := h.lineWrite

theorem Kept.writeMap {t} (h : Kept W q s) : Kept W q (s.writeMap t) := by
  unfold State.writeMap
  split
  · extract_lets l
    exact h.foldl fun _ _ g => g.t1Write
  · exact h

theorem Kept.createTen {t} (h : Kept W q s) : Kept W q (s.createTen t).2 := by
  unfold State.createTen
  extract_lets da q' s1 w d m mask h' s2 named v image
  have h1 : Kept W q s1 := h.busRead
  have h2 : Kept W q s2 := h1.busRead.readHeaders
  split
  · exact h.tickFree.snd
  · split
    · exact h
    · split
      · exact h1
      · split
        · exact h2
        · extract_lets p s3 s4
          have h3 : Kept W q s3 := h2.foldl fun _ _ g => g.deviceWrite
          have h4 : Kept W q s4 := h3.setTen.rset
          exact Kept.ite₂ h2 (Kept.ite₂ h2 (Kept.ite₂ h2 (Kept.ite₂ h2 (Kept.ite₂ h2 (Kept.ite₂ h2 h4.setTst.fset.writeMap.snd)))))

theorem Kept.tenResult {t r} (h : Kept W q s) : Kept W q (s.tenResult t r) := h.upd

theorem Kept.dropUrgent {t} (h : Kept W q s) : Kept W q (s.dropUrgent t) := Kept.ite h.upd h

theorem Kept.rawZero {a n} (h : Kept W q s) : Kept W q (s.rawZero a n) := by
  exact h.setMemories KMap.wf_clear KMap.wf_clear KMap.wf_clear

theorem Kept.zeroBlock {b} (h : Kept W q s) : Kept W q (s.zeroBlock b) := h.rawZero

theorem Kept.freeLots {t} (h : Kept W q s) : Kept W q (s.freeLots t) := h.foldl fun _ _ g => g.updSq

theorem Kept.unsealEntry {k} (h : Kept W q s) : Kept W q (s.unsealEntry k) := h.upd

theorem Kept.tearDown {t} (h : Kept W q s) : Kept W q (s.tearDown t) := by
  unfold State.tearDown
  split
  · exact h
  · extract_lets s1 s2 s3 rec' s4 s5 rec'2 s6 rec'3
    have h1 : Kept W q s1 := h.freeLots.foldl fun _ _ g => g.zeroBlock
    have h2 : Kept W q s2 := h1.foldl fun _ _ g => g.unsealEntry
    have h3 : Kept W q s3 := h2.finishUnseal
    have h4 : Kept W q s4 := by
      unfold s4
      split
      · exact Kept.ite h3.upd.fsets h3
      · exact h3
    have h5 : Kept W q s5 := h4.setTen.rset.rset.rbit.rbit
    have h6 : Kept W q s6 := h5.upd
    exact h6.upd

theorem Kept.storeRecord {ch words} (h : Kept W q s) : Kept W q (s.storeRecord ch words) := by
  unfold State.storeRecord
  dsimp only
  (repeat' split) <;> grind only [← Kept.fset, ← Kept.srcEvent, ← Kept.upd]

theorem Kept.buildRecord {t} (h : Kept W q s) : Kept W q (s.buildRecord t) := by
  unfold State.buildRecord
  extract_lets s1
  have h1 : Kept W q s1 := h.updTen
  split
  · extract_lets q'
    split
    · exact h
    · exact h1
    · exact Kept.ite h1.busRead.storeRecord h1.busRead.storeRecord.tickFree
  · exact h

theorem Kept.dropStep {t} (h : Kept W q s) : Kept W q (s.dropStep t) := by
  unfold State.dropStep
  extract_lets s1
  have h1 : Kept W q s1 := by
    unfold s1
    split
    · exact Kept.ite h.updTen (Kept.ite h.endStep h)
    · exact h
  exact h1.buildRecord

theorem Kept.tryTearDown {t} (h : Kept W q s) : Kept W q (s.tryTearDown t) := Kept.ite h h.dropStep.tearDown.tenResult

theorem Kept.destroyTen {t} (h : Kept W q s) : Kept W q (s.destroyTen t) := by
  unfold State.destroyTen
  extract_lets s1 s2
  have h1 : Kept W q s1 := h.dropUrgent.tenResult
  have h2 : Kept W q s2 := Kept.ite h1.setTst h1
  exact Kept.ite h.tenResult h2.tryTearDown

theorem Kept.overrunStep {t v} (h : Kept W q s) : Kept W q (s.overrunStep t v) := by
  unfold State.overrunStep
  extract_lets s1 s2 rec'
  have h1 : Kept W q s1 := h.fsat.fsat
  have h2 : Kept W q s2 := h1.updRun.srcEvent
  split
  · exact h2.chipEv
  · split
    · exact h2.upd
    · exact h2.upd
    · exact h2.endStep

theorem Kept.meetDeadline (h : Kept W q s) : Kept W q (s.meetDeadline) := by
  unfold State.meetDeadline
  extract_lets t' rec'
  split
  · exact Kept.ite h (Kept.ite h.upd h.chipEv.overrunStep)
  · exact h

theorem Kept.dueDeadline (h : Kept W q s) : Kept W q (s.dueDeadline) := by
  unfold State.dueDeadline
  split
  · exact Kept.ite h.meetDeadline h
  · exact h

theorem Kept.urgentTen {t} (h : Kept W q s) : Kept W q (s.urgentTen t).2 := by
  unfold State.urgentTen
  extract_lets s1 held q' atDeadline v rec'
  have h1 : Kept W q s1 := h.dueDeadline
  exact Kept.ite₂ h1 (Kept.ite₂ h1 (Kept.ite₂ h1 (Kept.ite₂ h1 (Kept.ite₂ h1 h1.upd.snd))))

theorem Kept.tenCmdAct {v} (h : Kept W q s) : Kept W q (s.tenCmdAct v) := by
  unfold State.tenCmdAct
  grind only [← Kept.tenCmdBegin, ← Kept.createTen, ← Kept.tenResult, ← Kept.destroyTen, ← Kept.urgentTen]

theorem Kept.writeCore {c new} (h : Kept W q s) : Kept W q (s.writeCore c new) := by
  unfold State.writeCore
  extract_lets was s1
  have h1 : Kept W q s1 := h.rset
  exact Kept.ite h1.setCore h1.updCore

theorem Kept.updGa {d f} (h : Kept W q s) : Kept W q (s.updGa d f) := h.updDist

theorem Kept.setT2Range {r v} (h : Kept W q s) : Kept W q (s.setT2Range r v) := by
  unfold State.setT2Range
  extract_lets len on was resync s1
  have h1 : Kept W q s1 := h.upd
  exact h1.fsets.degradeRanges

theorem Kept.driveUp {d} (h : Kept W q s) : Kept W q (s.driveUp d) := h.fsets

theorem Kept.flashRuns (h : Kept W q s) : Kept W q (s.flashRuns) := h.foldl fun _ _ g => Kept.ite g.fsets (Kept.ite g.driveUp g)

theorem Kept.updFl {f} (h : Kept W q s) : Kept W q (s.updFl f) := h.upd

theorem Kept.trimStart {pages} (h : Kept W q s) : Kept W q (s.trimStart pages) := by
  unfold State.trimStart
  extract_lets s1
  have h1 : Kept W q s1 := h.fset
  exact Kept.ite h1 h1.fset.updFl

theorem Kept.setTokens {b n} (h : Kept W q s) : Kept W q (s.setTokens b n) := h.fset

theorem Kept.bucketConfig {b v} (h : Kept W q s) : Kept W q (s.bucketConfig b v) := by
  unfold State.bucketConfig
  extract_lets s1 rec' s2
  have h1 : Kept W q s1 := h.rset
  have h2 : Kept W q s2 := h1.upd
  exact h2.setTokens

theorem Kept.bucketDelay {b ns} (h : Kept W q s) : Kept W q (s.bucketDelay b ns) := h.upd

theorem Kept.bucketCharge {b n} (h : Kept W q s) : Kept W q (s.bucketCharge b n) := Kept.ite h.setTokens h

theorem Kept.swAdd {a1} (h : Kept W q s) : Kept W q (s.swAdd a1) := by
  unfold State.swAdd
  extract_lets q' s1 rec'
  have h1 : Kept W q s1 := h.updFab
  split
  · exact h1
  · extract_lets n
    exact Kept.ite h1 h1.upd

theorem Kept.emit {p now comb coll} (h : Kept W q s) : Kept W q (s.emit p now comb coll) := by
  unfold State.emit
  grind only [← Kept.swAdd, ← Kept.fabErr]

theorem Kept.putGo {m} (h : Kept W q s) : Kept W q (s.putGo m) := by
  unfold State.putGo
  extract_lets s1 s2 timers own sent
  have h1 : Kept W q s1 := by
    unfold s1
    split
    · exact h.bucketCharge.bucketDelay
    · exact h
  have h2 : Kept W q s2 := h1.emit
  exact h2.updFab

theorem Kept.policedEvent {t} (h : Kept W q s) : Kept W q (s.policedEvent t) := by
  unfold State.policedEvent
  extract_lets set
  exact Kept.ite h h.updFab.opmErr

theorem Kept.putPoliced {m} (h : Kept W q s) : Kept W q (s.putPoliced m) := h.policedEvent

theorem Kept.bucketDepth {b depth} (h : Kept W q s) : Kept W q (s.bucketDepth b depth) := h.upd

theorem Kept.putPump (h : Kept W q s) : Kept W q (s.putPump) :=
  h.updFab.snd.foldl₂ fun _ _ g => by
    extract_lets s1 stay s2
    have h1 : Kept W q s1 := g
    have hstay {s'} (g : Kept W q s') : Kept W q (stay s') := g.updFab
    have h2 : Kept W q s2 := hstay h1
    split
    · exact (hstay h1).snd
    · split
      · exact h1.putGo.snd
      · exact h1.putPoliced.snd
      · split
        · exact h2.bucketDepth.snd
        · exact h2

theorem Kept.injectReq {r} (h : Kept W q s) : Kept W q (s.injectReq r) := by
  unfold State.injectReq
  extract_lets since
  split
  · exact h
  · extract_lets s1 r2 s2 e p s3 s4
    have h1 : Kept W q s1 := Kept.ite h h.updFab
    have h2 : Kept W q s2 := h1.updReq
    have h3 : Kept W q s3 := by
      unfold s3
      split
      · exact Kept.ite h2.bucketCharge.bucketDelay h2.bucketCharge
      · exact h2
    have h4 : Kept W q s4 := Kept.ite h3 h3.fsat
    split
    · exact h2
    · exact Kept.ite h2.fabFinish.fabErr h4.swAdd

theorem Kept.fabPoliced {r} (h : Kept W q s) : Kept W q (s.fabPoliced r) := h.fabFinish.policedEvent

theorem Kept.fabPump (h : Kept W q s) : Kept W q (s.fabPump) :=
  (h.foldl₂ fun _ _ g => by
    extract_lets s1
    have h1 : Kept W q s1 := g
    split
    · exact g
    · split
      · exact h1.injectReq.snd
      · split
        · exact g
        · split
          · exact h1.injectReq.snd
          · exact h1.fabPoliced.snd
          · exact h1.bucketDepth.snd).putPump

theorem Kept.writeEpoch {old v} (h : Kept W q s) : Kept W q (s.writeEpoch old v) := by
  unfold State.writeEpoch
  extract_lets s1 s2 s3
  have h1 : Kept W q s1 := Kept.ite h.fset h
  have h2 : Kept W q s2 := Kept.ite h1.fset h1
  have h3 : Kept W q s3 := h2.fset.fset
  exact Kept.ite h2 h3.updFab

theorem Kept.setPortState {p x} (h : Kept W q s) : Kept W q (s.setPortState p x) := Kept.ite h h.fset.srcEvent

theorem Kept.freeSome {a1 n} (h : Kept W q s) : Kept W q (s.freeSome a1 n) := by
  unfold State.freeSome
  split
  · exact h.updPort
  · exact h

theorem Kept.freeSlots {a1} (h : Kept W q s) : Kept W q (s.freeSlots a1) := h.freeSome

theorem Kept.freeComb {id} (h : Kept W q s) : Kept W q (s.freeComb id) := by
  unfold State.freeComb
  split
  · exact Kept.ite h.updFab h
  · exact h

theorem Kept.swGone {a1} (h : Kept W q s) : Kept W q (s.swGone a1) := by
  unfold State.swGone
  extract_lets s1
  have h1 : Kept W q s1 := h.freeSlots
  split
  · exact h1.freeComb
  · exact h1

theorem Kept.reroute {p a2} (h : Kept W q s) : Kept W q (s.reroute p a2) := by
  unfold State.reroute
  extract_lets s1
  have h1 : Kept W q s1 := h.swGone.fabErr
  split
  · exact h.swGone.fsat
  · split
    · exact h.swAdd
    · split
      · split
        · exact h1.fabFinish
        · exact h1
      · exact h.swGone.fsat.fabErr

theorem Kept.rerouteFrom {p} (h : Kept W q s) : Kept W q (s.rerouteFrom p) := by
  unfold State.rerouteFrom
  extract_lets cut s1 waiting s2
  have h1 : Kept W q s1 := h.updPort
  have h2 : Kept W q s2 := h1.updFab
  exact h2.foldl fun _ _ g => g.reroute

theorem Kept.portQuiet {p x} (h : Kept W q s) : Kept W q (s.portQuiet p x) := by
  unfold State.portQuiet
  extract_lets s1
  have h1 : Kept W q s1 := h.setPortState.updPort
  exact h1.rerouteFrom

theorem Kept.portCtrlAct {p} (h : Kept W q s) : Kept W q (s.portCtrlAct p) := by
  unfold State.portCtrlAct
  extract_lets st
  exact Kept.ite h (Kept.ite (Kept.ite h h.portQuiet) (Kept.ite (Kept.ite h h.portQuiet) (Kept.ite h.updPort.setPortState h)))

theorem Kept.retrainWith {p full reason} (h : Kept W q s) : Kept W q (s.retrainWith p full reason) := by
  unfold State.retrainWith
  extract_lets s1
  have h1 : Kept W q s1 := h.updPort
  exact h1.fsat.setPortState

theorem Kept.startRetrain {p reason} (h : Kept W q s) : Kept W q (s.startRetrain p reason) := h.retrainWith

theorem Kept.updAuth {a g} (h : Kept W q s) : Kept W q (s.updAuth a g) := h.updFab

theorem Kept.txDone {result} (h : Kept W q s) : Kept W q (s.txDone result) := h.updFab.fset.fset.srcEvent

theorem Kept.sendVc0 {opcode dst body words} (h : Kept W q s) : Kept W q (s.sendVc0 opcode dst body words) := h.emit.tickFree

theorem Kept.txVc0 {x} (h : Kept W q s) : Kept W q (s.txVc0 x) := h.sendVc0

theorem Kept.updAlley {a f} (h : Kept W q s) : Kept W q (s.updAlley a f) := h.upd

theorem Kept.alleySend {a type payload} (h : Kept W q s) : Kept W q (s.alleySend a type payload) := Kept.ite h.updAlley h

theorem Kept.cmdTxGo (h : Kept W q s) : Kept W q (s.cmdTxGo) := by
  unfold State.cmdTxGo
  extract_lets seq s1 s2 w path x s3 c s4
  have h1 : Kept W q s1 := h.updFab
  have h2 : Kept W q s2 := h1.fset
  have h3 : Kept W q s3 := h2.updFab.fset
  have h4 : Kept W q s4 := Kept.ite h3.txVc0 h3
  exact Kept.ite h.opmErr (Kept.ite (Kept.ite h3.updFab h3.opmErr.txDone) (Kept.ite h4.alleySend h4))

theorem Kept.writeAlley {new} (h : Kept W q s) : Kept W q (s.writeAlley new) := by
  unfold State.writeAlley
  extract_lets s1
  have h1 : Kept W q s1 := h.rset
  exact h1.foldl fun _ _ g => Kept.ite g.fset.srcEvent g

theorem Kept.flashWrite {a l} (h : Kept W q s) : Kept W q (s.flashWrite a l) := by
  exact h.setFlash wf_writeList

theorem Kept.flashErase {a n} (h : Kept W q s) : Kept W q (s.flashErase a n) := by
  exact h.setFlash KMap.wf_clear

theorem Kept.programSlot {image} (h : Kept W q s) : Kept W q (s.programSlot image) := h.flashErase.flashWrite

theorem Kept.dropFwWrite (h : Kept W q s) : Kept W q (s.dropFwWrite) := by
  unfold State.dropFwWrite
  split
  · exact h
  · extract_lets s1 rec'
    have h1 : Kept W q s1 := by
      unfold s1
      split
      · split
        · exact h.programSlot.tickFree
        · exact h.tickFree
      · exact h
    exact h1.upd.fsets

theorem Kept.tapStop (h : Kept W q s) : Kept W q (s.tapStop) := Kept.ite h.upd h

theorem Kept.setRidge {x} (h : Kept W q s) : Kept W q (s.setRidge x) := by
  unfold State.setRidge
  extract_lets s1
  have h1 : Kept W q s1 := h.fset
  exact Kept.ite h1 h1.tapStop

theorem Kept.stopWatchdogs (h : Kept W q s) : Kept W q (s.stopWatchdogs) := by
  unfold State.stopWatchdogs
  extract_lets s1 rec'
  have h1 : Kept W q s1 := h.fset.foldl fun _ _ g => g.fset
  exact h1.upd

theorem Kept.srcClear {x} (h : Kept W q s) : Kept W q (s.srcClear x) := by
  unfold State.srcClear
  extract_lets s1 rec'
  have h1 : Kept W q s1 := h.fset
  exact h1.upd

theorem Kept.clearSources (h : Kept W q s) : Kept W q (s.clearSources) := by
  unfold State.clearSources
  extract_lets ccc sh s1
  have h1 : Kept W q s1 := h.foldl fun _ _ g => Kept.ite g g.srcClear.fset
  exact h1.upd

theorem Kept.clearDies (h : Kept W q s) : Kept W q (s.clearDies) := by
  have h1 : Kept W q s.clearSources := h.clearSources
  conv in @State.clearDies => delta State.clearDies
  beta_reduce
  generalize t3Base - squareBase 0 = len
  generalize squareBase 0 = base
  generalize s.clearSources = s1 at h1 ⊢
  as_aux_lemma =>
    refine ⟨fun w => Memory.wf_iff.2 ?_, h1.pending⟩
    obtain ⟨gmem, ghost, gflash, gbad, gweak⟩ := Memory.wf_iff.1 (h1.canonical w)
    exact ⟨KMap.wf_clear gmem, ghost, gflash, KMap.wf_clear gbad, KMap.wf_clear gweak⟩

theorem Kept.fabricReset (h : Kept W q s) : Kept W q (s.fabricReset) := by
  unfold State.fabricReset
  extract_lets s1
  have h1 : Kept W q s1 := h.resetRegs
  exact h1.updFab

theorem Kept.reenter (h : Kept W q s) : Kept W q (s.reenter) := by
  unfold State.reenter
  extract_lets fault s1 rec' s2 s3 s4
  have h1 : Kept W q s1 := h.dropFwWrite
  have h2 : Kept W q s2 := h1.upd
  have h3 : Kept W q s3 := h2.fabricReset.clearDies.stopWatchdogs.setRidge
  have h4 : Kept W q s4 := h3.foldl fun _ _ g => g.fset
  exact h4.fsets

theorem Kept.release (h : Kept W q s) : Kept W q (s.release) := Kept.ite h.reenter h

theorem Kept.retClear {v} (h : Kept W q s) : Kept W q (s.retClear v) := h.upd

theorem Kept.captureChip {c u} (h : Kept W q s) : Kept W q (s.captureChip c u) :=
  Kept.ite (Kept.ite h.fset h.rset.rset) (Kept.ite h.capture (Kept.ite h.capture (Kept.ite h.capture (Kept.ite h.capture (Kept.ite
      h.capture (Kept.ite h.capture h))))))

theorem Kept.captureFirst {valid ix l} (h : Kept W q s) : Kept W q (s.captureFirst valid ix l) := Kept.ite h h.fsets.fset

theorem Kept.captureUnit {level c u} (h : Kept W q s) : Kept W q (s.captureUnit level c u) := by
  unfold State.captureUnit
  extract_lets d s1 s2
  have h1 : Kept W q s1 := Kept.ite h.capture.fsat h
  have h2 : Kept W q s2 := Kept.ite h.capture.fsat h
  exact Kept.ite (Kept.ite h.capture (Kept.ite h.capture.fsat h)) (Kept.ite h.captureFirst (Kept.ite h.captureFirst (Kept.ite
      h1.capture (Kept.ite h.capture (Kept.ite h2.capture (Kept.ite h.capture h))))))

theorem Kept.flushEnd {ten} (h : Kept W q s) : Kept W q (s.flushEnd ten) := Kept.ite h h.updRun

theorem Kept.nvmeDrop {id} (h : Kept W q s) : Kept W q (s.nvmeDrop id) := h.updFl

theorem Kept.nvmeNext {c} (h : Kept W q s) : Kept W q (s.nvmeNext c) := h.updFl

theorem Kept.nvmeEnd {c st data} (h : Kept W q s) : Kept W q (s.nvmeEnd c st data) := by
  unfold State.nvmeEnd
  extract_lets s1 s2
  have h1 : Kept W q s1 := Kept.ite h.nvmeNext h
  have h2 : Kept W q s2 := h1.nvmeDrop
  exact Kept.ite h1.updFl h2.upd

theorem Kept.driveGone {d} (h : Kept W q s) : Kept W q (s.driveGone d) := by
  unfold State.driveGone
  extract_lets s1
  have h1 : Kept W q s1 := h.fsets.srcEvent
  exact h1.foldl fun _ _ g => by
    split
    · exact g.nvmeDrop.flushEnd
    · exact g.nvmeEnd

theorem Kept.portFalls {p} (h : Kept W q s) : Kept W q (s.portFalls p) := by
  unfold State.portFalls
  extract_lets x w s1 s2 s3
  have h1 : Kept W q s1 := h.setPortState.fsat
  have h2 : Kept W q s2 := h1.updPort
  have h3 : Kept W q s3 := Kept.ite h2.fsat.fabErr h2
  exact h3.rerouteFrom

theorem Kept.narrowPort {p} (h : Kept W q s) : Kept W q (s.narrowPort p) := by
  unfold State.narrowPort
  split
  · exact h.updPort
  · exact h

theorem Kept.forceChip {c u} (h : Kept W q s) : Kept W q (s.forceChip c u) := by
  unfold State.forceChip
  split
  · exact h.fset.srcEvent
  · split
    · split
      · exact Kept.ite h.overrunStep h
      · exact h
    · exact Kept.ite h.driveGone (Kept.ite h.fset (Kept.ite (Kept.ite h.portFalls h) (Kept.ite (Kept.ite h.fset.narrowPort h)
          (Kept.ite h.rerouteFrom (Kept.ite (Kept.ite h.fset.srcEvent h) h)))))

theorem Kept.evcAdd {d i n} (h : Kept W q s) : Kept W q (s.evcAdd d i n) := h.fsat

theorem Kept.gaSignal {d w1} (h : Kept W q s) : Kept W q (s.gaSignal d w1) := Kept.ite h.evcAdd h

theorem Kept.gaComplete {d w0 w1} (h : Kept W q s) : Kept W q (s.gaComplete d w0 w1) := h.fset.gaSignal

theorem Kept.emuDone {d emu} (h : Kept W q s) : Kept W q (s.emuDone d emu) := by
  unfold State.emuDone
  split
  · exact h
  · split
    · exact h
    · exact Kept.ite h h.updGa.gaComplete

theorem Kept.entryDone {e} (h : Kept W q s) : Kept W q (s.entryDone e) := by
  unfold State.entryDone
  extract_lets s1 s2
  have h1 : Kept W q s1 := h.emuDone
  have h2 : Kept W q s2 := Kept.ite h1.evcAdd h1
  exact Kept.ite h2.srcEvent h2

theorem Kept.programDone {b} (h : Kept W q s) : Kept W q (s.programDone b) := by
  unfold State.programDone
  split
  · exact h.updBlk.entryDone
  · exact h

theorem Kept.poisonTiles {b l} (h : Kept W q s) : Kept W q (s.poisonTiles b l) := by
  unfold State.poisonTiles
  extract_lets new s1
  have h1 : Kept W q s1 := h.foldl fun _ _ g => g.rbit
  exact Kept.ite h1.blkPend h1

theorem Kept.noteCause (h : Kept W q s) : Kept W q (s.noteCause) := by
  unfold State.noteCause
  extract_lets c s1 rec'
  have h1 : Kept W q s1 := h.fset
  exact Kept.ite h1 h1.upd

theorem Kept.forceUnit {level c u} (h : Kept W q s) : Kept W q (s.forceUnit level c u) :=
  Kept.ite (Kept.ite h.programDone (Kept.ite h.blkPend (Kept.ite h.poisonTiles h))) (Kept.ite h.rbit (Kept.ite h.fset.noteCause h))

theorem Kept.forceEvent {level u count c} (h : Kept W q s) : Kept W q (s.forceEvent level u count c) := by
  unfold State.forceEvent
  extract_lets ten s1 s2
  have h1 : Kept W q s1 := Kept.ite h.captureChip h.captureUnit
  have h2 : Kept W q s2 := h1.raiseEv
  exact Kept.ite h2.forceChip h2.forceUnit

theorem Kept.ridgeForce {w v} (h : Kept W q s) : Kept W q (s.ridgeForce w v) := by
  unfold State.ridgeForce
  extract_lets u count
  exact h.foldl fun _ _ g => g.forceEvent

theorem Kept.dfuForce {d w v} (h : Kept W q s) : Kept W q (s.dfuForce d w v) := by
  unfold State.dfuForce
  extract_lets u count
  exact h.foldl fun _ _ g => g.forceEvent

theorem Kept.blkForce {b w v} (h : Kept W q s) : Kept W q (s.blkForce b w v) := by
  unfold State.blkForce
  extract_lets count
  exact h.foldl fun _ _ g => g.forceEvent

theorem Kept.graveForce {c} (h : Kept W q s) : Kept W q (s.graveForce c) := h.raiseEv

theorem Kept.latch {r ix old} (h : Kept W q s) : Kept W q (s.latch r ix old) := by
  unfold State.latch
  extract_lets a rec'
  exact h.upd

theorem Kept.dropChannel {ch} (h : Kept W q s) : Kept W q (s.dropChannel ch) := by
  unfold State.dropChannel
  extract_lets rec' rec'2 s1
  have h1 : Kept W q s1 := h.upd
  exact h1.foldl fun _ _ g => by
    split
    · exact Kept.ite (Kept.ite g.updTen g.updRun) g
    · exact g

theorem Kept.writeChannel {ch old new} (h : Kept W q s) : Kept W q (s.writeChannel ch old new) := by
  unfold State.writeChannel
  extract_lets s1
  have h1 : Kept W q s1 := h.rset
  exact Kept.ite h1.dropChannel (Kept.ite h1.fset h1)

theorem Kept.ackRecord {ch v} (h : Kept W q s) : Kept W q (s.ackRecord ch v) := by
  unfold State.ackRecord
  extract_lets rec'
  split
  · exact Kept.ite h.upd h.fsat
  · exact h.fsat

theorem Kept.setSource {x new} (h : Kept W q s) : Kept W q (s.setSource x new) := by
  unfold State.setSource
  extract_lets s1 s2
  have h1 : Kept W q s1 := h.rset
  have h2 : Kept W q s2 := Kept.ite h1.fset h1
  exact Kept.ite h2.fset h2

theorem Kept.complete {c n} (h : Kept W q s) : Kept W q (s.complete c n) := by
  unfold State.complete
  extract_lets x s1 rec' s2
  have h1 : Kept W q s1 := h.fset
  have h2 : Kept W q s2 := h1.upd
  split
  · exact h
  · split
    · exact h1
    · exact h2.setSource

theorem Kept.writeSource {x new} (h : Kept W q s) : Kept W q (s.writeSource x new) := Kept.ite h.upd h.setSource

theorem Kept.updAgent {a f} (h : Kept W q s) : Kept W q (s.updAgent a f) := h.upd

theorem Kept.endLock {a} (h : Kept W q s) : Kept W q (s.endLock a) := Kept.ite h.updAgent.fsets h

theorem Kept.journal {agent role kind slot detail srcId object old new} (h : Kept W q s) : Kept W q (s.journal agent role kind slot
    detail srcId object old new) := by
  unfold State.journal
  extract_lets next m k seq w0 e rec' rec'2 s1
  have h1 : Kept W q s1 := h.upd
  exact h1.fset.fset

theorem Kept.journalOther {agent role kind slot detail object} (h : Kept W q s) : Kept W q (s.journalOther agent role kind slot
    detail object) :=
  Kept.ite h.journal h.fsat

theorem Kept.roleOutcome {a role slot result} (h : Kept W q s) : Kept W q (s.roleOutcome a role slot result) := by
  unfold State.roleOutcome
  extract_lets s1 fails s2 s3
  have h1 : Kept W q s1 := h.fset.journalOther
  have h2 : Kept W q s2 := Kept.ite h1.fset h1
  have h3 : Kept W q s3 := Kept.ite h2.updAgent.fset h2
  exact Kept.ite h3.chipEv h3

theorem Kept.roleGo {a role slot} (h : Kept W q s) : Kept W q (s.roleGo a role slot) := by
  unfold State.roleGo
  extract_lets s1 c s2 s3
  have h1 : Kept W q s1 := h.endLock
  have h2 : Kept W q s2 := h1.updAgent
  have h3 : Kept W q s3 := h2.foldl fun _ _ g => g.fset
  exact Kept.ite h1.roleOutcome h3.fadd.fset.tickFree

theorem Kept.roleVerify {a role slot} (h : Kept W q s) : Kept W q (s.roleVerify a role slot) := by
  unfold State.roleVerify
  extract_lets s1 r s2 s3
  have h1 : Kept W q s1 := h.endLock
  have h2 : Kept W q s2 := h1.updAgent.fset
  have h3 : Kept W q s3 := Kept.ite h2.updAgent.fset h2
  exact h3.roleOutcome

theorem Kept.roleDrop {a role} (h : Kept W q s) : Kept W q (s.roleDrop a role) := by
  unfold State.roleDrop
  split
  · exact h.updAgent.roleOutcome
  · exact h

theorem Kept.writeRole {a v} (h : Kept W q s) : Kept W q (s.writeRole a v) := by
  unfold State.writeRole
  extract_lets role slot s1 s2
  have h1 : Kept W q s1 := Kept.ite h.roleGo h
  have h2 : Kept W q s2 := Kept.ite h1.roleVerify h1
  exact Kept.ite h2.roleDrop h2

theorem Kept.showKeys (h : Kept W q s) : Kept W q (s.showKeys) := h.fset

theorem Kept.keyGo {w slot} (h : Kept W q s) : Kept W q (s.keyGo w slot) := by
  unfold State.keyGo
  extract_lets role k v gone s1 seq rec' s2
  have h1 : Kept W q s1 := h.journal
  have h2 : Kept W q s2 := h1.upd
  exact h2.fsets.showKeys

theorem Kept.audRead {seq} (h : Kept W q s) : Kept W q (s.audRead seq) := by
  unfold State.audRead
  extract_lets k word s1
  have h1 : Kept W q s1 := h.foldl fun _ _ g => g.fset
  exact h1.fsets

theorem Kept.journalSeal {w t n} (h : Kept W q s) : Kept W q (s.journalSeal w t n) := h.journalOther

theorem Kept.sealStart {w t n} (h : Kept W q s) : Kept W q (s.sealStart w t n) := by
  unfold State.sealStart
  extract_lets k s1 rec'
  have h1 : Kept W q s1 := h.journalSeal
  split
  · exact h.sealReject
  · extract_lets s2
    have h2 : Kept W q s2 := h1.upd
    exact h2.fsets

theorem Kept.unsealStart {w t n} (h : Kept W q s) : Kept W q (s.unsealStart w t n) := by
  unfold State.unsealStart
  extract_lets s1 k rec'
  have h1 : Kept W q s1 := h.journalSeal
  exact Kept.ite h1.upd.fset h1.unsealEntry

theorem Kept.landWrites {landed} (h : Kept W q s) : Kept W q (s.landWrites landed) := h.foldl fun _ _ g => g.rawWrite

theorem Kept.cleared {kind source} (h : Kept W q s) : Kept W q (s.cleared kind source) := by
  unfold State.cleared
  extract_lets chip flag r
  have hr : Kept W q r := by
    refine ⟨fun w => Memory.wf_iff.2 ?_, h.pending⟩
    obtain ⟨gmem, ghost, gflash, gbad, gweak⟩ := Memory.wf_iff.1 (h.canonical w)
    exact ⟨KMap.wf_filter chip gmem, ghost, gflash, KMap.wf_filter flag gbad, KMap.wf_filter flag gweak⟩
  exact hr.tapStop.fsets

theorem Kept.coldReset (h : Kept W q s) : Kept W q (s.coldReset) := by
  unfold State.coldReset
  extract_lets i3c s1 k s2 rec'
  have h1 : Kept W q s1 := h.dropFwWrite
  have h2 : Kept W q s2 := h1.landWrites.tickFree
  exact Kept.ite h h2.upd.cleared.rset

theorem Kept.cancelAll (h : Kept W q s) : Kept W q (s.cancelAll) := h.foldl fun _ _ g => g.dropFabric

theorem Kept.endTenancies (h : Kept W q s) : Kept W q (s.endTenancies) := h.foldl fun _ _ g => g.updTen.tearDown

theorem Kept.terminateNow {why} (h : Kept W q s) : Kept W q (s.terminateNow why) := by
  unfold State.terminateNow
  extract_lets s1 rec' s2 s3 s4 rec'2 rec'3 rec'4 s5
  have h1 : Kept W q s1 := h.setRidge.cancelAll
  have h2 : Kept W q s2 := h1.upd
  have h3 : Kept W q s3 := h2.endTenancies
  have h4 : Kept W q s4 := h3.foldl fun _ _ g => g.updCore
  have h5 : Kept W q s5 := h4.upd
  exact h5.setPend

theorem Kept.askFabric {why} (h : Kept W q s) : Kept W q (s.askFabric why) := by
  unfold State.askFabric
  extract_lets st
  exact Kept.ite h.terminateNow h

theorem Kept.fwWrite (h : Kept W q s) : Kept W q (s.fwWrite) := by
  unfold State.fwWrite
  extract_lets a h' n big p r s1 rec'
  have h1 : Kept W q s1 := Kept.ite₃ h.busRead.snd₂ h.busRead.busRead
  exact h1.upd.fset

theorem Kept.selectLater {active trySlot tries} (h : Kept W q s) : Kept W q (s.selectLater active trySlot tries) := h.upd.fset

theorem Kept.fwResult {r} (h : Kept W q s) : Kept W q (s.fwResult r) := h.fset

theorem Kept.fwTrial (h : Kept W q s) : Kept W q (s.fwTrial) := by
  unfold State.fwTrial
  extract_lets k
  exact Kept.ite h.selectLater h.fwResult

theorem Kept.fwConfirm (h : Kept W q s) : Kept W q (s.fwConfirm) := by
  unfold State.fwConfirm
  extract_lets run
  exact Kept.ite h.fwResult h.selectLater

theorem Kept.fwActivate (h : Kept W q s) : Kept W q (s.fwActivate) := Kept.ite h.fwResult h.fwResult.askFabric

theorem Kept.fwOp {op} (h : Kept W q s) : Kept W q (s.fwOp op) :=
  Kept.ite h.fwWrite (Kept.ite h.fwTrial (Kept.ite h.fwConfirm h.fwActivate))

theorem Kept.burnSvn (h : Kept W q s) : Kept W q (s.burnSvn) := h.upd

theorem Kept.regAct {w r ix v new} (h : Kept W q s) : Kept W q (s.regAct w r ix v new) := by
  have h1 : Kept W q (s.rset r ix (BitVec.ofNat 64 new)) := h.rset
  unfold State.regAct
  cases r
  case TICK_CTRL => exact h1.tickCtrlAct
  case SCHED_CTRL => exact Kept.ite h1.fset h1
  case TEN_CMD => exact h.tenCmdAct
  case CORE_CTRL =>
    rcases ix with _ | ⟨_, _ | _⟩
    exacts [h1, h.writeCore, h1]
  case BLK_CTRL =>
    rcases ix with _ | ⟨_, _ | _⟩
    exacts [h1, Kept.ite h1.updBlk h, h1]
  case GA_CTRL =>
    rcases ix with _ | ⟨_, _ | _⟩
    exacts [h1, h1.updGa, h1]
  case BLK_SOFT_INT =>
    rcases ix with _ | ⟨_, _ | _⟩
    exacts [h1, Kept.ite h.blkPend h, h1]
  case T2_RANGE_BASE =>
    rcases ix with _ | ⟨_, _ | _⟩
    exacts [h1, h.setT2Range, h1]
  case FL_CFG => exact h1.flashRuns
  case FL_TRIM_CTL => exact h.trimStart
  case SHP_CFG =>
    rcases ix with _ | ⟨_, _ | ⟨_, _ | _⟩⟩
    exacts [h1, h1, h.bucketConfig, h1]
  case PSHP_CFG =>
    rcases ix with _ | ⟨_, _ | ⟨_, _ | _⟩⟩
    exacts [h1, h1, h.bucketConfig, h1]
  case SSHP_CFG =>
    rcases ix with _ | ⟨_, _ | ⟨_, _ | _⟩⟩
    exacts [h1, h1, h.bucketConfig.fabPump, h1]
  case FAB_ROLE => exact h1.fset
  case EPOCH_CTRL => exact h.writeEpoch
  case ROUTE =>
    rcases ix with _ | ⟨_, _ | ⟨_, _ | _⟩⟩
    exacts [h1, h1, h1.fset, h1]
  case PORT_CTRL =>
    rcases ix with _ | ⟨_, _ | _⟩
    exacts [h1, Kept.ite h1.portCtrlAct.startRetrain h1.portCtrlAct, h1]
  case AUTH_CTL =>
    rcases ix with _ | ⟨_, _ | _⟩
    exacts [h1, Kept.ite h1.updAuth h1, h1]
  case CMD_TX_CTL => exact Kept.ite h1.cmdTxGo h1
  case ALLEY_CTRL => exact h.writeAlley
  case RIDGE_CTRL => exact Kept.ite h1.release h1
  case RET_CLEAR => exact h1.retClear
  case RIDGE_FORCE =>
    rcases ix with _ | ⟨_, _ | _⟩
    exacts [h1, h.ridgeForce, h1]
  case DFU_FORCE =>
    rcases ix with _ | ⟨_, _ | ⟨_, _ | _⟩⟩
    exacts [h1, h1, h.dfuForce, h1]
  case BLK_FORCE =>
    rcases ix with _ | ⟨_, _ | ⟨_, _ | _⟩⟩
    exacts [h1, h1, h.blkForce, h1]
  case GRAVE_FORCE => exact h1.graveForce
  case RES_TEN => exact h1.latch
  case DG_TEN => exact h1.latch
  case RES_CH_CFG =>
    rcases ix with _ | ⟨_, _ | _⟩
    exacts [h1, h.writeChannel, h1]
  case RESULT_ACK =>
    rcases ix with _ | ⟨_, _ | _⟩
    exacts [h1, h.ackRecord, h1]
  case COMPLETE =>
    rcases ix with _ | ⟨_, _ | _⟩
    exacts [h1, Kept.ite h.complete h, h1]
  case THRESHOLD =>
    rcases ix with _ | ⟨_, _ | _⟩
    exacts [h1, Kept.ite h1 h, h1]
  case SOFT =>
    rcases ix with _ | ⟨_, _ | _⟩
    exacts [h1, Kept.ite h.srcEvent h, h1]
  case SRC_PRIV =>
    rcases ix with _ | ⟨_, _ | ⟨_, _ | _⟩⟩
    exacts [h1, h1, h.writeSource, h1]
  case SRC_SH =>
    rcases ix with _ | ⟨_, _ | _⟩
    exacts [h1, h.writeSource, h1]
  case GF_CFG =>
    rcases ix with _ | ⟨_, _ | _⟩
    exacts [h1, Kept.ite h1.fset h1, h1]
  case ROLE_REQ =>
    rcases ix with _ | ⟨_, _ | _⟩
    exacts [h1, h1.writeRole, h1]
  case KEY_CTL => exact Kept.ite h1.keyGo h1
  case AUD_READ => exact h.audRead
  case DG_CMD => exact Kept.ite h1.fset.sealStart (Kept.ite h1.fset.unsealStart h1.fset)
  case RST_CTRL => exact Kept.ite h.coldReset (Kept.ite h.askFabric h)
  case FW_CTL => exact h.fwOp
  case FW_FUSE => exact Kept.ite h.burnSvn h
  all_goals exact h1

theorem Kept.gated {w role r ix new n valid bad act} (hbad : ∀ s, Kept W q s → Kept W q (bad s)) (hact : ∀ s, Kept W q s → Kept W q
    (act s)) (h : Kept W q s) : Kept W q (s.gated w role r ix new n valid bad act) :=
  Kept.ite h.chipEv (Kept.ite (hbad _ h) (Kept.ite h.fsat (hact _ h.journal)))

theorem Kept.noteSetting {r ix at_} (h : Kept W q s) : Kept W q (s.noteSetting r ix at_) := by
  unfold State.noteSetting
  extract_lets seq v rec'
  exact h.upd

theorem Kept.noteSettings {r ix} (h : Kept W q s) : Kept W q (s.noteSettings r ix) := by
  have hdefault : Kept W q (if settingBits r = 0 then s else s.noteSetting r ix ix) := Kept.ite h h.noteSetting
  unfold State.noteSettings
  cases r
  case ROUTE =>
    rcases ix with _ | ⟨_, _ | ⟨_, _ | _⟩⟩
    exacts [hdefault, hdefault, Kept.ite h.noteSetting h, hdefault]
  case EPOCH_CTRL => exact h.foldl fun _ _ g => g.noteSetting
  all_goals exact hdefault

theorem Kept.regPut {w r ix v} (h : Kept W q s) : Kept W q (s.regPut w r ix v) := by
  unfold State.regPut
  grind only [← Kept.regReject, ← Kept.regAct, ← Kept.gated, ← Kept.noteSettings]

theorem Kept.regSet {w r ix v} (h : Kept W q s) : Kept W q (s.regSet w r ix v) := by
  unfold State.regSet
  split
  · extract_lets s1
    have h1 : Kept W q s1 := h.kick
    exact Kept.ite (Kept.ite h1 h1.regPut) h.regPut
  · exact h.regPut

theorem Kept.holdHalf {w r ix x} (h : Kept W q s) : Kept W q (s.holdHalf w r ix x) := h.upd

theorem Kept.putUpper {w r ix v} (h : Kept W q s) : Kept W q (s.putUpper w r ix v) := by
  unfold State.putUpper
  extract_lets stay low
  exact h.holdHalf.regSet

theorem Kept.putWord {w x v} (h : Kept W q s) : Kept W q (s.putWord w x v) := by
  unfold State.putWord
  split
  · exact Kept.ite h.regSet (Kept.ite h.putUpper h.holdHalf)

theorem Kept.tryWord {w off v} (h : Kept W q s) : Kept W q (s.tryWord w off v) := by
  unfold State.tryWord
  split
  · exact h.putWord
  · exact h

theorem Kept.regWrite {w off len v} (h : Kept W q s) : Kept W q (s.regWrite w off len v) := by
  unfold State.regWrite
  split
  · exact h
  · split
    · exact h.chipEv
    · split
      · exact Kept.ite h.chipEv h.tryWord
      · split
        · exact h.chipEv
        · split
          · exact Kept.ite h.holdHalf.regSet h.putWord.tryWord
          · exact h.putWord.tryWord
          · exact h.tryWord

theorem Kept.at {t} (h : Kept W q s) : Kept W q (s.at t) := h.upd

theorem kept_execRegWrite {w off len v now} (h : Kept W q s) : KeptOut W q (execRegWrite w off len v now s) :=
  KeptOut.next h.at.regWrite

theorem kept_execRingTransfer {a b bit7 retries now} (h : Kept W q s) : KeptOut W q (execRingTransfer a b bit7 retries now s) := by
  unfold execRingTransfer
  extract_lets s1 path s2 rec'
  have h1 : Kept W q s1 := h.at
  have h2 : Kept W q s2 := h1.foldl fun _ _ g => by
    extract_lets key s3 rec'2
    have h3 : Kept W q s3 := g.fsat
    exact h3.upd
  exact KeptOut.next h2.upd

theorem kept_execRingLinkRetire {l now} (h : Kept W q s) : KeptOut W q (execRingLinkRetire l now s) := by
  unfold execRingLinkRetire
  extract_lets s1 key
  have h1 : Kept W q s1 := h.at
  exact KeptOut.ite (KeptOut.next h1) (KeptOut.next h1.decideRetire.ringCut)

theorem kept_execDistrictUnreachable {d lost now} (h : Kept W q s) : KeptOut W q (execDistrictUnreachable d lost now s) := by
  unfold execDistrictUnreachable
  extract_lets s1 s2
  have h1 : Kept W q s1 := h.at.foldl fun _ _ g => g.rbit
  have h2 : Kept W q s2 := Kept.ite h1.rbit h1
  exact KeptOut.next (Kept.ite h2.chipEv h2)

theorem Kept.beginEave (h : Kept W q s) : Kept W q (s.beginEave) := by
  unfold State.beginEave
  extract_lets rec' s1
  have h1 : Kept W q s1 := h.upd
  exact Kept.ite h1 h1.abandonUnended

theorem Kept.closeComb {a n} (h : Kept W q s) : Kept W q (s.closeComb a n) := h.upd

theorem Kept.lineRead {ten a n} (h : Kept W q s) : Kept W q (s.lineRead ten a n).2.2 := Kept.ite₃ h.t1Read h.t2Read

theorem Kept.spoilWords {l} (h : Kept W q s) : Kept W q (s.spoilWords l) := by
  exact h.setMemories id KMap.wf_foldl_set id

theorem Kept.copyPage {ten src dst} (h : Kept W q s) : Kept W q (s.copyPage ten src dst).2 :=
  h.foldl₂ fun _ _ g => by
    extract_lets r bad
    exact Kept.ite₂ g.lineRead.snd g.lineRead.lineWrite.spoilWords.snd

theorem Kept.redirectWrite {i a n r} (h : Kept W q s) (e : s.redirectWrite i a n = some r) : Kept W q r.2.2 := by
  unfold State.redirectWrite at e
  grind only [← Kept.copyPage, ← Kept.lineWrite]

theorem Kept.chipWrite {ten t a l} (h : Kept W q s) : Kept W q (s.chipWrite ten t a l).2 := by
  unfold State.chipWrite
  extract_lets part s1
  split
  · exact h.eccCount.eccWrite.snd
  · exact h.eccCount.eccWrite.chipMemError.snd

theorem Kept.spoilJob {d off n} (h : Kept W q s) : Kept W q (s.spoilJob d off n) := by
  unfold State.spoilJob
  split
  · exact Kept.ite h.updDist.tickFree h
  · exact h

theorem Kept.tierWrite {i t a l linkBad} (h : Kept W q s) : Kept W q (s.tierWrite i t a l linkBad).2 := by
  unfold State.tierWrite
  split
  · split
    · exact h
    · extract_lets d lba s1
      have h1 : Kept W q s1 := h.tierCapture
      dsimp only
      exact h1.chipEv
  all_goals first | exact h.chipWrite | exact h.spoilJob.chipWrite | skip
  all_goals
    extract_lets s1
    have h1 : Kept W q s1 := h.closeComb
    split
    · exact h1.protectedStore
    · split
      · exact h1.protectedStore
      · next heq =>
        have h2 := h1.redirectWrite heq
        refine Kept.lineWrite ?_
        split
        · exact h2.markReplay.replayLimit
        · exact h2

theorem Kept.recordErr {c st a} (h : Kept W q s) : Kept W q (s.recordErr c st a) := h.updCore

theorem Kept.performBack {c r} (h : Kept W q s) : Kept W q (s.performBack c r) := by
  unfold State.performBack
  extract_lets rec'
  split
  · extract_lets q'
    exact Kept.ite h.tierWrite h.tierWrite.recordErr
  · exact h

theorem Kept.shapeTaken {key} (h : Kept W q s) : Kept W q (s.shapeTaken key) := h.upd

theorem Kept.shapeGone {key} (h : Kept W q s) : Kept W q (s.shapeGone key) := by
  unfold State.shapeGone
  extract_lets s1 rec'
  have h1 : Kept W q s1 := h.shapeTaken
  exact h1.upd

theorem Kept.drainBacks {c} (h : Kept W q s) : Kept W q (s.drainBacks c) :=
  (h.foldl fun _ _ g => g.shapeGone.performBack).updCore

theorem Kept.replayLater {t} (h : Kept W q s) : Kept W q (s.replayLater t) := by
  unfold State.replayLater
  extract_lets s1 rec' tick s2
  have h1 : Kept W q s1 := h.dropWork.copiesEnd
  have h2 : Kept W q s2 := h1.upd
  exact Kept.ite h1.upd.updTen h2.updTen

theorem Kept.battenLost {ten} (h : Kept W q s) : Kept W q (s.battenLost ten) := h.recordEvent.endStep

theorem Kept.commitFlip {t v r} (h : Kept W q s) : Kept W q (s.commitFlip t v r) := by
  unfold State.commitFlip
  extract_lets p q' s1 s2 s3
  have h1 : Kept W q s1 := h.deviceWrite.updTen
  have h2 : Kept W q s2 := h1.fset
  have h3 : Kept W q s3 := h2.foldl fun _ _ g => g.deviceWrite
  exact Kept.ite h.deviceWrite.battenLost h3.endStep

theorem Kept.finishStep {t} (h : Kept W q s) : Kept W q (s.finishStep t) := by
  unfold State.finishStep
  split
  · split
    · exact h
    · split
      · exact h.replayLater
      · split
        · exact h.endStep
        · exact Kept.ite h h.commitFlip
  · exact h

theorem Kept.endTick (h : Kept W q s) : Kept W q (s.endTick) := by
  unfold State.endTick
  extract_lets s1 s2 s3 s4
  have h1 : Kept W q s1 := Kept.ite h.beginEave h
  have h2 : Kept W q s2 := Kept.ite h1.meetDeadline h1
  have h3 : Kept W q s3 := by
    unfold s3
    split
    · exact Kept.ite (h2.foldl fun _ _ g => g.drainBacks) h2
    · exact h2
  have h4 : Kept W q s4 := h3.finishStep
  exact h4.foldl fun _ _ g => g.buildRecord

theorem Kept.countTick (h : Kept W q s) : Kept W q (s.countTick) := by
  unfold State.countTick
  extract_lets n s1 rec' s2
  have h1 : Kept W q s1 := Kept.ite h.fset.srcEvent h
  have h2 : Kept W q s2 := h1.upd
  split
  · exact h.fset
  · exact Kept.ite h2.upd.fset h2.fset

theorem Kept.countHoldover (h : Kept W q s) : Kept W q (s.countHoldover) := Kept.ite h (Kept.ite h.upd h.upd.fset)

theorem Kept.startLength {start} (h : Kept W q s) : Kept W q (s.startLength start) := by
  unfold State.startLength
  extract_lets period rec' lim adj off
  split
  · extract_lets r
    exact h.upd
  · exact h.upd

theorem Kept.applySwap (h : Kept W q s) : Kept W q (s.applySwap) := by
  unfold State.applySwap
  extract_lets s1 b
  have h1 : Kept W q s1 := h.fset
  exact Kept.ite h (Kept.ite h1.chipEv h1.fset.fset)

theorem Kept.migrateNext (h : Kept W q s) : Kept W q (s.migrateNext) := by
  unfold State.migrateNext
  extract_lets rec'
  split
  · extract_lets s1 s2
    have h1 : Kept W q s1 := h.upd
    have h2 : Kept W q s2 := h1.rbit.rbit
    exact h2.fsets
  · exact h

theorem Kept.slotsAtTick (h : Kept W q s) : Kept W q (s.slotsAtTick) := by
  unfold State.slotsAtTick
  extract_lets s1 rec' s2
  have h1 : Kept W q s1 := h.foldl fun _ _ g => g.rbit.rbit
  have h2 : Kept W q s2 := h1.upd
  exact h2.migrateNext

theorem Kept.clearBlk {b} (h : Kept W q s) : Kept W q (s.clearBlk b) := h.updBlk.resetRegs

theorem Kept.retireBlock {b} (h : Kept W q s) : Kept W q (s.retireBlock b) := h.rbit.clearBlk

theorem Kept.substitute {t b} (h : Kept W q s) : Kept W q (s.substitute t b) := by
  unfold State.substitute
  split
  · exact h
  · extract_lets v0
    split
    · exact h.setTen
    · extract_lets drop s1
      have h1 : Kept W q s1 := h.setTen
      split
      · extract_lets mask s2
        have h2 : Kept W q s2 := h.setTen
        exact Kept.ite h2.zeroBlock.clearBlk h2
      · exact h1.fset.chipEv.srcEvent

theorem Kept.replaceBlock {b} (h : Kept W q s) : Kept W q (s.replaceBlock b) := h.foldl fun _ _ g => g.substitute

theorem Kept.retireGa {d} (h : Kept W q s) : Kept W q (s.retireGa d) := h.rbit.fset

theorem Kept.retireLot {d lot} (h : Kept W q s) : Kept W q (s.retireLot d lot) := by
  unfold State.retireLot
  grind only [← Kept.updSq, ← Kept.rawZero, ← Kept.foldl, ← Kept.foldl₂, ← Kept.foldl₃]

theorem Kept.retireUnits (h : Kept W q s) : Kept W q (s.retireUnits) := by
  unfold State.retireUnits
  extract_lets v blks s1 s2 s3
  have h1 : Kept W q s1 := h.foldl fun _ _ g => g.retireBlock
  have h2 : Kept W q s2 := h1.foldl fun _ _ g => g.replaceBlock
  have h3 : Kept W q s3 := h2.foldl fun _ _ g => g.retireGa
  exact h3.foldl fun _ _ g => g.retireLot

theorem Kept.loadPkeys (h : Kept W q s) : Kept W q (s.loadPkeys) := by
  unfold State.loadPkeys
  extract_lets m
  exact h.updFab

theorem Kept.extendStops (h : Kept W q s) : Kept W q (s.extendStops) := by
  unfold State.extendStops
  extract_lets t' rec'
  split
  · exact Kept.ite h (Kept.ite (Kept.ite h.replayLater h.upd) (Kept.ite h h.upd))
  · exact h

theorem Kept.showWork {work t} (h : Kept W q s) : Kept W q (s.showWork work t) := h.fsets

theorem Kept.pastSlot {x} (h : Kept W q s) : Kept W q (s.pastSlot x) := h.fset

theorem Kept.dropEarly (h : Kept W q s) : Kept W q (s.dropEarly) := by
  unfold State.dropEarly
  extract_lets rec'
  split
  · exact Kept.ite h h.upd
  · exact h

theorem Kept.attemptsGone {t} (h : Kept W q s) : Kept W q (s.attemptsGone t) := h.chipEv.updTen

theorem Kept.loadDigests {t} (h : Kept W q s) : Kept W q (s.loadDigests t) := by
  unfold State.loadDigests
  split
  · exact h
  · extract_lets r
    exact (h.foldl₂ fun _ _ g => by
      extract_lets q' s1 w0 w1 len e old
      have h1 : Kept W q s1 := g.devWords
      exact (Kept.ite h1 h1.unsealEntry).snd).updTen

theorem Kept.loadFab {t} (h : Kept W q s) : Kept W q (s.loadFab t) := by
  unfold State.loadFab
  split
  · exact h
  · extract_lets q' s1 w n
    have h1 : Kept W q s1 := h.devWords.updFab
    exact Kept.ite h1.updTen (Kept.ite h1.opmErr.updTen h1.updTen)

theorem Kept.loadRegions {t} (h : Kept W q s) : Kept W q (s.loadRegions t) := by
  unfold State.loadRegions
  split
  · exact h
  · extract_lets r
    exact (h.foldl₂ fun _ _ g => by
      extract_lets q' s1 w
      have h1 : Kept W q s1 := g.devWords
      exact Kept.ite₂ h1 (Kept.ite₂ h1.chipEv.snd h1)).updTen

theorem Kept.loadGa {t} (h : Kept W q s) : Kept W q (s.loadGa t) := by
  unfold State.loadGa
  split
  · exact h
  · extract_lets r
    exact (h.foldl₂ fun _ _ g => by
      extract_lets q' w0 w1 s1
      have h1 : Kept W q s1 := g.devWords
      exact Kept.ite₂ h1 (Kept.ite₂ h1.gaErr.snd h1.fset.snd)).updTen

theorem Kept.loadBounds {t} (h : Kept W q s) : Kept W q (s.loadBounds t) := by
  unfold State.loadBounds
  split
  · exact h
  · extract_lets d r
    exact (h.foldl₃ fun _ _ g => by
      split
      · extract_lets q' w0 w1 s1 n
        have h1 : Kept W q s1 := g.devWords
        exact Kept.ite₃ h1.chipEv.snd₂ (Kept.ite₃ h1 (Kept.ite₃ h1.chipEv.snd₂ h1))).updTen

theorem Kept.loadContext {t} (h : Kept W q s) : Kept W q (s.loadContext t) :=
  h.loadBounds.loadGa.loadRegions.loadFab.loadDigests

theorem Kept.rewriteBatten {t} (h : Kept W q s) : Kept W q (s.rewriteBatten t) := by
  unfold State.rewriteBatten
  split
  · extract_lets a q' s1 w0 w7 put s2 s3 s4 s5
    have h1 : Kept W q s1 := h.busRead
    have hput {s' x0 x1} (g : Kept W q s') : Kept W q (put s' x0 x1) := g.rawWrite
    have h2 : Kept W q s2 := hput h1
    have h3 : Kept W q s3 := hput h2
    have h4 : Kept W q s4 := hput h3
    have h5 : Kept W q s5 := hput h4
    exact Kept.ite h1.battenLost h5.updRun
  · exact h

theorem Kept.transferBad {t a n} (h : Kept W q s) : Kept W q (s.transferBad t a n) :=
  h.foldl fun _ _ g => by
    split
    · exact g.t1Error
    · exact g.chipMemError

theorem Kept.transferWeak {t a n} (h : Kept W q s) : Kept W q (s.transferWeak t a n) := by
  unfold State.transferWeak
  extract_lets weak
  split
  · exact h.t1Corrected
  · exact h.mend.eccCount

theorem Kept.writeBatten {t} (h : Kept W q s) : Kept W q (s.writeBatten t) := by
  unfold State.writeBatten
  split
  · extract_lets src dst bad s1 words r s2 s3
    have h2 : Kept W q s2 := h.transferWeak.transferBad.rawZero.rawWrite
    have h3 : Kept W q s3 := h2.setMemories id KMap.wf_foldl_set id
    split
    · exact h.battenLost
    · exact h3.updRun
  · exact h

theorem Kept.beginStep {t} (h : Kept W q s) : Kept W q (s.beginStep t) := by
  unfold State.beginStep
  extract_lets s1
  have h1 : Kept W q s1 := h.updTen
  split
  · exact Kept.ite h (Kept.ite h1.rewriteBatten.updTen h1.writeBatten)
  · exact h

theorem Kept.switchTo {t} (h : Kept W q s) : Kept W q (s.switchTo t) := by
  unfold State.switchTo
  extract_lets fresh rec'
  exact h.upd

theorem Kept.bindStep {t work} (h : Kept W q s) : Kept W q (s.bindStep t work) := by
  unfold State.bindStep
  extract_lets s1 s2 rec' s3 s4 s5
  have h1 : Kept W q s1 := h.showWork.setTst
  have h2 : Kept W q s2 := h1.updTen
  have h3 : Kept W q s3 := h2.upd
  have h4 : Kept W q s4 := h3.foldl fun _ _ g => g.fset
  have h5 : Kept W q s5 := h4.loadContext
  exact Kept.ite h5.beginStep (Kept.ite h5 h5.switchTo)

theorem Kept.againStep {t work replay} (h : Kept W q s) : Kept W q (s.againStep t work replay) := by
  unfold State.againStep
  extract_lets s1
  have h1 : Kept W q s1 := Kept.ite h.dropWork.copiesEnd h
  split
  · extract_lets a v
    exact Kept.ite h1.attemptsGone.endStep h1.updTen.bindStep
  · exact h1

theorem Kept.writeBack {c l} (h : Kept W q s) : Kept W q (s.writeBack c l) := by
  unfold State.writeBack
  extract_lets rec' r
  exact Kept.ite h (Kept.ite h.tierWrite h.tierWrite.recordErr)

theorem Kept.flushCaches {c} (h : Kept W q s) : Kept W q (s.flushCaches c) := (h.foldl fun _ _ g => g.writeBack).updCore

theorem Kept.stashStep {t} (h : Kept W q s) : Kept W q (s.stashStep t) := by
  unfold State.stashStep
  extract_lets ds
  split
  · exact h
  · extract_lets s1 x s2 s3 s4 s5
    have h1 : Kept W q s1 := h.foldl fun _ _ g => g.flushCaches
    have h2 : Kept W q s2 := h1.foldl fun _ _ g => g.updCore
    have h3 : Kept W q s3 := h2.foldl fun _ _ g => g.clearBlk
    have h4 : Kept W q s4 := h3.foldl fun _ _ g => g.updDist
    have h5 : Kept W q s5 := h4.upd
    exact h5.updTen

theorem Kept.suspendStep {t} (h : Kept W q s) : Kept W q (s.suspendStep t) := by
  unfold State.suspendStep
  extract_lets entered s1 s2 rec' s3
  have h1 : Kept W q s1 := Kept.ite h.stashStep h
  have h2 : Kept W q s2 := h1.updRun
  have h3 : Kept W q s3 := h2.upd
  exact Kept.ite h3.endStep h3.setTst

theorem Kept.putAside (h : Kept W q s) : Kept W q (s.putAside) := by
  unfold State.putAside
  extract_lets t' rec'
  exact Kept.ite h h.upd.suspendStep

theorem Kept.resumeWork {t budget work} (h : Kept W q s) : Kept W q (s.resumeWork t budget work) := by
  unfold State.resumeWork
  extract_lets s1
  have h1 : Kept W q s1 := h.updRun
  split
  · exact Kept.ite h1.againStep h1.updRun.bindStep
  · exact h

theorem Kept.extendWork {t} (h : Kept W q s) : Kept W q (s.extendWork t) := Kept.ite h.showWork.updRun.updTen h.resumeWork

theorem Kept.newStep {t slot kind budget urgent channel} (h : Kept W q s) : Kept W q (s.newStep t slot kind budget urgent channel)
    := by
  unfold State.newStep
  extract_lets s1 ns
  have h1 : Kept W q s1 := h.buildRecord
  split
  · exact h1
  · extract_lets step a r s2
    have h2 : Kept W q s2 := h1.updTen
    exact Kept.ite h1.attemptsGone h2.fset.bindStep

theorem Kept.startUrgent {t} (h : Kept W q s) : Kept W q (s.startUrgent t) := by
  unfold State.startUrgent
  extract_lets ch rec' s1
  have h1 : Kept W q s1 := h.upd
  split
  · exact h1.updRun.resumeWork
  · split
    · exact Kept.ite h1 h1.newStep
    · exact h1

theorem Kept.specialWork (h : Kept W q s) (e : s.specialWork = some t) : Kept W q t := by
  unfold State.specialWork at e
  grind only [← Kept.putAside, ← Kept.againStep, ← Kept.extendWork, ← Kept.startUrgent, ← Kept.upd]

theorem Kept.runSlot {x} (h : Kept W q s) : Kept W q (s.runSlot x) := by
  unfold State.runSlot
  extract_lets ix t' budget q'
  exact Kept.ite h (Kept.ite h.resumeWork (Kept.ite h.newStep h.fsat))

theorem Kept.selectWork (h : Kept W q s) : Kept W q (s.selectWork) := by
  unfold State.selectWork
  extract_lets x s1 shown
  have h1 : Kept W q s1 := h.showWork.extendStops
  split
  · grind only [← Kept.dropEarly, ← Kept.pastSlot]
  · split
    · next heq =>
      have h2 := h1.specialWork heq
      grind only [← Kept.dropEarly, ← Kept.pastSlot, ← Kept.chipEv, ← Kept.fsat]
    · exact h1.runSlot.pastSlot.dropEarly

theorem Kept.newTick {start} (h : Kept W q s) : Kept W q (s.newTick start) := by
  unfold State.newTick
  extract_lets s1 s2 rec' s3 s4 s5 rec'2 s6 s7 s8
  have h1 : Kept W q s1 := h.countHoldover.countTick
  have h2 : Kept W q s2 := h1.rset
  have h3 : Kept W q s3 := h2.upd
  have h4 : Kept W q s4 := h3.startLength
  have h5 : Kept W q s5 := h4.applySwap
  have h6 : Kept W q s6 := h5.upd
  have h7 : Kept W q s7 := h6.loadPkeys.retireUnits.slotsAtTick
  have h8 : Kept W q s8 := h7.foldl fun _ _ g => g.writeMap
  exact h8.selectWork.srcEvent

theorem kept_execTickStart {now} (h : Kept W q s) : KeptOut W q (execTickStart now s) := by
  unfold execTickStart
  split
  · exact KeptOut.next h.at
  · extract_lets s1 rec'
    have h1 : Kept W q s1 := h.at.endTick
    exact KeptOut.ite (KeptOut.next h.at) (KeptOut.ite (KeptOut.next h1.upd) (KeptOut.next h1.newTick))

theorem Kept.transfer {out t chip t1 n} (h : Kept W q s) : Kept W q (s.transfer out t chip t1 n) := by
  unfold State.transfer
  extract_lets src dst from_ bad words s1
  have h1 : Kept W q s1 := h.transferWeak.transferBad
  exact h1.setMemories (fun g => KMap.wf_splice_slice g g) (fun g => KMap.wf_foldl_set (KMap.wf_clear g)) KMap.wf_clear

theorem Kept.saveContext {v} (h : Kept W q s) : Kept W q (s.saveContext v) := h.rawWrite.tickFree

theorem Kept.saveTen {t} (h : Kept W q s) : Kept W q (s.saveTen t) := by
  unfold State.saveTen
  split
  · exact h
  · extract_lets places bad s1 s2 held s3 rec' s4 s5
    have h1 : Kept W q s1 := h.foldl fun _ _ g => by
      split
      · exact g.transfer
      · exact g
    have h2 : Kept W q s2 := h1.saveContext.freeLots
    have h3 : Kept W q s3 := h2.updTen
    have h4 : Kept W q s4 := h3.upd
    have h5 : Kept W q s5 := h4.fset
    exact Kept.ite h5.setTst h5

theorem Kept.nowResident {t} (h : Kept W q s) : Kept W q (s.nowResident t) := by
  unfold State.nowResident
  extract_lets rec' s1 s2
  have h1 : Kept W q s1 := h.upd
  have h2 : Kept W q s2 := h1.fset
  exact Kept.ite h2.setTst h2

theorem Kept.zeroPriv {t} (h : Kept W q s) : Kept W q (s.zeroPriv t) :=
  h.foldl fun _ _ g => g.foldl fun _ _ g1 => by
    split
    · exact g1.rawZero
    · exact g1

theorem Kept.mapPriv {t} (h : Kept W q s) : Kept W q (s.mapPriv t) := h.foldl fun _ _ g => g.updSq

theorem Kept.zeroOperands {v} (h : Kept W q s) : Kept W q (s.zeroOperands v) := h.foldl fun _ _ g => g.rawZero

theorem Kept.freshTen {t} (h : Kept W q s) : Kept W q (s.freshTen t) := by
  unfold State.freshTen
  split
  · exact h
  · extract_lets s1 s2
    have h1 : Kept W q s1 := h.foldl fun _ _ g => by
      split
      · exact g.zeroBlock
      · exact g
    have h2 : Kept W q s2 := h1.foldl fun _ _ g => g.rawZero
    exact h2.zeroOperands.mapPriv.zeroPriv.nowResident

theorem Kept.restoreTen {t} (h : Kept W q s) : Kept W q (s.restoreTen t) := by
  unfold State.restoreTen
  extract_lets s1
  have h1 : Kept W q s1 := h.mapPriv
  split
  · exact h
  · extract_lets places bad s2 s3 held s4
    have h2 : Kept W q s2 := h1.foldl fun _ _ g => by
      split
      · exact g.transfer
      · exact g
    have h3 : Kept W q s3 := h2.foldl fun _ _ g => by
      split
      · exact g.zeroBlock
      · exact g
    have h4 : Kept W q s4 := h3.zeroOperands.updTen
    exact h4.nowResident

theorem Kept.switchDone {w} (h : Kept W q s) : Kept W q (s.switchDone w) := by
  unfold State.switchDone
  extract_lets s1 rec' s2
  have h1 : Kept W q s1 := h.foldl fun _ _ g => g.saveTen
  have h2 : Kept W q s2 := h1.upd
  exact Kept.ite h2.freshTen h2.restoreTen

theorem Kept.recheckResume {t} (h : Kept W q s) : Kept W q (s.recheckResume t) := by
  unfold State.recheckResume
  split
  · extract_lets a rec' v
    exact Kept.ite (Kept.ite h.attemptsGone.endStep h.updTen) h
  · exact h

theorem Kept.endSwitch {w} (h : Kept W q s) : Kept W q (s.endSwitch w) := by
  unfold State.endSwitch
  extract_lets s1
  have h1 : Kept W q s1 := h.switchDone
  exact Kept.ite h1.recheckResume.beginStep h1

theorem kept_execSwitchEnd {now} (h : Kept W q s) : KeptOut W q (execSwitchEnd now s) := by
  unfold execSwitchEnd
  extract_lets s1
  have h1 : Kept W q s1 := h.at
  split
  · exact KeptOut.next (Kept.ite h1.endSwitch h1)
  · exact KeptOut.next h1

theorem kept_execEarlySwitchStart {now} (h : Kept W q s) : KeptOut W q (execEarlySwitchStart now s) := by
  unfold execEarlySwitchStart
  extract_lets s1 ready s2 x t'
  have h1 : Kept W q s1 := h.at
  have h2 : Kept W q s2 := h1.applySwap
  exact KeptOut.next (Kept.ite h1.switchTo h1)

theorem Kept.clearDist {d} (h : Kept W q s) : Kept W q (s.clearDist d) := by
  unfold State.clearDist
  extract_lets s1
  have h1 : Kept W q s1 := h.updDist.resetRegs
  exact h1.foldl fun _ _ g => g.fset

theorem Kept.resumeStep {t x} (h : Kept W q s) : Kept W q (s.resumeStep t x) := by
  unfold State.resumeStep
  extract_lets ds s1 s2
  have h1 : Kept W q s1 := h.foldl fun _ _ g => g.clearDist
  have h2 : Kept W q s2 := h1.upd
  split
  · exact h
  · extract_lets s3 s4 s5 regs s6 s7 s8 s9
    have h3 : Kept W q s3 := h2.foldl fun _ _ g => g.flushCaches
    have h4 : Kept W q s4 := h3.foldl fun _ _ g => g.setCore
    have h5 : Kept W q s5 := h4.foldl fun _ _ g => g.updDist
    have h6 : Kept W q s6 := h5.upd
    have h7 : Kept W q s7 := h6.foldl fun _ _ g => by
      extract_lets old rec' s10
      have h10 : Kept W q s10 := g.updBlk
      exact h10.upd
    have h8 : Kept W q s8 := h7.foldl fun _ _ g => g.foldl fun _ _ g1 => g1.fset
    have h9 : Kept W q s9 := h8.upd
    exact h9.updTen

theorem Kept.entrySettings {d} (h : Kept W q s) : Kept W q (s.entrySettings d) := by
  unfold State.entrySettings
  extract_lets s1
  have h1 : Kept W q s1 := h.upd
  exact h1.updSq

theorem Kept.startCore {t v r d} (h : Kept W q s) : Kept W q (s.startCore t v r d) := by
  unfold State.startCore
  extract_lets s1
  have h1 : Kept W q s1 := h.flushCaches
  exact h1.updCore

theorem Kept.enterStep {t} (h : Kept W q s) : Kept W q (s.enterStep t) := by
  unfold State.enterStep
  extract_lets s1
  have h1 : Kept W q s1 := h.foldl fun _ _ g => g.clearDist.entrySettings
  split
  · extract_lets s2 s3 s4
    have h2 : Kept W q s2 := h1.foldl fun _ _ g => g.clearBlk.rset
    have h3 : Kept W q s3 := h2.upd
    have h4 : Kept W q s4 := h3.updRun
    exact Kept.ite (h4.foldl fun _ _ g => g.startCore) h4.updRun
  · exact h

theorem Kept.computeDigest {t} (h : Kept W q s) : Kept W q (s.computeDigest t) := by
  unfold State.computeDigest
  split
  · extract_lets es good head msg
    exact Kept.ite h h.updRun
  · exact h

theorem kept_execStepEntry {now} (h : Kept W q s) : KeptOut W q (execStepEntry now s) := by
  unfold execStepEntry
  extract_lets s1 t'
  have h1 : Kept W q s1 := h.at
  split
  · split
    · exact KeptOut.next h1
    · split
      · exact KeptOut.next h1.resumeStep
      · exact KeptOut.next h1.computeDigest.enterStep
  · exact KeptOut.next h1

theorem kept_execEaveStart {now} (h : Kept W q s) : KeptOut W q (execEaveStart now s) := by
  unfold execEaveStart
  extract_lets s1 ns
  have h1 : Kept W q s1 := h.at
  exact KeptOut.next (Kept.ite h1.srcEvent.beginEave h1)

theorem kept_execStepDeadline {now} (h : Kept W q s) : KeptOut W q (execStepDeadline now s) := KeptOut.next h.at.dueDeadline

theorem kept_execSuspendPoint {now} (h : Kept W q s) : KeptOut W q (execSuspendPoint now s) := by
  unfold execSuspendPoint
  extract_lets s1 t' ready marked s2 rec'
  have h1 : Kept W q s1 := h.at
  have h2 : Kept W q s2 := Kept.ite h1 (Kept.ite h1.replayLater h1.suspendStep)
  split
  · exact KeptOut.next h1
  · split
    · exact KeptOut.next h1
    · split
      · exact KeptOut.next h1
      · split
        · exact KeptOut.ite (KeptOut.next h2.upd) (KeptOut.next h2.startUrgent)
        · exact KeptOut.next h2

theorem Kept.ctlWrite {w r ix v} (h : Kept W q s) : Kept W q (s.ctlWrite w r ix v) := h.regWrite

theorem kept_execTickCtrlWrite {w v now} (h : Kept W q s) : KeptOut W q (execTickCtrlWrite w v now s) :=
  KeptOut.next h.at.ctlWrite

theorem kept_execTickConfigWrite {w v now} (h : Kept W q s) : KeptOut W q (execTickConfigWrite w v now s) :=
  KeptOut.next h.at.ctlWrite

theorem kept_execAlignConfigWrite {w v now} (h : Kept W q s) : KeptOut W q (execAlignConfigWrite w v now s) :=
  KeptOut.next h.at.ctlWrite

theorem Kept.sendTime {port opcode dst body words} (h : Kept W q s) : Kept W q (s.sendTime port opcode dst body words) := by
  unfold State.sendTime
  extract_lets p
  exact h.swAdd.tickFree

theorem kept_execTimeExchangeSend {now} (h : Kept W q s) : KeptOut W q (execTimeExchangeSend now s) := by
  unfold execTimeExchangeSend
  extract_lets s1 p due rec' s2
  have h1 : Kept W q s1 := h.at
  have h2 : Kept W q s2 := h1.upd
  exact KeptOut.ite (KeptOut.next h2.sendTime) (KeptOut.next h1)

theorem kept_execTimeExchangeVoid {now} (h : Kept W q s) : KeptOut W q (execTimeExchangeVoid now s) := by
  unfold execTimeExchangeVoid
  extract_lets s1 rec'
  have h1 : Kept W q s1 := h.at
  split
  · exact KeptOut.next (Kept.ite h1.upd h1)
  · exact KeptOut.next h1

theorem Kept.referenceSeen (h : Kept W q s) : Kept W q (s.referenceSeen) := h.upd.fset

theorem Kept.correctOffset {offset longer ref num shift} (h : Kept W q s) : Kept W q (s.correctOffset offset longer ref num shift)
    := by
  unfold State.correctOffset
  extract_lets s1 rec' s2 s3 rec'2
  have h1 : Kept W q s1 := h.fset
  have h2 : Kept W q s2 := h1.upd
  have h3 : Kept W q s3 := h2.showLocked
  exact Kept.ite h3 (Kept.ite h3.upd h3.upd)

theorem kept_execTickInEdge {now} (h : Kept W q s) : KeptOut W q (execTickInEdge now s) := by
  unfold execTickInEdge
  extract_lets s1 ref s2 rec' a b o
  have h1 : Kept W q s1 := h.at
  have h2 : Kept W q s2 := h1.referenceSeen.fset
  exact KeptOut.ite (KeptOut.next h1) (KeptOut.ite (KeptOut.next h2.upd) (KeptOut.next h2.correctOffset))

theorem kept_execHoldoverLost (h : Kept W q s) : KeptOut W q (execHoldoverLost s) := by
  unfold execHoldoverLost
  extract_lets rec' s1
  have h1 : Kept W q s1 := h.upd
  exact KeptOut.ite (KeptOut.next h1.fset.chipEv.srcEvent) (KeptOut.next h)

theorem kept_execCreate {w t now} (h : Kept W q s) : KeptOut W q (execCreate w t now s) := KeptOut.next h.at.ctlWrite

theorem kept_execDestroy {w t now} (h : Kept W q s) : KeptOut W q (execDestroy w t now s) := KeptOut.next h.at.ctlWrite

theorem kept_execUrgent {w t now} (h : Kept W q s) : KeptOut W q (execUrgent w t now s) := KeptOut.next h.at.ctlWrite

theorem kept_execTenCmdInvalidOp {w op t now} (h : Kept W q s) : KeptOut W q (execTenCmdInvalidOp w op t now s) :=
  KeptOut.next h.at.ctlWrite

theorem kept_execTenCmdComplete {now} (h : Kept W q s) : KeptOut W q (execTenCmdComplete now s) := by
  unfold execTenCmdComplete
  extract_lets s1
  have h1 : Kept W q s1 := h.at
  split
  · exact KeptOut.next h1
  · split
    · extract_lets s2 rec'
      have h2 : Kept W q s2 := h1.fsets.srcEvent
      exact KeptOut.next h2.upd
    · exact KeptOut.next h1

theorem kept_execTeardown {now} (h : Kept W q s) : KeptOut W q (execTeardown now s) := by
  unfold execTeardown
  extract_lets s1
  have h1 : Kept W q s1 := h.at
  split
  · extract_lets s2
    have h2 : Kept W q s2 := h1.tryTearDown
    split
    · extract_lets s3 rec'
      have h3 : Kept W q s3 := h2.fsets.srcEvent
      exact KeptOut.next h3.upd
    · exact KeptOut.next h2
  · exact KeptOut.next h1

theorem kept_execSwap {w v now} (h : Kept W q s) : KeptOut W q (execSwap w v now s) := KeptOut.next h.at.ctlWrite

theorem Kept.shaped {i t a n wr key} (h : Kept W q s) : Kept W q (s.shaped i t a n wr key).2 := by
  unfold State.shaped
  extract_lets bytes rec'
  split
  · extract_lets b r s1
    have h1 : Kept W q s1 := h.upd
    exact Kept.ite₂ h.shapeTaken.snd (Kept.ite₂ h (Kept.ite₂ h.bucketCharge.snd h1.bucketDepth.snd))
  · exact h

theorem Kept.flError {code drive status lba ten} (h : Kept W q s) : Kept W q (s.flError code drive status lba ten) :=
  h.tierCapture.chipEv

theorem Kept.nvmeSend {i wr a n data waits} (h : Kept W q s) : Kept W q (s.nvmeSend i wr a n data waits).2 := by
  unfold State.nvmeSend
  extract_lets p fua c s1
  have h1 : Kept W q s1 := h.updFl
  exact (Kept.ite h1.updRun h1).snd

theorem Kept.t3Access {i wr a n data waits} (h : Kept W q s) : Kept W q (s.t3Access i wr a n data waits).2 := by
  unfold State.t3Access
  (repeat' split) <;> grind only [← Kept.flError, ← Kept.nvmeSend]

theorem Kept.coreFlash {c ph n acc} (h : Kept W q s) : Kept W q (s.coreFlash c ph n acc).2 := by
  have hr (i wr a n d w) : Kept W q (s.t3Access i wr a n d w).2 := h.t3Access
  conv in @State.coreFlash => delta State.coreFlash
  beta_reduce
  generalize s.t3Access = r at hr ⊢
  as_aux_lemma => grind only [← Kept.updCore]

theorem Kept.fillCode {c a} (h : Kept W q s) : Kept W q (s.fillCode c a) := by
  unfold State.fillCode
  extract_lets k mates gone
  exact h.tickFree.updCore

theorem Kept.rankEntry {t rank} (h : Kept W q s) : Kept W q (s.rankEntry t rank).2.2 := by
  unfold State.rankEntry
  grind only [← Kept.opmErr, ← Kept.busWord, ← Kept.updFab]

theorem Kept.targetAddr {addr len key src} (h : Kept W q s) : Kept W q (s.targetAddr addr len key src).2.2 := by
  unfold State.targetAddr
  grind only [← Kept.opmErr]

theorem Kept.targetCheck {addr len key ward src} (h : Kept W q s) : Kept W q (s.targetCheck addr len key ward src).2.2 := by
  unfold State.targetCheck
  extract_lets r w
  exact Kept.ite₃ h.targetAddr h.targetAddr.targetWard.snd₂

theorem Kept.serveRead {port phys len} (h : Kept W q s) : Kept W q (s.serveRead port phys len).2.2 := h.busRead

theorem Kept.busWrite {i k a l} (h : Kept W q s) : Kept W q (s.busWrite i k a l).2 := by
  unfold State.busWrite
  grind only [← Kept.check, ← Kept.tierWrite, ← Kept.chipEv, ← Kept.foldl, ← Kept.foldl₂, ← Kept.foldl₃]

theorem Kept.serveWrite {port phys l} (h : Kept W q s) : Kept W q (s.serveWrite port phys l).2 := h.busWrite

theorem Kept.answer {a1 status old} (h : Kept W q s) : Kept W q (s.answer a1 status old) := by
  unfold State.answer
  extract_lets p
  exact h.emit

theorem Kept.swDrop {n} (h : Kept W q s) : Kept W q (s.swDrop n) := by
  unfold State.swDrop
  split
  · exact h.updFab.swGone
  · exact h

theorem Kept.once {n a1 run} (hrun : ∀ s, Kept W q s → Kept W q (run s).2.2) (h : Kept W q s) : Kept W q (s.once n a1 run) := by
  unfold State.once
  extract_lets p s1 r v
  have h1 : Kept W q s1 := h.updFab
  split
  · exact h.swDrop.answer
  · exact Kept.ite h1 (((hrun _ h1.swDrop).updFab).answer)

theorem Kept.coreAtomic {i t ph n op v cmp} (h : Kept W q s) : Kept W q (s.coreAtomic i t ph n op v cmp).2.2 := by
  unfold State.coreAtomic
  extract_lets r r2 old q'
  exact Kept.ite₃ h.protectedStore.snd₂ (Kept.ite₃ h.tierWrite.snd₂ (Kept.ite₃ h.tierRead.snd₂ (Kept.ite₃ h.tierRead.snd₂
      h.tierRead.tierWrite.snd₂)))

theorem Kept.serveAtomic {i phys op w v cmp} (h : Kept W q s) : Kept W q (s.serveAtomic i phys op w v cmp).2.2 := by
  unfold State.serveAtomic
  split
  · exact h
  · split
    · next heq =>
        have hs : Kept W q _ := .of_snd₂ heq h.check
        exact hs.coreAtomic
    · next heq =>
        have hs : Kept W q _ := .of_snd₂ heq h.check
        exact hs
    · next heq =>
        have hs : Kept W q _ := .of_snd₂ heq h.check
        exact hs

theorem Kept.atomicOnce {n a2} (h : Kept W q s) : Kept W q (s.atomicOnce n a2) := by
  unfold State.atomicOnce
  extract_lets p w
  exact h.once fun _ g => by
    extract_lets c r
    exact Kept.ite₃ ((Kept.ite₃ g g.targetCheck).snd₂) (((Kept.ite₃ g g.targetCheck).serveAtomic).snd₂)

theorem Kept.atomicAhead {p} (h : Kept W q s) : Kept W q (s.atomicAhead p) := by
  unfold State.atomicAhead
  extract_lets l
  exact Kept.ite h (Kept.ite h ((h.foldl fun _ _ g => by
    split
    · exact g.atomicOnce
    · exact g).fsat))

theorem Kept.serveSelf {r} (h : Kept W q s) : Kept W q (s.serveSelf r).2.2 := by
  unfold State.serveSelf
  extract_lets q' c q'2 s1
  have h1 : Kept W q s1 := h.selfAdmits.targetCheck.atomicAhead
  split
  · exact h.selfAdmits.snd₂
  · split
    · exact h.selfAdmits.targetCheck.snd₂
    · split
      · exact h.selfAdmits.targetCheck.serveRead
      · exact h.selfAdmits.targetCheck.serveWrite.snd₂
      · extract_lets q'3
        exact h1.serveAtomic.snd₂

theorem Kept.fabSend {i pl kind len data comb} (h : Kept W q s) : Kept W q (s.fabSend i pl kind len data comb).2 := by
  unfold State.fabSend
  extract_lets id t' ward key base s1 ended
  have h1 : Kept W q s1 := h.updFab.tickFree
  have hended {s' x0 x1} (g : Kept W q s') : Kept W q (ended s' x0 x1) := g.updFab
  split
  · exact (hended h1).snd
  · split
    · extract_lets dst
      exact h1.updFab.fabPump.snd
    · extract_lets e s2 r q'
      have h2 : Kept W q s2 := h1.rankEntry
      exact Kept.ite₂ ((hended h1.rankEntry).snd) (Kept.ite₂ ((hended h2.serveSelf).snd) h2.updFab.fabPump.snd)
    · exact h1.updFab.snd
    · exact (hended h1).snd

theorem Kept.coreSend {c pl kind len data acc stall} (h : Kept W q s) : Kept W q (s.coreSend c pl kind len data acc stall) := by
  unfold State.coreSend
  extract_lets i r
  exact h.fabSend.updCore

theorem Kept.fetch {c} (h : Kept W q s) : Kept W q (s.fetch c).2 := by
  have hcheck (s') (hs : Kept W q s') (i k a) : Kept W q (s'.check i k a).2.2 := hs.check
  have hshaped (s') (hs : Kept W q s') (i t a n w k) : Kept W q (s'.shaped i t a n w k).2 := hs.shaped
  have hflash (s') (hs : Kept W q s') (c a n acc) : Kept W q (s'.coreFlash c a n acc).2 := hs.coreFlash
  have hread (s') (hs : Kept W q s') (ten t a n) : Kept W q (s'.tierRead ten t a n).2.2 := hs.tierRead
  conv in @State.fetch => delta State.fetch
  beta_reduce
  generalize State.check = check at hcheck ⊢
  generalize State.shaped = shaped at hshaped ⊢
  generalize State.coreFlash = flash at hflash ⊢
  generalize State.tierRead = tread at hread ⊢
  as_aux_lemma =>
    extract_lets k
    have h0 := hcheck s h (s.coreIssuer c) .fetch k.pc
    clear_value k
    generalize check s (s.coreIssuer c) .fetch k.pc = found at h0 ⊢
    obtain ⟨st, place, s1⟩ := found
    split <;> grind only [← Kept.updCore, ← Kept.fillCode, ← Kept.coreSend]

theorem Kept.enterTrap {c e epc bad} (h : Kept W q s) : Kept W q (s.enterTrap c e epc bad) := h.updCore

theorem Kept.controlFault {c} (h : Kept W q s) : Kept W q (s.controlFault c) := Kept.ite h.chipEv h.chipEv

theorem Kept.coreStepEnd {c code} (h : Kept W q s) : Kept W q (s.coreStepEnd c code) := by
  unfold State.coreStepEnd
  extract_lets t' s1 s2
  have h1 : Kept W q s1 := by
    unfold s1
    split
    · exact h.askDiscard
    · exact h
  have h2 : Kept W q s2 := h1.updRun
  exact h2.updCore

theorem Kept.trap {c e epc bad} (h : Kept W q s) : Kept W q (s.trap c e epc bad) := by
  unfold State.trap
  extract_lets k s1
  have h1 : Kept W q s1 := h.enterTrap
  exact Kept.ite (Kept.ite h1.controlFault h1.distEv.coreStepEnd) h.controlFault

theorem Kept.instr {c act} (hact : ∀ x0 s, Kept W q s → Kept W q (act x0 s)) (h : Kept W q s) : KeptOut W q (s.instr c act) := by
  unfold State.instr
  split
  · exact KeptOut.next h
  · split
    · next heq =>
        have hs : Kept W q _ := .of_snd heq h.fetch
        exact KeptOut.next hs.trap
    · next heq =>
        have hs : Kept W q _ := .of_snd heq h.fetch
        exact KeptOut.next hs
    · next heq =>
        have hs : Kept W q _ := .of_snd heq h.fetch
        exact KeptOut.next (hact _ _ hs)

theorem Kept.retire {c pc} (h : Kept W q s) : Kept W q (s.retire c pc) := h.updCore

theorem Kept.retireReg {c rd v} (h : Kept W q s) : Kept W q (s.retireReg c rd v) := h.updCore.retire

theorem Kept.illegal {c} (h : Kept W q s) : Kept W q (s.illegal c) := h.trap

theorem kept_execAlu {c rd ra rb w} (h : Kept W q s) : KeptOut W q (execAlu c rd ra rb w s) :=
  KeptOut.ite (h.instr fun _ _ g => by
    split
    · exact g.retireReg
    · exact g.illegal) (KeptOut.ite (h.instr fun _ _ g => g.illegal) (KeptOut.next h))

theorem kept_execAddi {c rd ra imm} (h : Kept W q s) : KeptOut W q (execAddi c rd ra imm s) := h.instr fun _ _ g => g.retireReg

theorem kept_execAndi {c rd ra imm} (h : Kept W q s) : KeptOut W q (execAndi c rd ra imm s) := h.instr fun _ _ g => g.retireReg

theorem kept_execOri {c rd ra imm} (h : Kept W q s) : KeptOut W q (execOri c rd ra imm s) := h.instr fun _ _ g => g.retireReg

theorem kept_execXori {c rd ra imm} (h : Kept W q s) : KeptOut W q (execXori c rd ra imm s) := h.instr fun _ _ g => g.retireReg

theorem kept_execSlti {c rd ra imm} (h : Kept W q s) : KeptOut W q (execSlti c rd ra imm s) := h.instr fun _ _ g => g.retireReg

theorem kept_execSltiu {c rd ra imm} (h : Kept W q s) : KeptOut W q (execSltiu c rd ra imm s) :=
  h.instr fun _ _ g => g.retireReg

theorem kept_execShifti {c rd ra imm} (h : Kept W q s) : KeptOut W q (execShifti c rd ra imm s) :=
  h.instr fun _ _ g => by
    split
    · exact g.retireReg
    · exact g.illegal

theorem kept_execLui {c rd ra imm} (h : Kept W q s) : KeptOut W q (execLui c rd ra imm s) :=
  h.instr fun _ _ g => Kept.ite g.illegal g.retireReg

theorem kept_execInsk {c rd ra imm} (h : Kept W q s) : KeptOut W q (execInsk c rd ra imm s) :=
  h.instr fun _ _ g => Kept.ite g.illegal g.retireReg

theorem Kept.coreShaped {c t a n wr} (h : Kept W q s) : Kept W q (s.coreShaped c t a n wr).2 := h.shaped

theorem Kept.readLine {c a} (h : Kept W q s) : Kept W q (s.readLine c a).2.2 := h.tierRead

theorem Kept.post {c acc ten t ph n} (h : Kept W q s) : Kept W q (s.post c acc ten t ph n) := by
  unfold State.post
  extract_lets key q' s1 s2
  have h1 : Kept W q s1 := h.shaped
  have h2 : Kept W q s2 := h1.upd
  exact h2.updCore

theorem Kept.postBack {c l} (h : Kept W q s) : Kept W q (s.postBack c l) := Kept.ite h.post h

theorem Kept.fillLine {c l} (h : Kept W q s) : Kept W q (s.fillLine c l) := by
  unfold State.fillLine
  extract_lets k mates s1
  have h1 : Kept W q s1 := by
    unfold s1
    split
    · exact h
    · split
      · exact h.postBack.updCore
      · exact h
  exact h1.tickFree.updCore

theorem Kept.dropLine {c a} (h : Kept W q s) : Kept W q (s.dropLine c a) := h.updCore

theorem Kept.dataLine {c a ecc} (h : Kept W q s) : Kept W q (s.dataLine c a ecc).2.2 := by
  unfold State.dataLine
  grind only [← Kept.readLine, ← Kept.fillLine, ← Kept.updCore, ← Kept.chipEv, ← Kept.distEv, ← Kept.dropLine]

theorem Kept.coreRead {c t a ph n ecc acc} (h : Kept W q s) : Kept W q (s.coreRead c t a ph n ecc acc).2 := by
  unfold State.coreRead
  extract_lets held q' r q'2 r2
  exact Kept.ite₂ (Kept.ite₂ ((Kept.ite₂ h h.coreShaped).snd) (((Kept.ite₂ h h.coreShaped).dataLine).snd)) (Kept.ite₂
      h.coreShaped.snd (Kept.ite₂ h.coreShaped.coreFlash h.coreShaped.tierRead.snd))

theorem Kept.accessTrap {c st a} (h : Kept W q s) : Kept W q (s.accessTrap c st a) := h.trap

theorem Kept.endRead {c st a rd v} (h : Kept W q s) : Kept W q (s.endRead c st a rd v) :=
  Kept.ite h.retireReg (Kept.ite h.recordErr.retireReg h.accessTrap)

theorem Kept.claim {c} (h : Kept W q s) : Kept W q (s.claim c).2 := by
  unfold State.claim
  split
  · exact h
  · extract_lets n
    exact h.fset.srcClear.snd

theorem Kept.readPort {ch} (h : Kept W q s) : Kept W q (s.readPort ch).2 := by
  unfold State.readPort
  extract_lets rec'
  split
  · exact h
  · extract_lets w n y s1
    have h1 : Kept W q s1 := h.upd
    exact h1

theorem Kept.regTake {w r ix} (h : Kept W q s) : Kept W q (s.regTake w r ix).2 := by
  unfold State.regTake
  cases r
  case CLAIM =>
    rcases ix with _ | ⟨_, _ | _⟩
    exacts [h, Kept.ite₂ h.claim h, h]
  case RP_STATUS =>
    rcases ix with _ | ⟨_, _ | _⟩
    exacts [h, h.readPort, h]
  all_goals exact h

theorem Kept.regWord {w off} (h : Kept W q s) : Kept W q (s.regWord w off).2 := by
  unfold State.regWord
  split
  · exact h
  · split
    · exact h
    · extract_lets q'
      exact h.regTake.snd

theorem Kept.regRead {w off len} (h : Kept W q s) : Kept W q (s.regRead w off len).2 := by
  unfold State.regRead
  extract_lets a b
  split
  · exact h.chipEv.snd
  · split
    · exact h.regWord
    · split
      · exact Kept.ite₂ h.regTake h.regWord.regWord.snd
      · exact h.regWord.regWord.snd

theorem kept_execLoad {c op rd ra imm ecc now} (h : Kept W q s) : KeptOut W q (execLoad c op rd ra imm ecc now s) :=
  h.at.instr fun _ _ g => by
    extract_lets a n signed
    split
    · exact g.trap
    · split
      · exact g
      · split
        · next heq =>
            have hs : Kept W q _ := .of_snd₂ heq g.check
            split
            · next heq1 =>
                have hs1 : Kept W q _ := .of_snd heq1 hs.coreRead
                exact hs1
            · next heq1 =>
                have hs1 : Kept W q _ := .of_snd heq1 hs.coreRead
                exact hs1.endRead
        · next heq =>
            have hs : Kept W q _ := .of_snd₂ heq g.check
            extract_lets r
            exact hs.regRead.retireReg
        · next heq =>
            have hs : Kept W q _ := .of_snd₂ heq g.check
            exact hs.coreSend
        · next heq =>
            have hs : Kept W q _ := .of_snd₂ heq g.check
            exact hs.accessTrap
        · next heq =>
            have hs : Kept W q _ := .of_snd₂ heq g.check
            exact hs.endRead

theorem Kept.cacheStore {c a n v ecc} (h : Kept W q s) : Kept W q (s.cacheStore c a n v ecc) := by
  unfold State.cacheStore
  extract_lets r
  split
  · exact h.dataLine.updCore
  · exact h.dataLine.updCore.recordErr

theorem Kept.ownLineOut {c a} (h : Kept W q s) : Kept W q (s.ownLineOut c a) := by
  unfold State.ownLineOut
  split
  · exact h.postBack.dropLine
  · exact h

theorem Kept.postStore {c a n v} (h : Kept W q s) : Kept W q (s.postStore c a n v) := h.updCore.retire

theorem kept_execStore {c sz rd ra imm ecc now} (h : Kept W q s) : KeptOut W q (execStore c sz rd ra imm ecc now s) :=
  h.at.instr fun _ _ g => by
    extract_lets a n v
    split
    · exact g.trap
    · split
      · next heq =>
          have hs : Kept W q _ := .of_snd₂ heq g.check
          extract_lets cached held q'
          exact Kept.ite hs.cacheStore.retire (Kept.ite (Kept.ite hs.coreShaped.cacheStore.retire hs.coreShaped)
              hs.tickFree.ownLineOut.post.retire)
      · next heq =>
          have hs : Kept W q _ := .of_snd₂ heq g.check
          exact hs.postStore
      · next heq =>
          have hs : Kept W q _ := .of_snd₂ heq g.check
          exact hs.coreSend.retire
      · next heq =>
          have hs : Kept W q _ := .of_snd₂ heq g.check
          exact hs.recordErr.retire
      · next heq =>
          have hs : Kept W q _ := .of_snd₂ heq g.check
          exact Kept.ite hs.accessTrap hs.recordErr.retire

theorem kept_execAmo {c rd ra rb func now} (h : Kept W q s) : KeptOut W q (execAmo c rd ra rb func now s) :=
  h.at.instr fun _ _ g => by
    extract_lets a n op v cmp
    split
    · exact g.illegal
    · split
      · exact g.trap
      · split
        · exact g
        · split
          · next heq =>
              have hs : Kept W q _ := .of_snd₂ heq g.check
              extract_lets q' r
              exact Kept.ite hs.ownLineOut (Kept.ite hs.coreShaped hs.coreShaped.coreAtomic.endRead)
          · next heq =>
              have hs : Kept W q _ := .of_snd₂ heq g.check
              extract_lets r
              exact hs.regRead.regWrite.retireReg
          · next heq =>
              have hs : Kept W q _ := .of_snd₂ heq g.check
              exact hs.coreSend
          · next heq =>
              have hs : Kept W q _ := .of_snd₂ heq g.check
              exact hs.accessTrap
          · next heq =>
              have hs : Kept W q _ := .of_snd₂ heq g.check
              exact hs.endRead

theorem Kept.coreResponse {c acc st data} (h : Kept W q s) : Kept W q (s.coreResponse c acc st data) := by
  unfold State.coreResponse
  extract_lets go
  have hgo {s'} (g : Kept W q s') : Kept W q (go s') := g.updCore
  split
  · exact Kept.ite h h.recordErr
  · exact Kept.ite h h.recordErr
  · exact Kept.ite ((hgo h).accessTrap) ((hgo h).updCore)
  · exact (hgo h).endRead
  · exact (hgo h).endRead
  · extract_lets e
    exact Kept.ite (((hgo h).updCore).accessTrap) ((hgo h).updCore)

theorem Kept.performStore {c ten a n v} (h : Kept W q s) : Kept W q (s.performStore c ten a n v) := by
  unfold State.performStore
  grind only [← Kept.check, ← Kept.tierWrite, ← Kept.dropLine, ← Kept.regWrite, ← Kept.recordErr]

theorem Kept.perform {c r} (h : Kept W q s) : Kept W q (s.perform c r) := by
  unfold State.perform
  split
  · exact h.performStore
  · exact h.performBack

theorem kept_execCoreAccessComplete {c n now} (h : Kept W q s) : KeptOut W q (execCoreAccessComplete c n now s) := by
  unfold execCoreAccessComplete
  extract_lets s1 k drop
  have h1 : Kept W q s1 := h.at
  have hdrop {s'} (g : Kept W q s') : Kept W q (drop s') := g.updCore
  split
  · exact KeptOut.next h1
  · split
    · split
      · exact KeptOut.next ((hdrop h1.nvmeDrop).coreResponse)
      · exact KeptOut.next h1
    · exact KeptOut.ite (KeptOut.next h1) (KeptOut.next ((hdrop h1.shapeTaken).perform))
    · split
      · exact KeptOut.next ((hdrop h1.fabDrop).coreResponse)
      · exact KeptOut.next h1

theorem Kept.wrongFill {c a ex} (h : Kept W q s) : Kept W q (s.wrongFill c a ex) := by
  unfold State.wrongFill
  extract_lets i t' ok here r
  exact Kept.ite h (Kept.ite h.shaped.readLine (Kept.ite h.shaped.readLine.fillCode h.shaped.readLine.fillLine))

theorem Kept.wrongPath {c n loads fetches} (h : Kept W q s) : Kept W q (s.wrongPath c n loads fetches) := by
  unfold State.wrongPath
  extract_lets s1
  have h1 : Kept W q s1 := (h.foldl fun _ _ g => g.wrongFill).foldl fun _ _ g => g.wrongFill
  exact h1.updCore

theorem Kept.resolve {c rd link to_ wrong} (h : Kept W q s) : Kept W q (s.resolve c rd link to_ wrong) := by
  unfold State.resolve
  extract_lets k s1
  have h1 : Kept W q s1 := Kept.ite h h.wrongPath
  exact h1.updCore.retire

theorem kept_execBranch {c cc ra rb off wrong} (h : Kept W q s) : KeptOut W q (execBranch c cc ra rb off wrong s) :=
  h.instr fun _ _ g => g.resolve

theorem kept_execJal {c j} (h : Kept W q s) : KeptOut W q (execJal c j s) := h.instr fun _ _ g => g.resolve

theorem kept_execJalr {c rd ra j} (h : Kept W q s) : KeptOut W q (execJalr c rd ra j s) :=
  h.instr fun _ _ g => by
    extract_lets t'
    exact Kept.ite g.trap g.resolve

theorem kept_execSyscall {c rd ra rb} (h : Kept W q s) : KeptOut W q (execSyscall c rd ra rb s) :=
  h.instr fun _ _ g => Kept.ite g.illegal (Kept.ite g.enterTrap.updCore g.trap)

theorem kept_execSret {c rd ra rb} (h : Kept W q s) : KeptOut W q (execSret c rd ra rb s) :=
  h.instr fun _ _ g => Kept.ite g.illegal (Kept.ite g.trap g.updCore.retire)

theorem kept_execFence {c rd ra rb} (h : Kept W q s) : KeptOut W q (execFence c rd ra rb s) :=
  h.instr fun _ _ g => Kept.ite g.illegal (Kept.ite g g.retire)

theorem kept_execWfi {c rd ra rb} (h : Kept W q s) : KeptOut W q (execWfi c rd ra rb s) :=
  h.instr fun _ _ g => Kept.ite g.illegal g.retire.updCore

theorem kept_execStepend {c rd ra rb} (h : Kept W q s) : KeptOut W q (execStepend c rd ra rb s) :=
  h.instr fun _ _ g => by
    extract_lets v
    exact Kept.ite g.illegal (Kept.ite g.trap (Kept.ite g g.retire.coreStepEnd))

theorem kept_execBrk {c rd ra rb} (h : Kept W q s) : KeptOut W q (execBrk c rd ra rb s) :=
  h.instr fun _ _ g => Kept.ite g.illegal (Kept.ite g.updCore g.trap)

theorem kept_execCsrr {c rd ra imm} (h : Kept W q s) : KeptOut W q (execCsrr c rd ra imm s) :=
  h.instr fun _ _ g => by
    split
    · exact g.illegal
    · split
      · exact g.retireReg
      · exact g.illegal

theorem kept_execCsrw {c rd ra imm} (h : Kept W q s) : KeptOut W q (execCsrw c rd ra imm s) :=
  h.instr fun _ _ g => by
    split
    · exact g.illegal
    · split
      · exact g.setCore.retire
      · exact g.illegal

theorem kept_execCsrx {c rd ra imm} (h : Kept W q s) : KeptOut W q (execCsrx c rd ra imm s) :=
  h.instr fun _ _ g => by
    split
    · exact g.setCore.retire
    · exact g.illegal

theorem kept_execCache {c rd ra imm bad now} (h : Kept W q s) : KeptOut W q (execCache c rd ra imm bad now s) :=
  h.at.instr fun _ _ g => by
    extract_lets a s1
    have h1 : Kept W q s1 := by
      unfold s1
      split
      · exact g.updCore
      · exact g.dropLine
      · extract_lets s2 s3
        have h2 : Kept W q s2 := Kept.ite g.chipEv g
        have h3 : Kept W q s3 := h2.postBack
        exact Kept.ite h3.dropLine h3.updCore
      · exact g
    exact Kept.ite g.illegal h1.retire

theorem Kept.blkCapture {b code addr dataErr} (h : Kept W q s) : Kept W q (s.blkCapture b code addr dataErr) := h.capture.blkEv

theorem Kept.dmaReject {j} (h : Kept W q s) : Kept W q (s.dmaReject j) := by
  unfold State.dmaReject
  split
  · exact h.blkCapture
  · exact h.distEv

theorem Kept.dmaAccept {j} (h : Kept W q s) : Kept W q (s.dmaAccept j) := by
  unfold State.dmaAccept
  extract_lets bad j2 s1
  have h1 : Kept W q s1 := h.upd
  exact Kept.ite h1.dmaReject h1

theorem Kept.updColl {c g} (h : Kept W q s) : Kept W q (s.updColl c g) := h.updFab

theorem Kept.enqEntry {c func w} (h : Kept W q s) : Kept W q (s.enqEntry c func w) := by
  unfold State.enqEntry
  extract_lets ix t' e
  split
  · exact h.updDist
  · exact h.updDist
  · exact h.updRm
  · exact h.dmaAccept
  · exact h.updColl

theorem Kept.enqAccept {c rd func l} (h : Kept W q s) : Kept W q (s.enqAccept c rd func l) := by
  unfold State.enqAccept
  extract_lets es
  exact ((h.foldl fun _ _ g => g.enqEntry).updCore).retireReg

theorem Kept.enqPart {c rd func a n got} (h : Kept W q s) : Kept W q (s.enqPart c rd func a n got).2 := by
  unfold State.enqPart
  extract_lets b m
  split
  · exact h
  · split
    · next heq =>
        have hs : Kept W q _ := .of_snd₂ heq h.check
        exact hs.coreRead
    · next heq =>
        have hs : Kept W q _ := .of_snd₂ heq h.check
        extract_lets r
        exact hs.regRead.snd
    · next heq =>
        have hs : Kept W q _ := .of_snd₂ heq h.check
        exact hs.coreSend.snd
    · next heq =>
        have hs : Kept W q _ := .of_snd₂ heq h.check
        exact hs
    · next heq =>
        have hs : Kept W q _ := .of_snd₂ heq h.check
        exact hs

theorem Kept.enqRun {c rd func a n miss got a8} (h : Kept W q s) : Kept W q (s.enqRun c rd func a n miss got a8) := by
  induction a8 generalizing s got with
  | zero => exact h.enqAccept
  | succ fuel ih =>
    have hpart : Kept W q (s.enqPart c rd func a n got).2 := h.enqPart
    unfold State.enqRun
    generalize s.enqPart c rd func a n got = r at hpart ⊢
    as_aux_lemma => grind only [← Kept.enqAccept, ← Kept.updCore, ← Kept.accessTrap]

theorem kept_execEnq {c rd ra rb func now} (h : Kept W q s) : KeptOut W q (execEnq c rd ra rb func now s) :=
  h.at.instr fun _ _ g => by
    extract_lets f a e
    split
    · exact g.illegal
    · exact g.trap
    · exact Kept.ite g.retireReg g.enqRun

theorem kept_execEvrd {c rd ra} (h : Kept W q s) : KeptOut W q (execEvrd c rd ra s) :=
  h.instr fun _ _ g => by
    split
    · exact g.retireReg
    · exact g.illegal

theorem kept_execEvadd {c ra rb} (h : Kept W q s) : KeptOut W q (execEvadd c ra rb s) :=
  h.instr fun _ _ g => by
    split
    · exact g.evcAdd.retire
    · exact g.illegal

theorem kept_execEvwait {c ra rb} (h : Kept W q s) : KeptOut W q (execEvwait c ra rb s) := by
  unfold execEvwait
  extract_lets s1
  have h1 : Kept W q s1 := by
    unfold s1
    split
    · exact h.updCore
    · exact h
  exact KeptOut.ite (KeptOut.next h) (h1.instr fun _ _ g => by
    extract_lets i v
    split
    · exact Kept.ite g.retire g.updCore
    · exact g.illegal)

theorem kept_execInterruptTake {c} (h : Kept W q s) : KeptOut W q (execInterruptTake c s) := by
  unfold execInterruptTake
  extract_lets k boundary
  exact KeptOut.ite (KeptOut.ite (KeptOut.next h.enterTrap.controlFault) (KeptOut.next h.enterTrap)) (KeptOut.next h)

theorem Kept.cleanAll {c} (h : Kept W q s) : Kept W q (s.cleanAll c) := (h.foldl fun _ _ g => g.postBack).updCore

theorem kept_execStepEnd {now} (h : Kept W q s) : KeptOut W q (execStepEnd now s) := by
  unfold execStepEnd
  extract_lets s1 t' s2
  have h1 : Kept W q s1 := h.at
  have h2 : Kept W q s2 := h1.srcEvent
  split
  · extract_lets s3 s4
    have h3 : Kept W q s3 := h2.foldl fun _ _ g => g.cleanAll
    have h4 : Kept W q s4 := h3.foldl fun _ _ g => g.updRm
    split
    · exact KeptOut.next h1
    · split
      · exact KeptOut.next h2.replayLater
      · split
        · exact KeptOut.next h2.endStep
        · exact KeptOut.next h4.updRun
  · exact KeptOut.next h1

theorem kept_execCommitFlip {now} (h : Kept W q s) : KeptOut W q (execCommitFlip now s) := by
  unfold execCommitFlip
  extract_lets s1
  have h1 : Kept W q s1 := h.at
  exact KeptOut.next h1.finishStep

theorem kept_execNvmeFlush {t now} (h : Kept W q s) : KeptOut W q (execNvmeFlush t now s) := by
  unfold execNvmeFlush
  extract_lets s1 busy
  have h1 : Kept W q s1 := h.at
  split
  · exact KeptOut.next h1
  · exact KeptOut.ite (KeptOut.next h1) (KeptOut.ite (KeptOut.next h1) (KeptOut.ite (KeptOut.next h1.updRun) (KeptOut.next
        (h1.foldl fun _ _ g => g.updFl))))

theorem Kept.cqReject {d a2 e reason} (h : Kept W q s) : Kept W q (s.cqReject d a2 e reason) := by
  unfold State.cqReject
  extract_lets s1 s2 s3 s4
  have h1 : Kept W q s1 := h.updDist
  have h2 : Kept W q s2 := Kept.ite h1.evcAdd h1
  have h3 : Kept W q s3 := h2.fset
  have h4 : Kept W q s4 := h3.captureFirst
  exact h4.srcEvent.distEv

theorem Kept.cqMove {d a2} (h : Kept W q s) : Kept W q (s.cqMove d a2) := Kept.ite h h.updDist

theorem Kept.cqPop {d a2 e} (h : Kept W q s) : Kept W q (s.cqPop d a2 e) := h.updDist.fset

theorem Kept.cqTake {d a2 e reason} (h : Kept W q s) : Kept W q (s.cqTake d a2 e reason) := by
  unfold State.cqTake
  split
  · exact Kept.ite h.cqReject h.cqReject.cqMove
  · split
    · exact h.cqPop.entryDone
    · split
      · exact h.cqPop.updBlk.cqMove
      · exact h

theorem kept_execDispatchEntry {d} (h : Kept W q s) : KeptOut W q (execDispatchEntry d s) := by
  unfold execDispatchEntry
  extract_lets pick
  exact KeptOut.ite (KeptOut.next h) (KeptOut.next (h.foldl fun _ _ g => by
    split
    · exact Kept.ite g.cqTake g
    · exact g))

theorem kept_execInboxArrive {b} (h : Kept W q s) : KeptOut W q (execInboxArrive b s) := by
  unfold execInboxArrive
  split
  · exact KeptOut.next h.updBlk
  · exact KeptOut.next h

theorem kept_execBlockProgramStart {b} (h : Kept W q s) : KeptOut W q (execBlockProgramStart b s) := by
  unfold execBlockProgramStart
  extract_lets k t' logical p
  split
  · exact KeptOut.ite (KeptOut.next h) (KeptOut.next h.updBlk)
  · exact KeptOut.next h

theorem kept_execCoreHaltReq {w c v now} (h : Kept W q s) : KeptOut W q (execCoreHaltReq w c v now s) :=
  KeptOut.next h.at.ctlWrite

theorem Kept.farAnswer {n} (h : Kept W q s) : Kept W q (s.farAnswer n).2 := by
  unfold State.farAnswer
  extract_lets id
  split
  · split
    · exact h.fabDrop.snd
    · exact h
  · split
    · exact h.nvmeDrop.snd
    · exact h

theorem Kept.blkFill {b line} (h : Kept W q s) : Kept W q (s.blkFill b line) := by
  unfold State.blkFill
  extract_lets k l
  exact h.tickFree.updBlk

theorem Kept.localWrite {i t ph l} (h : Kept W q s) : Kept W q (s.localWrite i t ph l).2 :=
  h.foldl₂ fun _ _ g => by
    extract_lets r
    exact Kept.ite₂ g g.tierWrite.snd

theorem Kept.localRead {i t ph n} (h : Kept W q s) : Kept W q (s.localRead i t ph n).2.2 :=
  h.foldl₃ fun _ _ g => by
    extract_lets r
    exact Kept.ite₃ g g.tierRead.snd₂

theorem Kept.issue {i k key a n data comb} (h : Kept W q s) : Kept W q (s.issue i k key a n data comb).2 := by
  unfold State.issue
  split
  · next heq =>
      have hs : Kept W q _ := .of_snd₂ heq h.check
      split
      · exact hs
      · split
        · next heq1 =>
            have hs1 : Kept W q _ := .of_snd heq1 hs.shaped
            exact hs1
        · next heq1 =>
            have hs1 : Kept W q _ := .of_snd heq1 hs.shaped
            extract_lets r r2
            split
            · split
              · next heq2 =>
                  have hs2 : Kept W q _ := .of_snd heq2 hs1.t3Access
                  exact hs2
              · next heq2 =>
                  have hs2 : Kept W q _ := .of_snd heq2 hs1.t3Access
                  exact hs2
            · exact Kept.ite₂ hs1.localWrite.snd hs1.localRead.snd
  · next heq =>
      have hs : Kept W q _ := .of_snd₂ heq h.check
      extract_lets r
      exact Kept.ite₂ hs.fabSend.snd hs.chipEv.snd
  · next heq =>
      have hs : Kept W q _ := .of_snd₂ heq h.check
      extract_lets r
      exact hs.fabSend.snd
  · next heq =>
      have hs : Kept W q _ := .of_snd₂ heq h.check
      exact hs
  · next heq =>
      have hs : Kept W q _ := .of_snd₂ heq h.check
      exact hs

theorem Kept.blkFetch {b} (h : Kept W q s) : Kept W q (s.blkFetch b).2 := by
  unfold State.blkFetch
  extract_lets k i line
  split
  · split
    · next heq =>
        have hs : Kept W q _ := .of_snd heq h.farAnswer
        exact hs
    · next heq =>
        have hs : Kept W q _ := .of_snd heq h.farAnswer
        extract_lets s1 s2
        have h1 : Kept W q s1 := hs.updBlk
        have h2 : Kept W q s2 := Kept.ite h1.blkFill h1
        exact h2
  · split
    · next heq =>
        have hs : Kept W q _ := .of_snd₂ heq h.check
        split
        · exact hs
        · split
          · next heq1 =>
              have hs1 : Kept W q _ := .of_snd heq1 hs.issue
              exact hs1
          · next heq1 =>
              have hs1 : Kept W q _ := .of_snd heq1 hs.issue
              exact Kept.ite₂ ((Kept.ite hs1.blkFill hs1).snd) hs1.updBlk.snd
    · next heq =>
        have hs : Kept W q _ := .of_snd₂ heq h.check
        exact hs

theorem Kept.blkFault {b code addr dataErr} (h : Kept W q s) : Kept W q (s.blkFault b code addr dataErr) :=
  h.blkCapture.programDone

theorem Kept.blkInstr {b act} (hact : ∀ x0 s, Kept W q s → Kept W q (act x0 s)) (h : Kept W q s) : KeptOut W q (s.blkInstr b act)
    := by
  unfold State.blkInstr
  split
  · exact KeptOut.next h
  · split
    · next heq =>
        have hs : Kept W q _ := .of_snd heq h.blkFetch
        exact KeptOut.next hs
    · next heq =>
        have hs : Kept W q _ := .of_snd heq h.blkFetch
        exact KeptOut.ite (KeptOut.next hs.blkFault) (KeptOut.next (hact _ _ hs))

theorem Kept.blkIllegal {b} (h : Kept W q s) : Kept W q (s.blkIllegal b) := h.blkFault

theorem Kept.blkRange {b off} (h : Kept W q s) : Kept W q (s.blkRange b off) := h.blkFault

theorem Kept.blkGoto {b pc} (h : Kept W q s) : Kept W q (s.blkGoto b pc) := h.updBlk

theorem Kept.blkNext {b} (h : Kept W q s) : Kept W q (s.blkNext b) := h.blkGoto

theorem kept_execMm {b shape fa fb acc accum shingle z sa sb sd ia ib} (h : Kept W q s) : KeptOut W q (execMm b shape fa fb acc
    accum shingle z sa sb sd ia ib s) :=
  h.blkInstr fun _ _ g => by
    extract_lets desc a o p p2
    exact Kept.ite g.blkIllegal (Kept.ite g.blkRange (Kept.ite g.blkRange (Kept.ite g g.updBlk.blkNext)))

theorem Kept.blkMismatch {b p col} (h : Kept W q s) : Kept W q (s.blkMismatch b p col) := by
  unfold State.blkMismatch
  extract_lets s1 s2
  have h1 : Kept W q s1 := h.fsat
  have h2 : Kept W q s2 := h1.capture
  exact h2.poisonTiles.blkEv

theorem kept_execPassEnd {b late bad} (h : Kept W q s) : KeptOut W q (execPassEnd b late bad s) := by
  unfold execPassEnd
  extract_lets base
  split
  · exact KeptOut.next h
  · extract_lets rd out s1 s2 s3 s4
    have h1 : Kept W q s1 := h.foldl fun _ _ g => g.eccWrite
    have h2 : Kept W q s2 := by
      unfold s2
      split
      · exact h1.chipMemError
      · exact h1
    have h3 : Kept W q s3 := by
      unfold s3
      split
      · exact h2.chipMemError.poisonTiles
      · exact h2
    have h4 : Kept W q s4 := by
      unfold s4
      split
      · exact h3.blkMismatch
      · exact h3
    exact KeptOut.next h4.updBlk.blkPend

theorem Kept.vxInstr {b ty act} (hact : ∀ x0 s, Kept W q s → Kept W q (act x0 s)) (h : Kept W q s) : KeptOut W q (s.vxInstr b ty
    act) :=
  h.blkInstr fun _ _ g => Kept.ite g.blkIllegal (hact _ _ g)

theorem Kept.addSticky {b flags} (h : Kept W q s) : Kept W q (s.addSticky b flags) := by
  unfold State.addSticky
  extract_lets k new s1
  have h1 : Kept W q s1 := h.updBlk
  exact Kept.ite h1 h1.blkPend

theorem Kept.vxWrite {b ty mask vd l} (h : Kept W q s) : Kept W q (s.vxWrite b ty mask vd l) := by
  unfold State.vxWrite
  extract_lets k m fl
  exact h.updBlk.addSticky.blkNext

theorem kept_execVxArith {b op ty mask vd va vb vc} (h : Kept W q s) : KeptOut W q (execVxArith b op ty mask vd va vb vc s) :=
  KeptOut.ite (KeptOut.next h) (h.vxInstr fun _ _ g => Kept.ite g.blkIllegal g.vxWrite)

theorem kept_execVxFunction {b op ty mask vd va} (h : Kept W q s) : KeptOut W q (execVxFunction b op ty mask vd va s) :=
  h.vxInstr fun _ _ g => g.vxWrite

theorem kept_execVxCmp {b ty mask vd va vb imm} (h : Kept W q s) : KeptOut W q (execVxCmp b ty mask vd va vb imm s) :=
  h.vxInstr fun _ _ g => by
    extract_lets m r
    exact Kept.ite g.blkIllegal g.updBlk.blkNext

theorem kept_execVxMov {b ty mask vd va} (h : Kept W q s) : KeptOut W q (execVxMov b ty mask vd va s) :=
  h.vxInstr fun _ _ g => g.vxWrite

theorem kept_execRsum {b ty mask vd va} (h : Kept W q s) : KeptOut W q (execRsum b ty mask vd va s) :=
  h.vxInstr fun _ _ g => by
    extract_lets r
    exact g.vxWrite

theorem kept_execRmaxRmin {b least ty mask vd va} (h : Kept W q s) : KeptOut W q (execRmaxRmin b least ty mask vd va s) :=
  h.vxInstr fun _ _ g => by
    extract_lets l r
    exact g.vxWrite

theorem kept_execRargmax {b ty mask vd va} (h : Kept W q s) : KeptOut W q (execRargmax b ty mask vd va s) :=
  h.vxInstr fun _ _ g => by
    extract_lets l best r
    exact g.vxWrite

theorem kept_execSort {b ty mask vd va vc} (h : Kept W q s) : KeptOut W q (execSort b ty mask vd va vc s) :=
  h.vxInstr fun _ _ g => by
    extract_lets l v sorted vals idx m s1
    have h1 : Kept W q s1 := g.updBlk
    exact Kept.ite g.blkIllegal h1.updBlk.blkNext

theorem Kept.spadRead {b off n} (h : Kept W q s) : Kept W q (s.spadRead b off n).2 := by
  have hr (ten t p n) : Kept W q (s.tierRead ten t p n).2.2 := h.tierRead
  delta State.spadRead
  generalize s.tierRead = r at hr ⊢
  as_aux_lemma => exact hr ..

theorem kept_execVxLd {b ty mask vd vc imm} (h : Kept W q s) : KeptOut W q (execVxLd b ty mask vd vc imm s) :=
  h.vxInstr fun _ _ g => by
    extract_lets a r q' v
    exact Kept.ite g.blkRange (Kept.ite g g.spadRead.spadRead.vxWrite)

theorem Kept.spadWrite {b off l} (h : Kept W q s) : Kept W q (s.spadWrite b off l) := by
  have hr (ten t p n) : Kept W q (s.chipWrite ten t p n).2 := h.chipWrite
  conv in @State.spadWrite => delta State.spadWrite
  beta_reduce
  generalize s.chipWrite = r at hr ⊢
  as_aux_lemma => exact hr ..

theorem kept_execVxSt {b ty mask vd vc imm} (h : Kept W q s) : KeptOut W q (execVxSt b ty mask vd vc imm s) :=
  h.vxInstr fun _ _ g => by
    extract_lets a m n
    exact Kept.ite g.blkRange (Kept.ite g ((g.foldl fun _ _ g1 => Kept.ite g1.spadWrite g1).blkNext))

theorem kept_execBcast {b ty mask vd vc} (h : Kept W q s) : KeptOut W q (execBcast b ty mask vd vc s) :=
  h.vxInstr fun _ _ g => g.vxWrite

theorem Kept.blkSet {b sd v} (h : Kept W q s) : Kept W q (s.blkSet b sd v) := h.updBlk.blkNext

theorem kept_execMovs {b ty vd va imm} (h : Kept W q s) : KeptOut W q (execMovs b ty vd va imm s) :=
  h.vxInstr fun _ _ g => by
    extract_lets i v
    exact g.blkSet

theorem kept_execPerm {b ty mask vd va vb} (h : Kept W q s) : KeptOut W q (execPerm b ty mask vd va vb s) :=
  h.vxInstr fun _ _ g => g.vxWrite

theorem kept_execCvt {b ty mask vd va imm} (h : Kept W q s) : KeptOut W q (execCvt b ty mask vd va imm s) :=
  h.vxInstr fun _ _ g => by
    extract_lets c w m out fl dw
    exact Kept.ite g.blkIllegal g.updBlk.addSticky.blkNext

theorem kept_execMxq {b ty mask vd va vb imm} (h : Kept W q s) : KeptOut W q (execMxq b ty mask vd va vb imm s) :=
  h.vxInstr fun _ _ g => by
    extract_lets c xs scales out m fl s1
    have h1 : Kept W q s1 := g.updBlk
    exact Kept.ite g.blkIllegal h1.updBlk.addSticky.blkNext

theorem kept_execAxpy {b ty mask vd va vc} (h : Kept W q s) : KeptOut W q (execAxpy b ty mask vd va vc s) :=
  h.vxInstr fun _ _ g => by
    extract_lets c y
    exact g.vxWrite

theorem kept_execRand {b ty mask vd vc} (h : Kept W q s) : KeptOut W q (execRand b ty mask vd vc s) :=
  h.vxInstr fun _ _ g => by
    extract_lets t' seed logical
    exact g.vxWrite

theorem Kept.dmInstr {b z act} (hact : ∀ x0 s, Kept W q s → Kept W q (act x0 s)) (h : Kept W q s) : KeptOut W q (s.dmInstr b z act)
    :=
  h.blkInstr fun _ _ g => Kept.ite g.blkIllegal (hact _ _ g)

theorem kept_execDmGo {b sa n z imm} (h : Kept W q s) : KeptOut W q (execDmGo b sa n z imm s) :=
  h.dmInstr fun _ _ g => by
    extract_lets a r j
    exact Kept.ite g.blkIllegal (Kept.ite g.blkRange (Kept.ite g g.spadRead.dmaAccept.blkNext))

theorem kept_execDmWait {b z imm} (h : Kept W q s) : KeptOut W q (execDmWait b z imm s) :=
  h.dmInstr fun _ _ g => Kept.ite g g.blkNext

theorem kept_execDmStat {b sd n z} (h : Kept W q s) : KeptOut W q (execDmStat b sd n z s) :=
  h.dmInstr fun _ _ g => by
    split
    · exact g.blkIllegal
    · split
      · exact g.blkSet
      · exact g.blkSet

theorem kept_execDmPart {b sa sb n z} (h : Kept W q s) : KeptOut W q (execDmPart b sa sb n z s) :=
  h.dmInstr fun _ _ g => by
    extract_lets base size meets
    exact Kept.ite g.blkRange (Kept.ite g g.updBlk.blkNext)

theorem kept_execDmRavail {b sd n z} (h : Kept W q s) : KeptOut W q (execDmRavail b sd n z s) :=
  h.dmInstr fun _ _ g => by
    split
    · exact g.blkSet
    · exact g.blkRange

theorem kept_execDmRwait {b n z imm} (h : Kept W q s) : KeptOut W q (execDmRwait b n z imm s) :=
  h.dmInstr fun _ _ g => by
    extract_lets enough
    exact Kept.ite g.blkNext g

theorem kept_execDmRel {b n z imm} (h : Kept W q s) : KeptOut W q (execDmRel b n z imm s) :=
  h.dmInstr fun _ _ g => by
    split
    · extract_lets s1
      have h1 : Kept W q s1 := Kept.ite g.blkCapture g
      exact Kept.ite g.blkRange h1.updBlk.blkNext
    · exact g.blkRange

theorem Kept.ctlServe {id} (h : Kept W q s) : Kept W q (s.ctlServe id) := by
  unfold State.ctlServe
  grind only [← Kept.regRead, ← Kept.regWrite, ← Kept.updReq, ← Kept.foldl, ← Kept.foldl₂, ← Kept.foldl₃]

theorem Kept.updJob {id f} (h : Kept W q s) : Kept W q (s.updJob id f) := h.upd

theorem Kept.dmaFail {id st addr} (h : Kept W q s) : Kept W q (s.dmaFail id st addr) := by
  unfold State.dmaFail
  split
  · exact h
  · extract_lets st2 s1
    have h1 : Kept W q s1 := h.updJob
    split
    · exact h1.blkCapture
    · exact h1.distEv

theorem Kept.reduceLine {i reduce a l} (h : Kept W q s) : Kept W q (s.reduceLine i reduce a l).2 := by
  unfold State.reduceLine
  split
  · next heq =>
      have hs : Kept W q _ := .of_snd₂ heq h.check
      extract_lets r
      exact Kept.ite₂ hs.tierRead.snd hs.tierRead.tierWrite
  · next heq =>
      have hs : Kept W q _ := .of_snd₂ heq h.check
      exact hs
  · next heq =>
      have hs : Kept W q _ := .of_snd₂ heq h.check
      exact hs

section Engines

variable {α β : Type}

theorem EngKept.pure {a : α} : EngKept W q (Pure.pure a : Eng α) := fun _ h => h

theorem EngKept.bind {m : Eng α} {f : α → Eng β} (hm : EngKept W q m) (hf : ∀ a, EngKept W q (f a)) : EngKept W q (m >>= f) := by
  intro e h
  have hme := hm e h
  rw [OptionT.run_bind, Option.elimM, StateT.run_bind]
  cases hr : StateT.run (OptionT.run m) e with
  | mk o e' =>
    rw [hr] at hme
    cases o with
    | none => exact hme
    | some a => exact hf a e' hme

theorem EngKept.op {f : State → Option (Nat × List Byte) × State} (hf : ∀ s, Kept W q s → Kept W q (f s).2) : EngKept W q (Eng.op
    f) := by
  rintro ⟨past, all, dev⟩ h
  have hd := hf dev h
  cases past with
  | cons x t => exact h
  | nil =>
    cases hr : f dev with
    | mk o u =>
      rw [hr] at hd
      cases o <;> simpa [Eng.op, StateT.run, hr] using hd

/-- A computation that goes on only with a result. -/
theorem EngKept.bindSome {m : Eng (Option α)} {f : Option α → Eng β} (hm : EngKept W q m) (hnone : EngKept W q (f none))
    (hsome : ∀ a, EngKept W q (f (some a))) : EngKept W q (m >>= f) :=
  .bind hm fun o => by
    cases o with
    | none => exact hnone
    | some a => exact hsome a

theorem EngKept.foldlM {l : List α} {f : β → α → Eng β} {b : β} (hf : ∀ b x, EngKept W q (f b x)) : EngKept W q (l.foldlM f b) := by
  induction l generalizing b with
  | nil => exact .pure
  | cons x l ih => rw [List.foldlM_cons]; exact .bind (hf b x) fun _ => ih

/-- A fold that stops once it has no result. -/
theorem EngKept.foldlMSome {l : List α} {f : Option β → α → Eng (Option β)} {o : Option β} (hnone : ∀ x, EngKept W q (f none x))
    (hsome : ∀ b x, EngKept W q (f (some b) x)) : EngKept W q (l.foldlM f o) :=
  .foldlM fun o x => by
    cases o with
    | none => exact hnone x
    | some b => exact hsome b x

theorem EngKept.ite {c : Prop} [Decidable c] {m n : Eng α} (hm : EngKept W q m) (hn : EngKept W q n) :
    EngKept W q (if c then m else n) := by
  split
  · exact hm
  · exact hn

theorem Kept.go {m : Eng α} {log : Log} (hm : EngKept W q m) (h : Kept W q s) : Kept W q (m.go log s).2.2 := by
  have he := hm { past := log, all := log, dev := s } h
  unfold Eng.go
  generalize StateT.run (OptionT.run m) _ = r at he ⊢
  obtain ⟨_ | a, e⟩ := r <;> exact he


end Engines

theorem EngKept.wait {p : State → Bool} : EngKept W q (Eng.wait p) := by
  refine .bind (.op fun _ h => ?_) fun _ => .pure
  split <;> exact h

theorem EngKept.act {f : State → State} (hf : ∀ s, Kept W q s → Kept W q (f s)) : EngKept W q (Eng.act f) :=
  .bind (.op hf) fun _ => .pure

theorem EngKept.pool {a b} : EngKept W q (Eng.pool a b) := by
  unfold Eng.pool
  grind only [← EngKept.bind, ← EngKept.pure, ← EngKept.foldlM, ← EngKept.wait, ← EngKept.act, ← Kept.updJob]

theorem EngKept.request {i k key a n data comb} : EngKept W q (Eng.request i k key a n data comb) := by
  unfold Eng.request
  grind only [← EngKept.bind, ← EngKept.pure, ← EngKept.op, ← Kept.issue, ← Kept.fabDrop, ← Kept.nvmeDrop]

theorem EngKept.noteFar {a b} : EngKept W q (Eng.noteFar a b) := by
  unfold Eng.noteFar
  grind only [← EngKept.bind, ← EngKept.pure, ← EngKept.foldlM, ← EngKept.act, ← Kept.updJob]

theorem EngKept.unpool {a b} : EngKept W q (Eng.unpool a b) := by
  unfold Eng.unpool
  grind only [← EngKept.bind, ← EngKept.pure, ← EngKept.foldlM, ← EngKept.act, ← Kept.updJob]

theorem EngKept.dmaRead {a b c d} : EngKept W q (Eng.dmaRead a b c d) := by
  unfold Eng.dmaRead
  refine .foldlMSome (fun _ => .pure) fun l p => ?_
  refine .bind .pool fun _ => .bind .request fun r => .bind .noteFar fun _ => ?_
  exact .ite (.bind (.act fun _ h => h.dmaFail) fun _ => .pure) (.ite .pure (.bind .unpool fun _ => .pure))

theorem EngKept.dmaSkew {a} : EngKept W q (Eng.dmaSkew a) := by
  unfold Eng.dmaSkew
  refine .bindSome (.foldlMSome (fun _ => .pure) fun l r => ?_) .pure fun l => .act fun _ h => h.updJob
  exact .bindSome .dmaRead .pure fun b => .pure

theorem EngKept.dmaRow {a b} : EngKept W q (Eng.dmaRow a b) := by
  unfold Eng.dmaRow
  grind only [← EngKept.bind, ← EngKept.pure, ← EngKept.foldlM, ← EngKept.dmaRead]

theorem EngKept.dmaCheck {a} : EngKept W q (Eng.dmaCheck a) := by
  unfold Eng.dmaCheck
  refine .bindSome (.foldlMSome (fun _ => .pure) fun ok r => ?_) .pure fun ok => ?_
  · exact .bindSome .dmaRow .pure fun p => .pure
  · cases ok with
    | true => exact .act fun _ h => h.updJob
    | false => exact .act fun _ h => h.updJob.dmaReject

theorem EngKept.dmaPiece {a b c} : EngKept W q (Eng.dmaPiece a b c) := by
  unfold Eng.dmaPiece
  grind only [← EngKept.bind, ← EngKept.pure, ← EngKept.foldlM, ← EngKept.dmaRow, ← EngKept.dmaRead]

theorem EngKept.dmaUnit {a} : EngKept W q (Eng.dmaUnit a) := by
  unfold Eng.dmaUnit
  have hmove {l} : EngKept W q (Eng.act fun s => s.updJob a.id fun x => { x with ringUnit := some l }) := .act fun _ h => h.updJob
  cases a.skewed with
  | some l => exact .bindSome .pure .pure fun _ => hmove
  | none =>
    refine .bindSome (.foldlMSome (fun _ => .pure) fun l _ => ?_) .pure fun _ => hmove
    exact .ite .pure (.bindSome .dmaPiece .pure fun _ => .pure)

theorem EngKept.num {f : State → Nat} : EngKept W q (Eng.num f) := .bind (.op fun _ h => h) fun _ => .pure

theorem EngKept.dmaWrite {a b c} : EngKept W q (Eng.dmaWrite a b c) := by
  unfold Eng.dmaWrite
  grind only [← EngKept.bind, ← EngKept.pure, ← EngKept.foldlM, ← EngKept.noteFar, ← EngKept.act, ← Kept.dmaFail, ← Kept.updJob, ←
      EngKept.request, ← EngKept.op, ← Kept.reduceLine]

theorem EngKept.dmaChunk {a} : EngKept W q (Eng.dmaChunk a) := by
  unfold Eng.dmaChunk
  grind only [← EngKept.bind, ← EngKept.pure, ← EngKept.foldlM, ← EngKept.dmaSkew, ← EngKept.dmaCheck, ← EngKept.dmaUnit, ←
      EngKept.num, ← EngKept.dmaWrite, ← EngKept.dmaPiece]

theorem Kept.dmaMove {id} (h : Kept W q s) : Kept W q (s.dmaMove id) := by
  unfold State.dmaMove
  split
  · exact h
  · extract_lets r
    exact Kept.ite h ((h.go .dmaChunk).updJob)

theorem Kept.dmaMoves {op id n} (h : Kept W q s) : Kept W q (s.dmaMoves op id n) := by
  have hrepeat (f : State → State) (hf : ∀ s, Kept W q s → Kept W q (f s)) (s : State) (g : Kept W q s) : Kept W q (Nat.repeat f n
      s) := by
    induction n with
    | zero => exact g
    | succ n ih => exact hf _ ih
  unfold State.dmaMoves
  split
  · split
    · exact hrepeat _ (fun _ g => g.dmaMove.ctlServe) s h
    · exact h
  · exact h

theorem kept_execDmaCopy {id n now} (h : Kept W q s) : KeptOut W q (execDmaCopy id n now s) := KeptOut.next h.at.dmaMoves

theorem kept_execDmaSkew {id n now} (h : Kept W q s) : KeptOut W q (execDmaSkew id n now s) := KeptOut.next h.at.dmaMoves

theorem kept_execDmaGather {id n now} (h : Kept W q s) : KeptOut W q (execDmaGather id n now s) := KeptOut.next h.at.dmaMoves

theorem kept_execDmaDispatch {id n now} (h : Kept W q s) : KeptOut W q (execDmaDispatch id n now s) :=
  KeptOut.next h.at.dmaMoves

theorem kept_execDmaFill {id n now} (h : Kept W q s) : KeptOut W q (execDmaFill id n now s) := KeptOut.next h.at.dmaMoves

theorem kept_execDmaReadIssue {d c n now} (h : Kept W q s) : KeptOut W q (execDmaReadIssue d c n now s) := by
  unfold execDmaReadIssue
  extract_lets s1
  have h1 : Kept W q s1 := h.at
  split
  · exact KeptOut.next h1
  · extract_lets s2 use
    have h2 : Kept W q s2 := h1.updJob
    exact KeptOut.ite (KeptOut.next h1) (KeptOut.next h2.fset)

theorem kept_execRingUnitWrite {id now} (h : Kept W q s) : KeptOut W q (execRingUnitWrite id now s) := by
  unfold execRingUnitWrite
  dsimp only
  (repeat' split) <;> grind only [← Kept.at, ← Kept.issue, ← Kept.reduceLine, ← Kept.dmaFail, ← Kept.updBlk, ← Kept.blkPend, ←
      Kept.updJob, ← KeptOut.next, ← Kept.go]

theorem Kept.sendPost {src ten target ctr value after} (h : Kept W q s) : Kept W q (s.sendPost src ten target ctr value after) :=
  h.upd

theorem kept_execDmaDescriptorComplete {id now} (h : Kept W q s) : KeptOut W q (execDmaDescriptorComplete id now s) := by
  unfold execDmaDescriptorComplete
  extract_lets s1 s2
  have h1 : Kept W q s1 := h.at
  have h2 : Kept W q s2 := h1.upd
  split
  · exact KeptOut.next h1
  · extract_lets first st src s3
    have h3 : Kept W q s3 := Kept.ite h2.sendPost h2
    split
    · exact KeptOut.next h1
    · split
      · extract_lets s4 s5
        have h4 : Kept W q s4 := h3.updBlk
        have h5 : Kept W q s5 := Kept.ite h4.blkPend h4
        exact KeptOut.next (Kept.ite h5.blkPend h5)
      · extract_lets s4 s5
        have h4 : Kept W q s4 := h3.fsets
        have h5 : Kept W q s5 := Kept.ite h4 h4.captureFirst
        exact KeptOut.next (Kept.ite h5.srcEvent h5)

theorem kept_execSyPost {b sb blk useReg ctr z value} (h : Kept W q s) : KeptOut W q (execSyPost b sb blk useReg ctr z value s) :=
  h.blkInstr fun _ _ g => Kept.ite g.blkIllegal g.sendPost.blkNext

theorem kept_execSyPostf {b sb blk useReg ctr z value} (h : Kept W q s) : KeptOut W q (execSyPostf b sb blk useReg ctr z value s) :=
  h.blkInstr fun _ _ g => Kept.ite g.blkIllegal g.sendPost.blkNext

theorem kept_execSyWait {b ctr z value} (h : Kept W q s) : KeptOut W q (execSyWait b ctr z value s) :=
  h.blkInstr fun _ _ g => Kept.ite g.blkIllegal (Kept.ite g g.blkNext)

theorem kept_execSyRdc {b sd ctr z} (h : Kept W q s) : KeptOut W q (execSyRdc b sd ctr z s) :=
  h.blkInstr fun _ _ g => Kept.ite g.blkIllegal g.blkSet

theorem kept_execPostArrive {n} (h : Kept W q s) : KeptOut W q (execPostArrive n s) := by
  unfold execPostArrive
  extract_lets s1
  have h1 : Kept W q s1 := h.upd
  split
  · exact KeptOut.next h
  · split
    · exact KeptOut.next h
    · split
      · extract_lets s2
        have h2 : Kept W q s2 := h1.fsat
        exact KeptOut.next (Kept.ite h2 h2.blkPend)
      · exact KeptOut.ite (KeptOut.next h1.blkCapture) (KeptOut.next h1.blkEv)

theorem Kept.ctInstr {b z act} (hact : ∀ x0 s, Kept W q s → Kept W q (act x0 s)) (h : Kept W q s) : KeptOut W q (s.ctInstr b z act)
    :=
  h.blkInstr fun _ _ g => Kept.ite g.blkIllegal (hact _ _ g)

theorem kept_execCtAlu {b w sd sa sb z} (h : Kept W q s) : KeptOut W q (execCtAlu b w sd sa sb z s) := by
  unfold execCtAlu
  extract_lets op
  exact KeptOut.ite (h.ctInstr fun _ _ g => g.blkSet) (KeptOut.ite (h.blkInstr fun _ _ g => g.blkIllegal) (KeptOut.next h))

theorem kept_execCtAddi {b sd sa z imm} (h : Kept W q s) : KeptOut W q (execCtAddi b sd sa z imm s) :=
  h.ctInstr fun _ _ g => g.blkSet

theorem kept_execCtLi {b sd z imm} (h : Kept W q s) : KeptOut W q (execCtLi b sd z imm s) := h.ctInstr fun _ _ g => g.blkSet

theorem kept_execCtLih {b sd z imm} (h : Kept W q s) : KeptOut W q (execCtLih b sd z imm s) := h.ctInstr fun _ _ g => g.blkSet

theorem kept_execCtLd {b sd sa z imm} (h : Kept W q s) : KeptOut W q (execCtLd b sd sa z imm s) :=
  h.ctInstr fun _ _ g => by
    extract_lets a r
    exact Kept.ite g.blkRange (Kept.ite g g.spadRead.blkSet)

theorem kept_execCtSt {b sa sb z imm} (h : Kept W q s) : KeptOut W q (execCtSt b sa sb z imm s) :=
  h.ctInstr fun _ _ g => by
    extract_lets a
    exact Kept.ite g.blkRange (Kept.ite g g.spadWrite.blkNext)

theorem kept_execCtBranch {b cc sa sb z imm} (h : Kept W q s) : KeptOut W q (execCtBranch b cc sa sb z imm s) :=
  h.ctInstr fun _ _ g => Kept.ite g.blkGoto g.blkNext

theorem kept_execCtJ {b z imm} (h : Kept W q s) : KeptOut W q (execCtJ b z imm s) := h.ctInstr fun _ _ g => g.blkGoto

theorem kept_execCtJr {b sa z imm} (h : Kept W q s) : KeptOut W q (execCtJr b sa z imm s) :=
  h.ctInstr fun _ _ g => by
    extract_lets a
    exact Kept.ite g.blkRange g.blkGoto

theorem kept_execCtEnd {b z} (h : Kept W q s) : KeptOut W q (execCtEnd b z s) :=
  h.ctInstr fun _ _ g => Kept.ite g g.updBlk.programDone

theorem kept_execCtIret {b z} (h : Kept W q s) : KeptOut W q (execCtIret b z s) := h.ctInstr fun _ _ g => g.updBlk.blkGoto

theorem kept_execCtSetv {b sa z imm} (h : Kept W q s) : KeptOut W q (execCtSetv b sa z imm s) :=
  h.ctInstr fun _ _ g => by
    extract_lets v
    exact Kept.ite g.blkRange g.updBlk.blkNext

theorem kept_execCtIen {b z imm} (h : Kept W q s) : KeptOut W q (execCtIen b z imm s) := h.ctInstr fun _ _ g => g.updBlk.blkNext

theorem kept_execCtIclr {b z imm} (h : Kept W q s) : KeptOut W q (execCtIclr b z imm s) :=
  h.ctInstr fun _ _ g => g.updBlk.blkNext

theorem kept_execCtIe {b z imm} (h : Kept W q s) : KeptOut W q (execCtIe b z imm s) := h.ctInstr fun _ _ g => g.updBlk.blkNext

theorem kept_execCtTset {b z imm} (h : Kept W q s) : KeptOut W q (execCtTset b z imm s) :=
  h.ctInstr fun _ _ g => g.updBlk.blkNext

theorem kept_execCtRds {b sd z imm} (h : Kept W q s) : KeptOut W q (execCtRds b sd z imm s) :=
  h.ctInstr fun _ _ g => by
    split
    · exact g.blkSet
    · exact g.blkSet
    · exact g.blkSet
    · exact g.blkSet
    · exact g.blkSet
    · exact g.blkIllegal

theorem kept_execBlockTimerZero {b} (h : Kept W q s) : KeptOut W q (execBlockTimerZero b s) :=
  KeptOut.ite (KeptOut.next h) (KeptOut.next h.updBlk.blkPend)

theorem kept_execLocalInterruptEntry {b} (h : Kept W q s) : KeptOut W q (execLocalInterruptEntry b s) := by
  unfold execLocalInterruptEntry
  extract_lets k
  split
  · exact KeptOut.ite (KeptOut.next h.updBlk) (KeptOut.next h)
  · exact KeptOut.next h

theorem kept_execBlkSoftInt {w b v now} (h : Kept W q s) : KeptOut W q (execBlkSoftInt w b v now s) :=
  KeptOut.next h.at.ctlWrite

theorem kept_execBlkHaltReq {w b v now} (h : Kept W q s) : KeptOut W q (execBlkHaltReq w b v now s) :=
  KeptOut.next h.at.ctlWrite

theorem Kept.gaPop {d} (h : Kept W q s) : Kept W q (s.gaPop d) := h.updGa

theorem Kept.gaHead {d} (h : Kept W q s) : Kept W q (s.gaHead d).2 := by
  unfold State.gaHead
  extract_lets bad s1
  have h1 : Kept W q s1 := h.foldl fun _ _ g => g.gaPop
  split
  · exact h
  · exact h1

theorem Kept.gaReject {d ten e reason} (h : Kept W q s) : Kept W q (s.gaReject d ten e reason) := by
  unfold State.gaReject
  extract_lets i
  exact h.gaPop.gaSignal.gaErr

theorem Kept.gaEmulate {d} (h : Kept W q s) : Kept W q (s.gaEmulate d) := by
  unfold State.gaEmulate
  split
  · next heq =>
      have hs : Kept W q _ := .of_snd heq h.gaHead
      exact hs
  · next heq =>
      have hs : Kept W q _ := .of_snd heq h.gaHead
      extract_lets l q' i s1
      have h1 : Kept W q s1 := hs.gaPop.updDist
      exact Kept.ite hs.gaReject (Kept.ite hs.gaPop.gaErr (Kept.ite hs h1.updRun))

theorem EngKept.read {i k key a n b} : EngKept W q (Eng.read i k key a n b) := by
  unfold Eng.read
  grind only [← EngKept.bind, ← EngKept.pure, ← EngKept.foldlM, ← EngKept.request]

theorem kept_execGaListFetch {d now} (h : Kept W q s) : KeptOut W q (execGaListFetch d now s) := by
  unfold execGaListFetch
  extract_lets s1 g' i
  have h1 : Kept W q s1 := h.at
  split
  · exact KeptOut.next h1
  · extract_lets s2
    have h2 : Kept W q s2 := by
      unfold s2
      split
      · split
        · next heq =>
            have hs : Kept W q _ := .of_snd₂ heq (h1.go .read)
            exact hs.updGa
        · next heq =>
            have hs : Kept W q _ := .of_snd₂ heq (h1.go .read)
            extract_lets s3
            have h3 : Kept W q s3 := Kept.ite hs hs.gaErr
            exact h3.updGa
      · exact h1
    exact KeptOut.next (Kept.ite h2.gaEmulate h2)

theorem Kept.gaIssue {d k act} (hact : ∀ x0 x1 s, Kept W q s → Kept W q (act x0 x1 s)) (h : Kept W q s) : Kept W q (s.gaIssue d k
    act) := by
  unfold State.gaIssue
  split
  · next heq =>
      have hs : Kept W q _ := .of_snd heq h.gaHead
      exact hs
  · next heq =>
      have hs : Kept W q _ := .of_snd heq h.gaHead
      extract_lets r
      exact Kept.ite hs (Kept.ite hs.gaReject (hact _ _ _ hs))

theorem kept_execGaPass {d now} (h : Kept W q s) : KeptOut W q (execGaPass d now s) :=
  KeptOut.next (h.at.gaIssue fun _ _ _ g => by
    extract_lets p g' p2
    exact Kept.ite g g.gaPop.updGa)

theorem kept_execGaConvert {d now} (h : Kept W q s) : KeptOut W q (execGaConvert d now s) :=
  KeptOut.next (h.at.gaIssue fun _ _ _ g => by
    extract_lets c g'
    exact Kept.ite g g.gaPop.updGa)

theorem kept_execGaNop {d now} (h : Kept W q s) : KeptOut W q (execGaNop d now s) :=
  KeptOut.next (h.at.gaIssue fun _ _ _ g => g.gaPop.gaComplete)

theorem Kept.gaPoison {d l} (h : Kept W q s) : Kept W q (s.gaPoison d l) := h.foldl fun _ _ g => g.rbit

theorem Kept.gaParity {d ten index words} (h : Kept W q s) : Kept W q (s.gaParity d ten index words) :=
  h.foldl fun _ _ g => g.rbit.gaErr

theorem Kept.gaMismatch {d ten p col} (h : Kept W q s) : Kept W q (s.gaMismatch d ten p col) := by
  unfold State.gaMismatch
  extract_lets s1 s2 s3
  have h1 : Kept W q s1 := h.fsat
  have h2 : Kept W q s2 := h1.capture
  have h3 : Kept W q s3 := h2.gaPoison.capture
  exact h3.distEv

theorem kept_execGaPassEnd {d late bad now} (h : Kept W q s) : KeptOut W q (execGaPassEnd d late bad now s) := by
  unfold execGaPassEnd
  extract_lets s1 base
  have h1 : Kept W q s1 := h.at
  split
  · exact KeptOut.next h1
  · extract_lets rd out weak s2 s3 s4 s5 s6 s7
    have h2 : Kept W q s2 := h1.foldl fun _ _ g => g.eccWrite
    have h3 : Kept W q s3 := h2.mend.eccCount
    have h4 : Kept W q s4 := Kept.ite h3 h3.gaPoison.gaErr
    have h5 : Kept W q s5 := h4.gaParity
    have h6 : Kept W q s6 := by
      unfold s6
      split
      · exact h5.gaMismatch
      · exact h5
    have h7 : Kept W q s7 := h6.fadd
    exact KeptOut.next h7.updGa.gaComplete

theorem kept_execGaConvertEnd {d now} (h : Kept W q s) : KeptOut W q (execGaConvertEnd d now s) := by
  unfold execGaConvertEnd
  extract_lets s1
  have h1 : Kept W q s1 := h.at
  split
  · exact KeptOut.next h1
  · extract_lets v s2 s3
    have h2 : Kept W q s2 := h1.foldl fun _ _ g => by
      extract_lets o s4
      have h4 : Kept W q s4 := g.chipWrite
      exact Kept.ite h4 h4.chipWrite
    have h3 : Kept W q s3 := h2.gaParity
    exact KeptOut.next h3.updGa.gaComplete

theorem kept_execGaHaltReq {w d v now} (h : Kept W q s) : KeptOut W q (execGaHaltReq w d v now s) := KeptOut.next h.at.ctlWrite

theorem Kept.updRe {d f} (h : Kept W q s) : Kept W q (s.updRe d f) := h.updDist

theorem Kept.updReRun {d f} (h : Kept W q s) : Kept W q (s.updReRun d f) := h.updRe

theorem Kept.reFail {d code reason status detail dataErr} (h : Kept W q s) : Kept W q (s.reFail d code reason status detail
    dataErr) := by
  unfold State.reFail
  split
  · exact h
  · exact h.updReRun.reErr.distEv

theorem Kept.reStart {d op reason use} (huse : ∀ s x1, Kept W q s → Kept W q (use s x1)) (h : Kept W q s) : Kept W q (s.reStart d
    op reason use) := by
  unfold State.reStart
  extract_lets c
  split
  · extract_lets r s1 why
    have h1 : Kept W q s1 := h.updRe
    exact Kept.ite h (Kept.ite h1.reFail (huse _ _ h1))
  · exact h

theorem Kept.useWork {d off n} (h : Kept W q s) : Kept W q (s.useWork d off n) := by
  unfold State.useWork
  extract_lets k
  exact h.eccWrite.tickFree.updReRun

theorem Kept.reScrub {d} (h : Kept W q s) : Kept W q (s.reScrub d) := by
  unfold State.reScrub
  split
  · exact h
  · extract_lets a weak s1
    have h1 : Kept W q s1 := Kept.ite h h.mend.eccCount
    exact Kept.ite h1 h1.reFail

theorem Kept.reGo {d op phases m} (h : Kept W q s) (hm : ∀ r, EngKept W q (m r)) : Kept W q (s.reGo d op phases m) := by
  unfold State.reGo
  split
  · exact h
  · split
    · exact h
    · extract_lets s1
      have h1 : Kept W q s1 := h.reScrub
      split
      · exact h1
      · split
        · exact h1
        · exact (h1.go (hm _)).updReRun

theorem Kept.overrunWarn {d ten} (h : Kept W q s) : Kept W q (s.overrunWarn d ten) := by
  unfold State.overrunWarn
  extract_lets s1 s2 s3
  have h1 : Kept W q s1 := h.updReRun.fset
  have h2 : Kept W q s2 := h1.srcEvent.srcEvent
  have h3 : Kept W q s3 := by
    unfold s3
    split
    · exact h2.updRun
    · exact h2
  exact h3.distEv

theorem Kept.routeLimit {d j maxBlock} (h : Kept W q s) : Kept W q (s.routeLimit d j maxBlock).2 := by
  unfold State.routeLimit
  extract_lets idx
  split
  · exact h
  · extract_lets base q' s1 n x lim lim2 s2 lim3 a b
    have h1 : Kept W q s1 := h.busWord
    have h2 : Kept W q s2 := Kept.ite h1.overrunWarn h1
    exact Kept.ite₂ h (Kept.ite₂ h1.battenLost.snd (Kept.ite₂ (Kept.ite₂ h1.busRead.battenLost.snd ((Kept.ite
        h1.busRead.overrunWarn h1.busRead).snd)) (Kept.ite₂ h2.busWrite.busWrite.battenLost.snd h2.busWrite.busWrite.snd)))

theorem Kept.routeCounts {d j x limit maxBlock} (h : Kept W q s) : Kept W q (s.routeCounts d j x limit maxBlock) := by
  unfold State.routeCounts
  extract_lets deferredAt residual list s1
  have h1 : Kept W q s1 := h.updReRun
  exact h1.fsat.fsat

theorem Kept.publish {d ten words} (h : Kept W q s) : Kept W q (s.publish d ten words) := h.updRm

theorem EngKept.reRead {a b c d e f} : EngKept W q (Eng.reRead a b c d e f) := by
  unfold Eng.reRead
  grind only [← EngKept.bind, ← EngKept.pure, ← EngKept.foldlM, ← EngKept.read, ← EngKept.act, ← Kept.reFail]

theorem EngKept.routeLoad {a b} : EngKept W q (Eng.routeLoad a b) := by
  unfold Eng.routeLoad
  grind only [← EngKept.bind, ← EngKept.pure, ← EngKept.foldlM, ← EngKept.reRead, ← EngKept.act, ← Kept.updReRun]

theorem EngKept.write {a b c d e} : EngKept W q (Eng.write a b c d e) := by
  unfold Eng.write
  grind only [← EngKept.bind, ← EngKept.pure, ← EngKept.foldlM, ← EngKept.request]

theorem EngKept.reWrite {a b c d} : EngKept W q (Eng.reWrite a b c d) := by
  unfold Eng.reWrite
  grind only [← EngKept.bind, ← EngKept.pure, ← EngKept.foldlM, ← EngKept.num, ← EngKept.write, ← EngKept.act, ← Kept.reFail]

theorem EngKept.demandList {a b c} : EngKept W q (Eng.demandList a b c) := by
  unfold Eng.demandList
  grind only [← EngKept.bind, ← EngKept.pure, ← EngKept.foldlM, ← EngKept.reWrite, ← EngKept.act, ← Kept.updReRun, ← EngKept.num, ←
      Kept.publish]

theorem EngKept.dispatchList {a b c d} : EngKept W q (Eng.dispatchList a b c d) := by
  unfold Eng.dispatchList
  grind only [← EngKept.bind, ← EngKept.pure, ← EngKept.foldlM, ← EngKept.reWrite, ← EngKept.num, ← EngKept.act, ← Kept.updReRun, ←
      Kept.updRe]

theorem EngKept.routePlan {a b} : EngKept W q (Eng.routePlan a b) := by
  unfold Eng.routePlan
  refine .bind .num fun bpe => .bind (.op fun s h => h.routeLimit) fun lim => .bind (.act fun s h => h.routeCounts) fun _ => ?_
  refine .bind .demandList fun ok => .ite .pure (.bind (.act fun _ h => h.updReRun) fun _ => .bind .dispatchList fun ok => ?_)
  exact .ite .pure (.act fun _ h => h.updReRun)

theorem kept_execRoute {d now} (h : Kept W q s) : KeptOut W q (execRoute d now s) := by
  unfold execRoute
  extract_lets s1 s2 s3
  have h1 : Kept W q s1 := h.at
  have h2 : Kept W q s2 := h1.reStart fun _ _ g => g.useWork
  have h3 : Kept W q s3 := h2.reGo fun _ => .routeLoad
  exact KeptOut.next (h3.reGo fun _ => .routePlan)

theorem EngKept.routeToken {a b} : EngKept W q (Eng.routeToken a b) := by
  unfold Eng.routeToken
  grind only [← EngKept.bind, ← EngKept.pure, ← EngKept.foldlM, ← EngKept.reRead, ← EngKept.act, ← Kept.updReRun]

theorem Kept.chunkToken {d c} (h : Kept W q s) : Kept W q (s.chunkToken d c) := by
  unfold State.chunkToken
  extract_lets s1
  have h1 : Kept W q s1 := h.reGo fun _ => .routeToken
  split
  · exact h
  · extract_lets j
    split
    · exact h
    · split
      · exact h1
      · extract_lets last s2
        have h2 : Kept W q s2 := Kept.ite h1.evcAdd h1
        exact Kept.ite h1 (Kept.ite h2.updReRun h2)

theorem kept_execRouteChunkSelect {d now} (h : Kept W q s) : KeptOut W q (execRouteChunkSelect d now s) := by
  unfold execRouteChunkSelect
  extract_lets s1
  have h1 : Kept W q s1 := h.at
  split
  · exact KeptOut.next h1
  · extract_lets c
    exact KeptOut.ite (KeptOut.next h1) (KeptOut.next (h1.foldl fun _ _ g => g.chunkToken))

theorem EngKept.neuronTokens {a b c d e f g} : EngKept W q (Eng.neuronTokens a b c d e f g) := by
  unfold Eng.neuronTokens
  refine .foldlMSome (fun _ => .pure) fun on i => .bindSome .reRead .pure fun l => ?_
  exact .bindSome .reRead .pure fun x => .pure

theorem EngKept.neuronEntry {a b c d} : EngKept W q (Eng.neuronEntry a b c d) := by
  unfold Eng.neuronEntry
  refine .bindSome .reRead .pure fun l => .bindSome .reRead .pure fun sk => .bindSome .neuronTokens .pure fun on => ?_
  refine .bind .reWrite fun ok => .ite .pure (.bind .reWrite fun ok => .ite .pure ?_)
  refine .bind .num fun k => .bind (.act fun s h => ?_) fun _ => .pure
  grind only [← Kept.updReRun, ← Kept.publish]

theorem EngKept.neuronRun {a b} : EngKept W q (Eng.neuronRun a b) := by
  unfold Eng.neuronRun
  refine .bindSome .reRead .pure fun l => .ite (.act fun _ h => h.reFail) (.ite (.act fun _ h => h.reFail) ?_)
  refine .bind (.act fun _ h => h.useWork.updReRun) fun _ => .bindSome .reRead .pure fun l => .bind (.foldlM fun ok i => ?_) fun ok
      => ?_
  · exact .ite .neuronEntry .pure
  · exact .ite (.act fun _ h => h.updReRun) .pure

theorem kept_execNeuron {d now} (h : Kept W q s) : KeptOut W q (execNeuron d now s) := by
  unfold execNeuron
  extract_lets s1
  have h1 : Kept W q s1 := h.at.reStart fun _ _ g => g
  exact KeptOut.next (h1.reGo fun _ => .neuronRun)

theorem Kept.gatherRowsDone {d} (h : Kept W q s) : Kept W q (s.gatherRowsDone d) := by
  unfold State.gatherRowsDone
  split
  · exact Kept.ite h (Kept.ite h.updReRun h.updReRun)
  · exact h

theorem EngKept.gatherSort {a b} : EngKept W q (Eng.gatherSort a b) := by
  unfold Eng.gatherSort
  grind only [← EngKept.bind, ← EngKept.pure, ← EngKept.foldlM, ← EngKept.reRead, ← EngKept.reWrite, ← EngKept.act, ← Kept.updReRun]

theorem kept_execReGather {d now} (h : Kept W q s) : KeptOut W q (execReGather d now s) := by
  unfold execReGather
  extract_lets s1
  have h1 : Kept W q s1 := h.at.reStart fun _ _ g => g.useWork
  exact KeptOut.next ((h1.reGo fun _ => .gatherSort).gatherRowsDone)

theorem Kept.linePlaces {i a n} (h : Kept W q s) : Kept W q (s.linePlaces i a n).2.2 :=
  h.foldl₃ fun _ _ g => by
    split
    · exact g
    · split
      · next heq =>
          have hs : Kept W q _ := .of_snd₂ heq g.check
          exact hs
      · next heq =>
          have hs : Kept W q _ := .of_snd₂ heq g.check
          exact hs
      · next heq =>
          have hs : Kept W q _ := .of_snd₂ heq g.check
          exact hs

theorem Kept.issueLines {i key a n} (h : Kept W q s) : Kept W q (s.issueLines i key a n).2 := by
  unfold State.issueLines
  split
  · next heq =>
      have hs : Kept W q _ := .of_snd₂ heq h.linePlaces
      extract_lets ps
      split
      · exact hs
      · split
        · next heq1 =>
            have hs1 : Kept W q _ := .of_snd heq1 hs.shaped
            exact hs1
        · next heq1 =>
            have hs1 : Kept W q _ := .of_snd heq1 hs.shaped
            extract_lets r
            exact (hs1.foldl₃ fun _ _ g => by
              extract_lets r2
              exact Kept.ite₃ g g.tierRead.snd₂).snd
  · next heq =>
      have hs : Kept W q _ := .of_snd₂ heq h.linePlaces
      exact hs

theorem EngKept.readOne {i k key a n} : EngKept W q (Eng.readOne i k key a n) := by
  unfold Eng.readOne
  grind only [← EngKept.bind, ← EngKept.pure, ← EngKept.op, ← EngKept.foldlM, ← EngKept.request, ← Kept.issueLines]

theorem EngKept.gatherRow {a b} : EngKept W q (Eng.gatherRow a b) := by
  unfold Eng.gatherRow
  dsimp only
  cases b.uniq[b.rows.length]? with
  | none => exact .pure
  | some x =>
    refine .bind .readOne fun r => ?_
    refine .ite ?row (.bind (.act fun _ h => h.updReRun.reErr.distEv) fun _ => ?row)
    exact .bind .reWrite fun ok => .ite (.act fun _ h => h.updReRun) .pure

theorem kept_execGatherRowRead {d now} (h : Kept W q s) : KeptOut W q (execGatherRowRead d now s) := by
  unfold execGatherRowRead
  extract_lets s1
  have h1 : Kept W q s1 := h.at.gatherRowsDone
  exact KeptOut.next ((h1.reGo fun _ => .gatherRow).gatherRowsDone)

theorem EngKept.gatherBag {a b} : EngKept W q (Eng.gatherBag a b) := by
  unfold Eng.gatherBag
  refine .bindSome .reRead .pure fun l => .ite (.act fun _ h => h.reFail) ?_
  refine .ite (.bind .reRead ?weights) (.bind .pure ?weights)
  rintro (_ | ws)
  · exact .pure
  · exact .bind .reWrite fun ok => .ite (.act fun _ h => h.updReRun) .pure

theorem kept_execGatherPool {d now} (h : Kept W q s) : KeptOut W q (execGatherPool d now s) :=
  KeptOut.next (h.at.reGo fun _ => .gatherBag)

theorem kept_execReNop {d now} (h : Kept W q s) : KeptOut W q (execReNop d now s) := by
  unfold execReNop
  extract_lets s1
  have h1 : Kept W q s1 := h.at.reStart fun _ _ g => g
  split
  · exact KeptOut.next (Kept.ite h1.updReRun h1)
  · exact KeptOut.next h1

theorem EngKept.reRecord {a b} : EngKept W q (Eng.reRecord a b) := by
  unfold Eng.reRecord
  grind only [← EngKept.bind, ← EngKept.pure, ← EngKept.foldlM, ← EngKept.num, ← EngKept.write, ← EngKept.act, ← Kept.reFail]

theorem kept_execReJobComplete {d now} (h : Kept W q s) : KeptOut W q (execReJobComplete d now s) := by
  unfold execReJobComplete
  extract_lets s1
  have h1 : Kept W q s1 := h.at
  split
  · exact KeptOut.next h1
  · extract_lets x s2 s3 s4 s5
    have h2 : Kept W q s2 := h1.go .reRecord
    have h3 : Kept W q s3 := Kept.ite h2.evcAdd h2
    have h4 : Kept W q s4 := Kept.ite h3.srcEvent h3
    have h5 : Kept W q s5 := h4.updRe
    split
    · exact KeptOut.next h1
    · split
      · exact KeptOut.next h2.updReRun
      · exact KeptOut.next h5.fadd.fadd

theorem kept_execExpertEntryWrite {d now} (h : Kept W q s) : KeptOut W q (execExpertEntryWrite d now s) := by
  unfold execExpertEntryWrite
  extract_lets s1 q'
  have h1 : Kept W q s1 := h.at
  split
  · exact KeptOut.next h1
  · extract_lets s2
    have h2 : Kept W q s2 := h1.updRe
    exact KeptOut.ite (KeptOut.next h1) (KeptOut.next h2.updDist)

theorem Kept.rmSignal {d w0} (h : Kept W q s) : Kept W q (s.rmSignal d w0) := by
  unfold State.rmSignal
  extract_lets s1
  have h1 : Kept W q s1 := Kept.ite h.evcAdd h
  exact Kept.ite h1.srcEvent h1

theorem Kept.rmFail {d ten code reason layer expert key dataErr} (h : Kept W q s) : Kept W q (s.rmFail d ten code reason layer
    expert key dataErr) := by
  unfold State.rmFail
  extract_lets s1
  have h1 : Kept W q s1 := h.rmErr.distEv
  exact Kept.ite h1 h1.rmStop.dropLead

theorem Kept.rmReject {d j why} (h : Kept W q s) : Kept W q (s.rmReject d j why) := h.rmFail.rmSignal

theorem Kept.rmPop {d} (h : Kept W q s) : Kept W q (s.rmPop d) := h.updRm

theorem Kept.rmJob {d op act} (hact : ∀ x0 s, Kept W q s → Kept W q (act x0 s)) (h : Kept W q s) : Kept W q (s.rmJob d op act) := by
  unfold State.rmJob
  split
  · extract_lets why
    exact Kept.ite h (Kept.ite h.rmPop.rmReject (hact _ _ h))
  · exact h

theorem kept_execBind {d now} (h : Kept W q s) : KeptOut W q (execBind d now s) :=
  KeptOut.next (h.at.rmJob fun _ _ g => by
    extract_lets b
    exact g.rmPop.updRm.rmSignal)

theorem Kept.addServe {d x} (h : Kept W q s) : Kept W q (s.addServe d x) := h.updRm

theorem Kept.serveFailed {d a code reason key dataErr e} (h : Kept W q s) : Kept W q (s.serveFailed d a code reason key dataErr e)
    := by
  unfold State.serveFailed
  extract_lets s1
  have h1 : Kept W q s1 := h.rmFail
  exact Kept.ite h1 h1.addServe.tickFree

theorem Kept.getCopy {d c off n} (h : Kept W q s) : Kept W q (s.getCopy d c off n).2.2 :=
  h.foldl₃ fun _ _ g => by
    extract_lets lot r
    exact g.localRead.snd₂

theorem Kept.updCopy {d t key f} (h : Kept W q s) : Kept W q (s.updCopy d t key f) := h.updSq

theorem Kept.useCopy {d t key} (h : Kept W q s) : Kept W q (s.useCopy d t key) := h.updCopy

theorem Kept.startFetch {d a e t key cs leads} (h : Kept W q s) : Kept W q (s.startFetch d a e t key cs leads) := by
  unfold State.startFetch
  extract_lets new f
  exact Kept.ite h.updRm h.updRm

theorem Kept.landGa {d ten key c size l} (h : Kept W q s) : Kept W q (s.landGa d ten key c size l) := by
  unfold State.landGa
  grind only [← Kept.chipWrite, ← Kept.foldl, ← Kept.foldl₂, ← Kept.foldl₃]

theorem Kept.putCopy {d c off l} (h : Kept W q s) : Kept W q (s.putCopy d c off l) :=
  h.foldl fun _ _ g => by
    extract_lets lot
    exact g.eccWrite

theorem Kept.landCluster {d ten key c size src l} (h : Kept W q s) : Kept W q (s.landCluster d ten key c size src l) := by
  unfold State.landCluster
  split
  · exact h
  · exact Kept.ite h h.putCopy.updCopy.fadd

theorem Kept.takeCluster {d ten key c size src l} (h : Kept W q s) : Kept W q (s.takeCluster d ten key c size src l) := by
  unfold State.takeCluster
  extract_lets s1
  have h1 : Kept W q s1 := h.landCluster.landGa
  exact h1.updRm

theorem Kept.copyClusters {d from_ ten key size cs} (h : Kept W q s) : Kept W q (s.copyClusters d from_ ten key size cs) :=
  h.foldl fun _ _ g => by
    split
    · exact g
    · extract_lets r
      exact Kept.ite g.getCopy.takeCluster g.getCopy.rmStop

theorem Kept.register {d a e t key cs} (h : Kept W q s) : Kept W q (s.register d a e t key cs) := by
  unfold State.register
  extract_lets m
  split
  · exact Kept.ite h.fsat.startFetch h.upd.startFetch
  · extract_lets s1 v asked joins new s2 s3 rest own s4
    have h1 : Kept W q s1 := Kept.ite h h.fsat
    have h2 : Kept W q s2 := h1.upd
    have h3 : Kept W q s3 := Kept.ite h2 h2.startFetch
    have h4 : Kept W q s4 := h3.copyClusters
    exact Kept.ite h4 h4.startFetch

theorem Kept.allocate {t d n a4} (h : Kept W q s) : Kept W q (s.allocate t d n a4).2 := by
  induction a4 generalizing s with
  | zero => exact h
  | succ fuel ih =>
    unfold State.allocate
    extract_lets l free fits f other
    split
    · exact h.updSq
    · split
      · exact ih h.updSq
      · exact h

theorem Kept.makeCopy {d t key gen n size} (h : Kept W q s) : Kept W q (s.makeCopy d t key gen n size).2 := by
  unfold State.makeCopy
  split
  · next heq =>
      have hs : Kept W q _ := .of_snd heq h.allocate
      exact hs
  · next heq =>
      have hs : Kept W q _ := .of_snd heq h.allocate
      extract_lets c
      exact hs.updSq.snd

theorem Kept.serve {d a b e l w} (h : Kept W q s) (hs : s.serve d a b e l w = some t) : Kept W q t := by
  unfold State.serve at hs
  extract_lets key blank x stale s1 present missing todo n kept s2 s3 made s4 s5 s6 at hs
  have h1 : Kept W q s1 := by grind only [← Kept.updSq]
  have h3 : Kept W q s3 := by grind only [← Kept.useCopy, ← Kept.updCopy, ← Kept.fsat]
  have h4 : Kept W q s4 := by grind only [← Kept.makeCopy]
  have h6 : Kept W q s6 := by grind only [← Kept.useCopy, ← Kept.updCopy, ← Kept.fsat, ← Kept.addServe]
  have hga {off} {l : List Nat} : Kept W q (l.foldl (fun (acc : Bool × State) k => match acc.2.copyOf d a.ten key with
      | some c =>
        let r := acc.2.getCopy d c (k * e.size) e.size
        if r.1 = 0 then (acc.1, (r.2.2.chipWrite a.ten (.ga d) (gaBase d + off + k * e.size) r.2.1).2) else (false, r.2.2)
      | none => (false, acc.2)) (true, s1.useCopy d a.ten key)).2 := by
    refine Kept.foldl₂ (fun z k hz => ?_) (.snd h1.useCopy)
    split
    · extract_lets r
      have hr : Kept W q r.2.2 := hz.getCopy
      split
      · exact .snd hr.chipWrite
      · exact .snd hr
    · exact .snd hz
  clear_value s6 s5 s4 made s3 s2 kept n todo missing s1 stale x key
  split at hs
  · split at hs
    · cases hs
    · extract_lets r s7 at hs
      have hr : Kept W q r.2 := hga
      have h7 : Kept W q s7 := hr.addServe
      clear_value s7 r
      split at hs
      · cases hs
        exact hr.addServe
      · cases hs
        split
        · exact h7
        · exact h7.register
  · (repeat' split at hs) <;>
      grind only [← Kept.useCopy, ← Kept.addServe, ← Kept.rmFail, ← Kept.serveFailed, ← Kept.register]

theorem EngKept.rmRead {a b c d e f} : EngKept W q (Eng.rmRead a b c d e f) := by
  unfold Eng.rmRead
  grind only [← EngKept.bind, ← EngKept.pure, ← EngKept.foldlM, ← EngKept.read, ← EngKept.act, ← Kept.serveFailed]

theorem EngKept.rmLookup {a b c} : EngKept W q (Eng.rmLookup a b c) := by
  unfold Eng.rmLookup
  refine .bindSome .rmRead .pure fun l => ?_
  refine .ite (.act fun _ h => h.serveFailed) (.ite (.act fun _ h => h.serveFailed) ?_)
  refine .ite (.bind .pure ?mask) (.bind .rmRead ?mask)
  rintro (_ | m)
  · exact .pure
  refine .ite (.bind .rmRead ?table) (.bind .pure ?table)
  rintro (_ | t)
  · exact .pure
  refine .ite (.act fun _ h => h.serveFailed) (.bind (.op fun s h => ?_) fun _ => .pure)
  grind only [→ Kept.serve]

theorem Kept.rmHead {d a b} (h : Kept W q s) : Kept W q (s.rmHead d a b) := by
  unfold State.rmHead
  extract_lets r
  split
  · exact (h.go .rmLookup).rmPop
  · exact (h.go .rmLookup).updRm

theorem kept_execLoadExpert {d now} (h : Kept W q s) : KeptOut W q (execLoadExpert d now s) :=
  KeptOut.next (h.at.rmJob fun _ _ g => by
    extract_lets w0 a
    split
    · exact g
    · exact Kept.ite g.addServe.tickFree.rmPop g.rmHead)

theorem Kept.preNextExpert {d} (h : Kept W q s) : Kept W q (s.preNextExpert d) := by
  unfold State.preNextExpert
  extract_lets r busy
  split
  · exact h
  · split
    · extract_lets a q'
      split
      · exact h
      · split
        · exact (h.go .rmLookup).updRm
        · exact (h.go .rmLookup).updRm
    · exact h.updRm

theorem Kept.preDone {d} (h : Kept W q s) : Kept W q (s.preDone d) := by
  unfold State.preDone
  extract_lets r isOver s1
  have h1 : Kept W q s1 := h.updRm
  exact h1.foldl fun _ _ g => g.rmSignal

theorem Kept.preServes {d} (h : Kept W q s) : Kept W q (s.preServes d) := h.updRm

theorem EngKept.preList {a b c} : EngKept W q (Eng.preList a b c) := by
  unfold Eng.preList
  grind only [← EngKept.bind, ← EngKept.pure, ← EngKept.foldlM, ← EngKept.rmRead, ← EngKept.act, ← Kept.rmSignal, ← Kept.rmFail, ←
      Kept.updRm]

theorem kept_execPrefetch {d now} (h : Kept W q s) : KeptOut W q (execPrefetch d now s) := by
  unfold execPrefetch
  extract_lets s1 head s2
  have h1 : Kept W q s1 := h.at
  have h2 : Kept W q s2 := Kept.ite h1.preNextExpert (h1.rmJob fun _ _ g => by
    split
    · exact g.rmPop.rmSignal
    · split
      · exact g
      · extract_lets r
        split
        · exact (g.go .preList).rmPop
        · exact (g.go .preList).updRm)
  exact KeptOut.next h2.preServes.preDone

theorem kept_execReleaseKeep {d now} (h : Kept W q s) : KeptOut W q (execReleaseKeep d now s) :=
  KeptOut.next (h.at.rmJob fun _ _ g => by
    extract_lets s1
    have h1 : Kept W q s1 := by
      unfold s1
      split
      · exact g.updCopy
      · exact g
    exact h1.rmPop.rmSignal)

theorem kept_execRmNop {d now} (h : Kept W q s) : KeptOut W q (execRmNop d now s) :=
  KeptOut.next (h.at.rmJob fun _ _ g => g.rmPop.rmSignal)

theorem kept_execDemandEntry {d now} (h : Kept W q s) : KeptOut W q (execDemandEntry d now s) := by
  unfold execDemandEntry
  extract_lets s1 n
  have h1 : Kept W q s1 := h.at
  split
  · extract_lets w0 w3 a s2
    have h2 : Kept W q s2 := by
      unfold s2
      split
      · exact h1.addServe.tickFree.rmPop
      · split
        · exact h1.serveFailed.rmPop
        · exact Kept.ite h1.serveFailed.rmPop h1.rmHead
    exact KeptOut.ite (KeptOut.next h1) (KeptOut.next (Kept.ite h2.fsat h2))
  · exact KeptOut.next h1

theorem Kept.updFetch {d ten key f} (h : Kept W q s) : Kept W q (s.updFetch d ten key f) := h.updRm

theorem Kept.fetchEnd {d ten key} (h : Kept W q s) : Kept W q (s.fetchEnd d ten key) := by
  unfold State.fetchEnd
  extract_lets i s1 s2
  have h1 : Kept W q s1 := Kept.ite h h.fetchesIdle
  have h2 : Kept W q s2 := h1.updRm
  split
  · exact h
  · exact Kept.ite h (Kept.ite h2.upd h2)

theorem Kept.deliverCluster {d f c l} (h : Kept W q s) : Kept W q (s.deliverCluster d f c l) := by
  unfold State.deliverCluster
  extract_lets s1 joined s2
  have h1 : Kept W q s1 := h.takeCluster
  have h2 : Kept W q s2 := h1.upd
  exact Kept.ite h1 (h2.foldl fun _ _ g => Kept.ite g g.takeCluster)

theorem Kept.rangeRead {d f c l} (h : Kept W q s) : Kept W q (s.rangeRead d f c l) := by
  unfold State.rangeRead
  grind only [← Kept.rmFail, ← Kept.deliverCluster, ← Kept.upd, ← Kept.go]

theorem Kept.fetchTake {d ten key name} (h : Kept W q s) : Kept W q (s.fetchTake d ten key name) := by
  unfold State.fetchTake
  split
  · exact h
  · split
    · exact h
    · extract_lets r
      split
      · exact h
      · split
        · exact (h.go .readOne).updFetch
        · extract_lets s1 i
          have h1 : Kept W q s1 := (h.go .readOne).updFetch
          split
          · exact h1.rmFail
          · split
            · exact h1
            · split
              · exact h1
              · exact h1.updFetch.rangeRead.fetchEnd

theorem Kept.fetchLand {d} (h : Kept W q s) : Kept W q (s.fetchLand d) := h.foldl fun _ _ g => g.fetchTake

theorem Kept.fetchIssue {d i} (h : Kept W q s) : Kept W q (s.fetchIssue d i) := by
  unfold State.fetchIssue
  extract_lets s1
  have h1 : Kept W q s1 := h.updRm
  split
  · exact h
  · split
    · exact h
    · extract_lets q' whole
      exact Kept.ite h1.updFetch.rangeRead.fetchEnd h1.updFetch.fetchTake

theorem kept_execFetchRequestIssue {d f now} (h : Kept W q s) : KeptOut W q (execFetchRequestIssue d f now s) := by
  unfold execFetchRequestIssue
  extract_lets s1
  have h1 : Kept W q s1 := h.at.fetchLand
  split
  · exact KeptOut.next h1
  · exact KeptOut.ite (KeptOut.next h1) (KeptOut.next h1.fetchIssue)

theorem Kept.placeServe {d i} (h : Kept W q s) : Kept W q (s.placeServe d i) := by
  unfold State.placeServe
  split
  · exact h
  · extract_lets upd
    have hu {s f} (h : Kept W q s) : Kept W q (upd s f) := h.updRm
    split
    · exact h
    · split
      · exact hu h
      · next x _ _ a _ =>
        extract_lets m r s1
        have hr : Kept W q r.2.2 := h.go (.bind (.op fun _ h => h) fun _ => .write)
        have h1 : Kept W q s1 := (hu hr).tickFree
        split
        · exact hu hr
        · split
          · exact h1.rmFail
          · exact h1

theorem Kept.raiseServe {d i} (h : Kept W q s) : Kept W q (s.raiseServe d i) := by
  unfold State.raiseServe
  extract_lets done
  have hdone {s'} (g : Kept W q s') : Kept W q (done s') := g.updRm
  split
  · exact h
  · split
    · exact h
    · split
      · exact Kept.ite h ((hdone h).evcAdd)
      · exact (hdone h).rmSignal
      · exact (hdone h).rmSignal
      · exact h

theorem kept_execArrivalRaise {d now} (h : Kept W q s) : KeptOut W q (execArrivalRaise d now s) := by
  unfold execArrivalRaise
  extract_lets s1 n s2 s3 s4
  have h1 : Kept W q s1 := h.at.fetchLand
  have h2 : Kept W q s2 := h1.foldl fun _ _ g => g.placeServe
  have h3 : Kept W q s3 := h2.foldl fun _ _ g => g.raiseServe
  have h4 : Kept W q s4 := h3.updRm
  exact KeptOut.next h4.preServes.preDone

theorem Kept.cellError {w a bad} (h : Kept W q s) : Kept W q (s.cellError w a bad) := by
  unfold State.cellError
  split
  · exact h.setMemories id KMap.wf_set id
  · exact h.setMemories id id KMap.wf_set

theorem Kept.reportAccess {r} (hr : Kept W q r.2.2) : Kept W q (s.reportAccess r) := by
  unfold State.reportAccess
  extract_lets s1 rec'
  have h1 : Kept W q s1 := hr
  exact h1.upd

theorem kept_execT1Request {t wr a n data err now} (h : Kept W q s) : KeptOut W q (execT1Request t wr a n data err now s) := by
  unfold execT1Request
  extract_lets s1 n2 p s2 q' r
  have h1 : Kept W q s1 := h.at
  have h2 : Kept W q s2 := Kept.ite h1 h1.cellError
  exact KeptOut.ite (KeptOut.next h1) (KeptOut.next ((Kept.ite₃ h2.tierWrite.snd₂ h2.tierRead).reportAccess))

theorem kept_execT2Request {t wr a n data err now} (h : Kept W q s) : KeptOut W q (execT2Request t wr a n data err now s) := by
  unfold execT2Request
  extract_lets s1 n2 p reads s2 q' r
  have h1 : Kept W q s1 := h.at
  have h2 : Kept W q s2 := Kept.ite h1.cellError (Kept.ite h1.cellError (Kept.ite h1.fsat h1))
  exact KeptOut.ite (KeptOut.next h1) (KeptOut.next ((Kept.ite₃ h2.tierWrite.snd₂ (Kept.ite₃ h2.t2Read h2.tierRead)).reportAccess))

theorem kept_execIdleScrub {a err now} (h : Kept W q s) : KeptOut W q (execIdleScrub a err now s) := by
  unfold execIdleScrub
  extract_lets s1 a2 s2 weak bad sl
  have h1 : Kept W q s1 := h.at
  have h2 : Kept W q s2 := Kept.ite h1 h1.cellError
  exact KeptOut.ite (KeptOut.next h1) (KeptOut.next (Kept.ite h2.t1Corrected.fsat h2.t2Corrected.fsat))

theorem kept_execHbmTempRead {k temp corrected now} (h : Kept W q s) : KeptOut W q (execHbmTempRead k temp corrected now s) := by
  unfold execHbmTempRead
  extract_lets s1 ix was s2 s3 s4
  have h1 : Kept W q s1 := h.at
  have h2 : Kept W q s2 := h1.fsets
  have h3 : Kept W q s3 := h2.fsat
  have h4 : Kept W q s4 := h3.tierCapture
  exact KeptOut.ite (KeptOut.next h4.distEv) (KeptOut.next h3)

theorem Kept.t1Moved {moves} (h : Kept W q s) : Kept W q (s.t1Moved moves) := h.foldl fun _ _ g => g.t1Error

theorem kept_execRowRepair {k pc row spare now} (h : Kept W q s) : KeptOut W q (execRowRepair k pc row spare now s) := by
  unfold execRowRepair
  extract_lets s1 r s2 rec' s3 key
  have h1 : Kept W q s1 := h.at
  have h2 : Kept W q s2 := h1.t1Moved
  have h3 : Kept W q s3 := h2.upd
  exact KeptOut.ite (KeptOut.next h1) (KeptOut.ite (KeptOut.next h3.fadd) (KeptOut.next (Kept.ite h1 h1.decideRetire)))

theorem kept_execSlotMigrationEnd {now} (h : Kept W q s) : KeptOut W q (execSlotMigrationEnd now s) := by
  unfold execSlotMigrationEnd
  extract_lets s1
  have h1 : Kept W q s1 := h.at
  split
  · exact KeptOut.next h1
  · exact KeptOut.next h1
  · extract_lets moves s2 rec' s3 s4
    have h2 : Kept W q s2 := h1.t1Moved
    have h3 : Kept W q s3 := h2.upd
    have h4 : Kept W q s4 := h3.fsets.srcEvent
    exact KeptOut.next h4.migrateNext

theorem kept_execT2RangeBaseWrite {w r v now} (h : Kept W q s) : KeptOut W q (execT2RangeBaseWrite w r v now s) :=
  KeptOut.next h.at.ctlWrite

theorem kept_execResyncEnd {r now} (h : Kept W q s) : KeptOut W q (execResyncEnd r now s) := by
  unfold execResyncEnd
  extract_lets s1 a n v s2 s3 s4
  have h1 : Kept W q s1 := h.at
  have h2 : Kept W q s2 := h1.t2Corrected
  have h3 : Kept W q s3 := h2.foldl fun _ _ g => g.t2Error
  have h4 : Kept W q s4 := h3.rawCopy
  exact KeptOut.ite (KeptOut.next h1) (KeptOut.next h4.fset.srcEvent)

theorem kept_execPowerFail {done now} (h : Kept W q s) : KeptOut W q (execPowerFail done now s) := by
  unfold execPowerFail
  extract_lets s1 rec'
  have h1 : Kept W q s1 := h.at
  exact KeptOut.ite (KeptOut.next h1) (KeptOut.next h1.upd)

theorem kept_execT3Request {t wr a n data now} (h : Kept W q s) : KeptOut W q (execT3Request t wr a n data now s) := by
  have h1 : Kept W q (s.at now) := h.at
  have haccess (s') (hs : Kept W q s') (i wr a n d w) : Kept W q (s'.t3Access i wr a n d w).2 := hs.t3Access
  conv in @execT3Request => delta execT3Request
  beta_reduce
  generalize s.at now = s1 at h1 ⊢
  generalize State.t3Access = access at haccess ⊢
  as_aux_lemma =>
    extract_lets s2 n'
    have hr := haccess s1 h1 (tierIssuer t) wr a n' data false
    split
    · exact .next h1
    · split
      · exact .next (.reportAccess h1)
      · unfold s2
        generalize access s1 (tierIssuer t) wr a n' data false = x at hr ⊢
        obtain ⟨x | id, s3⟩ := x
        · exact .next (.reportAccess hr)
        · exact .next (Kept.upd (s := s3) hr)

theorem Kept.nvmeFinish {c st nvme landed} (h : Kept W q s) : Kept W q (s.nvmeFinish c st nvme landed) := by
  unfold State.nvmeFinish
  extract_lets s1
  have h1 : Kept W q s1 := Kept.ite h h.flError
  split
  · exact h1.nvmeDrop.flushEnd
  · exact h1.nvmeEnd
  · exact (Kept.ite h1.rawWrite h1).nvmeEnd

theorem Kept.driveAnswers {d} (h : Kept W q s) : Kept W q (s.driveAnswers d) := by
  unfold State.driveAnswers
  extract_lets s1
  have h1 : Kept W q s1 := h.updFl
  exact h1.driveUp

theorem kept_execNvmeCompletion {id nvme landed now} (h : Kept W q s) : KeptOut W q (execNvmeCompletion id nvme landed now s) := by
  unfold execNvmeCompletion
  extract_lets s1
  have h1 : Kept W q s1 := h.at
  split
  · exact KeptOut.next h1
  · extract_lets st
    exact KeptOut.ite (KeptOut.next h1) (KeptOut.next h1.driveAnswers.nvmeFinish)

theorem kept_execNvmeTimeout {id landed now} (h : Kept W q s) : KeptOut W q (execNvmeTimeout id landed now s) := by
  unfold execNvmeTimeout
  extract_lets s1
  have h1 : Kept W q s1 := h.at
  split
  · exact KeptOut.next h1
  · extract_lets recent three s2 s3
    have h2 : Kept W q s2 := h1.updFl
    have h3 : Kept W q s3 := Kept.ite h2.driveUp h2
    exact KeptOut.ite (KeptOut.next h1) (KeptOut.next h3.nvmeFinish)

theorem kept_execDriveFailed {d now} (h : Kept W q s) : KeptOut W q (execDriveFailed d now s) := by
  unfold execDriveFailed
  extract_lets s1 down
  have h1 : Kept W q s1 := h.at
  exact KeptOut.ite (KeptOut.next h1) (KeptOut.next h1.flError.driveGone)

theorem kept_execTrim {w pages now} (h : Kept W q s) : KeptOut W q (execTrim w pages now s) := KeptOut.next h.at.ctlWrite

theorem kept_execTrimDone {cpl now} (h : Kept W q s) : KeptOut W q (execTrimDone cpl now s) := by
  unfold execTrimDone
  extract_lets s1
  have h1 : Kept W q s1 := h.at
  split
  · exact .next h1
  · extract_lets fail gone s2 s3 s4
    have h2 : Kept W q s2 := by grind only [← Kept.flError]
    have h3 : Kept W q s3 := h2.setMemories (KMap.wf_filter _) id id
    exact .next h3.fsets.srcEvent.updFl.tickFree

theorem kept_execShaperIssue {set a1 now} (h : Kept W q s) : KeptOut W q (execShaperIssue set a1 now s) := by
  unfold execShaperIssue
  extract_lets s1 b
  have h1 : Kept W q s1 := h.at
  split
  · exact KeptOut.next h1
  · extract_lets s2 rec' s3
    have h2 : Kept W q s2 := h1.bucketCharge
    have h3 : Kept W q s3 := h2.upd
    exact KeptOut.ite (KeptOut.next h1) (KeptOut.next h3.bucketDelay)

theorem Kept.bucketRefill {b} (h : Kept W q s) : Kept W q (s.bucketRefill b) := by
  unfold State.bucketRefill
  extract_lets rate f rec' s1
  have h1 : Kept W q s1 := h.upd
  exact Kept.ite h h1.setTokens

theorem kept_execShaperRefill {now} (h : Kept W q s) : KeptOut W q (execShaperRefill now s) :=
  KeptOut.next ((h.at.foldl fun _ _ g => g.bucketRefill).fabPump)

theorem kept_execShpCfgWrite {w t a2 v now} (h : Kept W q s) : KeptOut W q (execShpCfgWrite w t a2 v now s) :=
  KeptOut.next h.at.ctlWrite

theorem Kept.bucketSample {b depth} (h : Kept W q s) : Kept W q (s.bucketSample b depth) := by
  unfold State.bucketSample
  extract_lets s1 rec'
  have h1 : Kept W q s1 := h.fsets
  exact h1.upd

theorem kept_execShaperSample {opm now} (h : Kept W q s) : KeptOut W q (execShaperSample opm now s) := by
  unfold execShaperSample
  extract_lets isMem
  exact KeptOut.next (h.at.foldl fun _ _ g => g.bucketSample)

theorem Kept.sendIdle {p x fseq} (h : Kept W q s) : Kept W q (s.sendIdle p x fseq) := h.updPort

theorem Kept.applyWidth {p code} (h : Kept W q s) : Kept W q (s.applyWidth p code) := by
  unfold State.applyWidth
  extract_lets lanes
  exact h.fset.fset.setPortState

theorem Kept.atBoundary {p fseq tx} (h : Kept W q s) : Kept W q (s.atBoundary p fseq tx) := by
  unfold State.atBoundary
  extract_lets x s1
  have h1 : Kept W q s1 := by
    unfold s1
    split
    · exact Kept.ite h.updPort.applyWidth h
    · exact h
  split
  · exact Kept.ite h1.updPort.fset h1
  · exact h1

theorem Kept.stampExchange {sent} (h : Kept W q s) : Kept W q (s.stampExchange sent) := Kept.ite h.upd h

theorem Kept.sendNew {p} (h : Kept W q s) : Kept W q (s.sendNew p) := by
  unfold State.sendNew
  extract_lets s1 x r rec' s2
  have h1 : Kept W q s1 := h.atBoundary
  have h2 : Kept W q s2 := h1.updPort
  exact Kept.ite h1.sendIdle ((h2.foldl fun _ _ g => g.freeSlots).stampExchange)

theorem kept_execFrameSend {p now} (h : Kept W q s) : KeptOut W q (execFrameSend p now s) := by
  unfold execFrameSend
  extract_lets s1 x s2
  have h1 : Kept W q s1 := h.at
  have h2 : Kept W q s2 := h1.atBoundary
  split
  · exact KeptOut.next h1
  · split
    · exact KeptOut.ite (KeptOut.next h1.sendIdle) (KeptOut.next h1.updPort)
    · exact KeptOut.ite (KeptOut.next h2.sendIdle) (KeptOut.next h1.sendNew)

theorem Kept.portCapture {p code lanes reason} (h : Kept W q s) : Kept W q (s.portCapture p code lanes reason) := by
  unfold State.portCapture
  extract_lets q'
  exact Kept.ite h.captureLow.updPort h.captureLow

theorem Kept.portErr {p code lanes reason unit} (h : Kept W q s) : Kept W q (s.portErr p code lanes reason unit) :=
  h.portCapture.chipEv

theorem Kept.takeAck {p ctl} (h : Kept W q s) : Kept W q (s.takeAck p ctl) := by
  unfold State.takeAck
  extract_lets ack x n left s1 s2
  have h1 : Kept W q s1 := h.updPort
  have h2 : Kept W q s2 := h1.updPort.fsat
  exact Kept.ite (Kept.ite h2 h2.updPort.portErr) h1

theorem kept_execFrameReceive {p err ctl slots now} (h : Kept W q s) : KeptOut W q (execFrameReceive p err ctl slots now s) := by
  unfold execFrameReceive
  extract_lets s1 s2 s3 c s4 fseq x s5
  have h1 : Kept W q s1 := h.at
  have h2 : Kept W q s2 := h1.updPort
  have h3 : Kept W q s3 := Kept.ite h2 h2.fsat
  have h4 : Kept W q s4 := h3.updPort.takeAck
  have h5 : Kept W q s5 := h4.atBoundary
  exact KeptOut.ite (KeptOut.next h1) (KeptOut.ite (KeptOut.next h2.fsat.updPort) (KeptOut.ite (KeptOut.next h4.updPort)
      (KeptOut.ite (KeptOut.next h4.updPort.atBoundary) (KeptOut.next h5.updPort))))

theorem kept_execNakRepeat {p now} (h : Kept W q s) : KeptOut W q (execNakRepeat p now s) := by
  unfold execNakRepeat
  extract_lets s1 x
  have h1 : Kept W q s1 := h.at
  exact KeptOut.ite (KeptOut.next h1.updPort) (KeptOut.next h1)

theorem Kept.portEvent {p code lanes reason unit} (h : Kept W q s) : Kept W q (s.portEvent p code lanes reason unit) := by
  unfold State.portEvent
  extract_lets was s1
  have h1 : Kept W q s1 := h.portErr
  exact Kept.ite h1.portCapture h1

theorem kept_execPortDown {p reason now} (h : Kept W q s) : KeptOut W q (execPortDown p reason now s) := by
  unfold execPortDown
  extract_lets s1 x cause
  have h1 : Kept W q s1 := h.at
  exact KeptOut.ite (KeptOut.next h1) (KeptOut.next h1.portFalls.portEvent)

theorem Kept.beginTraining {p} (h : Kept W q s) : Kept W q (s.beginTraining p) := Kept.ite h.updPort.setPortState h.updPort

theorem Kept.numberLanes {p new} (h : Kept W q s) : Kept W q (s.numberLanes p new) := by
  unfold State.numberLanes
  extract_lets old move rows key s1 rec'
  have h1 : Kept W q s1 := h.foldl fun _ _ g => g.rset
  exact Kept.ite h h1.upd.updPort

theorem Kept.exchangeParams {p nbrId nbrPort token good theirGood order} (h : Kept W q s) : Kept W q (s.exchangeParams p nbrId
    nbrPort token good theirGood order) := by
  unfold State.exchangeParams
  extract_lets own s1 x s2 cfg sent s3
  have h1 : Kept W q s1 := h.numberLanes
  have h2 : Kept W q s2 := h1.foldl fun _ _ g1 => g1.fset
  have h3 : Kept W q s3 := h2.updPort
  exact h3.fsets

theorem Kept.versionMismatch {p} (h : Kept W q s) : Kept W q (s.versionMismatch p) := h.setPortState.portErr

theorem Kept.unhold {p} (h : Kept W q s) : Kept W q (s.unhold p) := by
  unfold State.unhold
  extract_lets f s1 s2
  have h1 : Kept W q s1 := h.updFab
  have h2 : Kept W q s2 := h1.foldl fun _ _ g => Kept.ite g.updPort g
  exact h2.updPort

theorem Kept.trainingDone {p w g ver theirVc} (h : Kept W q s) : Kept W q (s.trainingDone p w g ver theirVc) := by
  unfold State.trainingDone
  extract_lets s1 s2 fresh full s3 s4
  have h1 : Kept W q s1 := h.fsets
  have h2 : Kept W q s2 := h1.fsets
  have h3 : Kept W q s3 := h2.unhold.updPort
  have h4 : Kept W q s4 := h3.setPortState
  exact Kept.ite h4.retrainWith h4

theorem Kept.portTrain {p nbrId nbrPort token ver order good theirGood theirMax theirVc} (h : Kept W q s) : Kept W q (s.portTrain p
    nbrId nbrPort token ver order good theirGood theirMax theirVc) := by
  unfold State.portTrain
  extract_lets s1 limit
  have h1 : Kept W q s1 := h.exchangeParams
  split
  · exact h1.setPortState.portErr
  · split
    · exact h1.versionMismatch
    · split
      · exact h1.portErr.rerouteFrom
      · exact h1.trainingDone

theorem kept_execPortTrain {p quickOk nbrId nbrPort token ver lanes theirGood theirMax theirVc now} (h : Kept W q s) : KeptOut W q
    (execPortTrain p quickOk nbrId nbrPort token ver lanes theirGood theirMax theirVc now s) := by
  unfold execPortTrain
  extract_lets s1 st x
  have h1 : Kept W q s1 := h.at
  exact KeptOut.ite (KeptOut.next h1) (KeptOut.ite (KeptOut.ite (KeptOut.next h1) (KeptOut.ite (KeptOut.next h1) (KeptOut.next
      h1.beginTraining))) (KeptOut.ite (KeptOut.next h1.updPort.portTrain) (KeptOut.next h1)))

theorem kept_execRetrain {w lanes p v now} (h : Kept W q s) : KeptOut W q (execRetrain w lanes p v now s) := by
  unfold execRetrain
  extract_lets s1
  have h1 : Kept W q s1 := h.at
  exact KeptOut.ite (KeptOut.next (Kept.ite h1.startRetrain h1)) (KeptOut.next h1.ctlWrite)

theorem Kept.takeHead {p} (h : Kept W q s) : Kept W q (s.takeHead p) := h.updPort

theorem kept_execRetrainReq {p now} (h : Kept W q s) : KeptOut W q (execRetrainReq p now s) := by
  unfold execRetrainReq
  extract_lets s1 s2 s3
  have h1 : Kept W q s1 := h.at
  have h2 : Kept W q s2 := h1.takeHead
  have h3 : Kept W q s3 := h2.updPort
  split
  · exact KeptOut.next h1
  · extract_lets full
    split
    · exact KeptOut.next h2
    · split
      · exact KeptOut.ite (KeptOut.next h3.updPort) (KeptOut.next h3.updPort)
      · exact KeptOut.next h3.updPort.fsat.setPortState

theorem kept_execWidthReq {p} (h : Kept W q s) : KeptOut W q (execWidthReq p s) := by
  unfold execWidthReq
  split
  · exact KeptOut.next h
  · extract_lets s1 x asked own w f slot
    have h1 : Kept W q s1 := h.takeHead.updPort
    exact KeptOut.ite (KeptOut.next h1.updPort) (KeptOut.ite (KeptOut.next h1) (KeptOut.next h1.updPort.setPortState))

theorem kept_execWidthAck {p} (h : Kept W q s) : KeptOut W q (execWidthAck p s) := by
  unfold execWidthAck
  extract_lets s1
  have h1 : Kept W q s1 := h.takeHead
  split
  · exact KeptOut.next h
  · exact KeptOut.ite (KeptOut.next h1) (KeptOut.next h1.updPort.setPortState)

theorem kept_execLaneNotGood {p lane} (h : Kept W q s) : KeptOut W q (execLaneNotGood p lane s) := by
  unfold execLaneNotGood
  extract_lets was s1 s2 s3
  have h1 : Kept W q s1 := h.fset
  have h2 : Kept W q s2 := h1.countEvent
  have h3 : Kept W q s3 := Kept.ite h2.portCapture h2
  exact KeptOut.ite (KeptOut.next h) (KeptOut.next h3.narrowPort)

theorem kept_execPortRetire {p} (h : Kept W q s) : KeptOut W q (execPortRetire p s) := by
  unfold execPortRetire
  extract_lets st
  exact KeptOut.ite (KeptOut.next h.portErr.rerouteFrom) (KeptOut.next h)

theorem kept_execVersion {p} (h : Kept W q s) : KeptOut W q (execVersion p s) := by
  unfold execVersion
  extract_lets s1 x s2 f slot s3
  have h1 : Kept W q s1 := h.takeHead
  have h2 : Kept W q s2 := h1.updPort
  have h3 : Kept W q s3 := h1.updPort
  split
  · exact KeptOut.next h
  · extract_lets ver fits
    exact KeptOut.ite (KeptOut.next h1) (KeptOut.ite (KeptOut.next (Kept.ite h2.updPort h2.versionMismatch)) (KeptOut.ite
        (KeptOut.next (Kept.ite h1 h1.versionMismatch)) (KeptOut.next (Kept.ite h3.updPort h3.versionMismatch))))

theorem kept_execCredit {p} (h : Kept W q s) : KeptOut W q (execCredit p s) := by
  unfold execCredit
  extract_lets s1 fld
  have h1 : Kept W q s1 := h.takeHead
  split
  · exact KeptOut.next h
  · extract_lets w1 cum
    exact KeptOut.next (h1.foldl fun _ _ g => by
      extract_lets n
      exact g.fadd.updPort)

theorem Kept.freeEarly {a1} (h : Kept W q s) : Kept W q (s.freeEarly a1).2 := Kept.ite₂ h.freeSome.snd h

theorem Kept.countDrop {inp f} (h : Kept W q s) : Kept W q (s.countDrop inp f) := by
  unfold State.countDrop
  split
  · exact h.fsat
  · exact h

theorem Kept.deliver {a1} (h : Kept W q s) : Kept W q (s.deliver a1) := by
  unfold State.deliver
  extract_lets p
  exact Kept.ite h.freeSlots.countDrop.fabErr (Kept.ite h.freeSlots.fabErr (Kept.ite h.freeSlots (Kept.ite h.freeSlots.answer
      (Kept.ite h.freeSlots h.swAdd))))

theorem kept_execPacketArrive {p shared now} (h : Kept W q s) : KeptOut W q (execPacketArrive p shared now s) := by
  unfold execPacketArrive
  extract_lets s1
  have h1 : Kept W q s1 := h.at
  split
  · exact KeptOut.next h1
  · extract_lets n k e q' s2 discard
    have h2 : Kept W q s2 := h1.takeHead.freeEarly
    have hdiscard {s' x0} (g : Kept W q s') : Kept W q (discard s' x0) := g.freeSlots.fsat.fabErr
    split
    · exact KeptOut.next h1
    · split
      · exact KeptOut.next (hdiscard h2)
      · split
        · exact KeptOut.next h2.freeSlots.fsat.fabErr
        · split
          · exact KeptOut.next (hdiscard h2)
          · split
            · exact KeptOut.next h2.deliver
            · split
              · exact KeptOut.next (hdiscard h2)
              · split
                · exact KeptOut.next h2.deliver
                · split
                  · exact KeptOut.next (hdiscard h2)
                  · exact KeptOut.ite (KeptOut.next h2.swAdd) (KeptOut.next h2.freeSlots.fsat.fabErr)

theorem Kept.takeTurn {p v n} (h : Kept W q s) : Kept W q (s.takeTurn p v n) := Kept.ite h h.updPort

theorem Kept.grant {p n} (h : Kept W q s) : Kept W q (s.grant p n) := by
  unfold State.grant
  split
  · exact h
  · extract_lets v k s1 s2 s3 sent s4 s5 s6 up s7
    have h1 : Kept W q s1 := Kept.ite h.fset h.fset
    have h2 : Kept W q s2 := Kept.ite h1 h1.bucketCharge.bucketDelay
    have h3 : Kept W q s3 := h2.takeTurn
    have h4 : Kept W q s4 := h3.updFab
    have h5 : Kept W q s5 := h4.updPort
    have h6 : Kept W q s6 := by
      unfold s6
      split
      · exact h5.updReq
      · exact h5
    have h7 : Kept W q s7 := by
      unfold s7
      split
      · exact Kept.ite h6 h6.updFab
      · exact h6
    split
    · exact h7.freeComb
    · exact h7

theorem kept_execPacketGrant {p n now} (h : Kept W q s) : KeptOut W q (execPacketGrant p n now s) := by
  unfold execPacketGrant
  extract_lets s1
  have h1 : Kept W q s1 := h.at
  split
  · exact KeptOut.next h1
  · extract_lets v
    exact KeptOut.ite (KeptOut.next h1.grant.fabPump) (KeptOut.next h1)

theorem Kept.swDiscard {n reason} (h : Kept W q s) : Kept W q (s.swDiscard n reason) := by
  unfold State.swDiscard
  extract_lets f
  split
  · exact h.swDrop.countDrop.fabErr
  · exact h

theorem kept_execResidenceTimeout {n now} (h : Kept W q s) : KeptOut W q (execResidenceTimeout n now s) := by
  unfold execResidenceTimeout
  extract_lets s1
  have h1 : Kept W q s1 := h.at
  split
  · exact KeptOut.ite (KeptOut.next h1.swDiscard) (KeptOut.next h1)
  · exact KeptOut.next h1

theorem Kept.fabEnd {id st data} (h : Kept W q s) : Kept W q (s.fabEnd id st data) := h.fabFinish.fabPump

theorem kept_execE2eRetry {n now} (h : Kept W q s) : KeptOut W q (execE2eRetry n now s) := by
  unfold execE2eRetry
  extract_lets s1
  have h1 : Kept W q s1 := h.at
  split
  · exact KeptOut.next h1
  · extract_lets s2
    have h2 : Kept W q s2 := h1.fsat.fabErr
    split
    · exact KeptOut.next h1
    · split
      · exact KeptOut.next h2.fabEnd
      · split
        · exact KeptOut.next h1.injectReq
        · exact KeptOut.next h1
        · exact KeptOut.next h1.fabPoliced

theorem kept_execRecordExpiry {n now} (h : Kept W q s) : KeptOut W q (execRecordExpiry n now s) := by
  unfold execRecordExpiry
  extract_lets s1
  have h1 : Kept W q s1 := h.at
  split
  · exact KeptOut.ite (KeptOut.next h1.updFab) (KeptOut.next h1)
  · exact KeptOut.next h1

theorem kept_execEpochCommit {w e now} (h : Kept W q s) : KeptOut W q (execEpochCommit w e now s) := KeptOut.next h.at.ctlWrite

theorem kept_execSrcEpochWrite {w e now} (h : Kept W q s) : KeptOut W q (execSrcEpochWrite w e now s) :=
  KeptOut.next h.at.ctlWrite

theorem kept_execRouteTableWrite {w e k v now} (h : Kept W q s) : KeptOut W q (execRouteTableWrite w e k v now s) :=
  KeptOut.next h.at.ctlWrite

theorem kept_execEpochLiveClear {e now} (h : Kept W q s) : KeptOut W q (execEpochLiveClear e now s) := by
  unfold execEpochLiveClear
  extract_lets s1
  have h1 : Kept W q s1 := h.at
  exact KeptOut.ite (KeptOut.next h1) (KeptOut.next h1.fset)

theorem kept_execTransit {w on now} (h : Kept W q s) : KeptOut W q (execTransit w on now s) := KeptOut.next h.at.ctlWrite

theorem Kept.answerRead {src tag pathKey pkey addr status data comb} (h : Kept W q s) : Kept W q (s.answerRead src tag pathKey pkey
    addr status data comb) := by
  unfold State.answerRead
  extract_lets base
  exact Kept.ite h.emit (h.foldl fun _ _ g => by
    extract_lets part
    exact g.emit)

theorem Kept.updComb {id g} (h : Kept W q s) : Kept W q (s.updComb id g) := h.updFab

theorem Kept.combReply {id} (h : Kept W q s) : Kept W q (s.combReply id) := by
  unfold State.combReply
  split
  · split
    · extract_lets s1
      have h1 : Kept W q s1 := h.foldl fun _ _ g => g.answerRead
      exact h1.updComb.freeComb
    · exact h
  · exact h

theorem kept_execRead {n now} (h : Kept W q s) : KeptOut W q (execRead n now s) := by
  unfold execRead
  extract_lets s1 s2
  have h1 : Kept W q s1 := h.at
  have h2 : Kept W q s2 := h1.swDrop
  split
  · exact KeptOut.next h1
  · extract_lets p addr ward len c s3 st alone me
    have h3 : Kept W q s3 := Kept.ite₃ h2 h2.targetCheck
    have halone {s'} (g : Kept W q s') : Kept W q (alone s') := by
      unfold alone
      extract_lets r
      exact g.serveRead.answerRead
    split
    · exact KeptOut.next h1.swDrop.answer
    · split
      · exact KeptOut.next h1
      · split
        · exact KeptOut.next h3.answer
        · split
          · exact KeptOut.next (halone h3)
          · split
            · extract_lets s4
              have h4 : Kept W q s4 := h3.updComb.fsat
              exact KeptOut.ite (KeptOut.next h3) (KeptOut.next (Kept.ite h4.combReply h4))
            · exact KeptOut.ite (KeptOut.next (halone h3)) (KeptOut.next h3.updFab)

theorem kept_execWrite {n now} (h : Kept W q s) : KeptOut W q (execWrite n now s) := by
  unfold execWrite
  extract_lets s1
  have h1 : Kept W q s1 := h.at
  split
  · exact KeptOut.next h1
  · extract_lets p
    exact KeptOut.ite (KeptOut.next h1.swDrop.answer) (KeptOut.ite (KeptOut.next h1) (KeptOut.next (h1.once fun _ g => by
      extract_lets c r
      exact Kept.ite₃ ((Kept.ite₃ g g.targetCheck).snd₂) (((Kept.ite₃ g g.targetCheck).serveWrite).snd₂))))

theorem Kept.atomicGroup {n a2} (h : Kept W q s) : Kept W q (s.atomicGroup n a2) := by
  unfold State.atomicGroup
  extract_lets l
  exact Kept.ite h.atomicOnce (h.foldl₂ fun _ _ g => by
    extract_lets known
    split
    · extract_lets s1
      have h1 : Kept W q s1 := g.atomicOnce
      exact (Kept.ite h1.fsat h1).snd
    · exact g)

theorem kept_execAtomic {n now} (h : Kept W q s) : KeptOut W q (execAtomic n now s) := by
  unfold execAtomic
  extract_lets s1
  have h1 : Kept W q s1 := h.at
  split
  · exact KeptOut.next h1
  · exact KeptOut.ite (KeptOut.next h1.swDrop.answer) (KeptOut.ite (KeptOut.next h1) (KeptOut.next h1.atomicGroup))

theorem kept_execReadData {n now} (h : Kept W q s) : KeptOut W q (execReadData n now s) := by
  unfold execReadData
  extract_lets s1 s2
  have h1 : Kept W q s1 := h.at
  have h2 : Kept W q s2 := h1.swDrop
  split
  · exact KeptOut.next h1
  · split
    · exact KeptOut.next h2
    · extract_lets got parts
      exact KeptOut.ite (KeptOut.next h2) (KeptOut.ite (KeptOut.next h2.fabEnd) (KeptOut.ite (KeptOut.next h2.fabEnd) (KeptOut.next
          h2.updReq)))

theorem kept_execComplete {n now} (h : Kept W q s) : KeptOut W q (execComplete n now s) := by
  unfold execComplete
  extract_lets s1 s2
  have h1 : Kept W q s1 := h.at
  have h2 : Kept W q s2 := h1.swDrop
  split
  · exact KeptOut.next h1
  · split
    · exact KeptOut.next h2
    · exact KeptOut.ite (KeptOut.next h2.fabEnd) (KeptOut.next h2)

theorem kept_execAtomicData {n now} (h : Kept W q s) : KeptOut W q (execAtomicData n now s) := by
  unfold execAtomicData
  extract_lets s1 s2
  have h1 : Kept W q s1 := h.at
  have h2 : Kept W q s2 := h1.swDrop
  split
  · exact KeptOut.next h1
  · split
    · exact KeptOut.next h2
    · split
      · exact KeptOut.next h2.fabEnd
      · exact KeptOut.next h2

theorem kept_execCombineHoldEnd {id now} (h : Kept W q s) : KeptOut W q (execCombineHoldEnd id now s) := by
  unfold execCombineHoldEnd
  extract_lets s1
  have h1 : Kept W q s1 := h.at
  split
  · extract_lets r
    exact KeptOut.ite (KeptOut.next h1) (KeptOut.next h1.serveRead.updComb)
  · exact KeptOut.next h1

theorem kept_execCombineReply {id} (h : Kept W q s) : KeptOut W q (execCombineReply id s) := KeptOut.next h.combReply

theorem Kept.noteGen {ten ident} (h : Kept W q s) : Kept W q (s.noteGen ten ident) := by
  unfold State.noteGen
  extract_lets k g'
  exact Kept.ite h.updFab h

theorem Kept.updStream {ten src idx ident g} (h : Kept W q s) : Kept W q (s.updStream ten src idx ident g) := by
  unfold State.updStream
  extract_lets mine fresh l
  exact h.updFab

theorem Kept.updCollRun {c g} (h : Kept W q s) : Kept W q (s.updCollRun c g) := h.updColl

theorem Kept.sendBarrier {c r k} (h : Kept W q s) : Kept W q (s.sendBarrier c r k) := by
  unfold State.sendBarrier
  extract_lets peer
  split
  · exact h
  · exact h.emit

theorem Kept.collRead {c j off n} (h : Kept W q s) : Kept W q (s.collRead c j off n).2.2 := by
  unfold State.collRead
  split
  · exact h.busRead
  · exact h

theorem Kept.collStatus {c st} (h : Kept W q s) : Kept W q (s.collStatus c st) := h.updCollRun

theorem Kept.reduceFrom {c j offs n} (h : Kept W q s) : Kept W q (s.reduceFrom c j offs n).2 := by
  unfold State.reduceFrom
  extract_lets q'
  exact (h.foldl₂ fun _ _ g => by
    extract_lets x2
    exact (Kept.ite g.collRead.collStatus g.collRead).snd).snd

theorem Kept.collWrite {c j off l} (h : Kept W q s) : Kept W q (s.collWrite c j off l).2 := by
  unfold State.collWrite
  split
  · exact h.busWrite
  · exact h

theorem Kept.collStore {c j off l} (h : Kept W q s) : Kept W q (s.collStore c j off l) := by
  unfold State.collStore
  extract_lets q'
  exact Kept.ite h (Kept.ite h.collWrite.collStatus h.collWrite)

theorem Kept.rackPartial {c r} (h : Kept W q s) : Kept W q (s.rackPartial c r).2 := by
  unfold State.rackPartial
  extract_lets j m l s1 n q'
  exact (h.foldl₂ fun _ _ g => by
    extract_lets x2
    exact (Kept.ite ((Kept.ite₃ g.collRead g.collRead).collStatus) (Kept.ite₃ g.collRead g.collRead)).snd).snd

theorem Kept.stageDone {c r k} (h : Kept W q s) : Kept W q (s.stageDone c r k) := by
  unfold State.stageDone
  extract_lets j n i b m l q' sh q'2 q'3 own s2 len x out
  split
  · exact h.reduceFrom.collStore
  · exact h.reduceFrom.collStore
  · exact (h.rackPartial.snd.foldl₂ fun _ _ g => by
      extract_lets z2
      exact Kept.ite₂ g ((Kept.ite g.collRead.collStatus g.collRead).snd)).collStore
  · exact h

theorem Kept.sendCounts {c j} (h : Kept W q s) : Kept W q (s.sendCounts c j).2 := by
  unfold State.sendCounts
  extract_lets r
  exact Kept.ite₂ h ((Kept.ite h.busRead.collStatus h.busRead).snd)

theorem Kept.block {c j peer dest off n} (h : Kept W q s) : Kept W q (s.block c j peer dest off n).2 := by
  unfold State.block
  extract_lets r
  exact Kept.ite₂ h (Kept.ite₂ h.collRead.collStatus.snd h.collRead.snd)

theorem Kept.blocks {c j l} (h : Kept W q s) : Kept W q (s.blocks c j l).2 :=
  h.foldl₂ fun _ _ g => by
    extract_lets r
    exact g.block.snd

theorem Kept.stageSends {c r k} (h : Kept W q s) : Kept W q (s.stageSends c r k).2 := by
  unfold State.stageSends
  extract_lets j n i b others m l blk rack cross q' q'2 bytes s2 len s22
  split
  · exact h.sendCounts.blocks
  · exact h.blocks
  · exact h.blocks
  · exact h.blocks
  · exact h.blocks
  · exact Kept.ite₂ h.blocks h
  · exact h.blocks
  · exact h.blocks
  · exact Kept.ite₂ h.blocks h
  · exact Kept.ite₂ h.blocks h
  · exact h.blocks
  · exact h.rackPartial.snd
  · exact h.blocks
  · exact h.blocks
  · exact h

theorem Kept.sendPut {c r peer attempt off data} (h : Kept W q s) : Kept W q (s.sendPut c r peer attempt off data) := by
  unfold State.sendPut
  extract_lets n
  split
  · exact h
  · extract_lets s1
    have h1 : Kept W q s1 := h.foldl fun _ _ g => by
      extract_lets part p
      exact g.updFab
    exact h1.putPump

theorem Kept.sendEnd {c r o} (h : Kept W q s) : Kept W q (s.sendEnd c r o) := by
  unfold State.sendEnd
  extract_lets s1
  have h1 : Kept W q s1 := h.updCollRun
  split
  · exact h1
  · extract_lets p
    exact h1.updFab.putPump

theorem Kept.stageSend {c r k} (h : Kept W q s) : Kept W q (s.stageSend c r k) := by
  unfold State.stageSend
  extract_lets q' later s1 rest
  have h1 : Kept W q s1 := h.stageSends.foldl fun _ _ g => by
    extract_lets s2
    have h2 : Kept W q s2 := g.updCollRun
    exact h2.sendPut
  split
  · exact h1.foldl fun _ _ g => g.sendEnd
  · exact h1

theorem Kept.collMove {c} (h : Kept W q s) : Kept W q (s.collMove c) := by
  unfold State.collMove
  extract_lets s1
  have h1 : Kept W q s1 := h.updCollRun
  split
  · exact h
  · extract_lets s2
    have h2 : Kept W q s2 := (Kept.ite h.stageDone h).updCollRun
    split
    · exact h
    · split
      · exact Kept.ite (Kept.ite h1.sendBarrier h1) h
      · split
        · split
          · split
            · exact h2.stageSend
            · exact h2
          · exact h2
        · exact h

theorem Kept.collAdvance {c} (h : Kept W q s) : Kept W q (s.collAdvance c) := by
  exact Nat.rec (motive := fun n => Kept W q (Nat.repeat (fun s => s.collMove c) n s)) h (fun _ g => g.collMove) 20

theorem Kept.collsAdvance {t} (h : Kept W q s) : Kept W q (s.collsAdvance t) :=
  h.foldl fun _ _ g => by
    split
    · exact Kept.ite g.collAdvance g
    · exact g

theorem kept_execPut {n now} (h : Kept W q s) : KeptOut W q (execPut n now s) := by
  unfold execPut
  extract_lets s1 s2
  have h1 : Kept W q s1 := h.at
  have h2 : Kept W q s2 := h1.swDrop
  split
  · exact KeptOut.next h1
  · extract_lets p ten ident attempt known c s3 w s4
    have h3 : Kept W q s3 := (Kept.ite₃ h2.targetCheck h2).noteGen
    have h4 : Kept W q s4 := h3.serveWrite.updStream
    exact KeptOut.ite (KeptOut.next h1) (KeptOut.ite (KeptOut.next h2) (KeptOut.ite (KeptOut.next (Kept.ite₃ h2.targetCheck h2))
        (KeptOut.ite (KeptOut.next h3.updStream) (KeptOut.next h4.collsAdvance))))

theorem kept_execPutEnd {n now} (h : Kept W q s) : KeptOut W q (execPutEnd n now s) := by
  unfold execPutEnd
  extract_lets s1
  have h1 : Kept W q s1 := h.at
  split
  · exact KeptOut.next h1
  · extract_lets p w1 ident attempt idx
    split
    · exact KeptOut.next h1.swDrop
    · extract_lets s2 count s3
      have h2 : Kept W q s2 := h1.swDrop.noteGen.updStream
      have h3 : Kept W q s3 := h2.emit
      exact KeptOut.ite (KeptOut.next h1.swDrop) (KeptOut.ite (KeptOut.next h1) (KeptOut.next h3.collsAdvance))

theorem Kept.peerFailed {c peer} (h : Kept W q s) : Kept W q (s.peerFailed c peer) := h.updCollRun.collAdvance

theorem Kept.resendStream {c peer} (h : Kept W q s) : Kept W q (s.resendStream c peer) := by
  unfold State.resendStream
  split
  · exact h
  · split
    · exact h
    · extract_lets o s1 s2
      have h1 : Kept W q s1 := h.updCollRun
      have h2 : Kept W q s2 := h1.foldl fun _ _ g => g.sendPut
      exact Kept.ite h.peerFailed h2.sendEnd

theorem kept_execEndAck {n now} (h : Kept W q s) : KeptOut W q (execEndAck n now s) := by
  unfold execEndAck
  grind only [← Kept.at, ← Kept.swDrop, ← Kept.peerFailed, ← Kept.updCollRun, ← Kept.resendStream, ← KeptOut.next]

theorem kept_execBarrier {n now} (h : Kept W q s) : KeptOut W q (execBarrier n now s) := by
  unfold execBarrier
  extract_lets s1 s2
  have h1 : Kept W q s1 := h.at
  have h2 : Kept W q s2 := h1.swDrop
  split
  · exact KeptOut.next h1
  · extract_lets p w
    split
    · exact KeptOut.next h2
    · exact KeptOut.ite (KeptOut.next h2) (KeptOut.next h2.updFab.collsAdvance)

theorem kept_execTimeReq {n now} (h : Kept W q s) : KeptOut W q (execTimeReq n now s) := by
  unfold execTimeReq
  extract_lets s1 s2
  have h1 : Kept W q s1 := h.at
  have h2 : Kept W q s2 := h1.swDrop
  split
  · exact KeptOut.next h1
  · extract_lets answers
    exact KeptOut.ite (KeptOut.next h2) (KeptOut.next h2.sendTime)

theorem kept_execTimeResp {n now} (h : Kept W q s) : KeptOut W q (execTimeResp n now s) := by
  unfold execTimeResp
  extract_lets s1 s2
  have h1 : Kept W q s1 := h.at
  have h2 : Kept W q s2 := h1.swDrop
  split
  · exact KeptOut.next h1
  · extract_lets w t4 t2 t3
    split
    · exact KeptOut.next h2
    · extract_lets t1 offset path ref s3 rec' s4 s5 r rec'2
      have h3 : Kept W q s3 := h2.referenceSeen.fset
      have h4 : Kept W q s4 := h3.upd
      have h5 : Kept W q s5 := h4.correctOffset
      exact KeptOut.ite (KeptOut.next h2) (KeptOut.ite (KeptOut.next h5) (KeptOut.next h5.upd))

theorem Kept.alleyCapture {code a} (h : Kept W q s) : Kept W q (s.alleyCapture code a) := h.fabCapture

theorem Kept.ackCmd {c result} (h : Kept W q s) : Kept W q (s.ackCmd c result) := by
  unfold State.ackCmd
  split
  · exact h
  · split
    · exact h.alleySend
    · exact h.sendVc0

theorem Kept.refuseCmd {c key} (h : Kept W q s) : Kept W q (s.refuseCmd c key) := by
  unfold State.refuseCmd
  split
  · exact h.alleyCapture.chipEv
  · exact h.opmErr.ackCmd

theorem Kept.noteSeq {src seq} (h : Kept W q s) : Kept W q (s.noteSeq src seq) := h.updFab

theorem Kept.acceptCmd {c admitted key} (h : Kept W q s) : Kept W q (s.acceptCmd c admitted key) := by
  unfold State.acceptCmd
  extract_lets seq s1
  have h1 : Kept W q s1 := by
    unfold s1
    split
    · exact h.fsat
    · exact h
  split
  · exact h.refuseCmd
  · split
    · exact h.ackCmd
    · split
      · exact Kept.ite h1.noteSeq.ackCmd (Kept.ite h1.noteSeq.updFab h1.noteSeq.ackCmd)
      · exact h1.noteSeq.updFab

theorem kept_execCmd {n now} (h : Kept W q s) : KeptOut W q (execCmd n now s) := by
  unfold execCmd
  extract_lets s1
  have h1 : Kept W q s1 := h.at
  split
  · exact KeptOut.next h1
  · extract_lets p ok
    exact KeptOut.next h1.swDrop.acceptCmd

theorem Kept.cmdAcked {word} (h : Kept W q s) : Kept W q (s.cmdAcked word) := by
  unfold State.cmdAcked
  split
  · exact Kept.ite h.txDone h
  · exact h

theorem kept_execCmdAck {n now} (h : Kept W q s) : KeptOut W q (execCmdAck n now s) := by
  unfold execCmdAck
  extract_lets s1
  have h1 : Kept W q s1 := h.at
  split
  · exact KeptOut.next h1
  · exact KeptOut.next h1.swDrop.cmdAcked

theorem kept_execCmdRetry {now} (h : Kept W q s) : KeptOut W q (execCmdRetry now s) := by
  unfold execCmdRetry
  extract_lets s1
  have h1 : Kept W q s1 := h.at
  split
  · exact KeptOut.next h1
  · extract_lets again
    exact KeptOut.ite (KeptOut.next h1) (KeptOut.ite (KeptOut.next h1.txDone) (KeptOut.next h1.updFab.txVc0))

theorem Kept.journalCmd {c object old new} (h : Kept W q s) : Kept W q (s.journalCmd c object old new) := h.journal

theorem Kept.grantedBefore {past} (h : Kept W q s) : Kept W q (s.grantedBefore past) := h.foldl fun _ _ g => g.updPort

theorem Kept.cmdDone {c} (h : Kept W q s) : Kept W q (s.cmdDone c) := by
  unfold State.cmdDone
  extract_lets s1
  have h1 : Kept W q s1 := h.updFab
  exact Kept.ite h1.ackCmd.srcEvent h1.txDone

theorem Kept.cancelWith {t fence} (h : Kept W q s) : Kept W q (s.cancelWith t fence) := h.cancelReqs.fabPump

theorem Kept.cancelColls {t fence} (h : Kept W q s) : Kept W q (s.cancelColls t fence) :=
  h.foldl fun _ _ g => by
    extract_lets q'
    split
    · extract_lets st
      exact Kept.ite g.cancelColl.updFab g
    · exact g

theorem Kept.stopTen {t src step} (h : Kept W q s) : Kept W q (s.stopTen t src step) := by
  unfold State.stopTen
  extract_lets s1 s2 s3
  have h1 : Kept W q s1 := h.rbit.opmErr
  have h2 : Kept W q s2 := h1.cancelColls.cancelWith
  have h3 : Kept W q s3 := h2.rbit
  exact Kept.ite (Kept.ite h3.endStep h3) h2

theorem kept_execStop {past now} (h : Kept W q s) : KeptOut W q (execStop past now s) := by
  unfold execStop
  extract_lets s1
  have h1 : Kept W q s1 := h.at
  split
  · exact KeptOut.next h1
  · extract_lets s2
    have h2 : Kept W q s2 := h1.grantedBefore.journalCmd
    exact KeptOut.next ((h2.foldl fun _ _ g => g.stopTen).cmdDone)

theorem kept_execStart {now} (h : Kept W q s) : KeptOut W q (execStart now s) := by
  unfold execStart
  extract_lets s1
  have h1 : Kept W q s1 := h.at
  split
  · exact KeptOut.next h1
  · extract_lets s2 s3
    have h2 : Kept W q s2 := h1.journalCmd
    have h3 : Kept W q s3 := h2.foldl fun _ _ g => by
      extract_lets s4
      have h4 : Kept W q s4 := Kept.ite g.rbit g
      exact Kept.ite h4 h4.rbit
    exact KeptOut.next h3.cmdDone

theorem Kept.wardFence {t cmd} (h : Kept W q s) : Kept W q (s.wardFence t cmd) := by
  unfold State.wardFence
  extract_lets own at0 was at1 s1 s2
  have h1 : Kept W q s1 := h.fset.fset
  have h2 : Kept W q s2 := Kept.ite h1 h1.opmErr.srcEvent
  exact h2.cancelColls.cancelWith

theorem kept_execFenceCommand {past now} (h : Kept W q s) : KeptOut W q (execFenceCommand past now s) := by
  unfold execFenceCommand
  extract_lets s1
  have h1 : Kept W q s1 := h.at
  split
  · exact KeptOut.next h1
  · extract_lets id s2 s3
    have h2 : Kept W q s2 := h1.grantedBefore.journalCmd
    have h3 : Kept W q s3 := h2.foldl fun _ _ g => g.wardFence
    exact KeptOut.next h3.cmdDone

theorem kept_execShape {now} (h : Kept W q s) : KeptOut W q (execShape now s) := by
  unfold execShape
  extract_lets s1
  have h1 : Kept W q s1 := h.at
  split
  · exact KeptOut.next h1
  · extract_lets b v s2
    have h2 : Kept W q s2 := Kept.ite h1.journalCmd.bucketConfig.fabPump h1.opmErr
    exact KeptOut.next h2.cmdDone

theorem kept_execCmdTxGo {w v now} (h : Kept W q s) : KeptOut W q (execCmdTxGo w v now s) := KeptOut.next h.at.ctlWrite

theorem kept_execPshpCfgWrite {w p vc v now} (h : Kept W q s) : KeptOut W q (execPshpCfgWrite w p vc v now s) :=
  KeptOut.next h.at.ctlWrite

theorem kept_execSshpCfgWrite {w t a2 v now} (h : Kept W q s) : KeptOut W q (execSshpCfgWrite w t a2 v now s) :=
  KeptOut.next h.at.ctlWrite

theorem Kept.alleyHeard {a} (h : Kept W q s) : Kept W q (s.alleyHeard a) := h.updAlley

theorem kept_execAlleyHello {a id port token now} (h : Kept W q s) : KeptOut W q (execAlleyHello a id port token now s) := by
  unfold execAlleyHello
  extract_lets s1 up s2 rec' s3
  have h1 : Kept W q s1 := h.at
  have h2 : Kept W q s2 := h1.alleyHeard.fsets
  have h3 : Kept W q s3 := h2.upd
  exact KeptOut.ite (KeptOut.next h1) (KeptOut.next (Kept.ite h3.srcEvent h3))

theorem kept_execAlleyCmd {a src w0 w1 w2 now} (h : Kept W q s) : KeptOut W q (execAlleyCmd a src w0 w1 w2 now s) := by
  unfold execAlleyCmd
  extract_lets s1
  have h1 : Kept W q s1 := h.at
  exact KeptOut.ite (KeptOut.next h1) (KeptOut.next h1.alleyHeard.acceptCmd)

theorem kept_execAlleyAck {a word now} (h : Kept W q s) : KeptOut W q (execAlleyAck a word now s) := by
  unfold execAlleyAck
  extract_lets s1
  have h1 : Kept W q s1 := h.at
  exact KeptOut.ite (KeptOut.next h1) (KeptOut.next h1.alleyHeard.cmdAcked)

theorem kept_execAlleyHelloSend {a now} (h : Kept W q s) : KeptOut W q (execAlleyHelloSend a now s) := by
  unfold execAlleyHelloSend
  extract_lets s1
  have h1 : Kept W q s1 := h.at
  exact KeptOut.ite (KeptOut.next h1.alleySend) (KeptOut.next h1)

theorem kept_execAlleyDown {a now} (h : Kept W q s) : KeptOut W q (execAlleyDown a now s) := by
  unfold execAlleyDown
  extract_lets s1 s2
  have h1 : Kept W q s1 := h.at
  have h2 : Kept W q s2 := h1.fset.alleyCapture
  exact KeptOut.ite (KeptOut.next h2.chipEv.srcEvent) (KeptOut.next h1)

theorem Kept.applyLease {t epoch} (h : Kept W q s) : Kept W q (s.applyLease t epoch) := by
  unfold State.applyLease
  extract_lets st own renew
  have hrenew {s'} (g : Kept W q s') : Kept W q (renew s') := g.updFab.fset
  exact Kept.ite (Kept.ite h (hrenew h.fset)) (Kept.ite (hrenew h) (Kept.ite (hrenew h.fset) h))

theorem kept_execLease {n now} (h : Kept W q s) : KeptOut W q (execLease n now s) := by
  unfold execLease
  extract_lets s1 s2
  have h1 : Kept W q s1 := h.at
  have h2 : Kept W q s2 := h1.swDrop
  split
  · exact KeptOut.next h1
  · extract_lets w id l s3
    have h3 : Kept W q s3 := h2.foldl fun _ _ g => g.applyLease
    split
    · exact KeptOut.next h3
    · exact KeptOut.next h3.sendVc0

theorem kept_execLeaseAck {n now} (h : Kept W q s) : KeptOut W q (execLeaseAck n now s) := by
  unfold execLeaseAck
  extract_lets s1 s2
  have h1 : Kept W q s1 := h.at
  have h2 : Kept W q s2 := h1.swDrop
  split
  · exact KeptOut.next h1
  · extract_lets w
    exact KeptOut.next (h2.foldl fun _ _ g => Kept.ite (Kept.ite g.updAuth (Kept.ite g.updAuth g)) g)

theorem kept_execLeaseSend {a now} (h : Kept W q s) : KeptOut W q (execLeaseSend a now s) := by
  unfold execLeaseSend
  grind only [← Kept.at, ← Kept.fsets, ← Kept.updAuth, ← Kept.busRead, ← Kept.sendVc0, ← KeptOut.next]

theorem kept_execLeaseTtlExpiry {t past now} (h : Kept W q s) : KeptOut W q (execLeaseTtlExpiry t past now s) := by
  unfold execLeaseTtlExpiry
  extract_lets s1
  have h1 : Kept W q s1 := h.at
  exact KeptOut.ite (KeptOut.next h1.grantedBefore.wardFence) (KeptOut.next h1)

theorem Kept.jobDone {i d src w14 w15 rec_} (h : Kept W q s) : Kept W q (s.jobDone i d src w14 w15 rec_).2 := by
  unfold State.jobDone
  grind only [← Kept.busWrite, ← Kept.evcAdd, ← Kept.srcEvent]

theorem Kept.collFinish {c r st} (h : Kept W q s) : Kept W q (s.collFinish c r st) := h.jobDone

theorem Kept.collReject {c j reason} (h : Kept W q s) : Kept W q (s.collReject c j reason) := by
  unfold State.collReject
  extract_lets r
  exact h.collFinish.opmErr.askDiscard

theorem Kept.readGroup {c j} (h : Kept W q s) : Kept W q (s.readGroup c j).2.2.2.2 := by
  unfold State.readGroup
  extract_lets l table r
  have hl : Kept W q l.2.2 := h.busRead
  split
  · exact hl
  · exact List.foldlRecOn (motive := fun z : Nat × List (Nat × Nat) × List Nat × State => Kept W q z.2.2.2) _ _ hl
      fun z hz x _ => by grind only [← Kept.rankEntry]

theorem Kept.takeSeq {j} (h : Kept W q s) : Kept W q (s.takeSeq j).2 := by
  unfold State.takeSeq
  extract_lets k g' newerGen base
  exact h.updFab.snd

theorem Kept.collCopy {c j dest off n} (h : Kept W q s) : Kept W q (s.collCopy c j dest off n) := by
  unfold State.collCopy
  extract_lets q'
  exact Kept.ite h (Kept.ite h.collRead.collStatus h.collRead.collStore)

theorem Kept.selfBlocks {c j} (h : Kept W q s) : Kept W q (s.selfBlocks c j) := by
  unfold State.selfBlocks
  extract_lets i b q'
  split
  · exact h.sendCounts.collCopy
  · exact h.collCopy
  · exact Kept.ite h.collCopy h
  · exact h

theorem Kept.collStart {c op} (h : Kept W q s) : Kept W q (s.collStart c op) := by
  unfold State.collStart
  (repeat' split) <;> grind only [← Kept.updColl, ← Kept.collFinish, ← Kept.collReject, ← Kept.readGroup, ← Kept.takeSeq, ←
      Kept.collAdvance, ← Kept.sendBarrier, ← Kept.stageSend, ← Kept.selfBlocks]

theorem kept_execAllToAll {c now} (h : Kept W q s) : KeptOut W q (execAllToAll c now s) := KeptOut.next h.at.collStart

theorem kept_execAllGather {c now} (h : Kept W q s) : KeptOut W q (execAllGather c now s) := KeptOut.next h.at.collStart

theorem kept_execReduceScatter {c now} (h : Kept W q s) : KeptOut W q (execReduceScatter c now s) := KeptOut.next h.at.collStart

theorem kept_execAllReduce {c now} (h : Kept W q s) : KeptOut W q (execAllReduce c now s) := KeptOut.next h.at.collStart

theorem kept_execBroadcast {c now} (h : Kept W q s) : KeptOut W q (execBroadcast c now s) := KeptOut.next h.at.collStart

theorem kept_execCollBarrier {c now} (h : Kept W q s) : KeptOut W q (execCollBarrier c now s) := KeptOut.next h.at.collStart

theorem kept_execReform {c now} (h : Kept W q s) : KeptOut W q (execReform c now s) := KeptOut.next h.at.collStart

theorem kept_execCancel {c past now} (h : Kept W q s) : KeptOut W q (execCancel c past now s) := by
  unfold execCancel
  extract_lets s1
  have h1 : Kept W q s1 := h.at
  split
  · exact KeptOut.next h1
  · extract_lets s2 r0 reason x gone s3 s4 q' s5
    have h2 : Kept W q s2 := h1.grantedBefore.updColl
    have h3 : Kept W q s3 := h2.updColl
    have h4 : Kept W q s4 := h3.foldl fun _ _ g1 => g1.collFinish
    have h5 : Kept W q s5 := by
      unfold s5
      split
      · exact Kept.ite h4.cancelColl.collStatus h4
      · exact h4
    exact KeptOut.ite (KeptOut.next h2.collReject) (KeptOut.next h5.collFinish)

theorem kept_execCollNop {c now} (h : Kept W q s) : KeptOut W q (execCollNop c now s) := KeptOut.next h.at.collStart

theorem kept_execStreamResend {c peer now} (h : Kept W q s) : KeptOut W q (execStreamResend c peer now s) := by
  unfold execStreamResend
  extract_lets s1
  have h1 : Kept W q s1 := h.at
  split
  · exact KeptOut.next h1
  · split
    · exact KeptOut.ite (KeptOut.next h1.resendStream) (KeptOut.next h1)
    · exact KeptOut.next h1

theorem kept_execCollTimeout {c now} (h : Kept W q s) : KeptOut W q (execCollTimeout c now s) := by
  unfold execCollTimeout
  extract_lets s1
  have h1 : Kept W q s1 := h.at
  split
  · exact KeptOut.next h1
  · extract_lets late
    exact KeptOut.ite (KeptOut.next h1) (KeptOut.next (h1.foldl fun _ _ g => g.peerFailed))

theorem Kept.collUndefined {c r} (h : Kept W q s) : Kept W q (s.collUndefined c r) := by
  unfold State.collUndefined
  extract_lets j m fed lost n
  exact (h.foldl fun _ _ g => Kept.ite g.collStore g).tickFree

theorem kept_execCollComplete {c now} (h : Kept W q s) : KeptOut W q (execCollComplete c now s) := by
  unfold execCollComplete
  extract_lets s1
  have h1 : Kept W q s1 := h.at
  split
  · exact KeptOut.next h1
  · extract_lets st s2 s3 q' counts s4 s5
    have h2 : Kept W q s2 := Kept.ite h1.collUndefined.opmErr h1
    have h3 : Kept W q s3 := Kept.ite h2.updFab h2
    have h4 : Kept W q s4 := Kept.ite h3.sendCounts.busWrite h3
    have h5 : Kept W q s5 := h4.collFinish
    exact KeptOut.ite (KeptOut.next h1) (KeptOut.next h5.updColl)

theorem Kept.poolError {n} (h : Kept W q s) : Kept W q (s.poolError n) := by
  unfold State.poolError
  split
  · exact h
  · extract_lets s1
    have h1 : Kept W q s1 := h.fabErr
    exact Kept.ite h1.swDrop.fabErr h1.updFab

theorem kept_execFaultLog {e now} (h : Kept W q s) : KeptOut W q (execFaultLog e now s) := by
  unfold execFaultLog
  extract_lets s1
  have h1 : Kept W q s1 := h.at
  exact KeptOut.next (Kept.ite h1 (Kept.ite h1.poolError h1.raiseEv))

theorem kept_execRetirementWindowEnd {w now} (h : Kept W q s) : KeptOut W q (execRetirementWindowEnd w now s) := by
  unfold execRetirementWindowEnd
  extract_lets s1 rec' rec'2
  have h1 : Kept W q s1 := h.at
  split
  · exact KeptOut.ite (KeptOut.next h1.upd) (KeptOut.next h1)
  · exact KeptOut.next h1

theorem kept_execRidgeForce {w n v now} (h : Kept W q s) : KeptOut W q (execRidgeForce w n v now s) :=
  KeptOut.next h.at.ctlWrite

theorem kept_execDfuForce {w d n v now} (h : Kept W q s) : KeptOut W q (execDfuForce w d n v now s) :=
  KeptOut.next h.at.ctlWrite

theorem kept_execBlkForce {w b n v now} (h : Kept W q s) : KeptOut W q (execBlkForce w b n v now s) :=
  KeptOut.next h.at.ctlWrite

theorem kept_execGraveForce {w v now} (h : Kept W q s) : KeptOut W q (execGraveForce w v now s) := KeptOut.next h.at.ctlWrite

theorem kept_execRetClear {w v now} (h : Kept W q s) : KeptOut W q (execRetClear w v now s) := KeptOut.next h.at.ctlWrite

theorem kept_execDfuWdogKick {w d v now} (h : Kept W q s) : KeptOut W q (execDfuWdogKick w d v now s) :=
  KeptOut.next h.at.ctlWrite

theorem kept_execCccWdogKick {w v now} (h : Kept W q s) : KeptOut W q (execCccWdogKick w v now s) := KeptOut.next h.at.ctlWrite

theorem kept_execDfuWdogExpiry {d now} (h : Kept W q s) : KeptOut W q (execDfuWdogExpiry d now s) := by
  unfold execDfuWdogExpiry
  extract_lets s1
  have h1 : Kept W q s1 := h.at
  exact KeptOut.ite (KeptOut.next h1.kick.chipEv) (KeptOut.next h1)

theorem kept_execCccWdogExpiry {now} (h : Kept W q s) : KeptOut W q (execCccWdogExpiry now s) := by
  unfold execCccWdogExpiry
  extract_lets s1
  have h1 : Kept W q s1 := h.at
  exact KeptOut.ite (KeptOut.next h1.kick.chipEv) (KeptOut.next h1)

theorem Kept.showSelector (h : Kept W q s) : Kept W q (s.showSelector) := by
  unfold State.showSelector
  extract_lets x
  exact h.fsets

theorem Kept.writeSelector {active trySlot tries} (h : Kept W q s) : Kept W q (s.writeSelector active trySlot tries) := by
  unfold State.writeSelector
  extract_lets p k seq rec'
  exact h.upd.showSelector

theorem Kept.chooseSlot (h : Kept W q s) : Kept W q (s.chooseSlot).2 := by
  unfold State.chooseSlot
  extract_lets x tries s1 rest
  have h1 : Kept W q s1 := Kept.ite ((Kept.ite h.journal h.fsat).writeSelector) h
  exact h1

theorem Kept.runImage {slot} (h : Kept W q s) : Kept W q (s.runImage slot) := by
  unfold State.runImage
  extract_lets h' s1 rec'
  have h1 : Kept W q s1 := h.fsets
  exact Kept.ite h1 h1.upd

theorem Kept.showSlots (h : Kept W q s) : Kept W q (s.showSlots) := h.fsets

theorem Kept.selfTest {fails} (h : Kept W q s) : Kept W q (s.selfTest fails) := h.foldl fun _ _ g => Kept.ite g g.decideRetire

theorem Kept.enterRun (h : Kept W q s) : Kept W q (s.enterRun) := by
  unfold State.enterRun
  extract_lets s1 s2 s3 rec' rec'2 s4 s5
  have h1 : Kept W q s1 := h.foldl fun _ _ g => by
    extract_lets was
    exact g.fset.fset.updCore
  have h2 : Kept W q s2 := h1.foldl fun _ _ g => g.fset.fset
  have h3 : Kept W q s3 := h2.fset
  have h4 : Kept W q s4 := h3.upd
  have h5 : Kept W q s5 := h4.setRidge
  exact h5.fset

theorem Kept.announceVersion {p} (h : Kept W q s) : Kept W q (s.announceVersion p) := Kept.ite h.updPort h

theorem Kept.reentryEnd {fails} (h : Kept W q s) : Kept W q (s.reentryEnd fails) := by
  unfold State.reentryEnd
  extract_lets q' s1 s2 s3 s4 s5 s6
  have h1 : Kept W q s1 := h.chooseSlot.runImage
  have h2 : Kept W q s2 := h1.rawZero
  have h3 : Kept W q s3 := h2.selfTest.retireUnits
  have h4 : Kept W q s4 := h3.foldl fun _ _ g => g.fset
  have h5 : Kept W q s5 := h4.showSlots.enterRun
  have h6 : Kept W q s6 := h5.foldl fun _ _ g => Kept.ite g g.announceVersion
  exact Kept.ite h2.setRidge.showSlots h6.updFab.setPend

theorem kept_execTermination {fails now} (h : Kept W q s) : KeptOut W q (execTermination fails now s) := by
  unfold execTermination
  extract_lets s1 st limit s2
  have h1 : Kept W q s1 := h.at
  have h2 : Kept W q s2 := h1.setRidge.fset
  exact KeptOut.ite (KeptOut.next h1) (KeptOut.ite (KeptOut.next h1.terminateNow) (KeptOut.ite (KeptOut.next (Kept.ite h2 (Kept.ite
      h2.chipEv h1.reenter))) (KeptOut.ite (KeptOut.next h1.reentryEnd) (KeptOut.next h1))))

theorem kept_execRelease {w v now} (h : Kept W q s) : KeptOut W q (execRelease w v now s) := KeptOut.next h.at.ctlWrite

theorem kept_execGraveEvent {saved now} (h : Kept W q s) : KeptOut W q (execGraveEvent saved now s) := by
  unfold execGraveEvent
  extract_lets s1 rec' s2
  have h1 : Kept W q s1 := h.at
  have h2 : Kept W q s2 := h1.upd
  split
  · exact KeptOut.next h1
  · extract_lets s3 rec'2 rec'3 rec'4 s4 rec'5
    have h3 : Kept W q s3 := h2.cancelAll.setRidge.fset
    have h4 : Kept W q s4 := h3.upd
    exact KeptOut.ite (KeptOut.next h2) (KeptOut.next (Kept.ite h4.upd h4))

theorem Kept.hifErr {kind status off} (h : Kept W q s) : Kept W q (s.hifErr kind status off) := h.capture

theorem kept_execBar2Read {off n now} (h : Kept W q s) : KeptOut W q (execBar2Read off n now s) := by
  have h1 : Kept W q (s.at now) := h.at
  have hread (s') (hs : Kept W q s') (i k a n) : Kept W q (s'.busRead i k a n).2.2 := hs.busRead
  conv in @execBar2Read => delta execBar2Read
  beta_reduce
  generalize s.at now = s1 at h1 ⊢
  generalize State.busRead = read at hread ⊢
  as_aux_lemma =>
    extract_lets s2 done a r
    have h2 : Kept W q s2 := h1
    have hdone {s st l} (h : Kept W q s) : Kept W q (done s st l) := h.upd
    clear_value s2 done a
    have hr : Kept W q r.2.2 :=
      List.foldlRecOn (motive := fun z : List (Nat × Nat) × List Byte × State => Kept W q z.2.2) _ _ h2 fun _ g _ _ => .snd₂ (hread
          _ g _ _ _ _)
    clear_value r
    split
    · exact .next h2
    · split
      · exact .next (hdone h2.hifErr)
      · split
        · exact .next (hdone hr)
        · refine .next ?_
          split
          · exact hdone hr.hifErr
          · exact hdone hr.hifErr

theorem kept_execBar2Write {off data poisoned now} (h : Kept W q s) : KeptOut W q (execBar2Write off data poisoned now s) := by
  have h1 : Kept W q (s.at now) := h.at
  have hwrite (s') (hs : Kept W q s') (i k a l) : Kept W q (s'.busWrite i k a l).2 := hs.busWrite
  conv in @execBar2Write => delta execBar2Write
  beta_reduce
  generalize s.at now = s1 at h1 ⊢
  generalize State.busWrite = write at hwrite ⊢
  as_aux_lemma =>
    extract_lets s2 w o a r
    have h2 : Kept W q s2 := h1
    clear_value s2 w o a
    have hr : Kept W q r.2 := h2.foldl₂ fun _ _ g => .snd (hwrite _ g _ _ _ _)
    clear_value r
    (repeat' split) <;> grind only [← KeptOut.next, ← Kept.hifErr]

theorem kept_execBar2XlatWrite {w n v now} (h : Kept W q s) : KeptOut W q (execBar2XlatWrite w n v now s) :=
  KeptOut.next h.at.ctlWrite

theorem Kept.endpointReset (h : Kept W q s) : Kept W q (s.endpointReset) := by
  unfold State.endpointReset
  extract_lets s1 s2 rec' s3 s4
  have h1 : Kept W q s1 := h.foldl fun _ _ g => g.dropChannel.rset.rset
  have h2 : Kept W q s2 := h1.resetRegs.resetRegs
  have h3 : Kept W q s3 := h2.upd
  have h4 : Kept W q s4 := h3.updAgent
  exact h4.fsets

theorem kept_execEndpointReset {kind now} (h : Kept W q s) : KeptOut W q (execEndpointReset kind now s) := by
  unfold execEndpointReset
  extract_lets s1
  have h1 : Kept W q s1 := h.at.endpointReset
  exact KeptOut.next (Kept.ite h1.fsets h1)

theorem Kept.hostWrite {a l} (h : Kept W q s) : Kept W q (s.hostWrite a l) := by
  exact h.setHostMem wf_writeList

theorem Kept.ringWrite {ch} (h : Kept W q s) : Kept W q (s.ringWrite ch) := by
  unfold State.ringWrite
  extract_lets pi a rec' s1
  have h1 : Kept W q s1 := h.upd
  split
  · exact h
  · exact h1.hostWrite.fset.srcEvent

theorem Kept.sendMsi {v} (h : Kept W q s) : Kept W q (s.sendMsi v) := h.hostWrite

theorem Kept.sendPending {v} (h : Kept W q s) : Kept W q (s.sendPending v) := Kept.ite h.rbit.sendMsi h

theorem Kept.drainOut (h : Kept W q s) : Kept W q (s.drainOut) := by
  unfold State.drainOut
  extract_lets l rec' s1
  have h1 : Kept W q s1 := h.upd
  exact Kept.ite h (h1.foldl fun _ _ g => by
    split
    · exact g.ringWrite
    · exact g.sendPending)

theorem kept_execBusMasterEnable {gen lanes bme msixEn fnMask now} (h : Kept W q s) : KeptOut W q (execBusMasterEnable gen lanes
    bme msixEn fnMask now s) := by
  unfold execBusMasterEnable
  extract_lets s1
  have h1 : Kept W q s1 := h.at.fsets
  exact KeptOut.next h1.drainOut

theorem kept_execResultRecordBuild {t now} (h : Kept W q s) : KeptOut W q (execResultRecordBuild t now s) :=
  KeptOut.next h.at.buildRecord

theorem kept_execRingRecordWrite {ch now} (h : Kept W q s) : KeptOut W q (execRingRecordWrite ch now s) := by
  unfold execRingRecordWrite
  extract_lets s1 queued rec'
  have h1 : Kept W q s1 := h.at
  exact KeptOut.ite (KeptOut.next h1) (KeptOut.ite (KeptOut.next h1.ringWrite) (KeptOut.next h1.upd))

theorem kept_execResChCiWrite {w ch v now} (h : Kept W q s) : KeptOut W q (execResChCiWrite w ch v now s) :=
  KeptOut.next h.at.ctlWrite

theorem Kept.ctlRead {w r ix} (h : Kept W q s) : Kept W q (s.ctlRead w r ix) := by
  unfold State.ctlRead
  extract_lets q' s1
  have h1 : Kept W q s1 := h.regRead
  exact h1.upd

theorem kept_execRpStatusRead {w ch now} (h : Kept W q s) : KeptOut W q (execRpStatusRead w ch now s) :=
  KeptOut.next h.at.ctlRead

theorem kept_execResultAck {w ch seq now} (h : Kept W q s) : KeptOut W q (execResultAck w ch seq now s) :=
  KeptOut.next h.at.ctlWrite

theorem kept_execResChCfgWrite {w ch v now} (h : Kept W q s) : KeptOut W q (execResChCfgWrite w ch v now s) :=
  KeptOut.next h.at.ctlWrite

theorem kept_execCoalTimeout {c n} (h : Kept W q s) : KeptOut W q (execCoalTimeout c n s) := by
  unfold execCoalTimeout
  extract_lets x us
  exact KeptOut.ite (KeptOut.next h) (KeptOut.next h.at)

theorem kept_execClaim {w c now} (h : Kept W q s) : KeptOut W q (execClaim w c now s) := KeptOut.next h.at.ctlRead

theorem kept_execIntComplete {w c n now} (h : Kept W q s) : KeptOut W q (execIntComplete w c n now s) :=
  KeptOut.next h.at.ctlWrite

theorem kept_execSoft {w c v now} (h : Kept W q s) : KeptOut W q (execSoft w c v now s) := KeptOut.next h.at.ctlWrite

theorem kept_execSrcCfgWrite {w c n v now} (h : Kept W q s) : KeptOut W q (execSrcCfgWrite w c n v now s) := by
  unfold execSrcCfgWrite
  extract_lets x
  exact KeptOut.next h.at.ctlWrite

theorem kept_execMsiXSend {n now} (h : Kept W q s) : KeptOut W q (execMsiXSend n now s) := by
  unfold execMsiXSend
  extract_lets s1 x v s2 s3 rec'
  have h1 : Kept W q s1 := h.at
  have h2 : Kept W q s2 := h1.srcClear
  have h3 : Kept W q s3 := h2.rbit
  exact KeptOut.ite (KeptOut.next h1) (KeptOut.ite (KeptOut.next h2.sendMsi) (KeptOut.next (Kept.ite h3 h3.upd)))

theorem Kept.lineAct {l level} (h : Kept W q s) : Kept W q (s.lineAct l level) := by
  unfold State.lineAct
  extract_lets rec' s1 rec'2 rec'3 held s2 rec'4
  have h1 : Kept W q s1 := h.noteCause
  have h2 : Kept W q s2 := h.upd
  split
  · exact h.upd
  · exact h.noteCause
  · exact h1.upd
  · exact Kept.ite h h.upd
  · exact Kept.ite h h.endpointReset
  · exact Kept.ite h2.upd h2
  · exact Kept.ite h h.tapStop
  · exact h

theorem kept_execSensedLineChange {l level held now} (h : Kept W q s) : KeptOut W q (execSensedLineChange l level held now s) := by
  unfold execSensedLineChange
  extract_lets s1 rec' s2
  have h1 : Kept W q s1 := h.at
  have h2 : Kept W q s2 := h1.upd
  exact KeptOut.ite (KeptOut.next h1) (KeptOut.ite (KeptOut.next h1.fsat) (KeptOut.next h2.fset.lineAct))

theorem kept_execSeal {w t n now} (h : Kept W q s) : KeptOut W q (execSeal w t n now s) := KeptOut.next h.at.ctlWrite

theorem kept_execSealComplete {now} (h : Kept W q s) : KeptOut W q (execSealComplete now s) := by
  unfold execSealComplete
  extract_lets s1 rec' s2 s3
  have h1 : Kept W q s1 := h.at
  have h2 : Kept W q s2 := h1.upd
  have h3 : Kept W q s3 := h2.fsets
  split
  · exact KeptOut.next h1
  · split
    · exact KeptOut.next h1
    · split
      · extract_lets r s4 rec'2
        have h4 : Kept W q s4 := h3.busRead
        exact KeptOut.next (Kept.ite h4.upd h3.busRead)
      · exact KeptOut.next h3

theorem kept_execUnseal {w t n now} (h : Kept W q s) : KeptOut W q (execUnseal w t n now s) := KeptOut.next h.at.ctlWrite

theorem kept_execRoleGo {w role slot now} (h : Kept W q s) : KeptOut W q (execRoleGo w role slot now s) :=
  KeptOut.next h.at.ctlWrite

theorem kept_execRoleVerify {w role slot now} (h : Kept W q s) : KeptOut W q (execRoleVerify w role slot now s) :=
  KeptOut.next h.at.ctlWrite

theorem kept_execRoleDrop {w role slot now} (h : Kept W q s) : KeptOut W q (execRoleDrop w role slot now s) :=
  KeptOut.next h.at.ctlWrite

theorem kept_execChallengeExpiry {a now} (h : Kept W q s) : KeptOut W q (execChallengeExpiry a now s) := by
  unfold execChallengeExpiry
  extract_lets s1 x
  have h1 : Kept W q s1 := h.at
  exact KeptOut.next (Kept.ite h1.fset h1)

theorem kept_execSessionExpiry {a role now} (h : Kept W q s) : KeptOut W q (execSessionExpiry a role now s) := by
  unfold execSessionExpiry
  extract_lets s1
  have h1 : Kept W q s1 := h.at
  exact KeptOut.next h1.updAgent

theorem kept_execLockoutEnd {a now} (h : Kept W q s) : KeptOut W q (execLockoutEnd a now s) := KeptOut.next h.at.endLock

theorem kept_execKeyGo {w slot now} (h : Kept W q s) : KeptOut W q (execKeyGo w slot now s) := KeptOut.next h.at.ctlWrite

theorem kept_execKeySectorWrite {now} (h : Kept W q s) : KeptOut W q (execKeySectorWrite now s) := by
  unfold execKeySectorWrite
  extract_lets s1 rec'
  have h1 : Kept W q s1 := h.at
  split
  · exact KeptOut.next h1
  · exact KeptOut.ite (KeptOut.next h1) (KeptOut.next h1.upd.fset)

theorem Kept.program {e k ops} (h : Kept W q s) : Kept W q (s.program e k ops) := by
  unfold State.program
  extract_lets a s1 s2 s3 s4 full s5 p s6 rec'
  have h1 : Kept W q s1 := Kept.ite h.flashErase h
  have h2 : Kept W q s2 := Kept.ite h1.flashWrite h1
  have h3 : Kept W q s3 := Kept.ite h2.flashWrite h2
  have h4 : Kept W q s4 := Kept.ite h3.flashWrite h3
  have h5 : Kept W q s5 := Kept.ite h4.flashErase h4
  have h6 : Kept W q s6 := h5.flashWrite
  exact Kept.ite h6.upd h4

theorem Kept.selectNow {seq done} (h : Kept W q s) : Kept W q (s.selectNow seq done) := by
  unfold State.selectNow
  extract_lets rec' s1
  have h1 : Kept W q s1 := h.upd
  split
  · exact h
  · exact Kept.ite ((Kept.ite h1.writeSelector h1).fsets) h

theorem Kept.giveUp {seq} (h : Kept W q s) : Kept W q (s.giveUp seq) := by
  unfold State.giveUp
  extract_lets rec' s1 rec'2
  have h1 : Kept W q s1 := h.upd.selectNow
  exact Kept.ite h1.upd.fset h1

theorem Kept.saveSettings {seq} (h : Kept W q s) : Kept W q (s.saveSettings seq) := by
  unfold State.saveSettings
  extract_lets due rec'
  exact h.upd.selectNow

theorem kept_execJournalCommit {bad ops junk now} (h : Kept W q s) : KeptOut W q (execJournalCommit bad ops junk now s) := by
  unfold execJournalCommit
  extract_lets s1 k
  have h1 : Kept W q s1 := h.at
  split
  · exact KeptOut.next h1
  · extract_lets s2 rec' rec'2 fail s3 k2 s4 seq rec'3 s5 s6
    have h2 : Kept W q s2 := Kept.ite (Kept.ite h1.flashWrite h1) h1.program
    have hfail {s' x0} (g : Kept W q s') : Kept W q (fail s' x0) := g.program.fset
    have h3 : Kept W q s3 := Kept.ite (hfail h1) h1
    have h4 : Kept W q s4 := Kept.ite (hfail h3) h3.program
    have h5 : Kept W q s5 := h4.upd
    have h6 : Kept W q s6 := h5.fset
    exact KeptOut.ite (KeptOut.next h2.upd.fset) (KeptOut.next (Kept.ite h6.giveUp h6.saveSettings))

theorem kept_execAudRead {w seq now} (h : Kept W q s) : KeptOut W q (execAudRead w seq now s) := KeptOut.next h.at.ctlWrite

theorem kept_execRailOutOfRange {r filtering now} (h : Kept W q s) : KeptOut W q (execRailOutOfRange r filtering now s) := by
  unfold execRailOutOfRange
  extract_lets s1
  have h1 : Kept W q s1 := h.at.fset
  exact KeptOut.next (Kept.ite h1 h1.chipEv)

theorem kept_execT2PgLow {decay} (h : Kept W q s) : KeptOut W q (execT2PgLow decay s) := by
  unfold execT2PgLow
  extract_lets rec' s1
  have h1 : Kept W q s1 := h.upd
  exact KeptOut.next (h1.foldl fun _ _ g => g.rawWrite)

theorem kept_execPowerReading {rails watts tj now} (h : Kept W q s) : KeptOut W q (execPowerReading rails watts tj now s) := by
  unfold execPowerReading
  extract_lets s1 was s2 limit crit s3 hot rec' s4 rec'2 s5
  have h1 : Kept W q s1 := h.at
  have h2 : Kept W q s2 := h1.foldl fun _ _ g => g.fsets
  have h3 : Kept W q s3 := h2.fsets
  have h4 : Kept W q s4 := h3.upd.noteCause
  have h5 : Kept W q s5 := Kept.ite h4.upd h4
  exact KeptOut.next (Kept.ite h5.chipEv h5)

theorem Kept.setThrottle {x} (h : Kept W q s) : Kept W q (s.setThrottle x) := Kept.ite h h.fset.srcEvent

theorem kept_execThrottleStepUp {now} (h : Kept W q s) : KeptOut W q (execThrottleStepUp now s) := by
  unfold execThrottleStepUp
  extract_lets s1 x rec'
  have h1 : Kept W q s1 := h.at
  exact KeptOut.ite (KeptOut.next h1.upd.setThrottle) (KeptOut.next h1)

theorem kept_execThrottleStepDown {now} (h : Kept W q s) : KeptOut W q (execThrottleStepDown now s) := by
  unfold execThrottleStepDown
  extract_lets s1 x rec'
  have h1 : Kept W q s1 := h.at
  exact KeptOut.ite (KeptOut.next h1.upd.setThrottle) (KeptOut.next h1)

theorem kept_execEmergencyThrottle {now} (h : Kept W q s) : KeptOut W q (execEmergencyThrottle now s) := by
  unfold execEmergencyThrottle
  extract_lets s1 rec'
  have h1 : Kept W q s1 := h.at
  exact KeptOut.next (Kept.ite h1.upd.fset.setThrottle h1)

theorem kept_execEmergencyRelease {now} (h : Kept W q s) : KeptOut W q (execEmergencyRelease now s) := by
  unfold execEmergencyRelease
  extract_lets s1 rec'
  have h1 : Kept W q s1 := h.at
  exact KeptOut.next (Kept.ite h1.upd.fset h1)

theorem kept_execPowerOnReset {vdd done landed decay} (h : Kept W q s) : KeptOut W q (execPowerOnReset vdd done landed decay s) :=
    by
  unfold execPowerOnReset
  extract_lets lost s1 marker rec' rec'2 rec'3 s2
  have h1 : Kept W q s1 := h.dropFwWrite.landWrites.foldl fun _ _ g => g.rawWrite
  have h2 : Kept W q s2 := h1.upd
  exact KeptOut.ite (KeptOut.next h) (KeptOut.next h2.cleared)

theorem kept_execCold {w both now} (h : Kept W q s) : KeptOut W q (execCold w both now s) := KeptOut.next h.at.ctlWrite

theorem kept_execFabric {w now} (h : Kept W q s) : KeptOut W q (execFabric w now s) := KeptOut.next h.at.ctlWrite

theorem Kept.loadKeys (h : Kept W q s) : Kept W q (s.loadKeys) := by
  unfold State.loadKeys
  extract_lets step r rec'
  exact h.upd.fset.showKeys

theorem Kept.scanJournal (h : Kept W q s) : Kept W q (s.scanJournal) := by
  unfold State.scanJournal
  grind only [← Kept.fset, ← Kept.upd, ← Kept.foldl, ← Kept.foldl₂, ← Kept.foldl₃]

theorem Kept.bootRead (h : Kept W q s) : Kept W q (s.bootRead) := by
  unfold State.bootRead
  extract_lets boot rec' rec'2 s1 s2
  have h1 : Kept W q s1 := h.upd
  have h2 : Kept W q s2 := h1.fset.scanJournal.loadKeys
  split
  · exact h2.fset
  · exact h2

theorem Kept.trainT2 {channels} (h : Kept W q s) : Kept W q (s.trainT2 channels) := by
  unfold State.trainT2
  extract_lets ok s1 rec' rec'2 rec'3 s2 s3
  have h1 : Kept W q s1 := h.fsets
  have h2 : Kept W q s2 := h1.upd
  have h3 : Kept W q s3 := Kept.ite h2 h2.chipEv
  exact h3.foldl fun _ _ g => g.decideRetire

theorem Kept.trainStacks {stks} (h : Kept W q s) : Kept W q (s.trainStacks stks) := h.foldl fun _ _ g => g.fsets

theorem Kept.findDrives {drives} (h : Kept W q s) : Kept W q (s.findDrives drives) :=
  h.foldl fun _ _ g => by
    extract_lets s1
    have h1 : Kept W q s1 := g.fsets
    exact h1.updFl

theorem Kept.bootSlot {sl} (h : Kept W q s) : Kept W q (s.bootSlot sl) := by
  unfold State.bootSlot
  extract_lets s1 used rec' s2 rec'2 s3 moves rec'3 s4
  have h1 : Kept W q s1 := h.rbit.rbit
  have h2 : Kept W q s2 := h1.upd
  have h3 : Kept W q s3 := h2.upd
  have h4 : Kept W q s4 := h3.upd
  exact Kept.ite h (Kept.ite h4.fset h2.upd)

theorem Kept.applyRecord {slots fails} (h : Kept W q s) : Kept W q (s.applyRecord slots fails) := by
  unfold State.applyRecord
  extract_lets rec' s1 old s2 s3 s4
  have h1 : Kept W q s1 := h.upd
  have h2 : Kept W q s2 := h1.foldl fun _ _ g => g.bootSlot
  have h3 : Kept W q s3 := h2.foldl fun _ _ g => by
    extract_lets k
    exact (Kept.ite g g.decideRetire).bootSlot
  have h4 : Kept W q s4 := h3.selfTest.retireUnits
  exact h4.foldl fun _ _ g => g.fset

theorem Kept.restoreSettings (h : Kept W q s) : Kept W q (s.restoreSettings) := by
  unfold State.restoreSettings
  extract_lets s1 rec' s2
  have h1 : Kept W q s1 := h.foldl fun _ _ g => by
    split
    · exact g.upd
    · exact g
  have h2 : Kept W q s2 := h1.upd
  exact (h2.foldl fun _ _ g => by
    extract_lets s3
    have h3 : Kept W q s3 := g.upd
    exact Kept.ite h3.fset g).degradeRanges

theorem Kept.startPorts (h : Kept W q s) : Kept W q (s.startPorts) := by
  unfold State.startPorts
  extract_lets routes s1 rec' rec'2 s2
  have h1 : Kept W q s1 := h.fset
  have h2 : Kept W q s2 := h1.upd
  exact (h2.foldl fun _ _ g => g.portCtrlAct).flashRuns

theorem kept_execBoot {links spokes stks channels slots fails drives now} (h : Kept W q s) : KeptOut W q (execBoot links spokes
    stks channels slots fails drives now s) := by
  unfold execBoot
  extract_lets s1 q' s2 s3 s4 dead s5
  have h1 : Kept W q s1 := h.at
  have h2 : Kept W q s2 := h1.bootRead.chooseSlot.showSelector.showSlots.runImage.trainT2
  have h3 : Kept W q s3 := h2.trainStacks.rawZero
  have h4 : Kept W q s4 := h3.fsets
  have h5 : Kept W q s5 := h4.restoreSettings.applyRecord.findDrives
  exact KeptOut.ite (KeptOut.next h1) (KeptOut.ite (KeptOut.next h3) (KeptOut.next h5.startPorts.enterRun))

theorem kept_execFwWrite {w now} (h : Kept W q s) : KeptOut W q (execFwWrite w now s) := KeptOut.next h.at.ctlWrite

theorem kept_execFwWriteEnd {bad now} (h : Kept W q s) : KeptOut W q (execFwWriteEnd bad now s) := by
  unfold execFwWriteEnd
  extract_lets s1
  have h1 : Kept W q s1 := h.at
  split
  · exact KeptOut.next h1
  · extract_lets s2 base wrong s3 rec' s4
    have h2 : Kept W q s2 := Kept.ite h1.programSlot h1
    have h3 : Kept W q s3 := h2.foldl fun _ _ g => g.flashWrite
    have h4 : Kept W q s4 := h3.upd.fset
    exact KeptOut.ite (KeptOut.next h1) (KeptOut.next h4.fwResult.showSlots)

theorem kept_execFwTry {w now} (h : Kept W q s) : KeptOut W q (execFwTry w now s) := KeptOut.next h.at.ctlWrite

theorem kept_execConfirm {w now} (h : Kept W q s) : KeptOut W q (execConfirm w now s) := KeptOut.next h.at.ctlWrite

theorem kept_execActivate {w now} (h : Kept W q s) : KeptOut W q (execActivate w now s) := KeptOut.next h.at.ctlWrite

theorem kept_execBurnSvn {w now} (h : Kept W q s) : KeptOut W q (execBurnSvn w now s) := KeptOut.next h.at.ctlWrite

theorem kept_execI3cTransaction {write wide off v now} (h : Kept W q s) : KeptOut W q (execI3cTransaction write wide off v now s)
    := by
  unfold execI3cTransaction
  extract_lets s1 len r s2
  have h1 : Kept W q s1 := h.at
  have h2 : Kept W q s2 := h1.regRead
  exact KeptOut.ite (KeptOut.next h1.regWrite) (KeptOut.next h2.upd)

theorem kept_execTapReset (h : Kept W q s) : KeptOut W q (execTapReset s) := KeptOut.next h.upd

theorem Kept.tapLoad {ir} (h : Kept W q s) : Kept W q (s.tapLoad ir) := h.upd

theorem Kept.tapBypass (h : Kept W q s) : Kept W q (s.tapBypass) := by
  unfold State.tapBypass
  extract_lets s1
  have h1 : Kept W q s1 := h.tapLoad
  exact h1.upd

theorem Kept.tapComply {ir act} (hact : ∀ s, Kept W q s → Kept W q (act s)) (h : Kept W q s) : Kept W q (s.tapComply ir act) :=
  Kept.ite (hact _ h.tapLoad) h.tapBypass

theorem Kept.tapScan {balls cells} (h : Kept W q s) : Kept W q (s.tapScan balls cells) := h.upd

theorem kept_execExtest {balls cells} (h : Kept W q s) : KeptOut W q (execExtest balls cells s) :=
  KeptOut.next (h.tapComply fun _ g => g.tapScan)

theorem kept_execIdcode (h : Kept W q s) : KeptOut W q (execIdcode s) := by
  unfold execIdcode
  extract_lets s1
  have h1 : Kept W q s1 := h.tapLoad
  exact KeptOut.next h1.upd

theorem kept_execSamplePreload {balls cells} (h : Kept W q s) : KeptOut W q (execSamplePreload balls cells s) :=
  KeptOut.next h.tapLoad.tapScan

theorem kept_execClamp (h : Kept W q s) : KeptOut W q (execClamp s) := KeptOut.next (h.tapComply fun _ g => g.upd)

theorem kept_execHighz (h : Kept W q s) : KeptOut W q (execHighz s) := KeptOut.next (h.tapComply fun _ g => g.upd)

theorem kept_execExtestPulse {balls cells} (h : Kept W q s) : KeptOut W q (execExtestPulse balls cells s) :=
  KeptOut.next (h.tapComply fun _ g => g.tapScan)

theorem kept_execExtestTrain {balls cells} (h : Kept W q s) : KeptOut W q (execExtestTrain balls cells s) :=
  KeptOut.next (h.tapComply fun _ g => g.tapScan)

theorem Kept.tapPrivate {ir act} (hact : ∀ s, Kept W q s → Kept W q (act s)) (h : Kept W q s) : Kept W q (s.tapPrivate ir act) := by
  unfold State.tapPrivate
  split
  · exact Kept.ite h.tapBypass (Kept.ite h.fsat.tapBypass (hact _ h.journal.tapLoad))
  · exact h.tapBypass

theorem Kept.tapPriv {v} (h : Kept W q s) : Kept W q (s.tapPriv v) := h.upd

theorem kept_execMbist {status now} (h : Kept W q s) : KeptOut W q (execMbist status now s) :=
  KeptOut.next (h.at.tapPrivate fun _ g => g.tapPriv)

theorem kept_execScan {chain now} (h : Kept W q s) : KeptOut W q (execScan chain now s) :=
  KeptOut.next (h.at.tapPrivate fun _ g => g.tapPriv)

theorem kept_execHbmWrap {wrapper now} (h : Kept W q s) : KeptOut W q (execHbmWrap wrapper now s) :=
  KeptOut.next (h.at.tapPrivate fun _ g => g.tapPriv)

theorem kept_execFuse {field prog now} (h : Kept W q s) : KeptOut W q (execFuse field prog now s) :=
  KeptOut.next (h.at.tapPrivate fun _ g => by
    extract_lets s1 v s2
    have h1 : Kept W q s1 := by
      unfold s1
      split
      · exact g.upd
      · exact g
    have h2 : Kept W q s2 := h1.tapPriv
    exact h2.upd)

theorem kept_execBypass (h : Kept W q s) : KeptOut W q (execBypass s) := KeptOut.next h.tapBypass

theorem kept_execDriveLinkDrop {d now} (h : Kept W q s) : KeptOut W q (execDriveLinkDrop d now s) := by
  unfold execDriveLinkDrop
  extract_lets s1 s2
  have h1 : Kept W q s1 := h.at
  have h2 : Kept W q s2 := h1.updFl
  exact KeptOut.ite (KeptOut.next h1) (KeptOut.next h2.fset)

theorem kept_execAlleyFrameCrcFail {a} (h : Kept W q s) : KeptOut W q (execAlleyFrameCrcFail a s) :=
  KeptOut.ite (KeptOut.next h.fsat) (KeptOut.next h)

theorem kept_execVectorSendable {v now} (h : Kept W q s) : KeptOut W q (execVectorSendable v now s) :=
  KeptOut.next h.at.sendPending

/-! ### Every command -/

/- `seal` and `unseal` are words of Lean, so the case split below cannot name these two constructors. -/

theorem kept_exec_seal {w t n now} (h : Kept W q s) : KeptOut W q (exec (.seal w t n now) s) := kept_execSeal h

theorem kept_exec_unseal {w t n now} (h : Kept W q s) : KeptOut W q (exec (.unseal w t n now) s) := kept_execUnseal h

theorem kept_exec (c : Instr) (h : Kept W q s) : KeptOut W q (exec c s) := by
  cases c with
  | regWrite => exact kept_execRegWrite h
  | ringTransfer => exact kept_execRingTransfer h
  | ringLinkRetire => exact kept_execRingLinkRetire h
  | districtUnreachable => exact kept_execDistrictUnreachable h
  | tickStart => exact kept_execTickStart h
  | switchEnd => exact kept_execSwitchEnd h
  | earlySwitchStart => exact kept_execEarlySwitchStart h
  | stepEntry => exact kept_execStepEntry h
  | eaveStart => exact kept_execEaveStart h
  | stepDeadline => exact kept_execStepDeadline h
  | suspendPoint => exact kept_execSuspendPoint h
  | tickCtrlWrite => exact kept_execTickCtrlWrite h
  | tickConfigWrite => exact kept_execTickConfigWrite h
  | alignConfigWrite => exact kept_execAlignConfigWrite h
  | timeExchangeSend => exact kept_execTimeExchangeSend h
  | timeExchangeVoid => exact kept_execTimeExchangeVoid h
  | tickInEdge => exact kept_execTickInEdge h
  | holdoverLost => exact kept_execHoldoverLost h
  | create => exact kept_execCreate h
  | destroy => exact kept_execDestroy h
  | urgent => exact kept_execUrgent h
  | tenCmdInvalidOp => exact kept_execTenCmdInvalidOp h
  | tenCmdComplete => exact kept_execTenCmdComplete h
  | teardown => exact kept_execTeardown h
  | swap => exact kept_execSwap h
  | alu => exact kept_execAlu h
  | addi => exact kept_execAddi h
  | andi => exact kept_execAndi h
  | ori => exact kept_execOri h
  | xori => exact kept_execXori h
  | slti => exact kept_execSlti h
  | sltiu => exact kept_execSltiu h
  | shifti => exact kept_execShifti h
  | lui => exact kept_execLui h
  | insk => exact kept_execInsk h
  | load => exact kept_execLoad h
  | store => exact kept_execStore h
  | amo => exact kept_execAmo h
  | coreAccessComplete => exact kept_execCoreAccessComplete h
  | branch => exact kept_execBranch h
  | jal => exact kept_execJal h
  | jalr => exact kept_execJalr h
  | syscall => exact kept_execSyscall h
  | sret => exact kept_execSret h
  | fence => exact kept_execFence h
  | wfi => exact kept_execWfi h
  | stepend => exact kept_execStepend h
  | brk => exact kept_execBrk h
  | csrr => exact kept_execCsrr h
  | csrw => exact kept_execCsrw h
  | csrx => exact kept_execCsrx h
  | cache => exact kept_execCache h
  | enq => exact kept_execEnq h
  | evrd => exact kept_execEvrd h
  | evadd => exact kept_execEvadd h
  | evwait => exact kept_execEvwait h
  | interruptTake => exact kept_execInterruptTake h
  | stepEnd => exact kept_execStepEnd h
  | commitFlip => exact kept_execCommitFlip h
  | nvmeFlush => exact kept_execNvmeFlush h
  | dispatchEntry => exact kept_execDispatchEntry h
  | inboxArrive => exact kept_execInboxArrive h
  | blockProgramStart => exact kept_execBlockProgramStart h
  | coreHaltReq => exact kept_execCoreHaltReq h
  | mm => exact kept_execMm h
  | passEnd => exact kept_execPassEnd h
  | vxArith => exact kept_execVxArith h
  | vxFunction => exact kept_execVxFunction h
  | vxCmp => exact kept_execVxCmp h
  | vxMov => exact kept_execVxMov h
  | rsum => exact kept_execRsum h
  | rmaxRmin => exact kept_execRmaxRmin h
  | rargmax => exact kept_execRargmax h
  | sort => exact kept_execSort h
  | vxLd => exact kept_execVxLd h
  | vxSt => exact kept_execVxSt h
  | bcast => exact kept_execBcast h
  | movs => exact kept_execMovs h
  | perm => exact kept_execPerm h
  | cvt => exact kept_execCvt h
  | mxq => exact kept_execMxq h
  | axpy => exact kept_execAxpy h
  | rand => exact kept_execRand h
  | dmGo => exact kept_execDmGo h
  | dmWait => exact kept_execDmWait h
  | dmStat => exact kept_execDmStat h
  | dmPart => exact kept_execDmPart h
  | dmRavail => exact kept_execDmRavail h
  | dmRwait => exact kept_execDmRwait h
  | dmRel => exact kept_execDmRel h
  | dmaCopy => exact kept_execDmaCopy h
  | dmaSkew => exact kept_execDmaSkew h
  | dmaGather => exact kept_execDmaGather h
  | dmaDispatch => exact kept_execDmaDispatch h
  | dmaFill => exact kept_execDmaFill h
  | dmaReadIssue => exact kept_execDmaReadIssue h
  | ringUnitWrite => exact kept_execRingUnitWrite h
  | dmaDescriptorComplete => exact kept_execDmaDescriptorComplete h
  | syPost => exact kept_execSyPost h
  | syPostf => exact kept_execSyPostf h
  | syWait => exact kept_execSyWait h
  | syRdc => exact kept_execSyRdc h
  | postArrive => exact kept_execPostArrive h
  | ctAlu => exact kept_execCtAlu h
  | ctAddi => exact kept_execCtAddi h
  | ctLi => exact kept_execCtLi h
  | ctLih => exact kept_execCtLih h
  | ctLd => exact kept_execCtLd h
  | ctSt => exact kept_execCtSt h
  | ctBranch => exact kept_execCtBranch h
  | ctJ => exact kept_execCtJ h
  | ctJr => exact kept_execCtJr h
  | ctEnd => exact kept_execCtEnd h
  | ctIret => exact kept_execCtIret h
  | ctSetv => exact kept_execCtSetv h
  | ctIen => exact kept_execCtIen h
  | ctIclr => exact kept_execCtIclr h
  | ctIe => exact kept_execCtIe h
  | ctTset => exact kept_execCtTset h
  | ctRds => exact kept_execCtRds h
  | blockTimerZero => exact kept_execBlockTimerZero h
  | localInterruptEntry => exact kept_execLocalInterruptEntry h
  | blkSoftInt => exact kept_execBlkSoftInt h
  | blkHaltReq => exact kept_execBlkHaltReq h
  | gaListFetch => exact kept_execGaListFetch h
  | gaPass => exact kept_execGaPass h
  | gaConvert => exact kept_execGaConvert h
  | gaNop => exact kept_execGaNop h
  | gaPassEnd => exact kept_execGaPassEnd h
  | gaConvertEnd => exact kept_execGaConvertEnd h
  | gaHaltReq => exact kept_execGaHaltReq h
  | route => exact kept_execRoute h
  | routeChunkSelect => exact kept_execRouteChunkSelect h
  | neuron => exact kept_execNeuron h
  | reGather => exact kept_execReGather h
  | gatherRowRead => exact kept_execGatherRowRead h
  | gatherPool => exact kept_execGatherPool h
  | reNop => exact kept_execReNop h
  | reJobComplete => exact kept_execReJobComplete h
  | expertEntryWrite => exact kept_execExpertEntryWrite h
  | bind => exact kept_execBind h
  | loadExpert => exact kept_execLoadExpert h
  | prefetch => exact kept_execPrefetch h
  | releaseKeep => exact kept_execReleaseKeep h
  | rmNop => exact kept_execRmNop h
  | demandEntry => exact kept_execDemandEntry h
  | fetchRequestIssue => exact kept_execFetchRequestIssue h
  | arrivalRaise => exact kept_execArrivalRaise h
  | t1Request => exact kept_execT1Request h
  | t2Request => exact kept_execT2Request h
  | idleScrub => exact kept_execIdleScrub h
  | hbmTempRead => exact kept_execHbmTempRead h
  | rowRepair => exact kept_execRowRepair h
  | slotMigrationEnd => exact kept_execSlotMigrationEnd h
  | t2RangeBaseWrite => exact kept_execT2RangeBaseWrite h
  | resyncEnd => exact kept_execResyncEnd h
  | powerFail => exact kept_execPowerFail h
  | t3Request => exact kept_execT3Request h
  | nvmeCompletion => exact kept_execNvmeCompletion h
  | nvmeTimeout => exact kept_execNvmeTimeout h
  | driveFailed => exact kept_execDriveFailed h
  | trim => exact kept_execTrim h
  | trimDone => exact kept_execTrimDone h
  | shaperIssue => exact kept_execShaperIssue h
  | shaperRefill => exact kept_execShaperRefill h
  | shpCfgWrite => exact kept_execShpCfgWrite h
  | shaperSample => exact kept_execShaperSample h
  | frameSend => exact kept_execFrameSend h
  | frameReceive => exact kept_execFrameReceive h
  | nakRepeat => exact kept_execNakRepeat h
  | portDown => exact kept_execPortDown h
  | portTrain => exact kept_execPortTrain h
  | retrain => exact kept_execRetrain h
  | retrainReq => exact kept_execRetrainReq h
  | widthReq => exact kept_execWidthReq h
  | widthAck => exact kept_execWidthAck h
  | laneNotGood => exact kept_execLaneNotGood h
  | portRetire => exact kept_execPortRetire h
  | version => exact kept_execVersion h
  | credit => exact kept_execCredit h
  | packetArrive => exact kept_execPacketArrive h
  | packetGrant => exact kept_execPacketGrant h
  | residenceTimeout => exact kept_execResidenceTimeout h
  | e2eRetry => exact kept_execE2eRetry h
  | recordExpiry => exact kept_execRecordExpiry h
  | epochCommit => exact kept_execEpochCommit h
  | srcEpochWrite => exact kept_execSrcEpochWrite h
  | routeTableWrite => exact kept_execRouteTableWrite h
  | epochLiveClear => exact kept_execEpochLiveClear h
  | transit => exact kept_execTransit h
  | read => exact kept_execRead h
  | write => exact kept_execWrite h
  | atomic => exact kept_execAtomic h
  | readData => exact kept_execReadData h
  | complete => exact kept_execComplete h
  | atomicData => exact kept_execAtomicData h
  | combineHoldEnd => exact kept_execCombineHoldEnd h
  | combineReply => exact kept_execCombineReply h
  | put => exact kept_execPut h
  | putEnd => exact kept_execPutEnd h
  | endAck => exact kept_execEndAck h
  | barrier => exact kept_execBarrier h
  | timeReq => exact kept_execTimeReq h
  | timeResp => exact kept_execTimeResp h
  | cmd => exact kept_execCmd h
  | cmdAck => exact kept_execCmdAck h
  | cmdRetry => exact kept_execCmdRetry h
  | stop => exact kept_execStop h
  | start => exact kept_execStart h
  | fenceCommand => exact kept_execFenceCommand h
  | shape => exact kept_execShape h
  | cmdTxGo => exact kept_execCmdTxGo h
  | pshpCfgWrite => exact kept_execPshpCfgWrite h
  | sshpCfgWrite => exact kept_execSshpCfgWrite h
  | alleyHello => exact kept_execAlleyHello h
  | alleyCmd => exact kept_execAlleyCmd h
  | alleyAck => exact kept_execAlleyAck h
  | alleyHelloSend => exact kept_execAlleyHelloSend h
  | alleyDown => exact kept_execAlleyDown h
  | lease => exact kept_execLease h
  | leaseAck => exact kept_execLeaseAck h
  | leaseSend => exact kept_execLeaseSend h
  | leaseTtlExpiry => exact kept_execLeaseTtlExpiry h
  | allToAll => exact kept_execAllToAll h
  | allGather => exact kept_execAllGather h
  | reduceScatter => exact kept_execReduceScatter h
  | allReduce => exact kept_execAllReduce h
  | broadcast => exact kept_execBroadcast h
  | collBarrier => exact kept_execCollBarrier h
  | reform => exact kept_execReform h
  | cancel => exact kept_execCancel h
  | collNop => exact kept_execCollNop h
  | streamResend => exact kept_execStreamResend h
  | collTimeout => exact kept_execCollTimeout h
  | collComplete => exact kept_execCollComplete h
  | faultLog => exact kept_execFaultLog h
  | retirementWindowEnd => exact kept_execRetirementWindowEnd h
  | ridgeForce => exact kept_execRidgeForce h
  | dfuForce => exact kept_execDfuForce h
  | blkForce => exact kept_execBlkForce h
  | graveForce => exact kept_execGraveForce h
  | retClear => exact kept_execRetClear h
  | dfuWdogKick => exact kept_execDfuWdogKick h
  | cccWdogKick => exact kept_execCccWdogKick h
  | dfuWdogExpiry => exact kept_execDfuWdogExpiry h
  | cccWdogExpiry => exact kept_execCccWdogExpiry h
  | termination => exact kept_execTermination h
  | release => exact kept_execRelease h
  | graveEvent => exact kept_execGraveEvent h
  | bar2Read => exact kept_execBar2Read h
  | bar2Write => exact kept_execBar2Write h
  | bar2XlatWrite => exact kept_execBar2XlatWrite h
  | endpointReset => exact kept_execEndpointReset h
  | busMasterEnable => exact kept_execBusMasterEnable h
  | resultRecordBuild => exact kept_execResultRecordBuild h
  | ringRecordWrite => exact kept_execRingRecordWrite h
  | resChCiWrite => exact kept_execResChCiWrite h
  | rpStatusRead => exact kept_execRpStatusRead h
  | resultAck => exact kept_execResultAck h
  | resChCfgWrite => exact kept_execResChCfgWrite h
  | coalTimeout => exact kept_execCoalTimeout h
  | claim => exact kept_execClaim h
  | intComplete => exact kept_execIntComplete h
  | soft => exact kept_execSoft h
  | srcCfgWrite => exact kept_execSrcCfgWrite h
  | msiXSend => exact kept_execMsiXSend h
  | sensedLineChange => exact kept_execSensedLineChange h
  | sealComplete => exact kept_execSealComplete h
  | roleGo => exact kept_execRoleGo h
  | roleVerify => exact kept_execRoleVerify h
  | roleDrop => exact kept_execRoleDrop h
  | challengeExpiry => exact kept_execChallengeExpiry h
  | sessionExpiry => exact kept_execSessionExpiry h
  | lockoutEnd => exact kept_execLockoutEnd h
  | keyGo => exact kept_execKeyGo h
  | keySectorWrite => exact kept_execKeySectorWrite h
  | journalCommit => exact kept_execJournalCommit h
  | audRead => exact kept_execAudRead h
  | railOutOfRange => exact kept_execRailOutOfRange h
  | t2PgLow => exact kept_execT2PgLow h
  | powerReading => exact kept_execPowerReading h
  | throttleStepUp => exact kept_execThrottleStepUp h
  | throttleStepDown => exact kept_execThrottleStepDown h
  | emergencyThrottle => exact kept_execEmergencyThrottle h
  | emergencyRelease => exact kept_execEmergencyRelease h
  | powerOnReset => exact kept_execPowerOnReset h
  | cold => exact kept_execCold h
  | fabric => exact kept_execFabric h
  | boot => exact kept_execBoot h
  | fwWrite => exact kept_execFwWrite h
  | fwWriteEnd => exact kept_execFwWriteEnd h
  | fwTry => exact kept_execFwTry h
  | confirm => exact kept_execConfirm h
  | activate => exact kept_execActivate h
  | burnSvn => exact kept_execBurnSvn h
  | i3cTransaction => exact kept_execI3cTransaction h
  | tapReset => exact kept_execTapReset h
  | extest => exact kept_execExtest h
  | idcode => exact kept_execIdcode h
  | samplePreload => exact kept_execSamplePreload h
  | clamp => exact kept_execClamp h
  | highz => exact kept_execHighz h
  | extestPulse => exact kept_execExtestPulse h
  | extestTrain => exact kept_execExtestTrain h
  | mbist => exact kept_execMbist h
  | scan => exact kept_execScan h
  | hbmWrap => exact kept_execHbmWrap h
  | fuse => exact kept_execFuse h
  | bypass => exact kept_execBypass h
  | driveLinkDrop => exact kept_execDriveLinkDrop h
  | alleyFrameCrcFail => exact kept_execAlleyFrameCrcFail h
  | vectorSendable => exact kept_execVectorSendable h
  | _ => simp only [kept_exec_seal h, kept_exec_unseal h]

/-- A step keeps the memories, and leaves the queue's rest. -/
theorem kept_step (h : W → Memory.wf s = true) (hstep : step s = .next t) : Kept W s.pending.tail t := by
  unfold step at hstep
  split at hstep
  next hq =>
    cases hstep
    exact ⟨h, by rw [hq]; rfl⟩
  next c rest hq =>
    have hrest : Kept W rest { s with pending := rest } := ⟨h, rfl⟩
    rw [hq]
    exact kept_exec c hrest t hstep

end KeptStates

/-- Settles O59: the queue's part of `kept_step`. -/
theorem everyStepTakesOneCommand : Obligations.EveryStepTakesOneCommand := fun _ _ hstep =>
  (kept_step (W := False) False.elim hstep).pending

/-- Settles O60: the memories' part of `kept_step`. -/
theorem everyStepKeepsMemoryCanonical : Obligations.EveryStepKeepsMemoryCanonical := fun _ _ hwf hstep =>
  (kept_step (fun _ : True => hwf) hstep).canonical trivial

end Sys2Proof.Machine
end
